-- ==== Sys2Proof/Word.lean ====
section
/-! DEFINITION. The word types of the model. Every operation on their bits stands in `Machine/Operands.lean`. -/

namespace Sys2Proof

/-- One byte of memory (R10). -/
abbrev Byte := BitVec 8

/-- A 32-bit word: a vector lane, an FP32 value, an instruction word (R68, R73). -/
abbrev W32 := BitVec 32

/-- A 64-bit word: a general register, a CSR, a BAR register (R68, R72). -/
abbrev Word := BitVec 64

end Sys2Proof
end

