-- ==== Sys2Proof/Syntax.lean ====
section
/-! DEFINITION. The commands of the block: one constructor of `Instr` for each row of the opcode table, with the
operands the row's rule names. Core instructions carry their word fields (Table 2-3); events carry what the world
brings with them (a transaction, a reading, a view). -/

namespace Sys2Proof

/-- The prefix word of a wide instruction (Table 2-5, R77). -/
structure Pfx where
  pmode : BitVec 2
  psel : BitVec 3
  ximm : BitVec 21
  deriving DecidableEq, Repr

/-- One instruction issued by a core: which core (COREID of Table 2-2), the prefix of a wide form, and the fields
of its word (Table 2-3). The major opcode is the constructor's. -/
structure IW where
  core : Nat
  pre : Option Pfx
  rd : BitVec 5
  rs1 : BitVec 5
  rs2 : BitVec 5
  fn : BitVec 11
  deriving DecidableEq, Repr

/-- How a host access reaches a register: BAR0 (`slot = none`) or the job view window of a slot (R18, R772), and
whether the request arrived inside a secure IDE stream (R770). -/
structure Via where
  slot : Option Nat
  ide : Bool
  deriving DecidableEq, Repr

/-- A fabric transaction: the header fields of Table 12-5 and its payload (R597). -/
structure Tx where
  op : Nat
  vc : Nat
  chan : Nat
  core : Nat
  hops : Nat
  dst : Nat
  src : Nat
  detour : Bool
  retx : Bool
  first : Bool
  last : Bool
  err : Bool
  status : Nat
  pspace : Bool
  offset : Nat
  queue : Nat
  lenM1 : Nat
  seq : Nat
  via : Nat
  rid : Nat
  crc : Nat
  job : Nat
  phase : Bool
  payload : List Byte
  deriving DecidableEq, Repr

/-- The key of a sequence space (R620): POST and QNOT use the space with `post = true`. -/
structure SpaceKey where
  job : Nat
  src : Nat
  core : Nat
  dst : Nat
  chan : Nat
  post : Bool
  deriving DecidableEq, Repr

/-- Counters of one VC and buffer class in a heartbeat control flit (R596). -/
structure HbEntry where
  vc : Nat
  cls : Nat
  c : Nat
  gs : Nat
  deriving DecidableEq, Repr

/-- A flit as it leaves the decoder (R569 to R571): its link word, its payload area, the number of byte errors the
codeword carried, and for a control flit the credit counters it brings (R596). -/
structure Flit where
  fseq : Nat
  ack : Nat
  kind : Nat
  cvc : Nat
  ccls : Nat
  ccnt : Nat
  crc : Nat
  errs : Nat
  area : List Byte
  hb : List HbEntry
  deriving DecidableEq, Repr

/-- What an ident flit says (R584, R782), and the fseq that the partner expects next (R583). -/
structure Ident where
  node : Nat
  port : Nat
  topo : Nat
  level : Nat
  fseq : Nat
  deriving DecidableEq, Repr

/-- What the lanes showed in training (R580): one bit for each lane. -/
structure TrainResult where
  failed : BitVec 8
  inverted : BitVec 8
  reversed : Bool
  deriving DecidableEq, Repr

/-- One 100 µs window, or one estimator update, of the five shares A0, A1, X, memory, other (R691, R697): measured
and estimated power and the leakage part of the estimate, in watts, for the module and for each share. -/
structure PowerReading where
  moduleMeas : Nat
  moduleEst : Nat
  meas : List Nat
  est : List Nat
  leak : List Nat
  deriving DecidableEq, Repr

/-- One sample of the input sense (R704): volts in tenths, amperes in tenths, and for each share whether its sense
reads in range. -/
structure SenseReading where
  decivolts : Int
  deciamps : Int
  shareOk : List Bool
  deriving DecidableEq, Repr

/-- The twin's digests for one entry (R666): identity, entry digest, unit digests, row digests and row bytes. -/
structure TwinMsg where
  ident : BitVec 64
  digest : BitVec 128
  units : List (BitVec 128)
  rows : List (List (BitVec 128))
  bytes : List (List (List Byte))
  deriving DecidableEq, Repr

/-- What the world brings to the end of a power-up step (R716): time in ms since input good, the channels that
trained, the pane rows that failed self-test on each engine (R313), the boot nonce drawn, and whether fuses and flash
could be read (R722). -/
structure BootResult where
  ms : Nat
  trained : BitVec 32
  badRows : List (Nat × BitVec 9)
  nonce : BitVec 256
  readable : Bool
  deriving DecidableEq, Repr

/-- An access through BAR4 (R774): aperture, offset, the bytes of a write or the length of a read, and whether it
arrived inside a secure IDE stream. -/
structure Bar4 where
  slot : Nat
  off : Nat
  write : Option (List Byte)
  len : Nat
  ide : Bool
  deriving DecidableEq, Repr

/-- The commands of the block. Each constructor is one row of the opcode table; its docstring gives the row's
mnemonic and rule. Constructors without operands stand last. -/
inductive Instr where
  /-- ADD (R83) -/
  | add (i : Bool) (w : IW)
  /-- SUB (R83) -/
  | sub (i : Bool) (w : IW)
  /-- AND (R83) -/
  | and (i : Bool) (w : IW)
  /-- OR (R83) -/
  | or (i : Bool) (w : IW)
  /-- XOR (R83) -/
  | xor (i : Bool) (w : IW)
  /-- SLL (R83) -/
  | sll (i : Bool) (w : IW)
  /-- SRL (R83) -/
  | srl (i : Bool) (w : IW)
  /-- SRA (R83) -/
  | sra (i : Bool) (w : IW)
  /-- MIN (R83) -/
  | min (i : Bool) (w : IW)
  /-- MAX (R83) -/
  | max (i : Bool) (w : IW)
  /-- MINU (R83) -/
  | minu (i : Bool) (w : IW)
  /-- MAXU (R83) -/
  | maxu (i : Bool) (w : IW)
  /-- MUL (R83) -/
  | mul (i : Bool) (w : IW)
  /-- MULH (R83) -/
  | mulh (i : Bool) (w : IW)
  /-- MULHU (R83) -/
  | mulhu (i : Bool) (w : IW)
  /-- DIV (R84) -/
  | div (i : Bool) (w : IW)
  /-- DIVU (R84) -/
  | divu (i : Bool) (w : IW)
  /-- REM (R84) -/
  | rem (i : Bool) (w : IW)
  /-- REMU (R84) -/
  | remu (i : Bool) (w : IW)
  /-- POPC (R83) -/
  | popc (i : Bool) (w : IW)
  /-- CLZ (R83) -/
  | clz (i : Bool) (w : IW)
  /-- CTZ (R83) -/
  | ctz (i : Bool) (w : IW)
  /-- LUH (R85) -/
  | luh (w : IW)
  /-- CMP (R86) -/
  | cmp (w : IW)
  /-- CMPI (R86) -/
  | cmpi (w : IW)
  /-- PAND (R87) -/
  | pand (w : IW)
  /-- POR (R87) -/
  | por (w : IW)
  /-- PXOR (R87) -/
  | pxor (w : IW)
  /-- PANDN (R87) -/
  | pandn (w : IW)
  /-- BP (R88) -/
  | bp (w : IW)
  /-- JAL (R89) -/
  | jal (w : IW)
  /-- JALR (R89) -/
  | jalr (w : IW)
  /-- LD (R91) -/
  | ld (w : IW)
  /-- ST (R91) -/
  | st (w : IW)
  /-- LDL (R94) -/
  | ldl (w : IW)
  /-- STL (R94) -/
  | stl (w : IW)
  /-- FENCE (R98) -/
  | fence (w : IW)
  /-- FENCE_D (R99) -/
  | fenceD (w : IW)
  /-- CSRR (R801) -/
  | csrr (w : IW)
  /-- CSRW (R801) -/
  | csrw (w : IW)
  /-- CSRS (R801) -/
  | csrs (w : IW)
  /-- CSRC (R801) -/
  | csrc (w : IW)
  /-- JCALL (R118) -/
  | jcall (w : IW)
  /-- JFRET (R124) -/
  | jfret (w : IW)
  /-- EBREAK (R744) -/
  | ebreak (w : IW)
  /-- WFI (R800) -/
  | wfi (w : IW)
  /-- MRET (R117) -/
  | mret (w : IW)
  /-- HALT (R800) -/
  | halt (w : IW)
  /-- SOPOST (R104) -/
  | sopost (w : IW)
  /-- SOWAIT (R107) -/
  | sowait (w : IW)
  /-- SOWAIT_END (R107) -/
  | sowaitEnd (c : Nat)
  /-- SORESET (R110) -/
  | soreset (w : IW)
  /-- ASYNC_UNIT_FAULT_TAKEN (R121) -/
  | asyncUnitFaultTaken (c : Nat)
  /-- DEBUG_HALT (R744) -/
  | debugHalt (c : Nat)
  /-- MANCHOR_PROPOSE (R373) -/
  | manchorPropose (w : IW)
  /-- MANCHOR_SET (R374) -/
  | manchorSet (w : IW)
  /-- MLOADW (R378) -/
  | mloadw (w : IW)
  /-- SHADOW_FILL_START (R304) -/
  | shadowFillStart (e : Nat)
  /-- SHADOW_FILL_DONE (R302) -/
  | shadowFillDone (e : Nat)
  /-- MSTREAM (R376) -/
  | mstream (w : IW)
  /-- PASS_START (R305) -/
  | passStart (e : Nat) (mismatch : Option Nat)
  /-- TILE_ALLOCATION_SERVED (R320) -/
  | tileAllocationServed (e : Nat)
  /-- MDRAIN (R312) -/
  | mdrain (w : IW)
  /-- DRAIN_COMMIT (R324) -/
  | drainCommit (e : Nat)
  /-- MTSTAT (R383) -/
  | mtstat (w : IW)
  /-- VADD (R384) -/
  | vadd (w : IW)
  /-- VSUB (R384) -/
  | vsub (w : IW)
  /-- VMUL (R384) -/
  | vmul (w : IW)
  /-- VMIN (R291) -/
  | vmin (w : IW)
  /-- VMAX (R291) -/
  | vmax (w : IW)
  /-- VDIV (R288) -/
  | vdiv (w : IW)
  /-- VSQRT (R288) -/
  | vsqrt (w : IW)
  /-- VEXP2 (R292) -/
  | vexp2 (w : IW)
  /-- VLOG2 (R292) -/
  | vlog2 (w : IW)
  /-- VRCP (R292) -/
  | vrcp (w : IW)
  /-- VRSQ (R292) -/
  | vrsq (w : IW)
  /-- VFMA (R384) -/
  | vfma (w : IW)
  /-- VFMS (R384) -/
  | vfms (w : IW)
  /-- VCMP (R384) -/
  | vcmp (w : IW)
  /-- VAND (R384) -/
  | vand (w : IW)
  /-- VOR (R384) -/
  | vor (w : IW)
  /-- VXOR (R384) -/
  | vxor (w : IW)
  /-- VIADD (R384) -/
  | viadd (w : IW)
  /-- VSEL (R384) -/
  | vsel (w : IW)
  /-- VSHL (R384) -/
  | vshl (w : IW)
  /-- VSHR (R384) -/
  | vshr (w : IW)
  /-- VCVT (R293) -/
  | vcvt (w : IW)
  /-- VLD (R384) -/
  | vld (w : IW)
  /-- VST (R384) -/
  | vst (w : IW)
  /-- VRED (R385) -/
  | vred (w : IW)
  /-- VBCAST (R384) -/
  | vbcast (w : IW)
  /-- VMOVG (R384) -/
  | vmovg (w : IW)
  /-- VSPENC_ENCODE (R389) -/
  | vspencEncode (w : IW)
  /-- VSPENC_MAP (R388) -/
  | vspencMap (w : IW)
  /-- RSCORE (R189) -/
  | rscore (w : IW)
  /-- BATCH_OPEN_RESUME (R181) -/
  | batchOpenResume (s : Nat)
  /-- BATCH_OPEN_EPOCH_TIMEOUT (R182) -/
  | batchOpenEpochTimeout (s : Nat)
  /-- RSELECT (R189) -/
  | rselect (w : IW)
  /-- ROUTE_CLOSE (R165) -/
  | routeClose (s rt : Nat)
  /-- ROUTE_CLOSE_COUNTS_TIMEOUT (R167) -/
  | routeCloseCountsTimeout (s rt : Nat)
  /-- RPACK_PACK (R393) -/
  | rpackPack (w : IW)
  /-- RPACK_ARRIVE (R394) -/
  | rpackArrive (w : IW)
  /-- MARVER_RESTAGE (R209) -/
  | marverRestage (c pool : Nat) (stage : Nat) (held : List Nat)
  /-- RCOMBINE (R187) -/
  | rcombine (w : IW)
  /-- RETURN_BIN_HANDOFF (R205) -/
  | returnBinHandoff (c : Nat) (bin : Nat)
  /-- RSTAT_READ_LEDGER (R396) -/
  | rstatReadLedger (w : IW)
  /-- RSTAT_CANCEL (R183) -/
  | rstatCancel (w : IW)
  /-- RSTAT_SUPPLY_COUNTS (R167) -/
  | rstatSupplyCounts (w : IW)
  /-- RSTAT_RELOAD (R143) -/
  | rstatReload (w : IW)
  /-- XSEND (R397) -/
  | xsend (w : IW)
  /-- XSEND_COMPLETE (R397) -/
  | xsendComplete (m : Nat)
  /-- XRECV_RECEIVE (R399) -/
  | xrecvReceive (w : IW)
  /-- XRECV_TIMEOUT (R400) -/
  | xrecvTimeout (c : Nat)
  /-- XRECV_BIND (R398) -/
  | xrecvBind (w : IW)
  /-- XTAG (R401) -/
  | xtag (w : IW)
  /-- CHUNK_RECEIPT_ARRIVAL (R243) -/
  | chunkReceiptArrival (m : Nat)
  /-- ABORT_MESSAGE_ARRIVAL (R231) -/
  | abortMessageArrival (c : Nat) (desc : Nat) (tag : BitVec 64) (sender : Nat)
  /-- BALLOC (R530) -/
  | balloc (w : IW)
  /-- BALLOC_WAITER_SERVED (R543) -/
  | ballocWaiterServed (p : Nat)
  /-- BSHARE (R532) -/
  | bshare (w : IW)
  /-- BDROP (R533) -/
  | bdrop (w : IW)
  /-- BFREE (R534) -/
  | bfree (w : IW)
  /-- QUEUE_RESERVATION (R542) -/
  | queueReservation (p : Nat)
  /-- TPREF (R496) -/
  | tpref (w : IW)
  /-- TSTREAM (R404) -/
  | tstream (w : IW)
  /-- PREFETCH_GOB_ARRIVAL (R330) -/
  | prefetchGobArrival (e i : Nat)
  /-- PREFETCH_REFILL (R329) -/
  | prefetchRefill (e i : Nat)
  /-- TPIN (R497) -/
  | tpin (w : IW)
  /-- LOOPN (R407) -/
  | loopn (w : IW)
  /-- PHINT (R411) -/
  | phint (w : IW)
  /-- PHINT_BOOST_START (R699) -/
  | phintBoostStart (u : Nat)
  /-- PHINT_BOOST_END (R699) -/
  | phintBoostEnd (u : Nat)
  /-- DIGEST_FOLD (R412) -/
  | digestFold (w : IW)
  /-- DIGEST_READ (R412) -/
  | digestRead (w : IW)
  /-- DIGEST_LEVEL (R412) -/
  | digestLevel (w : IW)
  /-- SUBMIT_LIST_TAKE (R435) -/
  | submitListTake (s q : Nat)
  /-- ENTRY_ENTER_WINDOW (R440) -/
  | entryEnterWindow (s q taken : Nat)
  /-- ENTRY_START (R414) -/
  | entryStart (s q taken pos : Nat)
  /-- AFFINITY_WAIT_EXPIRY (R452) -/
  | affinityWaitExpiry (s q taken pos : Nat)
  /-- ENTRY_SKIP (R415) -/
  | entrySkip (s q taken pos : Nat)
  /-- ENTRY_COMPLETE (R418) -/
  | entryComplete (c : Nat)
  /-- ENGINE_REASSIGN (R449) -/
  | engineReassign (e : Nat)
  /-- CADENCE_PERIOD_START (R458) -/
  | cadencePeriodStart (n : Nat)
  /-- CAD_CFG_ENABLE_SET (R463) -/
  | cadCfgEnableSet (v : Via) (n : Nat) (x : BitVec 64)
  /-- CAD_CFG_ENABLE_CLEAR (R463) -/
  | cadCfgEnableClear (v : Via) (n : Nat) (x : BitVec 64)
  /-- JOB_ADMIT_GO (R430) -/
  | jobAdmitGo (s : Nat)
  /-- JOB_ADMIT_STOP (R432) -/
  | jobAdmitStop (s : Nat)
  /-- RCTX_CANCEL_GO (R183) -/
  | rctxCancelGo (v : Via) (s epoch : Nat)
  /-- MOVE_COMPLETE (R490) -/
  | moveComplete (k : Nat)
  /-- WINDOW_WRITE (R492) -/
  | windowWrite (v : Via) (s : Nat) (x : BitVec 64)
  /-- REPLICA_READ_TIMEOUT (R514) -/
  | replicaReadTimeout (k : Nat)
  /-- REFETCH_FRAME_WAIT_TIMEOUT (R514) -/
  | refetchFrameWaitTimeout (k : Nat)
  /-- POOL_INIT (R528) -/
  | poolInit (p : Nat)
  /-- POOL_QUIESCE_WRITE (R545) -/
  | poolQuiesceWrite (p : Nat) (q : Bool)
  /-- POOL_QUIESCED (R545) -/
  | poolQuiesced (p : Nat)
  /-- SYN_POST (R551) -/
  | synPost (v : Via) (x : BitVec 64)
  /-- SYN_RESET (R551) -/
  | synReset (v : Via) (x : BitVec 64)
  /-- SYN_RANGE_WRITE (R548) -/
  | synRangeWrite (s : Nat) (x : BitVec 64)
  /-- PORT_TRAIN_START (R579) -/
  | portTrainStart (p : Nat)
  /-- PORT_TRAINING_DONE (R580) -/
  | portTrainingDone (p : Nat) (r : TrainResult)
  /-- PORT_TRAINING_TIMEOUT (R589) -/
  | portTrainingTimeout (p : Nat)
  /-- PORT_DOWN_RETRY (R589) -/
  | portDownRetry (p : Nat)
  /-- FAST_RETRAIN_START (R577) -/
  | fastRetrainStart (p : Nat)
  /-- FAST_RETRAIN_TIMEOUT (R581) -/
  | fastRetrainTimeout (p : Nat)
  /-- IDENT_FLIT_RECEIVE (R584) -/
  | identFlitReceive (p : Nat) (x : Ident)
  /-- FLIT_RECEIVE (R574) -/
  | flitReceive (p : Nat) (x : Flit)
  /-- NAK_RECEIVE (R575) -/
  | nakReceive (p fseq : Nat)
  /-- HEARTBEAT_SEND (R596) -/
  | heartbeatSend (p : Nat)
  /-- PORT_HOLD_EXPIRY (R618) -/
  | portHoldExpiry (p : Nat)
  /-- TRANSIT_FORWARD (R785) -/
  | transitForward (p : Nat) (x : Tx)
  /-- RDL_RECEIVE (R627) -/
  | rdlReceive (p : Nat) (x : Tx)
  /-- RDR_RECEIVE (R627) -/
  | rdrReceive (p : Nat) (x : Tx)
  /-- WRL_RECEIVE (R622) -/
  | wrlReceive (p : Nat) (x : Tx)
  /-- BLK_RECEIVE (R622) -/
  | blkReceive (p : Nat) (x : Tx)
  /-- MSG_RECEIVE (R612) -/
  | msgReceive (p : Nat) (x : Tx)
  /-- ACK_RECEIVE (R624) -/
  | ackReceive (p : Nat) (x : Tx)
  /-- POST_RECEIVE (R105) -/
  | postReceive (p : Nat) (x : Tx)
  /-- RTS_RECEIVE (R609) -/
  | rtsReceive (p : Nat) (x : Tx)
  /-- GRANT_SEND (R608) -/
  | grantSend (s q : Nat)
  /-- GRANT_RECEIVE (R608) -/
  | grantReceive (p : Nat) (x : Tx)
  /-- HINT_RECEIVE (R494) -/
  | hintReceive (p : Nat) (x : Tx)
  /-- QNOT_RECEIVE (R186) -/
  | qnotReceive (p : Nat) (x : Tx)
  /-- BUNDLE_RECEIVE (R633) -/
  | bundleReceive (p : Nat) (x : Tx)
  /-- DISC_RECEIVE (R588) -/
  | discReceive (p : Nat) (x : Tx)
  /-- LSN_RECEIVE (R809) -/
  | lsnReceive (p : Nat) (x : Tx)
  /-- RESERVED_OP_RECEIVE (R600) -/
  | reservedOpReceive (p : Nat) (x : Tx)
  /-- E2E_TIMER_EXPIRY (R625) -/
  | e2eTimerExpiry (k : SpaceKey)
  /-- E2E_WRITE_FAIL (R626) -/
  | e2eWriteFail (k : SpaceKey)
  /-- RDL_RESEND (R627) -/
  | rdlResend (rid : Nat)
  /-- RTS_BUSY_RESEND (R609) -/
  | rtsBusyResend (m : Nat)
  /-- GRANT_TIMEOUT (R611) -/
  | grantTimeout (m : Nat)
  /-- BUNDLE_CLOSE (R631) -/
  | bundleClose (p i : Nat)
  /-- PORT_CTRL_RETRAIN (R590) -/
  | portCtrlRetrain (p : Nat)
  /-- POWER_WINDOW_END (R690) -/
  | powerWindowEnd (r : PowerReading)
  /-- SENSE_SAMPLE (R704) -/
  | senseSample (r : SenseReading)
  /-- ESTIMATOR_UPDATE (R697) -/
  | estimatorUpdate (r : PowerReading)
  /-- THERMAL_SAMPLE (R706) -/
  | thermalSample (temps : List Int)
  /-- TWIN_DIGEST_COMPARE (R667) -/
  | twinDigestCompare (s : Nat) (d : TwinMsg)
  /-- TWIN_TIMEOUT (R669) -/
  | twinTimeout (s : Nat)
  /-- POWER_UP_STEP_END (R716) -/
  | powerUpStepEnd (r : BootResult)
  /-- INPUT_VOLTAGE_CHANGE (R752) -/
  | inputVoltageChange (dv : Int) (us : Nat)
  /-- INPUT_OVERCURRENT_TRIP (R753) -/
  | inputOvercurrentTrip (ma us : Nat)
  /-- BAR4_ACCESS (R774) -/
  | bar4Access (a : Bar4)
  /-- IDE_INTEGRITY_FAILURE (R771) -/
  | ideIntegrityFailure (bar off : Nat)
  /-- T3_REQUEST_FAILURE (R768) -/
  | t3RequestFailure (k : Nat)
  /-- HMB_SEND (R776) -/
  | hmbSend (v : Via) (s : Nat) (len : Nat)
  /-- HMB_ACK (R779) -/
  | hmbAck (v : Via) (s : Nat)
  /-- SEC_JRESET_GO (R728) -/
  | secJresetGo (s : Nat)
  /-- SEC_MEXT_GO (R740) -/
  | secMextGo (reg : Nat)
  /-- GET_VERSION (R741) -/
  | getVersion (req : List (BitVec 8))
  /-- GET_CAPABILITIES (R741) -/
  | getCapabilities (req : List (BitVec 8))
  /-- NEGOTIATE_ALGORITHMS (R741) -/
  | negotiateAlgorithms (req : List (BitVec 8))
  /-- GET_DIGESTS (R741) -/
  | getDigests (req : List (BitVec 8))
  /-- GET_CERTIFICATE (R741) -/
  | getCertificate (req : List (BitVec 8))
  /-- CHALLENGE (R742) -/
  | challenge (req : List (BitVec 8))
  /-- GET_MEASUREMENTS (R741) -/
  | getMeasurements (req : List (BitVec 8))
  /-- KEY_EXCHANGE (R741) -/
  | keyExchange (req : List (BitVec 8))
  /-- FINISH (R741) -/
  | finish (req : List (BitVec 8))
  /-- KEY_UPDATE (R741) -/
  | keyUpdate (req : List (BitVec 8))
  /-- HEARTBEAT (R741) -/
  | heartbeat (req : List (BitVec 8))
  /-- END_SESSION (R741) -/
  | endSession (req : List (BitVec 8))
  /-- CHUNK_GET (R741) -/
  | chunkGet (req : List (BitVec 8))
  /-- VENDOR_DEFINED_REQUEST (R741) -/
  | vendorDefinedRequest (req : List (BitVec 8))
  /-- MCTP_CONTROL_REQUEST (R766) -/
  | mctpControlRequest (q : Nat)
  /-- PLDM_SENSOR_READ (R766) -/
  | pldmSensorRead (id : Nat)
  /-- POWER_CAP_EFFECTER_WRITE (R767) -/
  | powerCapEffecterWrite (watts : Nat)
  /-- FRU_READ (R763) -/
  | fruRead (off len : Nat)
  /-- REGISTER_RC_READ (R14) -/
  | registerRcRead (v : Via) (off : Nat)
  /-- REGISTER_WRITE (R26) -/
  | registerWrite (v : Via) (off : Nat) (x : BitVec 64)
  /-- ILLEGAL_INSTRUCTION (R76) -/
  | illegalInstruction (c : Nat) (word : BitVec 32)
  /-- ROUTING_OPERATION_COMPLETE (R189) -/
  | routingOperationComplete (k : Nat)
  /-- VSPENC_COMPLETION (R361) -/
  | vspencCompletion (e : Nat)
  /-- MOVER_COPY_COMPLETE (R497) -/
  | moverCopyComplete (k : Nat)
  /-- T3_READ_COMPLETION (R93) -/
  | t3ReadCompletion (k : Nat) (data : List (BitVec 8))
  /-- PCIE_LINK_TRAINING_DONE (R720) -/
  | pcieLinkTrainingDone (speed width : Nat)
  /-- DYNAMIC_ADDRESS_ASSIGNMENT (R765) -/
  | dynamicAddressAssignment (addr : Nat)
  /-- MISWIRED_IDENT_SEND (R585) -/
  | miswiredIdentSend (p : Nat)
  /-- INPUT_CONTACT_OPEN (R761) -/
  | inputContactOpen (rtn : Bool) (mask : BitVec 8)
  /-- TIR_EDIT_WRITE_LEAF (R476) -/
  | tirEditWriteLeaf
  /-- TIR_EDIT_READ_LEAF (R475) -/
  | tirEditReadLeaf
  /-- TIR_EDIT_MOVE (R808) -/
  | tirEditMove
  /-- TIR_EDIT_INVALIDATE (R477) -/
  | tirEditInvalidate
  /-- MOVER_TAKE_WORK (R489) -/
  | moverTakeWork
  /-- PATROL_SCRUB (R508) -/
  | patrolScrub
  /-- SYNC_SWEEP (R557) -/
  | syncSweep
  /-- PACE_EPOCH_BOUNDARY (R676) -/
  | paceEpochBoundary
  /-- LOCAL_PROPOSAL (R687) -/
  | localProposal
  /-- PACE_UP_POST (R682) -/
  | paceUpPost
  /-- PACE_DOWN_POST (R682) -/
  | paceDownPost
  /-- PACE_DOWN_MISSING (R684) -/
  | paceDownMissing
  /-- AGEING_EVALUATION (R711) -/
  | ageingEvaluation
  /-- INPUT_GOOD (R716) -/
  | inputGood
  /-- INPUT_STAGE_RESTART (R753) -/
  | inputStageRestart
  /-- REFCLK_LOSS (R761) -/
  | refclkLoss
  /-- PERST_ASSERT (R724) -/
  | perstAssert
  /-- PERST_DEASSERT (R720) -/
  | perstDeassert
  /-- PCIE_CONFIG_REQUEST (R720) -/
  | pcieConfigRequest
  /-- FUNCTION_LEVEL_RESET (R768) -/
  | functionLevelReset
  /-- D3HOT_ENTRY (R769) -/
  | d3hotEntry
  /-- D0_RETURN (R769) -/
  | d0Return
  /-- SEC_CMD_TRANSITION (R732) -/
  | secCmdTransition
  /-- SEC_CMD_DEBUG_UNLOCK (R743) -/
  | secCmdDebugUnlock
  /-- SEC_CMD_DEBUG_LOCK (R743) -/
  | secCmdDebugLock
  /-- SEC_CMD_WRITE_IMAGE_CHUNK (R747) -/
  | secCmdWriteImageChunk
  /-- SEC_CMD_SELECT_SLOT (R747) -/
  | secCmdSelectSlot
  /-- SEC_CMD_COMMIT_SVN (R738) -/
  | secCmdCommitSvn
  /-- SEC_CMD_SAVE_SETTINGS (R747) -/
  | secCmdSaveSettings
  /-- SEC_CMD_RETIRE (R734) -/
  | secCmdRetire
  /-- SEC_RESET_GO (R724) -/
  | secResetGo
  /-- JOB_RESET_COMPLETE (R728) -/
  | jobResetComplete
  /-- GET_TID (R766) -/
  | getTid
  /-- GET_PLDM_VERSION (R766) -/
  | getPldmVersion
  /-- GET_PLDM_TYPES (R766) -/
  | getPldmTypes
  /-- GET_PLDM_COMMANDS (R766) -/
  | getPldmCommands
  deriving DecidableEq, Repr

end Sys2Proof
end

