-- ==== Sys2Proof/WellFormed.lean ====
section
/-! DEFINITION. Well-formed commands: numbers that the device has (41 cores, 32 engines, 16 slots, 8 ports, 1,024 pools,
32 cadences), and instruction words whose operation field names the constructor's row (Tables 2-4 to 2-6, 8-1, 8-6, 8-10,
8-13). Fields that a rule makes illegal are not ill-formed: the instruction raises its exception. -/

namespace Sys2Proof

/-- A core number (COREID, Table 2-2). -/
def coreOk (c : Nat) : Bool := decide (c ≤ 40)

/-- A view: BAR0, or the window of one of 16 slots. -/
def viaOk (v : Via) : Bool :=
  match v.slot with
  | none => true
  | some s => decide (s < 16)

/-- Bits [hi:lo] of a field of an instruction word. -/
def fieldOf (x hi lo : Nat) : Nat := (x >>> lo) % 2 ^ (hi + 1 - lo)

/-- The fn field names the operation. -/
def fnSel (w : IW) (hi lo v : Nat) : Bool := decide (fieldOf w.fn.toNat hi lo = v)

/-- The fn field does not name an operation that has a row of its own. -/
def fnNot (w : IW) (hi lo v : Nat) : Bool := decide (fieldOf w.fn.toNat hi lo ≠ v)

/-- The rs2 field names the operation. -/
def rs2Sel (w : IW) (hi lo v : Nat) : Bool := decide (fieldOf w.rs2.toNat hi lo = v)

/-- The ALU code of a word: fn[4:0] in the register form, rs2 in the immediate form (R83). -/
def aluSel (code : Nat) (i : Bool) (w : IW) : Bool :=
  coreOk w.core && decide ((if i then w.rs2.toNat else fieldOf w.fn.toNat 4 0) = code)

/-- A transaction whose fields lie in the widths of Table 12-5. -/
def txOk (x : Tx) : Bool :=
  decide (x.op < 32) && decide (x.vc < 8) && decide (x.chan < 16) && decide (x.core < 64) && decide (x.hops < 64)
    && decide (x.dst < 65536) && decide (x.src < 65536) && decide (x.status < 4) && decide (x.offset < 2 ^ 48)
    && decide (x.queue < 16) && decide (x.lenM1 < 4096) && decide (x.seq < 2 ^ 32) && decide (x.via < 65536)
    && decide (x.rid < 65536) && decide (x.crc < 2 ^ 32) && decide (x.job < 2 ^ 20)
    && decide (x.payload.length ≤ 4096)

/-- The operations that Table 12-6 reserves. -/
def reservedOp (op : Nat) : Bool :=
  decide (op = 0x0C) || decide (op = 0x0D) || decide (op = 0x0F) || decide (0x12 ≤ op)

/-- A command is well-formed. -/
def Instr.wf : Instr → Bool
  | .add i w => coreOk w.core && aluSel 0 i w
  | .sub i w => coreOk w.core && aluSel 1 i w
  | .and i w => coreOk w.core && aluSel 2 i w
  | .or i w => coreOk w.core && aluSel 3 i w
  | .xor i w => coreOk w.core && aluSel 4 i w
  | .sll i w => coreOk w.core && aluSel 5 i w
  | .srl i w => coreOk w.core && aluSel 6 i w
  | .sra i w => coreOk w.core && aluSel 7 i w
  | .min i w => coreOk w.core && aluSel 8 i w
  | .max i w => coreOk w.core && aluSel 9 i w
  | .minu i w => coreOk w.core && aluSel 10 i w
  | .maxu i w => coreOk w.core && aluSel 11 i w
  | .mul i w => coreOk w.core && aluSel 12 i w
  | .mulh i w => coreOk w.core && aluSel 13 i w
  | .mulhu i w => coreOk w.core && aluSel 14 i w
  | .div i w => coreOk w.core && aluSel 15 i w
  | .divu i w => coreOk w.core && aluSel 16 i w
  | .rem i w => coreOk w.core && aluSel 17 i w
  | .remu i w => coreOk w.core && aluSel 18 i w
  | .popc i w => coreOk w.core && aluSel 19 i w
  | .clz i w => coreOk w.core && aluSel 20 i w
  | .ctz i w => coreOk w.core && aluSel 21 i w
  | .luh w => coreOk w.core
  | .cmp w => coreOk w.core
  | .cmpi w => coreOk w.core
  | .pand w => coreOk w.core && fnSel w 1 0 0
  | .por w => coreOk w.core && fnSel w 1 0 1
  | .pxor w => coreOk w.core && fnSel w 1 0 2
  | .pandn w => coreOk w.core && fnSel w 1 0 3
  | .bp w => coreOk w.core
  | .jal w => coreOk w.core
  | .jalr w => coreOk w.core
  | .ld w => coreOk w.core
  | .st w => coreOk w.core
  | .ldl w => coreOk w.core
  | .stl w => coreOk w.core
  | .fence w => coreOk w.core && fnNot w 10 0 1
  | .fenceD w => coreOk w.core && fnSel w 10 0 1
  | .csrr w => coreOk w.core && rs2Sel w 2 1 0
  | .csrw w => coreOk w.core && rs2Sel w 2 1 1
  | .csrs w => coreOk w.core && rs2Sel w 2 1 2
  | .csrc w => coreOk w.core && rs2Sel w 2 1 3
  | .jcall w => coreOk w.core && fnSel w 2 0 0
  | .jfret w => coreOk w.core && fnSel w 2 0 1
  | .ebreak w => coreOk w.core && fnSel w 2 0 2
  | .wfi w => coreOk w.core && fnSel w 2 0 3
  | .mret w => coreOk w.core && fnSel w 2 0 4
  | .halt w => coreOk w.core && fnSel w 2 0 5
  | .sopost w => coreOk w.core && fnSel w 1 0 0
  | .sowait w => coreOk w.core && fnSel w 1 0 1
  | .sowaitEnd c => decide (c < 41)
  | .soreset w => coreOk w.core && fnSel w 1 0 2
  | .asyncUnitFaultTaken c => decide (c < 41)
  | .debugHalt c => decide (c < 41)
  | .manchorPropose w => coreOk w.core && fnSel w 0 0 0
  | .manchorSet w => coreOk w.core && fnSel w 0 0 1
  | .mloadw w => coreOk w.core
  | .shadowFillStart e => decide (e < 32)
  | .shadowFillDone e => decide (e < 32)
  | .mstream w => coreOk w.core
  | .passStart e _ => decide (e < 32)
  | .tileAllocationServed e => decide (e < 32)
  | .mdrain w => coreOk w.core && fnSel w 0 0 0
  | .drainCommit e => decide (e < 32)
  | .mtstat w => coreOk w.core && fnSel w 0 0 1
  | .vadd w => coreOk w.core && fnSel w 3 0 0
  | .vsub w => coreOk w.core && fnSel w 3 0 1
  | .vmul w => coreOk w.core && fnSel w 3 0 2
  | .vmin w => coreOk w.core && fnSel w 3 0 3
  | .vmax w => coreOk w.core && fnSel w 3 0 4
  | .vdiv w => coreOk w.core && fnSel w 3 0 5
  | .vsqrt w => coreOk w.core && fnSel w 3 0 6
  | .vexp2 w => coreOk w.core && fnSel w 3 0 7
  | .vlog2 w => coreOk w.core && fnSel w 3 0 8
  | .vrcp w => coreOk w.core && fnSel w 3 0 9
  | .vrsq w => coreOk w.core && fnSel w 3 0 10
  | .vfma w => coreOk w.core && fnSel w 0 0 0
  | .vfms w => coreOk w.core && fnSel w 0 0 1
  | .vcmp w => coreOk w.core
  | .vand w => coreOk w.core && fnSel w 2 0 0
  | .vor w => coreOk w.core && fnSel w 2 0 1
  | .vxor w => coreOk w.core && fnSel w 2 0 2
  | .viadd w => coreOk w.core && fnSel w 2 0 3
  | .vsel w => coreOk w.core && fnSel w 2 0 4
  | .vshl w => coreOk w.core && fnSel w 2 0 5
  | .vshr w => coreOk w.core && fnSel w 2 0 6
  | .vcvt w => coreOk w.core
  | .vld w => coreOk w.core && fnSel w 0 0 0
  | .vst w => coreOk w.core && fnSel w 0 0 1
  | .vred w => coreOk w.core && fnSel w 1 0 0
  | .vbcast w => coreOk w.core && fnSel w 1 0 1
  | .vmovg w => coreOk w.core && fnSel w 1 0 2
  | .vspencEncode w => coreOk w.core && fnSel w 1 0 0
  | .vspencMap w => coreOk w.core && fnSel w 1 0 1
  | .rscore w => coreOk w.core && fnSel w 0 0 0
  | .batchOpenResume s => decide (s < 16)
  | .batchOpenEpochTimeout s => decide (s < 16)
  | .rselect w => coreOk w.core && fnSel w 0 0 1
  | .routeClose s rt => decide (s < 16) && decide (rt < 256)
  | .routeCloseCountsTimeout s rt => decide (s < 16) && decide (rt < 256)
  | .rpackPack w => coreOk w.core && fnSel w 2 0 0
  | .rpackArrive w => coreOk w.core && fnSel w 2 0 4
  | .marverRestage c pool stage _ => decide (c < 41) && decide (pool < 1024) && decide (stage < 4)
  | .rcombine w => coreOk w.core && fnSel w 1 0 1
  | .returnBinHandoff c _ => decide (c < 41)
  | .rstatReadLedger w => coreOk w.core && fnSel w 1 0 2 && fnSel w 5 3 0
  | .rstatCancel w => coreOk w.core && fnSel w 1 0 2 && fnSel w 5 3 1
  | .rstatSupplyCounts w => coreOk w.core && fnSel w 1 0 2 && fnSel w 5 3 2
  | .rstatReload w => coreOk w.core && fnSel w 1 0 2 && fnSel w 5 3 3
  | .xsend w => coreOk w.core && fnSel w 1 0 0
  | .xsendComplete _ => true
  | .xrecvReceive w => coreOk w.core && fnSel w 1 0 1
  | .xrecvTimeout c => decide (c < 41)
  | .xrecvBind w => coreOk w.core && fnSel w 1 0 2
  | .xtag w => coreOk w.core
  | .chunkReceiptArrival _ => true
  | .abortMessageArrival c _ _ _ => decide (c < 41)
  | .balloc w => coreOk w.core && fnSel w 1 0 0
  | .ballocWaiterServed p => decide (p < 1024)
  | .bshare w => coreOk w.core && fnSel w 1 0 1
  | .bdrop w => coreOk w.core && fnSel w 1 0 2
  | .bfree w => coreOk w.core && fnSel w 1 0 3
  | .queueReservation p => decide (p < 1024)
  | .tpref w => coreOk w.core && fnSel w 1 0 0
  | .tstream w => coreOk w.core && fnSel w 1 0 1
  | .prefetchGobArrival e i => decide (e < 32) && decide (i < 8)
  | .prefetchRefill e i => decide (e < 32) && decide (i < 8)
  | .tpin w => coreOk w.core && fnSel w 1 0 2
  | .loopn w => coreOk w.core
  | .phint w => coreOk w.core
  | .phintBoostStart u => decide (u < 5)
  | .phintBoostEnd u => decide (u < 5)
  | .digestFold w => coreOk w.core && fnSel w 1 0 0
  | .digestRead w => coreOk w.core && fnSel w 1 0 1
  | .digestLevel w => coreOk w.core && fnSel w 1 0 2
  | .submitListTake s q => decide (s < 16) && decide (q < 4)
  | .entryEnterWindow s q _ => decide (s < 16) && decide (q < 4)
  | .entryStart s q _ _ => decide (s < 16) && decide (q < 4)
  | .affinityWaitExpiry s q _ _ => decide (s < 16) && decide (q < 4)
  | .entrySkip s q _ _ => decide (s < 16) && decide (q < 4)
  | .entryComplete c => decide (c < 41)
  | .engineReassign e => decide (e < 32)
  | .cadencePeriodStart n => decide (n < 32)
  | .cadCfgEnableSet v n _ => viaOk v && decide (n < 32)
  | .cadCfgEnableClear v n _ => viaOk v && decide (n < 32)
  | .jobAdmitGo s => decide (s < 16)
  | .jobAdmitStop s => decide (s < 16)
  | .rctxCancelGo v s _ => viaOk v && decide (s < 16)
  | .tirEditWriteLeaf => true
  | .tirEditReadLeaf => true
  | .tirEditMove => true
  | .tirEditInvalidate => true
  | .moverTakeWork => true
  | .moveComplete _ => true
  | .windowWrite v s _ => viaOk v && decide (s < 16)
  | .replicaReadTimeout _ => true
  | .refetchFrameWaitTimeout _ => true
  | .patrolScrub => true
  | .poolInit p => decide (p < 1024)
  | .poolQuiesceWrite p _ => decide (p < 1024)
  | .poolQuiesced p => decide (p < 1024)
  | .synPost v _ => viaOk v
  | .synReset v _ => viaOk v
  | .synRangeWrite s _ => decide (s < 16)
  | .syncSweep => true
  | .portTrainStart p => decide (p < 8)
  | .portTrainingDone p _ => decide (p < 8)
  | .portTrainingTimeout p => decide (p < 8)
  | .portDownRetry p => decide (p < 8)
  | .fastRetrainStart p => decide (p < 8)
  | .fastRetrainTimeout p => decide (p < 8)
  | .identFlitReceive p _ => decide (p < 8)
  | .flitReceive p _ => decide (p < 8)
  | .nakReceive p _ => decide (p < 8)
  | .heartbeatSend p => decide (p < 8)
  | .portHoldExpiry p => decide (p < 8)
  | .transitForward p x => decide (p < 8) && txOk x
  | .rdlReceive p x => decide (p < 8) && txOk x && decide (x.op = 1)
  | .rdrReceive p x => decide (p < 8) && txOk x && decide (x.op = 2)
  | .wrlReceive p x => decide (p < 8) && txOk x && decide (x.op = 3)
  | .blkReceive p x => decide (p < 8) && txOk x && decide (x.op = 4)
  | .msgReceive p x => decide (p < 8) && txOk x && decide (x.op = 5)
  | .ackReceive p x => decide (p < 8) && txOk x && decide (x.op = 6)
  | .postReceive p x => decide (p < 8) && txOk x && decide (x.op = 7)
  | .rtsReceive p x => decide (p < 8) && txOk x && decide (x.op = 8)
  | .grantSend s q => decide (s < 16) && decide (q < 16)
  | .grantReceive p x => decide (p < 8) && txOk x && decide (x.op = 9)
  | .hintReceive p x => decide (p < 8) && txOk x && decide (x.op = 10)
  | .qnotReceive p x => decide (p < 8) && txOk x && decide (x.op = 11)
  | .bundleReceive p x => decide (p < 8) && txOk x && decide (x.op = 14)
  | .discReceive p x => decide (p < 8) && txOk x && decide (x.op = 16)
  | .lsnReceive p x => decide (p < 8) && txOk x && decide (x.op = 17)
  | .reservedOpReceive p x => decide (p < 8) && txOk x && reservedOp x.op
  | .e2eTimerExpiry _ => true
  | .e2eWriteFail _ => true
  | .rdlResend _ => true
  | .rtsBusyResend _ => true
  | .grantTimeout _ => true
  | .bundleClose p _ => decide (p < 8)
  | .portCtrlRetrain p => decide (p < 8)
  | .paceEpochBoundary => true
  | .localProposal => true
  | .paceUpPost => true
  | .paceDownPost => true
  | .paceDownMissing => true
  | .powerWindowEnd _ => true
  | .senseSample _ => true
  | .estimatorUpdate _ => true
  | .thermalSample _ => true
  | .ageingEvaluation => true
  | .twinDigestCompare s _ => decide (s < 16)
  | .twinTimeout s => decide (s < 16)
  | .inputGood => true
  | .powerUpStepEnd _ => true
  | .inputVoltageChange _ _ => true
  | .inputOvercurrentTrip _ _ => true
  | .inputStageRestart => true
  | .refclkLoss => true
  | .perstAssert => true
  | .perstDeassert => true
  | .pcieConfigRequest => true
  | .functionLevelReset => true
  | .d3hotEntry => true
  | .d0Return => true
  | .bar4Access a => decide (a.slot < 16) && decide (a.off < 2 ^ 30) && decide (a.len ≤ 4096)
    && decide ((a.write.getD []).length ≤ 4096)
  | .ideIntegrityFailure _ _ => true
  | .t3RequestFailure _ => true
  | .hmbSend v s _ => viaOk v && decide (s < 16)
  | .hmbAck v s => viaOk v && decide (s < 16)
  | .secCmdTransition => true
  | .secCmdDebugUnlock => true
  | .secCmdDebugLock => true
  | .secCmdWriteImageChunk => true
  | .secCmdSelectSlot => true
  | .secCmdCommitSvn => true
  | .secCmdSaveSettings => true
  | .secCmdRetire => true
  | .secResetGo => true
  | .secJresetGo s => decide (s < 16)
  | .jobResetComplete => true
  | .secMextGo reg => decide (reg < 16)
  | .getVersion _ => true
  | .getCapabilities _ => true
  | .negotiateAlgorithms _ => true
  | .getDigests _ => true
  | .getCertificate _ => true
  | .challenge _ => true
  | .getMeasurements _ => true
  | .keyExchange _ => true
  | .finish _ => true
  | .keyUpdate _ => true
  | .heartbeat _ => true
  | .endSession _ => true
  | .chunkGet _ => true
  | .vendorDefinedRequest _ => true
  | .mctpControlRequest _ => true
  | .getTid => true
  | .getPldmVersion => true
  | .getPldmTypes => true
  | .getPldmCommands => true
  | .pldmSensorRead id => decide (id < 17)
  | .powerCapEffecterWrite _ => true
  | .fruRead _ _ => true
  | .registerRcRead v _ => viaOk v
  | .registerWrite v _ _ => viaOk v
  | .illegalInstruction c _ => decide (c < 41)
  | .routingOperationComplete _ => true
  | .vspencCompletion e => decide (e < 32)
  | .moverCopyComplete _ => true
  | .t3ReadCompletion _ _ => true
  | .pcieLinkTrainingDone _ _ => true
  | .dynamicAddressAssignment _ => true
  | .miswiredIdentSend p => decide (p < 8)
  | .inputContactOpen _ _ => true

end Sys2Proof
end

