-- ==== Sys2Proof/Config.lean ====
section
/-! DEFINITION. What the spec leaves open: uninterpreted constants (free values), no body, so that nothing can
evaluate them. Each is named in a row of the assumption log. -/

namespace Sys2Proof.Config

/-- VEXP2 on a non-NaN operand: within 2 ulp, bits not stated (R292). Log 30. -/
opaque vexp2 : BitVec 32 → BitVec 32

/-- VLOG2 on a non-NaN operand: within 2 ulp, bits not stated (R292). Log 30. -/
opaque vlog2 : BitVec 32 → BitVec 32

/-- VRCP on a non-NaN operand: within 2 ulp, bits not stated (R292). Log 30. -/
opaque vrcp : BitVec 32 → BitVec 32

/-- VRSQ on a non-NaN operand: within 2 ulp, bits not stated (R292). Log 30. -/
opaque vrsq : BitVec 32 → BitVec 32

/-- The flags invalid, divideByZero, overflow, underflow and inexact that VEXP2 (0), VLOG2 (1), VRCP (2) and VRSQ (3) raise
on a non-NaN operand: the results are not correctly rounded, and R292 names no flags. Log 30. -/
opaque approxFlags : Nat → BitVec 32 → BitVec 5

/-- Whether a VCVT that is not exact raises inexact: R290 and R293 do not say it of conversions. Log 55. -/
opaque convertRaises : Bool

/-- Byte i of the codebook by which a drain writes CB4: Table 8-4 allows the format and names no codebook. Log 126. -/
opaque drainBook : Nat → BitVec 8

/-- Byte i of the codebook by which an encode reads CB4 weights: Table 8-7 allows the format and names no codebook. Log 57. -/
opaque encodeBook : Nat → BitVec 8

/-- Free value number n: cycle counts and other values that the spec does not give (logs 31, 54). -/
opaque freeWord : Nat → BitVec 64

/-- Whether a result counts as tiny after rounding (IEEE 754-2019 leaves the choice; R290 names none). Log 31. -/
opaque tinyAfterRounding : Bool

/-- The address the Creben firmware writes into XVEC (R802: not documented). Log 32. -/
opaque xvec : BitVec 64

/-- Falcon-1024 verification: public key, message, signature (R735, R737). Log 33. -/
opaque falconVerify : List (BitVec 8) → List (BitVec 8) → List (BitVec 8) → Bool

/-- The Falcon-1024 private key generated from SHAKE256 over the argument (R739). Log 33. -/
opaque falconKey : List (BitVec 8) → List (BitVec 8)

/-- The Falcon-1024 signature of a private key over a message (R739, R742). Log 33. -/
opaque falconSign : List (BitVec 8) → List (BitVec 8) → List (BitVec 8)

/-- The Falcon-1024 public key of a private key (R739). Log 33. -/
opaque falconPublic : List (BitVec 8) → List (BitVec 8)

/-- The body of an SPDM answer that DMTF SPDM 1.3 and not this spec lays out: request code, request bytes, and the
number of the answer (R741). Log 34. -/
opaque spdmBody : Nat → List (BitVec 8) → Nat → List (BitVec 8)

/-- The body of an MCTP or PLDM answer that DMTF and not this spec lays out: command, operand (R766). Log 34. -/
opaque mctpBody : Nat → Nat → List (BitVec 8)

/-- The UDS that the root core fuses at the transition to PROVISIONED (Table 15-5). Log 33. -/
opaque udsFused : List (BitVec 8)

/-- The public key of a Creben key slot, by which tokens verify (R735: the token does not carry it). Log 33. -/
opaque crebenKey : Nat → List (BitVec 8)

/-- The histogram of junction temperature in the wear journal with one more reading in 0.1 °C (R713: its form is not
stated). Log 40. -/
opaque histogram : List Nat → Int → List Nat

/-- The digest of a firmware image part loaded in step 6: control-core, engine-core, Lehr (R740). Log 33. -/
opaque firmwareDigest : Nat → List (BitVec 8)

/-- The version of the boot ROM, measured into MREG0 (Table 15-8). Log 33. -/
opaque romVersion : List (BitVec 8)

/-- The bytes by which the fuse state is measured: life cycle, revocations, min_svn (Table 15-8). Log 33. -/
opaque fuseBytes : Nat → Nat → Nat → List (BitVec 8)

/-- The bytes by which MREG5 is extended: life cycle, debug state, scope, FAB_NODE, FAB_TOPO (Table 15-8). Log 33. -/
opaque stateBytes : Nat → Nat → Nat → Nat → Nat → List (BitVec 8)

/-- The IDE streams secure after an IDE key-management request, as HST_STATUS bits [14:10] show them: the bits before, the
request (R741, R771: the streams follow PCI Express 7.0). Log 34. -/
opaque ideStreams : Nat → List (BitVec 8) → Nat

/-- The digest of an IDE stream configuration (Table 15-8). Log 34. -/
opaque ideDigest : List (BitVec 8) → List (BitVec 8)

/-- Byte i of the FRU EEPROM of a part (R763, R764: IPMI FRU format, not laid out here). Log 39. -/
opaque fruByte : Nat → Nat → BitVec 8

/-- The smallest slack in ps and the monitor that shows it, of die d at divider D in epoch n (R710). Log 35. -/
opaque slack : Nat → Nat → Nat → Nat × Nat

/-- The gating g that Lehr sets for share h of a window, from the measured power and the share's limit, where R693
names the means and the bound and not the value. Log 36. -/
opaque gate : Nat → Nat → Nat → Nat

/-- The read identifier of the n-th line read that the device sends (Table 12-5: the sender's choice). Log 37. -/
opaque rid : Nat → BitVec 16

/-- Whether a current, in tenths of an ampere, lies in the range of the input current sensor (R704: the range is not stated).
Log 65. -/
opaque senseCurrentOk : Int → Bool

/-- The 16 parity bytes of the 256 bytes of a flit (R570 names a code that does not exist and no generator). Log 148. -/
opaque fecParity : List (BitVec 8) → List (BitVec 8)

/-- The payload of a discovery reply (R588: its contents are not stated), by its status, 0 starting and 1 ready
(Table 15-2). Log 64. -/
opaque discBody : Nat → List (BitVec 8)

/-- Addresses at which a job's program image holds the shipped collective and exchange programs (the spec does not place them);
by a number of the admission. Log 129. -/
opaque ringsAt : Nat → Nat × Nat

/-- The receive sync object that a job's program has named for a receive queue, by job identifier and queue (R242 gives no operation
that names one). Log 97. -/
opaque recvObj : Nat → Nat → Option Nat

/-- The receive queue in which the shipped collective program takes chunks (0) and notes (1) of the collective with a sequence
number. Log 129. -/
opaque xchQueue : Nat → Nat → Nat

/-- What the set-up of a group names of the landing zone of a receiver for a sender, by job, receiver, sender, and chunks (0) or
notes (1): window, log2 of a slot's bytes, the receiver's object, the sender's credit object (R795 leaves it to the set-up).
Log 130. -/
opaque landing : Nat → Nat → Nat → Nat → Nat × Nat × Nat × Nat

/-- The number by which the firmware knows the job-stop service of JCALL (R207 gives none). Log 131. -/
opaque jobStopCall : BitVec 64

/-- The integer to which a NaN converts at a fixed reduction anchor (R235 states none). Log 132. -/
opaque nanInteger : Nat → Int

end Sys2Proof.Config
end

