-- ==== Sys2Proof/Machine/State.lean ====
section
/-! DEFINITION. The state of the block as plain data: every register, queue, buffer, counter and mode the spec names.
Registers of the BARs are held by their BAR0 offset in one sparse map (`Dev.regs`), so that a register has one home;
`Dev.force` holds, for fields of class S, the value in force (R23, R25). A sparse map is a list of pairs with strictly
rising keys that lists no entry equal to what an unlisted key reads as. -/

namespace Sys2Proof.Machine

/-- A sparse map from numbers. Its operations stand in `Machine/Sparse.lean`. -/
abbrev Tab (α : Type) := List (Nat × α)

/-! ### Cores (Table 2-1) -/

/-- One level of the loop stack (R407): first and last address of the body, iterations left. -/
structure LoopLevel where
  first : Nat
  last : Nat
  count : Nat
  deriving DecidableEq, Repr

/-- A fault as a unit raises it: code, JFINFO operand, the unit counts and detail words of its record (R643, R644). -/
structure FaultInfo where
  code : Nat
  info : Word
  source : Nat
  ukind : Nat
  units : Nat
  flight : Nat
  entry : Nat
  d0 : Word
  d1 : Word
  d2 : Word
  deriving DecidableEq, Repr

/-- What a release waits for (R132): in each space, every transaction below an index. -/
abbrev Gate := List (SpaceKey × Nat)

/-- A post to an object of this device that a release holds back until earlier writes are acknowledged (R132). -/
structure HeldPost where
  name : Word
  count : Nat
  err : Bool
  gate : Gate
  deriving DecidableEq, Repr

/-- Why a core stalls, with what completes the instruction in hand. -/
inductive Wait where
  /-- LD whose gob stands in T2 or T3, or is under repair (R93, R513): destination, bytes, sign, slot, address. -/
  | load (rd size : Nat) (sx : Bool) (slot va : Nat)
  /-- VLD likewise. -/
  | vload (vd slot va : Nat)
  /-- ST that waits for a move or a repair (R487, R804). -/
  | store (size : Nat) (slot va : Nat) (val : Word)
  /-- VST likewise. -/
  | vstore (vs slot va : Nat)
  /-- STL whose source line is not at hand: channel, release, global address, slot, address. -/
  | stl (chan : Nat) (rl : Bool) (ga slot va : Nat)
  /-- An instruction whose operand is under repair: it is issued again once the repair ends (R513). -/
  | operand (slot va : Nat)
  /-- SOWAIT (R107): destination, object, target, cycles of the core's clock until the timeout (R108). -/
  | sowait (rd obj target : Nat) (left : Option Nat)
  /-- FENCE, or FENCE.D to a node (R98, R99). -/
  | fence (node : Option Nat)
  /-- BALLOC (R530): the buffer, once Cullet has handed one out. -/
  | balloc (rd pool : Nat) (got : Option Nat)
  /-- XRECV receive (R399): queue, expected tag, kind, axis, time limit in CCLK. -/
  | recv (rd queue : Nat) (tag : Word) (kind axis : Nat) (limit : Nat)
  /-- TPIN that waits for its copies (R497): first gob, gobs, tier, gobs handled, flags. -/
  | tpin (rd gob n tier done : Nat) (flags : Nat)
  /-- An instruction that an engine has no room for, or that waits for the engine's earlier work: it has had no effect,
  and is issued again once there is room (R333, R322). 256 names the routing engine under RTE_CTRL.hold. -/
  | room (e : Nat)
  /-- LDL with aq = 1 whose line has not arrived (R131). -/
  | acquire
  /-- A release that waits for the lines of earlier LDLs (R132): it has had no effect, and is issued again. -/
  | lines
  /-- MTSTAT that waits for earlier work on its tile (R322, R369). -/
  | mtstat (rd tile : Nat)
  /-- A shipped collective program runs on the core (log 129). -/
  | coll
  deriving DecidableEq, Repr

/-- What a core does (R637, R800, R802). -/
inductive RunState where
  /-- Takes instructions. -/
  | running
  /-- Ended by HALT. -/
  | halted
  /-- The job it served has stopped (R637). -/
  | jobStopped
  /-- In the debug state of R744. -/
  | debug
  /-- The entry's code has ended; the next work is an entry (R417). -/
  | ended
  deriving DecidableEq, Repr

/-- The command-list entry a core runs (R416, R664): where it came from, its done post, units committed (R421). -/
structure EntryRun where
  slot : Nat
  queue : Nat
  taken : Nat
  pos : Nat
  addr : Nat
  doneEn : Bool
  doneObj : Nat
  dcount : Nat
  units : Nat
  nextUnit : Nat
  faulted : Bool
  level : Nat
  /-- Passes issued so far (Table 13-4). -/
  passes : Nat
  /-- The units and folds of the byte stream of R665: place in issue order, bytes of a row, header, bytes. -/
  stream : List (Nat × Nat × List Byte × List Byte)
  deriving DecidableEq, Repr

/-! ### Collectives (file 04) -/

/-- A collective descriptor without its status word (Table 4-4). -/
structure CollDesc where
  op : Nat
  rop : Nat
  xfer : Nat
  etype : Nat
  outfmt : Nat
  amode : Nat
  repro : Bool
  seq : Nat
  group : Nat
  /-- Members. -/
  n : Nat
  /-- Declared shards. -/
  shards : Nat
  count : Nat
  inp : Nat
  out : Nat
  gtab : Nat
  so : Nat
  rank : Nat
  tmo : Nat
  fanchor : Int
  dist : Int
  ptab : Nat
  deriving DecidableEq, Repr

/-- A verified chunk that another member sent: its index on the wire, its elements as they travel, and sat (Table 4-9). -/
structure ChunkIn where
  idx : Nat
  elems : List Nat
  sat : Bool
  deriving DecidableEq, Repr

/-- A chunk of out that its owner found poisoned (R245): requests sent for it, and its bytes once they have come back. -/
structure LostChunk where
  chunk : Nat
  tries : Nat
  back : Option (List Byte)
  deriving DecidableEq, Repr

/-- A collective in hand at a core: one call of the shipped collective program (files 04 and 13; log 129). -/
structure Coll where
  /-- Address of the program, and of the descriptor. -/
  pc : Word
  at_ : Nat
  desc : CollDesc
  tag : Nat
  /-- Node of each rank, and destination rank of each rank of a permutation. -/
  nodes : List Nat
  perm : List Nat
  /-- Sizes of the axis rings of a box group, or of the one ring (R222). -/
  dims : List Nat
  /-- Bytes of the own input, by chunk and by shard, as far as they have been read. -/
  own : List (List (List Byte))
  /-- Anchor proposals of other members: chunk, rank, p (R234). -/
  props : List (Nat × Nat × Int)
  /-- Chunks whose proposals have gone out. -/
  told : Nat
  got : List ChunkIn
  /-- Indices of chunks sent, and of receipts by index and node (R243). -/
  sent : List Nat
  receipts : List (Nat × Nat)
  /-- Chunks of out found poisoned, and the requests of other members for them that wait: index and node (R245). -/
  lost : List LostChunk
  asks : List (Nat × Nat)
  committed : Nat
  sat : Bool
  nonfinite : Bool
  /-- Time from which the present wait counts (R232). -/
  since : Nat
  deriving DecidableEq, Repr

/-- One core (Table 2-1). -/
structure Core where
  pc : Word
  g : Tab Word
  p : BitVec 8
  v : Tab W32
  loops : List LoopLevel
  frozen : Bool
  csr : Tab Word
  wait : Option Wait
  /-- Lines of far gobs that have arrived for the instruction in hand: local address / 128, bytes (R93). -/
  lines : List (Nat × List Byte)
  /-- Lines of LDLs that have arrived and whose write to local memory waits (R94, R487): slot, address, physical, bytes. -/
  arrived : List (Nat × Nat × Bool × List Byte)
  /-- Bytes of the instruction that stalls, 4 or 8. -/
  ilen : Nat
  run : RunState
  async : List FaultInfo
  /-- Buffers of a unit's operation that ended in one of these faults: they return when it is delivered (R531). -/
  owed : List (FaultInfo × List Nat)
  posts : List HeldPost
  entry : Option EntryRun
  coll : Option Coll
  /-- ACLK or CCLK cycles owed in the present CCLK (phase of the divider, R674). -/
  phase : Nat
  deriving DecidableEq, Repr

/-! ### Engines (files 06 and 07) -/

/-- Accumulator formats (Table 5-4). -/
inductive AccFmt where
  | a16
  | a32
  | ax96
  deriving DecidableEq, Repr

/-- A tile of accumulator memory (R318, R319, R383). -/
structure Tile where
  fmt : AccFmt
  rows : Nat
  anchor : Option Int
  sat : Bool
  nonfinite : Bool
  cvtSat : Bool
  nanz : Bool
  promoted : Bool
  /-- Per-tensor scales of the first pass (R377): activation and weight; `none` before a pass. -/
  scales : Option (Option W32 × Option W32)
  touched : Tab Bool
  acc : Tab (BitVec 96)
  deriving DecidableEq, Repr

/-- A weight descriptor as read (Table 8-3). -/
structure WDesc where
  gslot0 : Nat
  viaStream : Bool
  stream : Nat
  efmt : Nat
  smode : Nat
  nkb : Nat
  nb : Nat
  tscale : W32
  cbook : Nat
  /-- The stream that it names was ended by a TSTREAM issued later: it reads the gobs of that one (R405). -/
  ended : Bool
  deriving DecidableEq, Repr

/-- One block of weights as read: form, record bytes (Table 7-3; none for an absent block), and the fault code of the
checks that it fails, 0 for none. -/
structure WBlock where
  form : Nat
  rcd : List Byte
  bad : Nat
  deriving DecidableEq, Repr

/-- A fill of the shadow tile (R302 to R304, R378). -/
structure Fill where
  core : Nat
  pc : Nat
  wd : WDesc
  kb : Nat
  q : Nat
  rel : Bool
  /-- 0 waiting, 1 filling, 2 full. -/
  stage : Nat
  blocks : List WBlock
  book : List Byte
  /-- It has waited for a gob (R330). -/
  waited : Bool
  deriving DecidableEq, Repr

/-- An activation descriptor as read (Table 8-2). -/
structure ADesc where
  abase : Nat
  efmt : Nat
  smode : Nat
  m : Nat
  pitch : Nat
  tscale : W32
  cbook : Nat
  kb : Nat
  nkb : Nat
  mask : Nat
  maskEn : Bool
  amap : Nat
  wdesc : Nat
  kall : Nat
  deriving DecidableEq, Repr

/-- A pass issued and not complete (R305, R376). -/
structure Pass where
  core : Nat
  pc : Nat
  handle : Nat
  ad : ADesc
  newW : Bool
  /-- The activation map of a gathered MSTREAM as read at issue (R353). -/
  gather : Option (List Byte)
  /-- The weight descriptor of the weights it runs on. -/
  wd : WDesc
  tileRows : Nat
  fmt : AccFmt
  /-- Number of the pass within its entry. -/
  num : Nat
  /-- A gathered one has waited for a gob (R330). -/
  waited : Bool
  /-- Stream gobs that a gathered one waits for. -/
  lacks : List Nat
  deriving DecidableEq, Repr

/-- A drain issued and not committed (R323, Table 8-4). -/
structure Drain where
  core : Nat
  pc : Nat
  handle : Nat
  free : Bool
  zfill : Bool
  map : Bool
  toVec : Bool
  rmode : Nat
  obase : Nat
  ofmt : Nat
  opitch : Nat
  r0 : Nat
  nrows : Nat
  vb : Nat
  rnd : List Byte
  ncol : Nat
  c0 : Nat
  amap : Nat
  unit : Nat
  deriving DecidableEq, Repr

/-- Work of one tile order: the matrix instructions of an engine complete in issue order per tile (R322). -/
inductive MWork where
  | pass (x : Pass)
  | drain (x : Drain)
  /-- An allocation that waits for slabs (R320), with the anchor of a MANCHOR set. -/
  | alloc (core handle rows : Nat) (fmt : AccFmt) (anchor : Option Int)
  deriving DecidableEq, Repr

/-- A prefetch stream (R329, R357 to R359, R404, R405). -/
structure PStream where
  slot : Nat
  core : Nat
  /-- Address of its TSTREAM. -/
  pc : Nat
  src : Nat
  slots : Nat
  slot0 : Nat
  ngobs : Nat
  pred : Bool
  nblk : Nat
  nb : Nat
  pmap : List Byte
  /-- Next stream gob to ask for. -/
  next : Nat
  /-- Gobs asked for and not arrived, in order. -/
  asked : List Nat
  /-- Gobs standing in the ring, gobs skipped on prediction, gobs with an invalid directory, gobs released (R379). -/
  present : Tab Bool
  skipped : Tab Bool
  bad : Tab Bool
  freed : Tab Bool
  released : Nat
  fetched : Nat
  closing : Bool
  deriving DecidableEq, Repr

/-- An encoder or map operation issued and not complete (R361, R388, R389): the words of its descriptor, and the number of
its first unit. -/
structure EncWork where
  core : Nat
  pc : Nat
  map : Bool
  desc : List Word
  so : Nat
  slot : Nat
  unit : Nat
  deriving DecidableEq, Repr

/-- The header that an encoder has written for a gob slot of an engine store (R360, R361, Table 10-5). The slot itself
holds payload only (R480). -/
structure GobHead where
  hver : Nat
  kind : Nat
  form : Nat
  crcOk : Bool
  obj : Nat
  index : Nat
  version : Nat
  crc : Nat
  job : Nat
  deriving DecidableEq, Repr

/-- One engine beside its registers, its core and its store. -/
structure Eng where
  tiles : Tab (Option Tile)
  work : List MWork
  fills : List Fill
  active : Option Fill
  streams : Tab (Option PStream)
  /-- New streams waiting for the old one's release (R405). -/
  queued : Tab (Option PStream)
  enc : List EncWork
  heads : Tab (Option GobHead)
  /-- Slot to take over and the time at which reassignment completes (R449). -/
  moving : Option (Nat × Nat)
  /-- Engine time served in CCLK in the present and in the last pace epoch, by slot (R447). -/
  served : Tab Nat
  servedLast : Tab Nat
  /-- Time at which the residency record took its newest rkey (R452). -/
  newest : Nat
  deriving DecidableEq, Repr

/-! ### Scheduler and cadences (file 09) -/

/-- An entry in a ready window (R440): its address, its words, its state, and when its dependencies were met. -/
structure WinEntry where
  pos : Nat
  addr : Nat
  words : List Word
  /-- Time from which every dependency has been met, and the error epochs' numbers of the objects then (R452). -/
  met : Option Nat
  epochs : List Nat
  /-- The residency wait has expired (R452). -/
  expired : Bool
  deriving DecidableEq, Repr

/-- A list taken from a queue (R435 to R443). -/
structure CmdList where
  slot : Nat
  queue : Nat
  taken : Nat
  serial : Bool
  next : Nat
  pos : Nat
  lastIn : Bool
  faulted : Bool
  win : List WinEntry
  /-- Entries started and not complete. -/
  running : Nat
  deriving DecidableEq, Repr

/-- A cadence (R458 to R465). Values of the period in progress, exact debt, and the time of the next start. -/
structure Cadence where
  on : Bool
  s : Nat
  len : Nat
  pn : Nat
  tick : Nat
  done : Nat
  debt : Nat
  number : Nat
  /-- The period runs (its tick is posted and its done post awaited). -/
  open_ : Bool
  /-- The time of the newest write of CAD_CFG or CAD_QUOTA, and what stood in the two before that CCLK (R23, R462). -/
  prior : Option (Nat × Word × Word)
  deriving DecidableEq, Repr

/-- The scheduler: lists with open windows in the order taken; stopped queues (R439). -/
structure Sched where
  lists : List CmdList
  queueStopped : Tab Bool
  cad : Tab Cadence
  deriving DecidableEq, Repr

/-! ### Routing engine (file 03) -/

/-- What has become of a slot of a token (R159, R172, R187). -/
inductive SlotState where
  | void
  | waiting
  | sent
  | dropped
  | unsent
  | answered (row : List W32)
  | poisoned
  deriving DecidableEq, Repr

/-- A slot of a token after selection and gating. -/
structure SlotSel where
  expert : Nat
  node : Nat
  lexp : Nat
  score : W32
  weight : W32
  spilled : Bool
  st : SlotState
  deriving DecidableEq, Repr

/-- A token of a half: its slots, its spill candidates, whether its output has been written. -/
structure TokSel where
  token : Nat
  slots : List SlotSel
  cands : List Nat
  out : Bool
  deriving DecidableEq, Repr

/-- The RCOMBINE operation of a half: object, output buffer, pitch (R187, Table 8-8). -/
structure CombineOp where
  core : Nat
  so : Nat
  buf : Nat
  pitch : Nat
  done : Bool
  deriving DecidableEq, Repr

/-- A half of a batch. -/
structure Half where
  toks : List TokSel
  /-- Its scoring has posted its object (R42). -/
  scored : Bool
  packed : Bool
  combine : Option CombineOp
  deriving DecidableEq, Repr

/-- A route batch (R180, R189, R196), with the descriptor captured at batch open and its ledger (Table 3-8). -/
structure Batch where
  epoch : Nat
  rt : Nat
  /-- The core that issued the last scoring of the batch: route-close faults are its (R121). -/
  core : Nat
  rtd : List Word
  ntok : Nat
  cancelled : Bool
  h0 : Option Half
  h1 : Option Half
  routeClosed : Bool
  /-- Time since which route close waits for supplied counts (R167). -/
  waitCounts : Option Nat
  nVoid : Nat
  nSel : Nat
  nDrop : Nat
  nSpill : Nat
  nUnsent : Nat
  nAns : Nat
  nPois : Nat
  nStale : Nat
  /-- Word 0 of each expert's working-array entry at batch open: selection and packing see these (R161, R186). -/
  work : List Word
  /-- Copies of each expert accepted in H0 (R170). -/
  used0 : Tab Nat
  deriving DecidableEq, Repr

/-- A batch open that waits (R142, R181, R182), or an operation that waits behind one on the same route table: its
descriptor and since when. -/
structure OpenWait where
  core : Nat
  /-- 0 RSCORE, 1 RSELECT, 2 RPACK pack, 3 RCOMBINE. -/
  kind : Nat
  desc : List Word
  since : Nat
  /-- Epoch of the oldest batch whose close a fifth open waits for (R181). -/
  behind : Option Nat
  deriving DecidableEq, Repr

/-- A route context (R180, R181). Cancelled batches past batch close stay known for the RPACK and RCOMBINE that may still be
issued on them (R184, R216). -/
structure RouteCtx where
  epoch : Nat
  batches : List Batch
  closed : List Batch
  waits : List OpenWait
  deriving DecidableEq, Repr

/-- A routing operation that has finished its work and not yet posted (R189, R531): the buffers it hands over. -/
structure RouteOp where
  id : Nat
  slot : Nat
  core : Nat
  so : Nat
  err : Bool
  /-- The half of a batch that it scored: epoch, whether H1. -/
  scores : Option (Nat × Bool)
  /-- 48 Marver, 49 combine unit: the holder of the buffers until the operation completes. -/
  holder : Nat
  bufs : List Nat
  deriving DecidableEq, Repr

/-- A Marver operation that takes bins and waits for them (R174): 0 pack, 1 arrive, 2 restage; its descriptor, the held
bins of a restage, bins needed and bins got, by address. -/
structure PackOp where
  id : Nat
  kind : Nat
  slot : Nat
  core : Nat
  pool : Nat
  desc : List Word
  held : List Nat
  stage : Nat
  need : Nat
  got : List Nat
  deriving DecidableEq, Repr

/-- The routing engine beside its registers. Resident tables: index, ebase, ecount (R140). -/
structure Rte where
  ctx : Tab RouteCtx
  resident : List (Nat × Nat × Nat)
  reload : Tab Bool
  /-- Counts supplied by RSTAT for a route table (R167). -/
  supply : Tab (List Nat)
  /-- Lookahead tally: key route table × 65,536 + expert (R177). -/
  tally : Tab Nat
  ops : List RouteOp
  packs : List PackOp
  nextOp : Nat
  deriving DecidableEq, Repr

/-! ### Exchange (files 04, 08, 12) -/

/-- A message being sent (R397, R608). -/
structure SendMsg where
  id : Nat
  slot : Nat
  core : Nat
  src : Nat
  dest : Nat
  bytes : Nat
  queue : Nat
  chan : Nat
  vc : Nat
  so : Nat
  seq : Nat
  /-- 0 RTS sent, 1 busy and to be sent again, 2 granted, 3 failed, 4 posted and its receipt awaited, 5 granted with the
  source under repair, 6 granted and its receipt at hand. -/
  phase : Nat
  since : Nat
  sent : Nat
  acked : Nat
  /-- The bytes of a message of a shipped program, whose buffers the spec does not place (log 129). -/
  body : Option (List Byte)
  deriving DecidableEq, Repr

/-- A message of a shipped program that waits for its landing zone at a Mionak 1 (R795): zone 0 takes chunks, 1 notes. -/
structure ZoneMsg where
  slot : Nat
  core : Nat
  dest : Nat
  chan : Nat
  zone : Nat
  body : List Byte
  deriving DecidableEq, Repr

/-- An RTS that waits for a buffer (R609). -/
structure WaitRts where
  key : SpaceKey
  seq : Nat
  bytes : Nat
  deriving DecidableEq, Repr

/-- A message being received into its granted buffer (R608, R612). -/
structure RecvMsg where
  key : SpaceKey
  seq : Nat
  bytes : Nat
  pool : Nat
  buf : Nat
  got : Nat
  src : Nat
  complete : Bool
  deriving DecidableEq, Repr

/-- A receive queue of a slot (R398, R542, R609). -/
structure RecvQueue where
  pool : Option Nat
  reserved : List Nat
  rts : List WaitRts
  msgs : List RecvMsg
  deriving DecidableEq, Repr

/-- Exchange state beside its registers: messages, queues (key slot × 16 + queue); by slot, tag and index the chunks held
verified (R242); by slot and tag the collectives aborted (R231); by slot, tag and source the bins taken in the stage in hand
(R205); failed attempts, by slot + 16 × index, tag, number and first sender (R244); by slot the addresses at which the job's program image
holds the shipped collective and exchange programs (log 129). -/
structure Xch where
  sends : List SendMsg
  nextSend : Nat
  queues : Tab RecvQueue
  chunks : List (Nat × Nat × Nat)
  aborted : List (Nat × Nat)
  bins : List (Nat × Nat × Nat)
  refetch : List (Nat × Nat × Nat × Nat)
  rings : Tab (Option (Nat × Nat))
  /-- Landing zones (R795), by slot, zone and node: messages sent to a node since set-up; of a sender, messages taken since
  set-up and units taken since the receiver's object was reset; and the messages that wait for their zone. -/
  zoneOut : Tab Nat
  zoneIn : Tab (Nat × Nat)
  zoneWait : List ZoneMsg
  deriving DecidableEq, Repr

/-! ### Fabric (file 12) -/

/-- Credit counters of one VC and class of a port (R595), in 64-byte units. -/
structure Credit where
  g : Nat
  gs : Nat
  c : Nat
  r : Nat
  f : Nat
  deriving DecidableEq, Repr

/-- A transaction waiting at a port: since when, for one in transit the receive buffer that it occupies (port, VC and class, units,
R593), and for a fragment of a bin its exchange stage (job, and half, stage and direction as the bin's header has them, R217). -/
structure HeldTx where
  tx : Tx
  since : Nat
  origin : Option (Nat × Nat × Nat)
  stage : Option (Nat × Nat)
  deriving DecidableEq, Repr

/-- A fabric port beside its registers (R574 to R590). -/
structure Port where
  rxExpect : Nat
  nakSent : Bool
  txNext : Nat
  replay : List Flit
  nakFor : Nat
  nakCount : Nat
  /-- Time of the last ack progress while flits are outstanding, of entering the present state, of leaving UP, and of
  the last discovery reply. -/
  ackTime : Nat
  since : Nat
  downSince : Option Nat
  noticed : Bool
  discTime : Option Nat
  credits : Tab Credit
  /-- Transactions waiting at the port (R592, R618). -/
  held : List HeldTx
  /-- The exchange stage whose bulk transfer left last (R217). -/
  turn : Option (Nat × Nat)
  minw : Nat
  /-- Credits to be granted to the partner once a sequenced flit may go: VC and class, units (R575, R593). -/
  due : List (Nat × Nat)
  /-- Bytes that stand in the payload area being filled, and bytes received of a transaction that is not whole yet (R572). -/
  tail : List Byte
  part : List Byte
  /-- Trained since the ends were last compared (R595). -/
  fresh : Bool
  deriving DecidableEq, Repr

/-- A transaction sent and not acknowledged: its index in the space, the time of its first send, and the time at which the
timer of its last send expires (R625). -/
structure Sent where
  tx : Tx
  idx : Nat
  first : Nat
  last : Nat
  deriving DecidableEq, Repr

/-- A sending sequence space (R620 to R626): index of the next transaction (its seq modulo 2^32), what is sent and not
acknowledged, what waits to be sent (R132, R620, R621), the message that holds the space (R608). -/
structure SendSpace where
  key : SpaceKey
  next : Nat
  unacked : List Sent
  waiting : List (Tx × Gate)
  msg : Option Nat
  failed : Bool
  /-- A write that waited in it was given up unsent when it failed, and stays unacknowledged (R98, R626). -/
  lost : Bool
  deriving DecidableEq, Repr

/-- A receiving sequence space (R622, R623): the seq expected next. -/
structure RecvSpace where
  key : SpaceKey
  expect : Nat
  dupAck : Option Nat
  deriving DecidableEq, Repr

/-- What a line read is for. -/
inductive ReadUse where
  /-- LDL (R94): copy to a local address of a slot, or to a physical address at M with jva = 0 (R116); whether it is an
  acquire (R131). -/
  | ldl (core slot la : Nat) (phys aq : Bool)
  /-- A core that stalls on a line of a far gob (R93): core, local address of the line. -/
  | core (c va : Nat)
  /-- A unit that waits for a line of a far gob (R469): source number, slot, local address of the line. -/
  | unit (src slot va : Nat)
  /-- A core whose instruction has ended without this line: nothing waits for it any more. -/
  | gone (c : Nat)
  /-- A mover's copy of a gob (move number, line). -/
  | mover (k line : Nat)
  deriving DecidableEq, Repr

/-- A line read in flight over the fabric (R627) or over PCIe (R768). -/
structure LineRead where
  k : Nat
  rid : Nat
  tx : Tx
  use : ReadUse
  first : Nat
  last : Nat
  host : Bool
  /-- Bytes of the line that stores of this device have replaced since the read was sent (R486): place in the line, byte. -/
  patch : List (Nat × Byte)
  deriving DecidableEq, Repr

/-- An open bundle of a gateway (R629 to R632). -/
structure Bundle where
  block : Nat
  vc : Nat
  job : Nat
  entries : List Tx
  since : Nat
  deriving DecidableEq, Repr

/-- The fabric beside its registers. Marks: reporting node × 8 + port, with the number of the notice (R809). Line reads that
have arrived and wait for earlier writes of their space, or for a repair (R513, R627). -/
structure Fab where
  ports : Tab Port
  send : List SendSpace
  recv : List RecvSpace
  waitReads : List Tx
  reads : List LineRead
  nextRead : Nat
  marks : Tab (Option Nat)
  seen : List (Nat × Nat)
  noticeNo : Nat
  bundles : Tab (List Bundle)
  /-- Stores to homes in T2 that may not be acknowledged yet: source number of the storing core or unit, space, index above that
  of the last line (R98, R132, R137). -/
  stores : List (Nat × SpaceKey × Nat)
  /-- The stage of the bin whose fragments pass here, by job, source, channel and core of the message (R217). -/
  binStage : List ((Nat × Nat × Nat × Nat) × Nat)
  deriving DecidableEq, Repr

/-! ### Memory and the tier manager (file 10) -/

/-- The memories: T1 (GDDR7 by device physical address, R806), host memory (T3), the engine stores (engine ×
2^26 + offset, R470), the key store, the gob cache (entry × 65,536 + offset, R501), and the GDDR7 lines with symbols in error (line → symbols, R506). -/
structure Mems where
  t1 : List Host.Cell
  t3 : List Host.Cell
  es : List Host.Cell
  ks : List Host.Cell
  gc : List Host.Cell
  t1err : Tab Nat
  deriving DecidableEq, Repr

/-- An entry of the gob cache (R480, R501, R502): slot, gob number, pin, number of its last use among all uses, and the gob's
header in its tag. -/
structure GcEntry where
  slot : Nat
  gob : Nat
  pinned : Bool
  used : Nat
  hdr : List Byte
  deriving DecidableEq, Repr

/-- What a unit has still to do once memory lets it, in the order of its work (R137, R443, R487, R804). -/
inductive UnitStep where
  /-- A write: slot, source number, local address, bytes. -/
  | write (slot src va : Nat) (bs : List Byte)
  /-- A post of completion: slot, source number, object, count, error mark. -/
  | post (slot src obj n : Nat) (err : Bool)
  /-- The entries of a list to be skipped, from an address on: slot, address, entries at most. -/
  | skip (slot addr fuel : Nat)
  /-- The mask of an expert in its route state object: slot, address of the word (R186). -/
  | mask (slot va : Nat)
  /-- A member's steps on an abort message: slot, core, address of the descriptor, tag, sender (R230, R231). -/
  | abort (slot core desc tag sender : Nat)
  deriving DecidableEq, Repr

/-- The kinds of a mover's work, in the order of Table 10-8. -/
inductive MoveKind where
  | refetch
  | stalled
  | stream
  | window
  | hint
  | tpref
  | promote
  | editMove
  | scrub
  deriving DecidableEq, Repr

/-- Where a copy goes. -/
inductive MoveDest where
  | gobCache
  | t1copy
  | keyStore (addr : Nat)
  /-- A move of the home (R490): tier and loc. -/
  | home (tier loc : Nat)
  /-- Gob q of stream i of engine e, to its ring slot (R404). -/
  | ring (e i q : Nat)
  deriving DecidableEq, Repr

/-- A request for a mover, or the work a mover has in hand. -/
structure MoveReq where
  id : Nat
  kind : MoveKind
  slot : Nat
  gob : Nat
  dest : MoveDest
  /-- Replica under trial, time since which it is read or a frame awaited, payload so far (R514). -/
  replica : Nat
  since : Nat
  waitFrame : Bool
  /-- Gobs of the request that follow this one; the frame taken for a T1 copy. -/
  more : Nat
  frame : Option Nat
  buf : List Byte
  hdr : List Byte
  /-- What the lines written to a new home in T2 wait for (R490); none before they are written. -/
  gate : Option Gate
  deriving DecidableEq, Repr

/-- The tier manager beside its registers. Frames of the frame map are derived from leaves and tables (R807);
`retired` holds the frames of R509. -/
structure Tir where
  gc : Tab (Option GcEntry)
  queue : List MoveReq
  busy : List MoveReq
  nextMove : Nat
  quar : Tab (List Nat)
  retired : Tab Bool
  inUse : Tab Bool
  /-- Descriptors recorded once as invalid (R805): slot × 2^32 + gob. -/
  noted : Tab Bool
  /-- Frames that hold a slot's tier tables, as last read into the frame map (R807). -/
  tables : Tab (List Nat)
  /-- A TIR_EDIT write or move that waits for a move of its leaf to end (R476): operation and the three registers. -/
  edit : Option (Nat × Nat × Nat × Nat)
  /-- Gobs declared unrecoverable and quarantined (R516, R517), by slot. -/
  lost : Tab (List Nat)
  /-- Uses of gob-cache entries so far (R502). -/
  uses : Nat
  /-- Lines of far gobs that have arrived for units (R469): source number, slot, local address / 128, bytes. -/
  lines : List (Nat × Nat × Nat × List Byte)
  /-- Lines that units wait for and that will not come, with the fault that their access takes. -/
  failed : List (Nat × Nat × Nat × FaultInfo)
  /-- Steps of units that wait for memory, oldest first. -/
  later : List UnitStep
  /-- The time from which the next frame of the patrol scrub is due (R508). -/
  scrubAt : Nat
  deriving DecidableEq, Repr

/-! ### Cullet and the ledgers (file 11) -/

/-- A record of a pool (R527, R530 to R534). -/
structure BufRec where
  held : Bool
  holders : List Nat
  releaser : Nat
  /-- The releaser is a node (R535). -/
  relNode : Bool
  released : Bool
  reserved : Bool
  deriving DecidableEq, Repr

/-- One pool's free store and records (R526 to R529, R543). The free list is `returned` followed by the buffers from
`fresh` on. -/
structure Pool where
  nbuf : Nat
  returned : List Nat
  fresh : Nat
  recs : Tab BufRec
  /-- Waiting allocations in arrival order: requester codes (R543). -/
  waiters : List Nat
  /-- Last receive queue that reserved: slot × 16 + queue (R542). -/
  lastQueue : Option Nat
  /-- Frames of the record array, and the slot whose T1 quota they count against (R527). -/
  recAt : List Nat
  recSlot : Option Nat
  deriving DecidableEq, Repr

/-- A ledger counter with its three copies (R556, R559). -/
structure Trip where
  a : Word
  b : Word
  c : Word
  deriving DecidableEq, Repr

/-- Cullet and the ledger memory. Ledger counters by number: see `Machine/Ledger.lean`. -/
structure Cul where
  pools : Tab Pool
  ledger : Tab Trip
  /-- Counters of the credit, buffer and token ledgers of which copies differ (R559): 1 one copy, 2 no majority. Key: ledger ×
  2^32 + port and VC, pool or context. -/
  damage : Tab Nat
  deriving DecidableEq, Repr

/-! ### Lehr (file 14) -/

/-- The power controller beside its registers: the last windows of module and share power (newest first), counters of
divergence and of quiet windows, sense state, hints, the pace agreement of the epoch. -/
structure Pwr where
  windows : List Nat
  shares : List (List Nat)
  leak : List Nat
  estLast : List Nat
  divRun : Nat
  quiet : Nat
  recal : Nat
  senseBad : Bool
  senseQuiet : Nat
  shareBad : List Bool
  shareQuiet : List Nat
  hotRecorded : Bool
  /-- Agreed divider that takes force at the next boundary, and that boundary. -/
  agreed : Option Nat
  boundary : Nat
  /-- Start of the epoch in CCLK, and whether the own proposal, the up post, the down post were made. -/
  start : Nat
  own : Option Nat
  upDone : Bool
  downDone : Bool
  /-- Up posts of children: position → (d, late); leader's epoch number (R681, R682). -/
  ups : Tab (Nat × Bool)
  leaderEpoch : Nat
  /-- Time of the last ageing evaluation, and the smallest slack at dtop since (R711). -/
  hours168 : Nat
  minSlack : Nat
  /-- Powered time since the last evaluation that stands before the last input loss, and that of a cold reset being due. -/
  powered : Nat
  ageDue : Bool
  /-- Hints by unit: level, start, whether the boost runs (R699). -/
  hints : Tab (Nat × Nat × Bool)
  /-- The die of the engine whose hint stands for a unit: 0 A0, 1 A1, 4 none (R699). -/
  dies : Tab Nat
  /-- The gating of each share that the measured windows allow, and the time of the last rise toward it (R697, R698). -/
  goals : List Nat
  rampAt : Nat
  voltage : Nat
  divider : Nat
  /-- Ageing offset that takes force at the next boundary (R711), and the nodes of the children as their up posts have
  shown them: position → node + 1. -/
  offset : Nat
  kids : Tab Nat
  /-- ACLK cycles that have passed, in which the start and end of a hint count, and the part of a cycle left over in 1/64
  (R411, R699). -/
  aclks : Nat
  aphase : Nat
  deriving DecidableEq, Repr

/-! ### Boot, security, host (files 15, 16) -/

/-- What survives an input loss: fuses and module flash (R731 to R738, R754). -/
structure NonVol where
  rows : Nat
  revoked : BitVec 4
  minSvn : Nat
  keyHash : List (List Byte)
  uds : Option (List Byte)
  udsBlown : Bool
  /-- Image slots A and B: manifest and image bytes as stored. -/
  imageA : List Host.Cell
  imageB : List Host.Cell
  preferred : Nat
  settings : List (Nat × Word)
  /-- Wear journal: offset in mV, dtop, hours, histogram of junction temperature (R713). -/
  jOffset : Nat
  jDtop : Nat
  jHours : Nat
  jHist : List Nat
  /-- Repair record: engine → pane rows known bad (R313, R317). -/
  repair : Tab (BitVec 9)
  fabNode : Word
  fabTopo : Word
  idCert : List Byte
  deriving DecidableEq, Repr

/-- What the board is and the fused voltage table (Table 0-1, R3, R695, R763). -/
structure Board where
  memPop : Bool
  pkgRev : Nat
  brdRev : Nat
  serial : List Byte
  vtab : List Nat
  addrStraps : Nat
  deriving DecidableEq, Repr

/-- Start-up and trust (R716 to R747). -/
structure Sec where
  /-- A sequence runs, its step in progress in SEC_BOOT; it trains GDDR7 in step 3 (a device reset runs the array self-test
  alone, Table 15-3); the input is good; time in ms from input good to the lock of the root PLL. -/
  running : Bool
  train : Bool
  inputGood : Bool
  t0 : Nat
  /-- Debug in force and its scope (R743). -/
  unlocked : Bool
  scope : Nat
  /-- A debug change that awaits the next device reset: `some 0` lock, `some k` unlock with scope k (R743). -/
  pendingDebug : Option Nat
  /-- Slot of the job reset in progress. -/
  jreset : Option Nat
  /-- The attestation private key and the signed certificate over its public key (R739). -/
  attKey : List Byte
  attCert : List Byte
  /-- The UDS read port is locked (R739). -/
  udsLocked : Bool
  /-- The booted slot: 0 A, 1 B. -/
  fwSlot : Nat
  /-- PERST# reads asserted. -/
  perst : Bool
  /-- REFCLK is lost: the root PLL runs on the on-module oscillator (R761). -/
  extLost : Bool
  deriving DecidableEq, Repr

/-- A block that becomes busy by an event of the device: a route context, the routing tables, the fabric ports. -/
inductive LBlock where
  | rctx (slot : Nat)
  | tables
  | ports
  /-- The registers of a job slot: busy while it has a job. -/
  | slot (s : Nat)
  /-- What is busy while any slot has a job. -/
  | jobs
  | pool (p : Nat)
  deriving DecidableEq, Repr

/-- A write that changed L fields of an idle block: when, the register, the mask of the fields, what stood in the register,
and the cfg_rejected bit that covers it. The block treats itself as busy should it become so in that CCLK (R29). -/
structure LWrite where
  time : Nat
  block : LBlock
  off : Nat
  mask : Nat
  old : Word
  flag : Option (Nat × Nat)
  deriving DecidableEq, Repr

/-- The PCIe function and the input stage (R752 to R754, R761, R768 to R771). -/
structure Hst where
  d3hot : Bool
  /-- Vectors held back in D3hot, oldest first. -/
  msixPending : List Nat
  /-- Times of the input stage's trips, newest first, and the time of that stage at the start of the present run, in ns. -/
  trips : List Nat
  clock : Nat
  stayOff : Bool
  stageOn : Bool
  limitMa : Option Nat
  /-- What the world shows at J1, as HST_INPUT names it, and the PCIe link, as HST_STATUS names it; the registers have their Reset
  value after a reset until the firmware shows these again (R16; log 83). -/
  input : Word
  link : Nat
  i3cAddr : Option Nat
  /-- Host accesses that wait for a repair or a move, and writes that may not pass one that waits (R774, R775), oldest first. -/
  waits : List Instr
  /-- Writes of L fields in the CCLK of the newest, newest first (R29). -/
  lwrites : List LWrite
  deriving DecidableEq, Repr

/-! ### Twin mode (R663 to R669) -/

/-- A digest that awaits its twin: what was sent, the row length of each unit, and the completion it holds back: the core and
entry, the list's taken value, units committed, whether the entry faulted, its done post, and since when it waits. -/
structure TwinWait where
  msg : TwinMsg
  rows : List Nat
  level : Nat
  core : Nat
  addr : Nat
  queue : Nat
  taken : Nat
  units : Nat
  faulted : Bool
  doneEn : Bool
  doneObj : Nat
  dcount : Nat
  since : Nat
  deriving DecidableEq, Repr

/-- Twin state of a slot: digests waiting, last committed digest (R412), level for later entries. -/
structure Twin where
  waits : List TwinWait
  last : BitVec 128
  level : Nat
  deriving DecidableEq, Repr

/-! ### What leaves the device -/

/-- The content of the FRU data (Table 16-10): part number, board revision, mem_pop, PCIe device ID, power in W continuous and for
10 ms, minimum flow in 0.1 L/min and maximum inlet in °C. Serial number and manufacture date are in the bytes alone. -/
structure FruContent where
  part : String
  brdRev : Nat
  memPop : Bool
  device : Nat
  watts : Nat
  wattsPeak : Nat
  flow : Nat
  inlet : Nat
  deriving DecidableEq, Repr

/-- An answer of the management controller, of the SPDM responder or of PCIe configuration. -/
inductive Resp where
  | configRetry
  /-- A configuration request is answered: device ID and class code of the function (Tables 0-1 and 16-12). -/
  | configOk (device classCode : Nat)
  /-- A read of the FRU data: its content and the bytes read (R763, R764). -/
  | fru (x : FruContent) (data : List Byte)
  /-- PLDM status, and the completion code ERROR_NOT_READY (R721). -/
  | status (name : String)
  | errorNotReady
  /-- SPDM ERROR with code Busy (R721). -/
  | spdmBusy
  | spdm (code : Nat) (body : List Byte) (sig : List Byte)
  | mctp (code : Nat) (body : List Byte)
  | sensor (id : Nat) (value : Int)
  | bytes (data : List Byte)
  /-- PlatformEventMessage (R766). -/
  | event (code : Nat)
  deriving DecidableEq, Repr

/-- How a host access completes (R770, R774). -/
inductive Completion where
  | ok (data : List Byte)
  | unsupported
  | poisoned
  deriving DecidableEq, Repr

/-- What the device has sent, newest first: transactions by port, NAKs and ident flits by port, MSI-X vectors, answers,
completions of host reads, T3 requests. -/
structure Out where
  fabric : List (Nat × Tx)
  naks : List (Nat × Nat)
  idents : List (Nat × Nat)
  flits : List (Nat × Flit)
  msix : List Nat
  resp : List Resp
  host : List Completion
  t3 : List (Nat × Nat)
  twin : List (Nat × TwinMsg)
  deriving DecidableEq, Repr

/-! ### The whole -/

/-- Everything that an input loss ends. -/
structure Dev where
  /-- CCLK cycles since the lock of the root PLL (R643). -/
  now : Nat
  /-- Number of the next free value (the model's own, not the spec's). -/
  free : Nat
  board : Board
  regs : Tab Word
  force : Tab Word
  mem : Mems
  cores : Tab Core
  eng : Tab Eng
  sch : Sched
  rte : Rte
  xch : Xch
  fab : Fab
  tir : Tir
  cul : Cul
  pwr : Pwr
  sec : Sec
  hst : Hst
  twin : Tab Twin
  out : Out
  deriving DecidableEq, Repr

/-- The state of the block: the commands that wait, first in first out; fuses and flash; everything else. -/
structure State where
  pending : List Instr
  nv : NonVol
  dev : Dev
  deriving DecidableEq, Repr

/-- Why the machine stops with a fault. -/
inductive Fault where
  /-- Raised by INPUT_VOLTAGE_CHANGE beyond the absolute ratings of Table 16-2, where R749 promises nothing, survival
  included. Safe: nothing is claimed of such a device. -/
  | beyondRatings
  deriving DecidableEq, Repr

/-- Why a command has no meaning. -/
inductive Refusal where
  /-- Raised by an arm of `exec` not modelled yet. Safe: nothing can be proved of the command. -/
  | notModelled (mnemonic : String)
  /-- Raised by every meaning on a command that is not well-formed (a core, engine, port, pool or slot number the device
  does not have; a word whose operation field is another row's). Safe: such a command cannot come about. -/
  | illFormed
  deriving DecidableEq, Repr

/-! ### Reset -/

/-- A core after any reset (R69, Table 2-1). -/
def Core.reset : Core :=
  { pc := 0, g := [], p := 0, v := [], loops := [], frozen := false, csr := [], wait := none, lines := [],
    arrived := [], ilen := 4, run := .running, async := [], owed := [], posts := [], entry := none, coll := none, phase := 0 }

/-- An engine after any reset (R69). -/
def Eng.reset : Eng :=
  { tiles := [], work := [], fills := [], active := none, streams := [], queued := [], enc := [], heads := [], moving := none,
    served := [], servedLast := [], newest := 0 }

/-- A cadence after reset. -/
def Cadence.reset : Cadence :=
  { on := false, s := 0, len := 0, pn := 0, tick := 0, done := 0, debt := 0, number := 0, open_ := false, prior := none }

/-- A route context after reset. -/
def RouteCtx.reset : RouteCtx := { epoch := 0, batches := [], closed := [], waits := [] }

/-- A receive queue that is not bound (R398). -/
def RecvQueue.reset : RecvQueue := { pool := none, reserved := [], rts := [], msgs := [] }

/-- Credit counters after training (R583). -/
def Credit.reset : Credit := { g := 0, gs := 0, c := 0, r := 0, f := 0 }

/-- A port after reset (R583, R727). -/
def Port.reset : Port :=
  { rxExpect := 0, nakSent := false, txNext := 0, replay := [], nakFor := 0, nakCount := 0, ackTime := 0, since := 0,
    downSince := none, noticed := false, discTime := none, credits := [], held := [], turn := none, minw := 0,
    due := [], tail := [], part := [], fresh := false }

/-- A buffer that is free. -/
def BufRec.free : BufRec :=
  { held := false, holders := [], releaser := 0, relNode := false, released := false, reserved := false }

/-- A pool before its first init. -/
def Pool.reset : Pool :=
  { nbuf := 0, returned := [], fresh := 0, recs := [], waiters := [], lastQueue := none, recAt := [], recSlot := none }

/-- A ledger counter after reset. -/
def Trip.zero : Trip := { a := 0, b := 0, c := 0 }

/-- Twin state after reset. -/
def Twin.reset : Twin := { waits := [], last := 0, level := 0 }

/-- Lehr after reset (Table 14-6). -/
def Pwr.reset : Pwr :=
  { windows := [], shares := [], leak := [], estLast := [], divRun := 0, quiet := 0, recal := 0, senseBad := false,
    senseQuiet := 0, shareBad := [], shareQuiet := [], hotRecorded := false, agreed := none, boundary := 1000000,
    start := 0, own := none, upDone := false, downDone := false, ups := [], leaderEpoch := 0,
    hours168 := 0, minSlack := 255, powered := 0, ageDue := false, hints := [], dies := [], goals := [64, 64, 64, 64], rampAt := 0, voltage := 900, divider := 32,
    offset := 0, kids := [], aclks := 0, aphase := 0 }

/-- The typical voltage table of file 14, linear between the five values given (log 23). -/
def typicalVtab : List Nat :=
  [850, 835, 820, 805, 790, 777, 765, 752, 740, 732, 725, 717, 710, 702, 695, 687, 680,
   675, 670, 665, 660, 655, 650, 645, 640, 635, 630, 625, 620, 615, 610, 605, 600]

/-- The board of log 21: CMN3-256. -/
def Board.reset : Board :=
  { memPop := true, pkgRev := 0, brdRev := 0, serial := [], vtab := typicalVtab, addrStraps := 0 }

/-- Fuses and flash of a part as it leaves Creben (R732: FIELD, 2 rows burnt; log 22 for the rest). -/
def NonVol.reset : NonVol :=
  { rows := 2, revoked := 0, minSvn := 0, keyHash := [], uds := some [], udsBlown := false, imageA := [], imageB := [],
    preferred := 0, settings := [], jOffset := 0, jDtop := 32, jHours := 0, jHist := [], repair := [], fabNode := 0, fabTopo := 0,
    idCert := [] }

/-- Start-up state before input good. -/
def Sec.reset : Sec :=
  { running := false, train := true, inputGood := false, t0 := 0, unlocked := false, scope := 0, pendingDebug := none,
    jreset := none, attKey := [], attCert := [], udsLocked := false, fwSlot := 0, perst := true,
    extLost := false }

/-- The PCIe function and the input stage before input good. -/
def Hst.reset : Hst :=
  { d3hot := false, msixPending := [], trips := [], clock := 0, stayOff := false, stageOn := true, limitMa := none,
    input := 0, link := 0, i3cAddr := none, waits := [], lwrites := [] }

/-- The device with every register at its Reset value and every memory wiped (R16, R725). -/
def Dev.reset : Dev :=
  { now := 0, free := 0, board := Board.reset, regs := [], force := [],
    mem := { t1 := [], t3 := [], es := [], ks := [], gc := [], t1err := [] },
    cores := [], eng := [],
    sch := { lists := [], queueStopped := [], cad := [] },
    rte := { ctx := [], resident := [], reload := [], supply := [], tally := [], ops := [], packs := [], nextOp := 0 },
    xch := { sends := [], nextSend := 0, queues := [], chunks := [], aborted := [], bins := [],
             refetch := [], rings := [], zoneOut := [], zoneIn := [], zoneWait := [] },
    fab := { ports := [], send := [], recv := [], waitReads := [], reads := [], nextRead := 0, marks := [], seen := [], noticeNo := 0,
             bundles := [], stores := [], binStage := [] },
    tir := { gc := [], queue := [], busy := [], nextMove := 0, quar := [], retired := [], inUse := [], noted := [], tables := [], edit := none,
             lost := [], uses := 0, lines := [], failed := [], later := [], scrubAt := 0 },
    cul := { pools := [], ledger := [], damage := [] },
    pwr := Pwr.reset, sec := Sec.reset,
    hst := Hst.reset,
    twin := [],
    out := { fabric := [], naks := [], idents := [], flits := [], msix := [], resp := [], host := [], t3 := [],
             twin := [] } }

/-- The machine right after reset: no command waits, the registers read their Reset values, memory lists nothing. -/
def State.reset : State := { pending := [], nv := NonVol.reset, dev := Dev.reset }

end Sys2Proof.Machine
end

