-- ==== Sys2Proof/Machine/Sparse.lean ====
section
/-! DEFINITION. Sparse maps in canonical form: keys strictly rising, no entry equal to the value an unlisted key reads
as. Byte memories, registers, cores and the rest of the state stand in such maps. -/

namespace Sys2Proof.Machine

variable {α : Type}

/-- The entry of a key, where one is listed. -/
def tfind : Tab α → Nat → Option α
  | [], _ => none
  | (j, x) :: t, k => if j = k then some x else tfind t k

/-- What a key reads as: its entry, else the default. -/
def tget (df : Nat → α) (t : Tab α) (k : Nat) : α := (tfind t k).getD (df k)

/-- The map without a key. -/
def tdel (t : Tab α) (k : Nat) : Tab α := t.filter (fun e => decide (e.1 ≠ k))

/-- Inserts an entry before the first larger key. -/
def tins : Tab α → Nat → α → Tab α
  | [], k, v => [(k, v)]
  | (j, x) :: t, k, v => if j < k then (j, x) :: tins t k v else (k, v) :: (j, x) :: t

/-- Writes a key and keeps the canonical form: writing the default removes the entry. -/
def tput [DecidableEq α] (df : Nat → α) (t : Tab α) (k : Nat) (v : α) : Tab α :=
  if v = df k then tdel t k else tins (tdel t k) k v

/-- Every key at or above the bound and rising, no entry at the default. -/
def twfFrom [DecidableEq α] (df : Nat → α) : Nat → Tab α → Bool
  | _, [] => true
  | n, (k, v) :: t => decide (n ≤ k) && decide (v ≠ df k) && twfFrom df (k + 1) t

/-- The canonical form. -/
def twf [DecidableEq α] (df : Nat → α) (t : Tab α) : Bool := twfFrom df 0 t

/-- What a byte that nothing has written reads as: wiped memory reads 0 (R725); host memory: log 12. -/
def unlistedByte : Nat → Byte := fun _ => 0

/-- The canonical form of a byte memory. -/
def Memory.wf (m : List Host.Cell) : Bool := twf unlistedByte m

/-- One byte of a memory. -/
def rdByte (m : List Host.Cell) (a : Nat) : Byte := tget unlistedByte m a

/-- Stores one byte. -/
def wrByte (m : List Host.Cell) (a : Nat) (b : Byte) : List Host.Cell := tput unlistedByte m a b

/-- `n` bytes from an address, lowest first. -/
def rdBytes (m : List Host.Cell) (a : Nat) : Nat → List Byte
  | 0 => []
  | n + 1 => rdByte m a :: rdBytes m (a + 1) n

/-- Stores bytes from an address, lowest first. -/
def wrBytes (m : List Host.Cell) (a : Nat) : List Byte → List Host.Cell
  | [] => m
  | b :: bs => wrBytes (wrByte m a b) (a + 1) bs

/-- Sets every byte of a range to 0 (wipes, R725, R728). -/
def zeroRange (m : List Host.Cell) (a n : Nat) : List Host.Cell :=
  m.filter (fun c => decide (c.1 < a) || decide (a + n ≤ c.1))

end Sys2Proof.Machine
end

