-- ==== Sys2Proof/Machine/Operands.lean ====
section
/-! DEFINITION. Bit fields, sign extension, byte order, and the operand forms of instruction words (R73 to R78, R9). -/

namespace Sys2Proof.Machine

/-- Bits [hi:lo] of a number. -/
def nfld (x hi lo : Nat) : Nat := (x >>> lo) % 2 ^ (hi + 1 - lo)

/-- Bits [hi:lo] of a word. -/
def fld {n : Nat} (w : BitVec n) (hi lo : Nat) : Nat := nfld w.toNat hi lo

/-- One bit of a word. -/
def bitAt {n : Nat} (w : BitVec n) (i : Nat) : Bool := w.toNat.testBit i

/-- A word with bits [hi:lo] replaced by the low bits of `x`. -/
def setFld {n : Nat} (w : BitVec n) (hi lo x : Nat) : BitVec n :=
  let m := (2 ^ (hi + 1 - lo) - 1) <<< lo
  BitVec.ofNat n ((w.toNat &&& ((2 ^ n - 1) ^^^ m)) ||| ((x <<< lo) &&& m))

/-- 1 for true. -/
def b2n (b : Bool) : Nat := if b then 1 else 0

/-- A word with one bit set or cleared. -/
def setBit {n : Nat} (w : BitVec n) (i : Nat) (b : Bool) : BitVec n := setFld w i i (b2n b)

/-- The two's-complement value of the low `n` bits. -/
def sval (n x : Nat) : Int :=
  let y := x % 2 ^ n
  if y < 2 ^ (n - 1) then (y : Int) else (y : Int) - (2 ^ n : Nat)

/-- The low `n` bits of an integer. -/
def ofSval (n : Nat) (x : Int) : Nat := (x % ((2 ^ n : Nat) : Int)).toNat

/-- The number that bytes spell, lowest-addressed byte first (R9, R10). -/
def leNat : List Byte → Nat
  | [] => 0
  | b :: bs => b.toNat + 256 * leNat bs

/-- The low `n` bytes of a number, lowest first (R9, R10). -/
def leBytes : Nat → Nat → List Byte
  | 0, _ => []
  | n + 1, x => BitVec.ofNat 8 x :: leBytes n (x / 256)

/-- `n` little-endian words of `k` bytes each. -/
def leWords (k : Nat) : Nat → List Byte → List Nat
  | 0, _ => []
  | n + 1, bs => leNat (bs.take k) :: leWords k n (bs.drop k)

/-- The sign-extended 64-bit value of the low `n` bits. -/
def sext (n x : Nat) : Word := BitVec.ofInt 64 (sval n x)

/-- The immediate of a word that takes imm as a value: 11 bits, or {ximm, imm} in the wide form (R75, R78). -/
def immValue (w : IW) : Word :=
  match w.pre with
  | none => sext 11 w.fn.toNat
  | some x => sext 32 (x.ximm.toNat * 2 ^ 11 + w.fn.toNat)

/-- The 21-bit offset {rs1, rs2, imm}, times 4 (R75). -/
def offset21 (w : IW) : Int :=
  sval 21 (w.rs1.toNat * 2 ^ 16 + w.rs2.toNat * 2 ^ 11 + w.fn.toNat) * 4

/-- Bytes of the instruction: 8 in the wide form (R77). -/
def ilenOf (w : IW) : Nat := if w.pre.isSome then 8 else 4

/-- A program counter as the machine holds it: bits [63:48] and [1:0] read 0 (Table 2-1). -/
def pcMask (x : Nat) : Word := BitVec.ofNat 64 ((x % 2 ^ 48) / 4 * 4)

/-- The address part of a 48-bit local address operand. -/
def va48 (x : Word) : Nat := fld x 47 0

end Sys2Proof.Machine
end

