-- ==== Sys2Proof/Machine/Formats.lean ====
section
/-! DEFINITION. Element formats, exact values, rounding and conversion (file 05), and the IEEE 754-2019 binary32
arithmetic of the units (R288 to R293). -/

namespace Sys2Proof.Machine

/-- An exact value: m × 2^e with a sign, an infinity, or a NaN. -/
inductive Val where
  | nan
  | inf (neg : Bool)
  | fin (neg : Bool) (m : Nat) (e : Int)
  deriving DecidableEq, Repr

/-- A floating format of Table 5-1. `top` is the largest finite value's bits without the sign. -/
structure FFmt where
  eb : Nat
  fb : Nat
  bias : Int
  top : Nat
  hasInf : Bool
  nanBits : Option Nat
  deriving DecidableEq, Repr

/-- Rounding modes (file 05): nearest even, toward zero, stochastic with the 16-bit random value of the element. -/
inductive Rnd where
  | rne
  | rtz
  | sr (r : Nat)
  deriving DecidableEq, Repr

/-- The floating formats by code (Table 5-1); integer and other codes have none. -/
def ffmt : Nat → Option FFmt
  | 0x0 => some { eb := 8, fb := 23, bias := 127, top := 0x7F7FFFFF, hasInf := true, nanBits := some 0x7FC00000 }
  | 0x1 => some { eb := 8, fb := 7, bias := 127, top := 0x7F7F, hasInf := true, nanBits := some 0x7FC0 }
  | 0x2 => some { eb := 5, fb := 10, bias := 15, top := 0x7BFF, hasInf := true, nanBits := some 0x7E00 }
  | 0x3 => some { eb := 4, fb := 3, bias := 7, top := 0x7E, hasInf := false, nanBits := some 0x7F }
  | 0x4 => some { eb := 5, fb := 2, bias := 15, top := 0x7B, hasInf := true, nanBits := some 0x7E }
  | 0x5 => some { eb := 3, fb := 2, bias := 3, top := 0x1F, hasInf := false, nanBits := none }
  | 0x6 => some { eb := 2, fb := 3, bias := 1, top := 0x1F, hasInf := false, nanBits := none }
  | 0x7 => some { eb := 2, fb := 1, bias := 1, top := 0x7, hasInf := false, nanBits := none }
  | _ => none

/-- FP32 as a format. -/
def fp32 : FFmt :=
  { eb := 8, fb := 23, bias := 127, top := 0x7F7FFFFF, hasInf := true, nanBits := some 0x7FC00000 }

/-- binary16 as a format. -/
def fp16 : FFmt :=
  { eb := 5, fb := 10, bias := 15, top := 0x7BFF, hasInf := true, nanBits := some 0x7E00 }

/-- Width in bits of an element of a format code (Table 5-1). -/
def fmtBits : Nat → Nat
  | 0x0 => 32
  | 0x1 => 16
  | 0x2 => 16
  | 0x3 => 8
  | 0x4 => 8
  | 0x5 => 6
  | 0x6 => 6
  | 0x7 => 4
  | 0x8 => 8
  | 0x9 => 4
  | 0xA => 4
  | 0xB => 96
  | 0xC => 64
  | _ => 8

/-- The value of a floating encoding (R249). -/
def decodeFloat (f : FFmt) (x : Nat) : Val :=
  let s := x.testBit (f.eb + f.fb)
  let mag := x % 2 ^ (f.eb + f.fb)
  let e := mag / 2 ^ f.fb
  let fr := mag % 2 ^ f.fb
  if f.top < mag then
    (if f.hasInf && decide (fr = 0) then Val.inf s else Val.nan)
  else if e = 0 then Val.fin s fr (1 - f.bias - f.fb)
  else Val.fin s (2 ^ f.fb + fr) (e - f.bias - f.fb)

/-- The value of an element of a format code; CB4 reads its codebook of 16 E4M3 entries (R249, R258). -/
def decodeElem (code : Nat) (book : List Byte) (x : Nat) : Val :=
  match ffmt code with
  | some f => decodeFloat f x
  | none =>
    if code = 0x8 then
      let v := sval 8 x
      Val.fin (decide (v < 0)) v.natAbs 0
    else if code = 0x9 then
      let v := sval 4 x
      Val.fin (decide (v < 0)) v.natAbs 0
    else if code = 0xA then
      match ffmt 0x3 with
      | some f => decodeFloat f (book.getD (x % 16) 0).toNat
      | none => Val.nan
    else Val.nan

/-- An E8M0 scale (R254): 2^(e − 127), or NaN for 0xFF. -/
def decodeE8M0 (b : Byte) : Val :=
  if b.toNat = 0xFF then Val.nan else Val.fin false 1 ((b.toNat : Int) - 127)

/-- The exact product of two values. -/
def vmulExact : Val → Val → Val
  | Val.nan, _ => Val.nan
  | _, Val.nan => Val.nan
  | Val.inf a, Val.inf b => Val.inf (a != b)
  | Val.inf a, Val.fin b m _ => if m = 0 then Val.nan else Val.inf (a != b)
  | Val.fin a m _, Val.inf b => if m = 0 then Val.nan else Val.inf (a != b)
  | Val.fin a m e, Val.fin b n f => Val.fin (a != b) (m * n) (e + f)

/-- True of a zero. -/
def Val.isZero : Val → Bool
  | Val.fin _ m _ => decide (m = 0)
  | _ => false

/-- True of a NaN or an infinity. -/
def Val.nonFinite : Val → Bool
  | Val.fin _ _ _ => false
  | _ => true

/-- ⌊log2 |v|⌋ of a non-zero finite value. -/
def flog2 (m : Nat) (e : Int) : Int := (Nat.log2 m : Int) + e

/-- The signed integer m scaled to the exponent q ≤ e. -/
def scaledTo (q : Int) (neg : Bool) (m : Nat) (e : Int) : Int :=
  let x : Int := ((m * 2 ^ (e - q).toNat : Nat) : Int)
  if neg then -x else x

/-- The exact sum of two finite values as a signed integer and its exponent. -/
def sumExact (n1 : Bool) (m1 : Nat) (e1 : Int) (n2 : Bool) (m2 : Nat) (e2 : Int) : Int × Int :=
  let q := min e1 e2
  (scaledTo q n1 m1 e1 + scaledTo q n2 m2 e2, q)

/-- num / den divided by 2^q, as a fraction. -/
def scaleRat (num den : Nat) (q : Int) : Nat × Nat :=
  if 0 ≤ q then (num, den * 2 ^ q.toNat) else (num * 2 ^ (-q).toNat, den)

/-- The fraction rounded to an integer (R260, R266), and whether it was exact. -/
def roundQuot (r : Rnd) (num den : Nat) : Nat × Bool :=
  let n := num / den
  let x := num % den
  let up : Bool :=
    match r with
    | Rnd.rne => decide (den < 2 * x) || (decide (2 * x = den) && decide (n % 2 = 1))
    | Rnd.rtz => false
    | Rnd.sr k => decide (65536 ≤ x * 65536 / den + k)
  (if up then n + 1 else n, decide (x = 0))

/-- ⌊log2 (num / den)⌋ of a positive fraction. -/
def ilog2Rat (num den : Nat) : Int :=
  let d : Int := (Nat.log2 num : Int) - (Nat.log2 den : Int)
  let s := scaleRat num den d
  if s.1 < s.2 then d - 1 else d

/-- A positive fraction rounded to the grid of a format, subnormals included, with no upper limit: the bits without
the sign, and whether it was exact. -/
def roundBits (f : FFmt) (r : Rnd) (num den : Nat) : Nat × Bool :=
  if num = 0 then (0, true)
  else
    let emin : Int := 1 - f.bias
    let e := max (ilog2Rat num den) emin
    let s := scaleRat num den (e - f.fb)
    let n := roundQuot r s.1 s.2
    ((e - emin).toNat * 2 ^ f.fb + n.1, n.2)

/-- The sign bit of a format in place. -/
def signBits (f : FFmt) (neg : Bool) : Nat := if neg then 2 ^ (f.eb + f.fb) else 0

/-- The sticky flags of a vector unit (R290) and of conversions (R262 to R264). -/
structure Flg where
  invalid : Bool
  divzero : Bool
  overflow : Bool
  underflow : Bool
  inexact : Bool
  cvtSat : Bool
  nanz : Bool
  deriving DecidableEq, Repr

/-- No flag. -/
def Flg.none : Flg :=
  { invalid := false, divzero := false, overflow := false, underflow := false, inexact := false, cvtSat := false,
    nanz := false }

/-- Flags of two happenings together. -/
def Flg.or (x y : Flg) : Flg :=
  { invalid := x.invalid || y.invalid, divzero := x.divzero || y.divzero, overflow := x.overflow || y.overflow,
    underflow := x.underflow || y.underflow, inexact := x.inexact || y.inexact, cvtSat := x.cvtSat || y.cvtSat,
    nanz := x.nanz || y.nanz }

/-- Canonical NaN of FP32 (R251). -/
def qnan : W32 := 0x7FC00000#32

/-- FP32 infinity. -/
def inf32 (neg : Bool) : W32 := if neg then 0xFF800000#32 else 0x7F800000#32

/-- FP32 zero. -/
def zero32 (neg : Bool) : W32 := if neg then 0x80000000#32 else 0#32

/-- The value of an FP32 word. -/
def val32 (x : W32) : Val := decodeFloat fp32 x.toNat

/-- True of a signalling NaN. -/
def isSnan (x : W32) : Bool :=
  decide (fld x 30 23 = 255) && decide (fld x 22 0 ≠ 0) && !bitAt x 22

/-- A non-zero fraction rounded to FP32 as IEEE 754-2019 rounds results: overflow gives an infinity in
roundTiesToEven and the largest finite value toward zero (R293). -/
def round32 (r : Rnd) (neg : Bool) (num den : Nat) : W32 × Flg :=
  let b := roundBits fp32 r num den
  let tinyBefore := decide (ilog2Rat num den < -126)
  let tinyAfter := decide ((roundBits { fp32 with eb := 20, bias := 100000 } r num den).1 < (100000 - 126) * 2 ^ 23)
  let tiny := tinyBefore && (tinyAfter || !Config.tinyAfterRounding)
  if fp32.top < b.1 then
    ((if r = Rnd.rtz then BitVec.ofNat 32 (signBits fp32 neg + fp32.top) else inf32 neg),
      { Flg.none with overflow := true, inexact := true })
  else
    (BitVec.ofNat 32 (signBits fp32 neg + b.1),
      { Flg.none with inexact := !b.2, underflow := !b.2 && tiny })

/-- A signed exact value x × 2^q rounded to FP32; an exact zero takes the sign given. -/
def roundInt32 (r : Rnd) (zneg : Bool) (x : Int) (q : Int) : W32 × Flg :=
  if x = 0 then (zero32 zneg, Flg.none)
  else
    let s := scaleRat x.natAbs 1 (-q)
    round32 r (decide (x < 0)) s.1 s.2

/-- Result of an operation on a NaN operand: canonical NaN, invalid for a signalling one (R290). -/
def nanResult (xs : List W32) : W32 × Flg := (qnan, { Flg.none with invalid := xs.any isSnan })

/-- An invalid operation. -/
def invalidResult : W32 × Flg := (qnan, { Flg.none with invalid := true })

/-- x × y + z with one rounding, on values (R288). -/
def fmaVal (r : Rnd) (p z : Val) : W32 × Flg :=
  match p, z with
  | Val.nan, _ => invalidResult
  | _, Val.nan => (qnan, Flg.none)
  | Val.inf a, Val.inf b => if a = b then (inf32 a, Flg.none) else invalidResult
  | Val.inf a, Val.fin _ _ _ => (inf32 a, Flg.none)
  | Val.fin _ _ _, Val.inf b => (inf32 b, Flg.none)
  | Val.fin a m e, Val.fin b n f =>
    let s := sumExact a m e b n f
    roundInt32 r (a && b && decide (m = 0) && decide (n = 0)) s.1 s.2

/-- FP32 addition (R288). -/
def add32 (r : Rnd) (x y : W32) : W32 × Flg :=
  match val32 x, val32 y with
  | Val.nan, _ => nanResult [x, y]
  | _, Val.nan => nanResult [x, y]
  | a, b => fmaVal r a b

/-- FP32 negation of a bit pattern. -/
def neg32 (x : W32) : W32 := x ^^^ 0x80000000#32

/-- FP32 subtraction. -/
def sub32 (r : Rnd) (x y : W32) : W32 × Flg :=
  match val32 x, val32 y with
  | Val.nan, _ => nanResult [x, y]
  | _, Val.nan => nanResult [x, y]
  | a, _ => fmaVal r a (val32 (neg32 y))

/-- FP32 multiplication. -/
def mul32 (r : Rnd) (x y : W32) : W32 × Flg :=
  match val32 x, val32 y with
  | Val.nan, _ => nanResult [x, y]
  | _, Val.nan => nanResult [x, y]
  | a, b =>
    match vmulExact a b with
    | Val.nan => invalidResult
    | Val.inf n => (inf32 n, Flg.none)
    | Val.fin n m e => if m = 0 then (zero32 n, Flg.none) else roundInt32 r n (scaledTo e n m e) e

/-- FP32 fused multiply-add x × y + z, one rounding. -/
def fma32 (r : Rnd) (x y z : W32) : W32 × Flg :=
  match val32 x, val32 y, val32 z with
  | Val.nan, _, _ => nanResult [x, y, z]
  | _, Val.nan, _ => nanResult [x, y, z]
  | a, b, c =>
    match vmulExact a b, c with
    | Val.nan, _ => invalidResult
    | _, Val.nan => nanResult [x, y, z]
    | p, d => fmaVal r p d

/-- FP32 division. -/
def div32 (r : Rnd) (x y : W32) : W32 × Flg :=
  match val32 x, val32 y with
  | Val.nan, _ => nanResult [x, y]
  | _, Val.nan => nanResult [x, y]
  | Val.inf _, Val.inf _ => invalidResult
  | Val.inf a, Val.fin b _ _ => (inf32 (a != b), Flg.none)
  | Val.fin a _ _, Val.inf b => (zero32 (a != b), Flg.none)
  | Val.fin a m e, Val.fin b n f =>
    if n = 0 then (if m = 0 then invalidResult else (inf32 (a != b), { Flg.none with divzero := true }))
    else if m = 0 then (zero32 (a != b), Flg.none)
    else
      let s := scaleRat m n (f - e)
      round32 r (a != b) s.1 s.2

/-- FP32 square root: the integer square root with 40 extra bits, and a sticky bit below. -/
def sqrt32 (r : Rnd) (x : W32) : W32 × Flg :=
  match val32 x with
  | Val.nan => nanResult [x]
  | Val.inf n => if n then invalidResult else (inf32 false, Flg.none)
  | Val.fin n m e =>
    if m = 0 then (zero32 n, Flg.none)
    else if n then invalidResult
    else
      let odd := decide (e % 2 ≠ 0)
      let m1 := if odd then 2 * m else m
      let e1 := if odd then e - 1 else e
      let big := m1 * 2 ^ 80
      let s := Nat.sqrt big
      let s2 := 2 * s + (if s * s = big then 0 else 1)
      roundInt32 r false (s2 : Int) (e1 / 2 - 41)

/-- Order of two values, −0 equal to +0: less, equal, greater; none when either is a NaN. -/
def cmpVal : Val → Val → Option Ordering
  | Val.nan, _ => none
  | _, Val.nan => none
  | Val.inf a, Val.inf b => some (if a = b then Ordering.eq else if a then Ordering.lt else Ordering.gt)
  | Val.inf a, Val.fin _ _ _ => some (if a then Ordering.lt else Ordering.gt)
  | Val.fin _ _ _, Val.inf b => some (if b then Ordering.gt else Ordering.lt)
  | Val.fin a m e, Val.fin b n f => some (compare (sumExact a m e (!b) n f).1 0)

/-- True when the first value is strictly less. -/
def ltVal (x y : Val) : Bool := decide (cmpVal x y = some Ordering.lt)

/-- IEEE 754-2019 minimum: a NaN operand gives the canonical NaN, +0 above −0 (R291). -/
def min32 (x y : W32) : W32 × Flg :=
  match cmpVal (val32 x) (val32 y) with
  | none => nanResult [x, y]
  | some Ordering.lt => (x, Flg.none)
  | some Ordering.gt => (y, Flg.none)
  | some Ordering.eq => (if bitAt x 31 then x else y, Flg.none)

/-- IEEE 754-2019 maximum (R291). -/
def max32 (x y : W32) : W32 × Flg :=
  match cmpVal (val32 x) (val32 y) with
  | none => nanResult [x, y]
  | some Ordering.lt => (y, Flg.none)
  | some Ordering.gt => (x, Flg.none)
  | some Ordering.eq => (if bitAt x 31 then y else x, Flg.none)

/-- The number of a count as FP32, rounded with RNE. -/
def nat32 (n : Nat) : W32 := (roundInt32 Rnd.rne false (n : Int) 0).1

/-! ### Conversion of an exact value to an element format (R259 to R266) -/

/-- The largest finite magnitude of a floating format. -/
def topVal (f : FFmt) : Val := decodeFloat f f.top

/-- Distance of two finite values as a magnitude and an exponent. -/
def distVal : Val → Val → Nat × Int
  | Val.fin a m e, Val.fin b n f =>
    let s := sumExact a m e (!b) n f
    (s.1.natAbs, s.2)
  | _, _ => (0, 0)

/-- The index nearest to a value among codebook entries that are not NaN, lowest index first (R259). -/
def nearestEntry (v : Val) : List Byte → Nat → Option (Nat × Nat × Int) → Option (Nat × Nat × Int)
  | [], _, best => best
  | b :: bs, i, best =>
    let x := decodeElem 0x3 [] b.toNat
    if x = Val.nan then nearestEntry v bs (i + 1) best
    else
      let d := distVal x v
      match best with
      | none => nearestEntry v bs (i + 1) (some (i, d.1, d.2))
      | some (_, m, e) =>
        if ltVal (Val.fin false d.1 d.2) (Val.fin false m e) then nearestEntry v bs (i + 1) (some (i, d.1, d.2))
        else nearestEntry v bs (i + 1) best

/-- The index of the extreme entry that is not NaN: largest for `up`, else smallest, lowest index among equals. -/
def extremeEntry (up : Bool) : List Byte → Nat → Option (Nat × Val) → Option (Nat × Val)
  | [], _, best => best
  | b :: bs, i, best =>
    let x := decodeElem 0x3 [] b.toNat
    if x = Val.nan then extremeEntry up bs (i + 1) best
    else
      match best with
      | none => extremeEntry up bs (i + 1) (some (i, x))
      | some (_, y) =>
        if (if up then ltVal y x else ltVal x y) then extremeEntry up bs (i + 1) (some (i, x))
        else extremeEntry up bs (i + 1) best

/-- The index of the lowest NaN entry, else 0 (R259). -/
def nanEntry : List Byte → Nat → Nat
  | [], _ => 0
  | b :: bs, i => if decodeElem 0x3 [] b.toNat = Val.nan then i else nanEntry bs (i + 1)

/-- A finite value lies beyond the codebook's largest or least value (R262). -/
def beyondBook (book : List Byte) (v : Val) : Bool :=
  (match extremeEntry true book 0 none with
   | some x => ltVal x.2 v
   | none => false) ||
  (match extremeEntry false book 0 none with
   | some x => ltVal v x.2
   | none => false)

/-- Conversion to CB4 (R259). -/
def toCb4 (book : List Byte) (v : Val) : Nat × Flg :=
  match v with
  | Val.nan => (nanEntry book 0, Flg.none)
  | Val.inf n => (((extremeEntry (!n) book 0 none).map (·.1)).getD 0, { Flg.none with cvtSat := true })
  | Val.fin _ _ _ =>
    (((nearestEntry v book 0 none).map (·.1)).getD 0, { Flg.none with cvtSat := beyondBook book v })

/-- Conversion to a two's-complement integer of `n` bits (R265; R263, R264 for infinities and NaN). -/
def toInt (n : Nat) (r : Rnd) (v : Val) : Nat × Flg :=
  let top : Int := 2 ^ (n - 1) - 1
  let low : Int := -(2 ^ (n - 1))
  match v with
  | Val.nan => (0, { Flg.none with nanz := true })
  | Val.inf s => (ofSval n (if s then low else top), { Flg.none with cvtSat := true })
  | Val.fin s m e =>
    let q := scaleRat m 1 (-e)
    let k := (roundQuot r q.1 q.2).1
    let x : Int := if s then -(k : Int) else (k : Int)
    if top < x then (ofSval n top, { Flg.none with cvtSat := true })
    else if x < low then (ofSval n low, { Flg.none with cvtSat := true })
    else (ofSval n x, Flg.none)

/-- Conversion to a floating format (R260 to R264, R266). -/
def toFloat (f : FFmt) (r : Rnd) (v : Val) : Nat × Flg :=
  match v with
  | Val.nan =>
    match f.nanBits with
    | some b => (b, Flg.none)
    | none => (0, { Flg.none with nanz := true })
  | Val.inf s =>
    if f.hasInf then (signBits f s + (2 ^ f.eb - 1) * 2 ^ f.fb, Flg.none)
    else (signBits f s + f.top, { Flg.none with cvtSat := true })
  | Val.fin s m e =>
    if ltVal (topVal f) (Val.fin false m e) then (signBits f s + f.top, { Flg.none with cvtSat := true })
    else
      let q := scaleRat m 1 (-e)
      (signBits f s + (roundBits f r q.1 q.2).1, Flg.none)

/-- Conversion of an exact value to an element of a format code (R259 to R266). -/
def convertElem (code : Nat) (book : List Byte) (r : Rnd) (v : Val) : Nat × Flg :=
  match ffmt code with
  | some f => toFloat f r v
  | none =>
    if code = 0x8 then toInt 8 r v
    else if code = 0x9 then toInt 4 r v
    else toCb4 book v

/-! ### Packing (R250) -/

/-- Element `i` of `w`-bit elements packed from the lowest address upward. -/
def packedElem (w : Nat) (bs : List Byte) (i : Nat) : Nat :=
  let p := i * w
  nfld (leNat ((bs.drop (p / 8)).take ((p % 8 + w + 7) / 8))) (p % 8 + w - 1) (p % 8)

/-- Elements packed into bytes; the last byte is filled with zeros. -/
def packElems (w : Nat) (xs : List Nat) : List Byte :=
  leBytes ((xs.length * w + 7) / 8) (xs.foldr (fun x a => x % 2 ^ w + a * 2 ^ w) 0)

/-! ### The keyed random generator (R267) -/

/-- A ChaCha quarter round on words a, b, c, d. -/
def quarter (a b c d : W32) : W32 × W32 × W32 × W32 :=
  let a := a + b
  let d := (d ^^^ a).rotateLeft 16
  let c := c + d
  let b := (b ^^^ c).rotateLeft 12
  let a := a + b
  let d := (d ^^^ a).rotateLeft 8
  let c := c + d
  let b := (b ^^^ c).rotateLeft 7
  (a, b, c, d)

/-- A quarter round on four positions of the state. -/
def quarterAt (s : List W32) (i j k l : Nat) : List W32 :=
  let q := quarter (s.getD i 0) (s.getD j 0) (s.getD k 0) (s.getD l 0)
  (((s.set i q.1).set j q.2.1).set k q.2.2.1).set l q.2.2.2

/-- A double round: columns, then diagonals. -/
def doubleRound (s : List W32) : List W32 :=
  let s := quarterAt s 0 4 8 12
  let s := quarterAt s 1 5 9 13
  let s := quarterAt s 2 6 10 14
  let s := quarterAt s 3 7 11 15
  let s := quarterAt s 0 5 10 15
  let s := quarterAt s 1 6 11 12
  let s := quarterAt s 2 7 8 13
  quarterAt s 3 4 9 14

/-- The 16-bit random value of element index `i` under a 48-byte random descriptor (R267). -/
def randomValue (desc : List Byte) (i : Nat) : Nat :=
  let key := leWords 4 8 desc
  let stream := leNat ((desc.drop 32).take 8)
  let base := leNat ((desc.drop 40).take 8)
  let p := (base + i) % 2 ^ 64
  let c := p / 32
  let j := p % 32
  let w : Nat → W32 := fun n => BitVec.ofNat 32 n
  let s : List W32 :=
    [0x61707865#32, 0x3320646E#32, 0x79622D32#32, 0x6B206574#32] ++ key.map w ++
      [w c, w (c / 2 ^ 32), w stream, w (stream / 2 ^ 32)]
  let t := doubleRound (doubleRound (doubleRound (doubleRound s)))
  let out := (List.zipWith (· + ·) s t).flatMap (fun x => leBytes 4 x.toNat)
  leNat ((out.drop (2 * j)).take 2)

/-- Rounding modes by code, with the random descriptor and element index of SR; code 3 is reserved. -/
def rndOf (code : Nat) (desc : List Byte) (i : Nat) : Rnd :=
  if code = 0 then Rnd.rne else if code = 1 then Rnd.rtz else Rnd.sr (randomValue desc i)

end Sys2Proof.Machine
end

