-- ==== Sys2Proof/Machine/Crc.lean ====
section
/-! DEFINITION. Checksums and the digest function: CRC-24 of flits (R569), CRC-32C of transactions (R597), CRC-64/XZ of
gobs (R479), and SHAKE256 (R412, R665, R740). -/

namespace Sys2Proof.Machine

/-- One bit of a CRC that shifts right. -/
def crcBitR (poly : Nat) (c : Nat) : Nat := if c % 2 = 1 then (c / 2) ^^^ poly else c / 2

/-- One byte of a CRC that shifts right. -/
def crcByteR (poly c : Nat) (b : Byte) : Nat :=
  Nat.rec (c ^^^ b.toNat) (fun _ x => crcBitR poly x) 8

/-- CRC-32C, polynomial 0x1EDC_6F41, reflected, initial value and final exclusive-or all ones. -/
def crc32c (bs : List Byte) : Nat := (bs.foldl (crcByteR 0x82F63B78) 0xFFFFFFFF) ^^^ 0xFFFFFFFF

/-- CRC-64/XZ. -/
def crc64xz (bs : List Byte) : Nat :=
  (bs.foldl (crcByteR 0xC96C5795D7870F42) 0xFFFFFFFFFFFFFFFF) ^^^ 0xFFFFFFFFFFFFFFFF

/-- One bit of a 24-bit CRC that shifts left. -/
def crcBitL (c : Nat) : Nat :=
  let x := (c * 2) % 2 ^ 24
  if c.testBit 23 then x ^^^ 0x864CFB else x

/-- One byte of the CRC of flits. -/
def crcByteL (c : Nat) (b : Byte) : Nat :=
  Nat.rec (c ^^^ (b.toNat * 2 ^ 16)) (fun _ x => crcBitL x) 8

/-- CRC-24, polynomial 0x86_4CFB, initial value 0xB7_04CE. -/
def crc24 (bs : List Byte) : Nat := bs.foldl crcByteL 0xB704CE

/-! ### SHAKE256

The spec names the function and its output lengths only. The permutation is written without tables: the offsets of
its rotations are the triangular numbers met on the walk over the lanes, and its round constants come from the bits
of the feedback register x^8 + x^6 + x^5 + x^4 + 1. -/

/-- A 64-bit lane turned left by `n` places. -/
def turnLane (v n : Nat) : Nat := v * 2 ^ (n % 64) % 2 ^ 64 + v / 2 ^ (64 - n % 64)

/-- One step of the feedback register. -/
def lfsrNext (r : Nat) : Nat := if r < 128 then 2 * r else (2 * r) ^^^ 0x171

/-- The next seven bits of the register, put at places 2^j - 1 of a lane, and the register after them. -/
def roundMask : Nat → Nat → Nat → Nat × Nat
  | 0, _, r => (0, r)
  | k + 1, place, r =>
    match roundMask k (2 * place) (lfsrNext r) with
    | (m, r') => (m + r % 2 * 2 ^ (place - 1), r')

/-- The parity of each column of lanes, five by five. -/
def columnParity (s : List Nat) : Nat → Nat → Nat
  | 0, _ => 0
  | k + 1, x => s.getD (5 * k + x) 0 ^^^ columnParity s k x

/-- Adds to each lane the parities of the two columns beside it. -/
def mixColumns (s : List Nat) : List Nat :=
  let p := (List.range 5).map (columnParity s 5)
  s.mapIdx fun i v => v ^^^ p.getD ((i + 4) % 5) 0 ^^^ turnLane (p.getD ((i + 1) % 5) 0) 1

/-- Walks from the lane at `x`, `y`: each lane met gives way to the one carried, turned by the next triangular number. -/
def walkLanes : Nat → Nat → Nat → Nat → Nat → List Nat → List Nat
  | 0, _, _, _, _, s => s
  | k + 1, t, x, y, carried, s =>
    let y' := (2 * x + 3 * y) % 5
    walkLanes k (t + 1) y y' (s.getD (5 * y' + y) 0)
      (s.set (5 * y' + y) (turnLane carried ((t + 1) * (t + 2) / 2)))

/-- A row of five lanes after the non-linear step. -/
def mixRow : List Nat → List Nat
  | [a, b, c, d, e] =>
    let f := fun u v w => u ^^^ (w - (v &&& w))
    [f a b c, f b c d, f c d e, f d e a, f e a b]
  | r => r

/-- The non-linear step over `k` rows. -/
def mixRows : Nat → List Nat → List Nat
  | 0, s => s
  | k + 1, s => mixRow (s.take 5) ++ mixRows k (s.drop 5)

/-- `k` rounds, with the register that gives their constants. -/
def permute : Nat → Nat → List Nat → List Nat
  | 0, _, s => s
  | k + 1, r, s =>
    let c := roundMask 7 1 r
    let u := mixColumns s
    permute k c.2 ((mixRows 5 (walkLanes 24 0 1 0 (u.getD 1 0) u)).modifyHead (· ^^^ c.1))

/-- Takes in `k` blocks of 136 bytes. -/
def takeBlocks : Nat → List Nat → List Byte → List Nat
  | 0, s, _ => s
  | k + 1, s, bs =>
    let w := leWords 8 17 bs
    takeBlocks k (permute 24 1 (s.mapIdx fun i v => v ^^^ w.getD i 0)) (bs.drop 136)

/-- Fills the last block: the bits 1111, a one, zeros, and a one at the end of the block. -/
def lastBlock (bs : List Byte) : List Byte :=
  let k := 135 - bs.length % 136
  bs ++ leBytes (k + 1) (0x1F + 2 ^ (8 * k + 7))

/-- SHAKE256: the first `n` ≤ 136 bytes of its output. -/
def shake256 (n : Nat) (bs : List Byte) : List Byte :=
  ((takeBlocks (bs.length / 136 + 1) (List.replicate 25 0) (lastBlock bs)).flatMap (leBytes 8)).take n

/-- The 128-bit digest of a byte stream (R412, R665). -/
def digest128 (bs : List Byte) : BitVec 128 := BitVec.ofNat 128 (leNat (shake256 16 bs))

end Sys2Proof.Machine
end

