-- ==== Sys2Proof/Machine/Regs.lean ====
section
/-! DEFINITION. The register maps of the blocks, as the spec's tables give them: the offset of each register, and for
each its view, whether it is job-scoped, and its fields with access code and change class (R14, R18, R21). -/

namespace Sys2Proof.Machine

/-- Access codes (Table 0-4). -/
inductive Acc where
  | ro
  | rw
  | w1c
  | wo
  | rc
  deriving DecidableEq, Repr

/-- Change classes (Table 0-6); `n` for fields that software does not set. -/
inductive Cls where
  | n
  | d
  | s
  | l
  deriving DecidableEq, Repr

/-- View codes (Table 0-5). -/
inductive View where
  | p
  | j
  | jr
  deriving DecidableEq, Repr

/-- To what a job-scoped register belongs (R17): a slot, a cadence's owner, a pool's owner. -/
inductive Scope where
  | none
  | slot
  | cad
  | pool
  deriving DecidableEq, Repr

/-- A field: bits [hi:lo], access, class. -/
structure RField where
  hi : Nat
  lo : Nat
  acc : Acc
  cls : Cls
  deriving DecidableEq, Repr

/-- A register with its dimensions as (stride, count) from the outermost. -/
structure RDesc where
  name : String
  base : Nat
  dims : List (Nat × Nat)
  view : View
  scope : Scope
  fields : List RField
  deriving DecidableEq, Repr

/-! ### BAR0 offsets -/

namespace Reg

/-- RTE_ID. -/
def RTE_ID : Nat := 0x800000

/-- RTE_CTRL. -/
def RTE_CTRL : Nat := 0x800008

/-- RTE_STATUS. -/
def RTE_STATUS : Nat := 0x800010

/-- RCTX_CFG. -/
def RCTX_CFG (s : Nat) : Nat := 0x801000 + 0x100 * s

/-- RCTX_STATE. -/
def RCTX_STATE (s : Nat) : Nat := 0x801008 + 0x100 * s

/-- RCTX_CANCEL. -/
def RCTX_CANCEL (s : Nat) : Nat := 0x801010 + 0x100 * s

/-- RCTX_STATUS. -/
def RCTX_STATUS (s : Nat) : Nat := 0x801018 + 0x100 * s

/-- LEDG. -/
def LEDG (s i : Nat) : Nat := 0x801020 + 0x100 * s + 0x8 * i

/-- LEDG_INFO. -/
def LEDG_INFO (s : Nat) : Nat := 0x801060 + 0x100 * s

/-- STALE_DROPS. -/
def STALE_DROPS (s : Nat) : Nat := 0x801080 + 0x100 * s

/-- NAN_SCORES. -/
def NAN_SCORES (s : Nat) : Nat := 0x801088 + 0x100 * s

/-- DECISIONS. -/
def DECISIONS (s : Nat) : Nat := 0x801090 + 0x100 * s

/-- RTD. -/
def RTD (n w : Nat) : Nat := 0x810000 + 0x40 * n + 0x8 * w

/-- GFT_CFG. -/
def GFT_CFG (t : Nat) : Nat := 0x820000 + 0x8 * t

/-- GFT_SEG. -/
def GFT_SEG (t i : Nat) : Nat := 0x821000 + 0x1000 * t + 0x8 * i

/-- WORK. -/
def WORK (e w : Nat) : Nat := 0x900000 + 0x10 * e + 0x8 * w

/-- XCH_ID. -/
def XCH_ID : Nat := 0xF00000

/-- XCH_CFG. -/
def XCH_CFG (s : Nat) : Nat := 0xF01000 + 0x100 * s

/-- XCH_STATUS. -/
def XCH_STATUS (s : Nat) : Nat := 0xF01008 + 0x100 * s

/-- XCH_BAD_TAGS. -/
def XCH_BAD_TAGS (s : Nat) : Nat := 0xF01010 + 0x100 * s

/-- XCH_REFETCHES. -/
def XCH_REFETCHES (s : Nat) : Nat := 0xF01018 + 0x100 * s

/-- XCH_LAST_EXP. -/
def XCH_LAST_EXP (s : Nat) : Nat := 0xF01020 + 0x100 * s

/-- XCH_LAST_GOT. -/
def XCH_LAST_GOT (s : Nat) : Nat := 0xF01028 + 0x100 * s

/-- XCH_LAST_SRC. -/
def XCH_LAST_SRC (s : Nat) : Nat := 0xF01030 + 0x100 * s

/-- XCH_BINS. -/
def XCH_BINS (s : Nat) : Nat := 0xF01038 + 0x100 * s

/-- ENG_ID. -/
def ENG_ID (e : Nat) : Nat := 0x2000000 + 0x100000 * e

/-- ENG_CTRL. -/
def ENG_CTRL (e : Nat) : Nat := 0x2000008 + 0x100000 * e

/-- ENG_STATUS. -/
def ENG_STATUS (e : Nat) : Nat := 0x2000010 + 0x100000 * e

/-- ENG_CFG. -/
def ENG_CFG (e : Nat) : Nat := 0x2000018 + 0x100000 * e

/-- ENG_REPAIR. -/
def ENG_REPAIR (e : Nat) : Nat := 0x2000020 + 0x100000 * e

/-- ENG_SKEW. -/
def ENG_SKEW (e : Nat) : Nat := 0x2000028 + 0x100000 * e

/-- ENG_VFLAGS. -/
def ENG_VFLAGS (e : Nat) : Nat := 0x2000030 + 0x100000 * e

/-- ENG_TILES. -/
def ENG_TILES (e : Nat) : Nat := 0x2000038 + 0x100000 * e

/-- ENG_ROWS. -/
def ENG_ROWS (e : Nat) : Nat := 0x2000040 + 0x100000 * e

/-- ENG_BUBBLES. -/
def ENG_BUBBLES (e : Nat) : Nat := 0x2000048 + 0x100000 * e

/-- ENG_WSTALL. -/
def ENG_WSTALL (e : Nat) : Nat := 0x2000050 + 0x100000 * e

/-- ENG_RESIDUE. -/
def ENG_RESIDUE (e : Nat) : Nat := 0x2000058 + 0x100000 * e

/-- PF_STATE. -/
def PF_STATE (e i : Nat) : Nat := 0x2000100 + 0x100000 * e + 0x8 * i

/-- ENG_SKIPBLK. -/
def ENG_SKIPBLK (e : Nat) : Nat := 0x2000060 + 0x100000 * e

/-- ENG_PFSKIP. -/
def ENG_PFSKIP (e : Nat) : Nat := 0x2000068 + 0x100000 * e

/-- ENG_PFMISS. -/
def ENG_PFMISS (e : Nat) : Nat := 0x2000070 + 0x100000 * e

/-- ENG_SPSTAT. -/
def ENG_SPSTAT (e : Nat) : Nat := 0x2000078 + 0x100000 * e

/-- JOB_ID. -/
def JOB_ID (s : Nat) : Nat := 0x500000 + 0x100 * s

/-- JOB_ADMIT. -/
def JOB_ADMIT (s : Nat) : Nat := 0x500008 + 0x100 * s

/-- JOB_MAP. -/
def JOB_MAP (s i : Nat) : Nat := 0x580000 + 0x2000 * s + 0x8 * i

/-- SCH_ID. -/
def SCH_ID : Nat := 0x600000

/-- SCH_CTRL. -/
def SCH_CTRL : Nat := 0x600008

/-- SCH_STATUS. -/
def SCH_STATUS : Nat := 0x600010

/-- SCH_SHARE. -/
def SCH_SHARE (s : Nat) : Nat := 0x601000 + 0x100 * s

/-- SCH_CCORES. -/
def SCH_CCORES (s : Nat) : Nat := 0x601008 + 0x100 * s

/-- SCH_SLOTSTAT. -/
def SCH_SLOTSTAT (s : Nat) : Nat := 0x601010 + 0x100 * s

/-- SCH_STARTS. -/
def SCH_STARTS (s : Nat) : Nat := 0x601018 + 0x100 * s

/-- SQ_BASE. -/
def SQ_BASE (s q : Nat) : Nat := 0x601040 + 0x100 * s + 0x20 * q

/-- SQ_CFG. -/
def SQ_CFG (s q : Nat) : Nat := 0x601048 + 0x100 * s + 0x20 * q

/-- SQ_TAKEN. -/
def SQ_TAKEN (s q : Nat) : Nat := 0x601050 + 0x100 * s + 0x20 * q

/-- SCH_RES. -/
def SCH_RES (n i : Nat) : Nat := 0x608000 + 0x20 * n + 0x8 * i

/-- CAD_OWN. -/
def CAD_OWN (c : Nat) : Nat := 0x610000 + 0x40 * c

/-- CAD_CFG. -/
def CAD_CFG (c : Nat) : Nat := 0x610008 + 0x40 * c

/-- CAD_QUOTA. -/
def CAD_QUOTA (c : Nat) : Nat := 0x610010 + 0x40 * c

/-- CAD_STATE. -/
def CAD_STATE (c : Nat) : Nat := 0x610018 + 0x40 * c

/-- CAD_STATUS. -/
def CAD_STATUS (c : Nat) : Nat := 0x610020 + 0x40 * c

/-- CAD_OVERRUNS. -/
def CAD_OVERRUNS (c : Nat) : Nat := 0x610028 + 0x40 * c

/-- CAD_MAXDEBT. -/
def CAD_MAXDEBT (c : Nat) : Nat := 0x610030 + 0x40 * c

/-- TIR_ID. -/
def TIR_ID : Nat := 0x1000000

/-- TIR_CTRL. -/
def TIR_CTRL : Nat := 0x1000008

/-- TIR_STATUS. -/
def TIR_STATUS : Nat := 0x1000010

/-- TIR_EDIT_VA. -/
def TIR_EDIT_VA : Nat := 0x1000020

/-- TIR_EDIT_W0. -/
def TIR_EDIT_W0 : Nat := 0x1000028

/-- TIR_EDIT_W1. -/
def TIR_EDIT_W1 : Nat := 0x1000030

/-- TIR_EDIT_OP. -/
def TIR_EDIT_OP : Nat := 0x1000038

/-- TT_BASE. -/
def TT_BASE (s : Nat) : Nat := 0x1001000 + 0x100 * s

/-- OBJ_CFG. -/
def OBJ_CFG (s : Nat) : Nat := 0x1001008 + 0x100 * s

/-- QUOTA. -/
def QUOTA (s : Nat) : Nat := 0x1001010 + 0x100 * s

/-- USAGE. -/
def USAGE (s : Nat) : Nat := 0x1001018 + 0x100 * s

/-- WINDOW. -/
def WINDOW (s : Nat) : Nat := 0x1001020 + 0x100 * s

/-- TIR_SSTAT. -/
def TIR_SSTAT (s : Nat) : Nat := 0x1001028 + 0x100 * s

/-- REFETCHES. -/
def REFETCHES (s : Nat) : Nat := 0x1001030 + 0x100 * s

/-- HINTS. -/
def HINTS (s : Nat) : Nat := 0x1001038 + 0x100 * s

/-- QUAR_LAST. -/
def QUAR_LAST (s : Nat) : Nat := 0x1001040 + 0x100 * s

/-- QUAR_COUNT. -/
def QUAR_COUNT (s : Nat) : Nat := 0x1001048 + 0x100 * s

/-- RT_OBJ. -/
def RT_OBJ (r : Nat) : Nat := 0x1010000 + 0x8 * r

/-- MEM_ID. -/
def MEM_ID : Nat := 0x1400000

/-- MEM_CFG. -/
def MEM_CFG : Nat := 0x1400008

/-- MEM_STATUS. -/
def MEM_STATUS : Nat := 0x1400010

/-- MEM_FRAMES. -/
def MEM_FRAMES : Nat := 0x1400018

/-- MEM_CE. -/
def MEM_CE : Nat := 0x1400020

/-- MEM_UE. -/
def MEM_UE : Nat := 0x1400028

/-- MEM_LAST_UE. -/
def MEM_LAST_UE : Nat := 0x1400030

/-- MEM_SCRUB. -/
def MEM_SCRUB : Nat := 0x1400038

/-- MEM_CH. -/
def MEM_CH (c : Nat) : Nat := 0x1400100 + 0x8 * c

/-- CUL_ID. -/
def CUL_ID : Nat := 0x1800000

/-- CUL_STATUS. -/
def CUL_STATUS : Nat := 0x1800008

/-- LEDGER_STATUS. -/
def LEDGER_STATUS : Nat := 0x1800020

/-- LEDGER_CE. -/
def LEDGER_CE : Nat := 0x1800028

/-- LSYN_APPLIED. -/
def LSYN_APPLIED (s : Nat) : Nat := 0x1801000 + 0x100 * s

/-- LSYN_CONSUMED. -/
def LSYN_CONSUMED (s : Nat) : Nat := 0x1801008 + 0x100 * s

/-- LSYN_STANDING. -/
def LSYN_STANDING (s : Nat) : Nat := 0x1801010 + 0x100 * s

/-- LRP_PENDING. -/
def LRP_PENDING (s : Nat) : Nat := 0x1801018 + 0x100 * s

/-- LRP_FAILED. -/
def LRP_FAILED (s : Nat) : Nat := 0x1801020 + 0x100 * s

/-- LBUF_RECLAIMED. -/
def LBUF_RECLAIMED (s : Nat) : Nat := 0x1801028 + 0x100 * s

/-- POOL_CFG. -/
def POOL_CFG (p : Nat) : Nat := 0x1810000 + 0x80 * p

/-- POOL_BASE. -/
def POOL_BASE (p : Nat) : Nat := 0x1810008 + 0x80 * p

/-- POOL_REC. -/
def POOL_REC (p : Nat) : Nat := 0x1810010 + 0x80 * p

/-- POOL_THR. -/
def POOL_THR (p : Nat) : Nat := 0x1810018 + 0x80 * p

/-- POOL_QUOTA. -/
def POOL_QUOTA (p : Nat) : Nat := 0x1810020 + 0x80 * p

/-- POOL_ALERT. -/
def POOL_ALERT (p : Nat) : Nat := 0x1810028 + 0x80 * p

/-- POOL_CTRL. -/
def POOL_CTRL (p : Nat) : Nat := 0x1810030 + 0x80 * p

/-- POOL_STAT. -/
def POOL_STAT (p : Nat) : Nat := 0x1810038 + 0x80 * p

/-- POOL_HELD. -/
def POOL_HELD (p : Nat) : Nat := 0x1810040 + 0x80 * p

/-- POOL_ALLOCS. -/
def POOL_ALLOCS (p : Nat) : Nat := 0x1810048 + 0x80 * p

/-- POOL_RECLAIM. -/
def POOL_RECLAIM (p : Nat) : Nat := 0x1810050 + 0x80 * p

/-- SYN_STATE. -/
def SYN_STATE (i : Nat) : Nat := 0x1A00000 + 0x10 * i

/-- SYN_CTL. -/
def SYN_CTL (i : Nat) : Nat := 0x1A00008 + 0x10 * i

/-- SYN_ID. -/
def SYN_ID : Nat := 0x1B00000

/-- SYN_STATUS. -/
def SYN_STATUS : Nat := 0x1B00008

/-- SYN_POST. -/
def SYN_POST : Nat := 0x1B00010

/-- SYN_RESET. -/
def SYN_RESET : Nat := 0x1B00018

/-- SYN_RANGE. -/
def SYN_RANGE (s : Nat) : Nat := 0x1B01000 + 0x100 * s

/-- SYN_HREJ. -/
def SYN_HREJ (s : Nat) : Nat := 0x1B01008 + 0x100 * s

/-- FAB_ID. -/
def FAB_ID : Nat := 0xC00000

/-- FAB_NODE. -/
def FAB_NODE : Nat := 0xC00008

/-- FAB_TOPO. -/
def FAB_TOPO : Nat := 0xC00010

/-- FAB_CFG. -/
def FAB_CFG : Nat := 0xC00018

/-- FAB_STATUS. -/
def FAB_STATUS : Nat := 0xC00020

/-- FAB_SEQ_KEY. -/
def FAB_SEQ_KEY : Nat := 0xC00028

/-- FAB_SEQ_VAL. -/
def FAB_SEQ_VAL : Nat := 0xC00030

/-- FAB_RETX. -/
def FAB_RETX : Nat := 0xC00038

/-- FAB_DUPS. -/
def FAB_DUPS : Nat := 0xC00040

/-- FAB_OOS. -/
def FAB_OOS : Nat := 0xC00048

/-- FAB_REJECTS. -/
def FAB_REJECTS : Nat := 0xC00050

/-- FAB_DROPS. -/
def FAB_DROPS : Nat := 0xC00058

/-- FAB_SEQTAB. -/
def FAB_SEQTAB : Nat := 0xC00060

/-- FAB_SSTAT. -/
def FAB_SSTAT (s : Nat) : Nat := 0xC01000 + 0x100 * s

/-- PORT_CTRL. -/
def PORT_CTRL (p : Nat) : Nat := 0xC10000 + 0x1000 * p

/-- PORT_STATE. -/
def PORT_STATE (p : Nat) : Nat := 0xC10008 + 0x1000 * p

/-- PORT_PARTNER. -/
def PORT_PARTNER (p : Nat) : Nat := 0xC10010 + 0x1000 * p

/-- PORT_LANES. -/
def PORT_LANES (p : Nat) : Nat := 0xC10018 + 0x1000 * p

/-- PORT_FEC. -/
def PORT_FEC (p : Nat) : Nat := 0xC10020 + 0x1000 * p

/-- PORT_RETRY. -/
def PORT_RETRY (p : Nat) : Nat := 0xC10028 + 0x1000 * p

/-- PORT_LEDG. -/
def PORT_LEDG (p : Nat) : Nat := 0xC10030 + 0x1000 * p

/-- PORT_CRED. -/
def PORT_CRED (p v : Nat) : Nat := 0xC10040 + 0x1000 * p + 0x8 * v

/-- WIN. -/
def WIN (i w : Nat) : Nat := 0xD00000 + 0x20 * i + 0x8 * w

/-- FLT_ID. -/
def FLT_ID : Nat := 0x700000

/-- FLT_HEAD. -/
def FLT_HEAD (s : Nat) : Nat := 0x701000 + 0x100 * s

/-- FLT_CFG. -/
def FLT_CFG (s : Nat) : Nat := 0x701008 + 0x100 * s

/-- FLT_STATUS. -/
def FLT_STATUS (s : Nat) : Nat := 0x701010 + 0x100 * s

/-- JOB_PROFILE. -/
def JOB_PROFILE (s : Nat) : Nat := 0x701018 + 0x100 * s

/-- TWIN_CFG. -/
def TWIN_CFG (s : Nat) : Nat := 0x701020 + 0x100 * s

/-- TWIN_STATUS. -/
def TWIN_STATUS (s : Nat) : Nat := 0x701028 + 0x100 * s

/-- TWIN_OWN. -/
def TWIN_OWN (s i : Nat) : Nat := 0x701030 + 0x100 * s + 0x8 * i

/-- TWIN_PEER. -/
def TWIN_PEER (s i : Nat) : Nat := 0x701040 + 0x100 * s + 0x8 * i

/-- TWIN_FIRST. -/
def TWIN_FIRST (s : Nat) : Nat := 0x701050 + 0x100 * s

/-- TWIN_WHERE. -/
def TWIN_WHERE (s : Nat) : Nat := 0x701058 + 0x100 * s

/-- FLOG. -/
def FLOG (s n w : Nat) : Nat := 0x710000 + 0x4000 * s + 0x40 * n + 0x8 * w

/-- PWR_ID. -/
def PWR_ID : Nat := 0x200000

/-- PWR_CAP. -/
def PWR_CAP : Nat := 0x200008

/-- PWR_LIMIT. -/
def PWR_LIMIT : Nat := 0x200010

/-- PWR_PACE. -/
def PWR_PACE : Nat := 0x200018

/-- PWR_STATUS. -/
def PWR_STATUS : Nat := 0x200020

/-- PWR_MEAS. -/
def PWR_MEAS : Nat := 0x200028

/-- PWR_GUARD. -/
def PWR_GUARD : Nat := 0x200030

/-- PWR_GATE. -/
def PWR_GATE : Nat := 0x200038

/-- PWR_EVENTS. -/
def PWR_EVENTS : Nat := 0x200040

/-- PWR_DOM. -/
def PWR_DOM (h : Nat) : Nat := 0x200100 + 0x8 * h

/-- PWR_TSENS. -/
def PWR_TSENS (i : Nat) : Nat := 0x200200 + 0x8 * i

/-- PWR_THERM. -/
def PWR_THERM : Nat := 0x200300

/-- PWR_VF. -/
def PWR_VF (d : Nat) : Nat := 0x200400 + 0x8 * d

/-- PWR_AGE. -/
def PWR_AGE : Nat := 0x200600

/-- PWR_PMON. -/
def PWR_PMON (d : Nat) : Nat := 0x200608 + 0x8 * d

/-- SEC_ID. -/
def SEC_ID : Nat := 0x100000

/-- SEC_BOOT. -/
def SEC_BOOT : Nat := 0x100008

/-- SEC_BTIME. -/
def SEC_BTIME : Nat := 0x100010

/-- SEC_FW. -/
def SEC_FW : Nat := 0x100018

/-- SEC_LC. -/
def SEC_LC : Nat := 0x100020

/-- SEC_NONCE. -/
def SEC_NONCE (i : Nat) : Nat := 0x100028 + 0x8 * i

/-- SEC_CMD. -/
def SEC_CMD : Nat := 0x100048

/-- SEC_RESET. -/
def SEC_RESET : Nat := 0x100050

/-- SEC_JRESET. -/
def SEC_JRESET : Nat := 0x100058

/-- SEC_MEXT. -/
def SEC_MEXT : Nat := 0x100060

/-- SEC_DEVID. -/
def SEC_DEVID (i : Nat) : Nat := 0x100100 + 0x8 * i

/-- SEC_MREG. -/
def SEC_MREG (m w : Nat) : Nat := 0x101000 + 0x40 * m + 0x8 * w

/-- SEC_MBOX. -/
def SEC_MBOX (i : Nat) : Nat := 0x102000 + 0x8 * i

/-- TOP_ID. -/
def TOP_ID : Nat := 0x0

/-- MODULE_ID. -/
def MODULE_ID : Nat := 0x8

/-- HST_ID. -/
def HST_ID : Nat := 0x1E00000

/-- HST_STATUS. -/
def HST_STATUS : Nat := 0x1E00008

/-- HST_CFG. -/
def HST_CFG : Nat := 0x1E00010

/-- HST_INPUT. -/
def HST_INPUT : Nat := 0x1E00018

/-- HST_HERR. -/
def HST_HERR : Nat := 0x1E00020

/-- HST_IDE. -/
def HST_IDE : Nat := 0x1E00028

/-- HST_T3ERR. -/
def HST_T3ERR : Nat := 0x1E00030

/-- HST_APER. -/
def HST_APER (s : Nat) : Nat := 0x1E10000 + 0x2000 * s

/-- HMB_CFG. -/
def HMB_CFG (s : Nat) : Nat := 0x1E10008 + 0x2000 * s

/-- HMB_SEND. -/
def HMB_SEND (s : Nat) : Nat := 0x1E10010 + 0x2000 * s

/-- HMB_ACK. -/
def HMB_ACK (s : Nat) : Nat := 0x1E10018 + 0x2000 * s

/-- HMB_STATUS. -/
def HMB_STATUS (s : Nat) : Nat := 0x1E10020 + 0x2000 * s

/-- HMB_OBJ. -/
def HMB_OBJ (s : Nat) : Nat := 0x1E10028 + 0x2000 * s

/-- HMB_DATA. -/
def HMB_DATA (s i : Nat) : Nat := 0x1E10800 + 0x2000 * s + 0x8 * i

/-- HMB_OUT. -/
def HMB_OUT (s i : Nat) : Nat := 0x1E11000 + 0x2000 * s + 0x8 * i

/-- DPROF. -/
def DPROF (n : Nat) : Nat := 0xE00000 + 0x8 * n

/-- RT_RFMT. -/
def RT_RFMT (r : Nat) : Nat := 0x830000 + 0x8 * r

/-- XGEN_CONV. -/
def XGEN_CONV (s : Nat) : Nat := 0xF01040 + 0x100 * s

/-- XGEN_SKIP. -/
def XGEN_SKIP (s : Nat) : Nat := 0xF01048 + 0x100 * s

/-- XGEN_STAT. -/
def XGEN_STAT (s : Nat) : Nat := 0xF01050 + 0x100 * s

end Reg

/-! ### Descriptors by chapter -/

/-- Registers of spec/03_routing_engine.md. -/
def regs03 : List RDesc := [
  ⟨"RTE_ID", 0x800000, [], .jr, .none,
    [⟨63, 0, .ro, .n⟩]⟩,
  ⟨"RTE_CTRL", 0x800008, [], .p, .none,
    [⟨0, 0, .rw, .d⟩]⟩,
  ⟨"RTE_STATUS", 0x800010, [], .p, .none,
    [⟨0, 0, .ro, .n⟩, ⟨1, 1, .w1c, .d⟩]⟩,
  ⟨"RCTX_CFG", 0x801000, [(0x100, 16)], .p, .slot,
    [⟨7, 0, .rw, .l⟩, ⟨15, 8, .rw, .l⟩, ⟨31, 16, .rw, .l⟩, ⟨47, 32, .rw, .l⟩, ⟨48, 48, .rw, .l⟩]⟩,
  ⟨"RCTX_STATE", 0x801008, [(0x100, 16)], .jr, .slot,
    [⟨11, 0, .ro, .n⟩, ⟨14, 12, .ro, .n⟩, ⟨15, 15, .ro, .n⟩, ⟨16, 16, .ro, .n⟩]⟩,
  ⟨"RCTX_CANCEL", 0x801010, [(0x100, 16)], .j, .slot,
    [⟨11, 0, .wo, .d⟩, ⟨12, 12, .wo, .d⟩]⟩,
  ⟨"RCTX_STATUS", 0x801018, [(0x100, 16)], .j, .slot,
    [⟨0, 0, .w1c, .d⟩, ⟨1, 1, .w1c, .d⟩, ⟨2, 2, .w1c, .d⟩]⟩,
  ⟨"LEDG", 0x801020, [(0x100, 16), (0x8, 8)], .jr, .slot,
    [⟨31, 0, .ro, .n⟩]⟩,
  ⟨"LEDG_INFO", 0x801060, [(0x100, 16)], .jr, .slot,
    [⟨11, 0, .ro, .n⟩, ⟨12, 12, .ro, .n⟩, ⟨13, 13, .ro, .n⟩]⟩,
  ⟨"STALE_DROPS", 0x801080, [(0x100, 16)], .jr, .slot,
    [⟨31, 0, .rc, .n⟩]⟩,
  ⟨"NAN_SCORES", 0x801088, [(0x100, 16)], .jr, .slot,
    [⟨31, 0, .rc, .n⟩]⟩,
  ⟨"DECISIONS", 0x801090, [(0x100, 16)], .jr, .slot,
    [⟨63, 0, .ro, .n⟩]⟩,
  ⟨"RTD", 0x810000, [(0x40, 256), (0x8, 8)], .j, .none,
    [⟨63, 0, .rw, .s⟩]⟩,
  ⟨"GFT_CFG", 0x820000, [(0x8, 4)], .jr, .none,
    [⟨31, 0, .rw, .l⟩, ⟨63, 32, .rw, .l⟩]⟩,
  ⟨"GFT_SEG", 0x821000, [(0x1000, 4), (0x8, 512)], .jr, .none,
    [⟨31, 0, .rw, .l⟩, ⟨63, 32, .rw, .l⟩]⟩,
  ⟨"WORK", 0x900000, [(0x10, 65536), (0x8, 2)], .jr, .none,
    [⟨63, 0, .ro, .n⟩]⟩]

/-- Registers of spec/04_exchange_collectives.md. -/
def regs04 : List RDesc := [
  ⟨"XCH_ID", 0xF00000, [], .jr, .none,
    [⟨63, 0, .ro, .n⟩]⟩,
  ⟨"XCH_CFG", 0xF01000, [(0x100, 16)], .p, .slot,
    [⟨15, 0, .rw, .d⟩, ⟨19, 16, .rw, .d⟩]⟩,
  ⟨"XCH_STATUS", 0xF01008, [(0x100, 16)], .j, .slot,
    [⟨0, 0, .w1c, .d⟩, ⟨1, 1, .w1c, .d⟩, ⟨2, 2, .w1c, .d⟩, ⟨3, 3, .w1c, .d⟩, ⟨4, 4, .w1c, .d⟩]⟩,
  ⟨"XCH_BAD_TAGS", 0xF01010, [(0x100, 16)], .jr, .slot,
    [⟨31, 0, .rc, .n⟩]⟩,
  ⟨"XCH_REFETCHES", 0xF01018, [(0x100, 16)], .jr, .slot,
    [⟨31, 0, .rc, .n⟩]⟩,
  ⟨"XCH_LAST_EXP", 0xF01020, [(0x100, 16)], .jr, .slot,
    [⟨63, 0, .ro, .n⟩]⟩,
  ⟨"XCH_LAST_GOT", 0xF01028, [(0x100, 16)], .jr, .slot,
    [⟨63, 0, .ro, .n⟩]⟩,
  ⟨"XCH_LAST_SRC", 0xF01030, [(0x100, 16)], .jr, .slot,
    [⟨15, 0, .ro, .n⟩, ⟨31, 16, .ro, .n⟩]⟩,
  ⟨"XCH_BINS", 0xF01038, [(0x100, 16)], .jr, .slot,
    [⟨63, 0, .ro, .n⟩]⟩]

/-- Registers of spec/06_engines.md. -/
def regs06 : List RDesc := [
  ⟨"ENG_ID", 0x2000000, [(0x100000, 32)], .jr, .none,
    [⟨63, 0, .ro, .n⟩]⟩,
  ⟨"ENG_CTRL", 0x2000008, [(0x100000, 32)], .p, .none,
    [⟨0, 0, .rw, .d⟩]⟩,
  ⟨"ENG_STATUS", 0x2000010, [(0x100000, 32)], .jr, .none,
    [⟨0, 0, .ro, .n⟩, ⟨4, 1, .ro, .n⟩, ⟨5, 5, .ro, .n⟩, ⟨6, 6, .ro, .n⟩, ⟨7, 7, .ro, .n⟩, ⟨8, 8, .ro, .n⟩]⟩,
  ⟨"ENG_CFG", 0x2000018, [(0x100000, 32)], .p, .none,
    [⟨4, 0, .rw, .s⟩, ⟨5, 5, .rw, .s⟩]⟩,
  ⟨"ENG_REPAIR", 0x2000020, [(0x100000, 32)], .p, .none,
    [⟨8, 0, .ro, .n⟩, ⟨12, 9, .ro, .n⟩]⟩,
  ⟨"ENG_SKEW", 0x2000028, [(0x100000, 32)], .p, .none,
    [⟨3, 0, .ro, .n⟩, ⟨7, 4, .ro, .n⟩, ⟨11, 8, .ro, .n⟩, ⟨15, 12, .ro, .n⟩, ⟨19, 16, .ro, .n⟩, ⟨23, 20, .ro, .n⟩, ⟨27, 24, .ro, .n⟩, ⟨31, 28, .ro, .n⟩, ⟨35, 32, .ro, .n⟩]⟩,
  ⟨"ENG_VFLAGS", 0x2000030, [(0x100000, 32)], .j, .none,
    [⟨0, 0, .w1c, .d⟩, ⟨1, 1, .w1c, .d⟩, ⟨2, 2, .w1c, .d⟩, ⟨3, 3, .w1c, .d⟩, ⟨4, 4, .w1c, .d⟩, ⟨5, 5, .w1c, .d⟩, ⟨6, 6, .w1c, .d⟩]⟩,
  ⟨"ENG_TILES", 0x2000038, [(0x100000, 32)], .jr, .none,
    [⟨4, 0, .ro, .n⟩, ⟨14, 5, .ro, .n⟩, ⟨24, 15, .ro, .n⟩]⟩,
  ⟨"ENG_ROWS", 0x2000040, [(0x100000, 32)], .jr, .none,
    [⟨63, 0, .ro, .n⟩]⟩,
  ⟨"ENG_BUBBLES", 0x2000048, [(0x100000, 32)], .jr, .none,
    [⟨63, 0, .ro, .n⟩]⟩,
  ⟨"ENG_WSTALL", 0x2000050, [(0x100000, 32)], .jr, .none,
    [⟨63, 0, .ro, .n⟩]⟩,
  ⟨"ENG_RESIDUE", 0x2000058, [(0x100000, 32)], .p, .none,
    [⟨15, 0, .rc, .n⟩, ⟨19, 16, .ro, .n⟩]⟩,
  ⟨"PF_STATE", 0x2000100, [(0x100000, 32), (0x8, 8)], .jr, .none,
    [⟨15, 0, .ro, .n⟩, ⟨31, 16, .ro, .n⟩, ⟨39, 32, .ro, .n⟩, ⟨40, 40, .ro, .n⟩, ⟨41, 41, .ro, .n⟩]⟩]

/-- Registers of spec/07_sparse_operands.md. -/
def regs07 : List RDesc := [
  ⟨"ENG_SKIPBLK", 0x2000060, [(0x100000, 32)], .jr, .none,
    [⟨63, 0, .ro, .n⟩]⟩,
  ⟨"ENG_PFSKIP", 0x2000068, [(0x100000, 32)], .jr, .none,
    [⟨63, 0, .ro, .n⟩]⟩,
  ⟨"ENG_PFMISS", 0x2000070, [(0x100000, 32)], .jr, .none,
    [⟨63, 0, .ro, .n⟩]⟩,
  ⟨"ENG_SPSTAT", 0x2000078, [(0x100000, 32)], .j, .none,
    [⟨0, 0, .w1c, .d⟩, ⟨1, 1, .w1c, .d⟩]⟩]

/-- Registers of spec/09_scheduling_cadence.md. -/
def regs09 : List RDesc := [
  ⟨"JOB_ID", 0x500000, [(0x100, 16)], .p, .none,
    [⟨19, 0, .rw, .l⟩]⟩,
  ⟨"JOB_ADMIT", 0x500008, [(0x100, 16)], .p, .none,
    [⟨0, 0, .wo, .d⟩, ⟨1, 1, .wo, .d⟩, ⟨3, 2, .ro, .n⟩, ⟨7, 4, .ro, .n⟩]⟩,
  ⟨"JOB_MAP", 0x580000, [(0x2000, 16), (0x8, 1024)], .p, .none,
    [⟨63, 0, .rw, .l⟩]⟩,
  ⟨"SCH_ID", 0x600000, [], .jr, .none,
    [⟨63, 0, .ro, .n⟩]⟩,
  ⟨"SCH_CTRL", 0x600008, [], .p, .none,
    [⟨0, 0, .rw, .d⟩]⟩,
  ⟨"SCH_STATUS", 0x600010, [], .p, .none,
    [⟨0, 0, .w1c, .d⟩, ⟨1, 1, .w1c, .d⟩]⟩,
  ⟨"SCH_SHARE", 0x601000, [(0x100, 16)], .p, .slot,
    [⟨5, 0, .rw, .s⟩, ⟨13, 8, .rw, .s⟩, ⟨23, 16, .rw, .s⟩, ⟨47, 32, .rw, .s⟩]⟩,
  ⟨"SCH_CCORES", 0x601008, [(0x100, 16)], .p, .slot,
    [⟨7, 0, .rw, .s⟩]⟩,
  ⟨"SCH_SLOTSTAT", 0x601010, [(0x100, 16)], .jr, .slot,
    [⟨5, 0, .ro, .n⟩, ⟨11, 8, .ro, .n⟩, ⟨20, 12, .ro, .n⟩]⟩,
  ⟨"SCH_STARTS", 0x601018, [(0x100, 16)], .jr, .slot,
    [⟨63, 0, .ro, .n⟩]⟩,
  ⟨"SQ_BASE", 0x601040, [(0x100, 16), (0x20, 4)], .j, .slot,
    [⟨47, 0, .rw, .s⟩]⟩,
  ⟨"SQ_CFG", 0x601048, [(0x100, 16), (0x20, 4)], .j, .slot,
    [⟨3, 0, .rw, .s⟩, ⟨31, 16, .rw, .s⟩, ⟨32, 32, .rw, .s⟩]⟩,
  ⟨"SQ_TAKEN", 0x601050, [(0x100, 16), (0x20, 4)], .jr, .slot,
    [⟨63, 0, .ro, .n⟩]⟩,
  ⟨"SCH_RES", 0x608000, [(0x20, 32), (0x8, 4)], .p, .none,
    [⟨31, 0, .ro, .n⟩, ⟨32, 32, .ro, .n⟩]⟩,
  ⟨"CAD_OWN", 0x610000, [(0x40, 32)], .p, .none,
    [⟨3, 0, .rw, .d⟩, ⟨4, 4, .rw, .d⟩]⟩,
  ⟨"CAD_CFG", 0x610008, [(0x40, 32)], .j, .cad,
    [⟨19, 0, .rw, .s⟩, ⟨21, 20, .rw, .s⟩, ⟨22, 22, .rw, .d⟩, ⟨47, 32, .rw, .s⟩, ⟨63, 48, .rw, .s⟩]⟩,
  ⟨"CAD_QUOTA", 0x610010, [(0x40, 32)], .j, .cad,
    [⟨31, 0, .rw, .s⟩]⟩,
  ⟨"CAD_STATE", 0x610018, [(0x40, 32)], .jr, .cad,
    [⟨31, 0, .ro, .n⟩, ⟨63, 32, .ro, .n⟩]⟩,
  ⟨"CAD_STATUS", 0x610020, [(0x40, 32)], .j, .cad,
    [⟨0, 0, .w1c, .d⟩, ⟨1, 1, .w1c, .d⟩, ⟨2, 2, .w1c, .d⟩, ⟨3, 3, .w1c, .d⟩]⟩,
  ⟨"CAD_OVERRUNS", 0x610028, [(0x40, 32)], .jr, .cad,
    [⟨31, 0, .rc, .n⟩]⟩,
  ⟨"CAD_MAXDEBT", 0x610030, [(0x40, 32)], .jr, .cad,
    [⟨31, 0, .rc, .n⟩]⟩]

/-- Registers of spec/10_memory_tiers.md. -/
def regs10 : List RDesc := [
  ⟨"TIR_ID", 0x1000000, [], .jr, .none,
    [⟨63, 0, .ro, .n⟩]⟩,
  ⟨"TIR_CTRL", 0x1000008, [], .p, .none,
    [⟨0, 0, .rw, .d⟩]⟩,
  ⟨"TIR_STATUS", 0x1000010, [], .p, .none,
    [⟨4, 0, .ro, .n⟩, ⟨5, 5, .w1c, .d⟩]⟩,
  ⟨"TIR_EDIT_VA", 0x1000020, [], .p, .none,
    [⟨47, 16, .rw, .d⟩, ⟨51, 48, .rw, .d⟩]⟩,
  ⟨"TIR_EDIT_W0", 0x1000028, [], .p, .none,
    [⟨63, 0, .rw, .d⟩]⟩,
  ⟨"TIR_EDIT_W1", 0x1000030, [], .p, .none,
    [⟨63, 0, .rw, .d⟩]⟩,
  ⟨"TIR_EDIT_OP", 0x1000038, [], .p, .none,
    [⟨2, 0, .wo, .d⟩, ⟨3, 3, .ro, .n⟩, ⟨4, 4, .w1c, .d⟩, ⟨11, 8, .ro, .n⟩]⟩,
  ⟨"TT_BASE", 0x1001000, [(0x100, 16)], .p, .slot,
    [⟨0, 0, .rw, .l⟩, ⟨39, 15, .rw, .l⟩]⟩,
  ⟨"OBJ_CFG", 0x1001008, [(0x100, 16)], .p, .slot,
    [⟨0, 0, .rw, .l⟩, ⟨39, 6, .rw, .l⟩, ⟨63, 48, .rw, .l⟩]⟩,
  ⟨"QUOTA", 0x1001010, [(0x100, 16)], .p, .slot,
    [⟨21, 0, .rw, .d⟩, ⟨33, 22, .rw, .d⟩, ⟨55, 34, .rw, .d⟩]⟩,
  ⟨"USAGE", 0x1001018, [(0x100, 16)], .jr, .slot,
    [⟨21, 0, .ro, .n⟩, ⟨33, 22, .ro, .n⟩, ⟨55, 34, .ro, .n⟩]⟩,
  ⟨"WINDOW", 0x1001020, [(0x100, 16)], .j, .slot,
    [⟨15, 0, .rw, .d⟩, ⟨31, 16, .rw, .d⟩, ⟨35, 32, .rw, .d⟩, ⟨36, 36, .rw, .d⟩]⟩,
  ⟨"TIR_SSTAT", 0x1001028, [(0x100, 16)], .j, .slot,
    [⟨0, 0, .w1c, .d⟩, ⟨1, 1, .w1c, .d⟩, ⟨2, 2, .w1c, .d⟩, ⟨3, 3, .w1c, .d⟩, ⟨4, 4, .w1c, .d⟩]⟩,
  ⟨"REFETCHES", 0x1001030, [(0x100, 16)], .jr, .slot,
    [⟨31, 0, .rc, .n⟩]⟩,
  ⟨"HINTS", 0x1001038, [(0x100, 16)], .jr, .slot,
    [⟨31, 0, .ro, .n⟩, ⟨63, 32, .ro, .n⟩]⟩,
  ⟨"QUAR_LAST", 0x1001040, [(0x100, 16)], .jr, .slot,
    [⟨15, 0, .ro, .n⟩, ⟨23, 16, .ro, .n⟩, ⟨39, 24, .ro, .n⟩]⟩,
  ⟨"QUAR_COUNT", 0x1001048, [(0x100, 16)], .jr, .slot,
    [⟨8, 0, .ro, .n⟩]⟩,
  ⟨"RT_OBJ", 0x1010000, [(0x8, 256)], .j, .none,
    [⟨15, 0, .rw, .d⟩, ⟨27, 16, .rw, .d⟩]⟩,
  ⟨"MEM_ID", 0x1400000, [], .jr, .none,
    [⟨63, 0, .ro, .n⟩]⟩,
  ⟨"MEM_CFG", 0x1400008, [], .p, .none,
    [⟨7, 0, .rw, .d⟩]⟩,
  ⟨"MEM_STATUS", 0x1400010, [], .p, .none,
    [⟨31, 0, .ro, .n⟩, ⟨32, 32, .ro, .n⟩]⟩,
  ⟨"MEM_FRAMES", 0x1400018, [], .jr, .none,
    [⟨21, 0, .ro, .n⟩, ⟨43, 22, .ro, .n⟩]⟩,
  ⟨"MEM_CE", 0x1400020, [], .p, .none,
    [⟨31, 0, .rc, .n⟩]⟩,
  ⟨"MEM_UE", 0x1400028, [], .p, .none,
    [⟨31, 0, .rc, .n⟩]⟩,
  ⟨"MEM_LAST_UE", 0x1400030, [], .p, .none,
    [⟨4, 0, .ro, .n⟩, ⟨26, 5, .ro, .n⟩, ⟨27, 27, .ro, .n⟩]⟩,
  ⟨"MEM_SCRUB", 0x1400038, [], .p, .none,
    [⟨21, 0, .ro, .n⟩, ⟨63, 32, .ro, .n⟩]⟩,
  ⟨"MEM_CH", 0x1400100, [(0x8, 32)], .p, .none,
    [⟨15, 0, .rc, .n⟩, ⟨31, 16, .rc, .n⟩, ⟨32, 32, .ro, .n⟩]⟩]

/-- Registers of spec/11_pools_sync.md. -/
def regs11 : List RDesc := [
  ⟨"CUL_ID", 0x1800000, [], .jr, .none,
    [⟨63, 0, .ro, .n⟩]⟩,
  ⟨"CUL_STATUS", 0x1800008, [], .p, .none,
    [⟨17, 0, .ro, .n⟩]⟩,
  ⟨"LEDGER_STATUS", 0x1800020, [], .p, .none,
    [⟨0, 0, .w1c, .d⟩, ⟨3, 1, .ro, .n⟩]⟩,
  ⟨"LEDGER_CE", 0x1800028, [], .p, .none,
    [⟨31, 0, .rc, .n⟩]⟩,
  ⟨"LSYN_APPLIED", 0x1801000, [(0x100, 16)], .jr, .slot,
    [⟨63, 0, .ro, .n⟩]⟩,
  ⟨"LSYN_CONSUMED", 0x1801008, [(0x100, 16)], .jr, .slot,
    [⟨63, 0, .ro, .n⟩]⟩,
  ⟨"LSYN_STANDING", 0x1801010, [(0x100, 16)], .jr, .slot,
    [⟨63, 0, .ro, .n⟩]⟩,
  ⟨"LRP_PENDING", 0x1801018, [(0x100, 16)], .jr, .slot,
    [⟨63, 0, .ro, .n⟩]⟩,
  ⟨"LRP_FAILED", 0x1801020, [(0x100, 16)], .jr, .slot,
    [⟨63, 0, .ro, .n⟩]⟩,
  ⟨"LBUF_RECLAIMED", 0x1801028, [(0x100, 16)], .jr, .none,
    [⟨31, 0, .ro, .n⟩]⟩,
  ⟨"POOL_CFG", 0x1810000, [(0x80, 1024)], .p, .none,
    [⟨0, 0, .rw, .l⟩, ⟨1, 1, .rw, .l⟩, ⟨5, 2, .rw, .l⟩, ⟨6, 6, .rw, .l⟩, ⟨12, 8, .rw, .l⟩, ⟨55, 32, .rw, .l⟩]⟩,
  ⟨"POOL_BASE", 0x1810008, [(0x80, 1024)], .p, .none,
    [⟨47, 0, .rw, .l⟩]⟩,
  ⟨"POOL_REC", 0x1810010, [(0x80, 1024)], .p, .none,
    [⟨39, 6, .rw, .l⟩]⟩,
  ⟨"POOL_THR", 0x1810018, [(0x80, 1024)], .j, .pool,
    [⟨19, 0, .rw, .s⟩, ⟨39, 20, .rw, .s⟩, ⟨59, 40, .rw, .s⟩, ⟨63, 60, .rw, .s⟩]⟩,
  ⟨"POOL_QUOTA", 0x1810020, [(0x80, 1024)], .j, .pool,
    [⟨23, 0, .rw, .s⟩, ⟨47, 24, .rw, .s⟩]⟩,
  ⟨"POOL_ALERT", 0x1810028, [(0x80, 1024)], .j, .pool,
    [⟨15, 0, .rw, .s⟩, ⟨16, 16, .rw, .s⟩]⟩,
  ⟨"POOL_CTRL", 0x1810030, [(0x80, 1024)], .p, .none,
    [⟨0, 0, .rw, .d⟩, ⟨1, 1, .wo, .d⟩, ⟨2, 2, .w1c, .d⟩]⟩,
  ⟨"POOL_STAT", 0x1810038, [(0x80, 1024)], .jr, .none,
    [⟨24, 0, .ro, .n⟩, ⟨32, 25, .ro, .n⟩, ⟨34, 33, .ro, .n⟩, ⟨35, 35, .ro, .n⟩, ⟨36, 36, .ro, .n⟩, ⟨46, 37, .ro, .n⟩]⟩,
  ⟨"POOL_HELD", 0x1810040, [(0x80, 1024)], .jr, .none,
    [⟨24, 0, .ro, .n⟩]⟩,
  ⟨"POOL_ALLOCS", 0x1810048, [(0x80, 1024)], .jr, .none,
    [⟨63, 0, .ro, .n⟩]⟩,
  ⟨"POOL_RECLAIM", 0x1810050, [(0x80, 1024)], .jr, .none,
    [⟨31, 0, .rc, .n⟩]⟩,
  ⟨"SYN_STATE", 0x1A00000, [(0x10, 65536)], .jr, .none,
    [⟨31, 0, .ro, .n⟩, ⟨47, 32, .ro, .n⟩, ⟨48, 48, .ro, .n⟩]⟩,
  ⟨"SYN_CTL", 0x1A00008, [(0x10, 65536)], .j, .none,
    [⟨0, 0, .rw, .d⟩, ⟨1, 1, .rw, .d⟩, ⟨4, 2, .rw, .d⟩, ⟨5, 5, .w1c, .d⟩, ⟨63, 32, .rw, .d⟩]⟩,
  ⟨"SYN_ID", 0x1B00000, [], .jr, .none,
    [⟨63, 0, .ro, .n⟩]⟩,
  ⟨"SYN_STATUS", 0x1B00008, [], .p, .none,
    [⟨0, 0, .w1c, .d⟩, ⟨1, 1, .w1c, .d⟩]⟩,
  ⟨"SYN_POST", 0x1B00010, [], .j, .none,
    [⟨15, 0, .wo, .d⟩, ⟨16, 16, .wo, .d⟩, ⟨63, 32, .wo, .d⟩]⟩,
  ⟨"SYN_RESET", 0x1B00018, [], .j, .none,
    [⟨15, 0, .wo, .d⟩]⟩,
  ⟨"SYN_RANGE", 0x1B01000, [(0x100, 16)], .p, .none,
    [⟨15, 0, .rw, .l⟩, ⟨32, 16, .rw, .l⟩]⟩,
  ⟨"SYN_HREJ", 0x1B01008, [(0x100, 16)], .jr, .slot,
    [⟨31, 0, .rc, .n⟩]⟩]

/-- Registers of spec/12_fabric.md. -/
def regs12 : List RDesc := [
  ⟨"FAB_ID", 0xC00000, [], .jr, .none,
    [⟨63, 0, .ro, .n⟩]⟩,
  ⟨"FAB_NODE", 0xC00008, [], .p, .none,
    [⟨15, 0, .rw, .l⟩, ⟨16, 16, .rw, .l⟩]⟩,
  ⟨"FAB_TOPO", 0xC00010, [], .p, .none,
    [⟨3, 0, .rw, .l⟩, ⟨7, 4, .rw, .l⟩, ⟨11, 8, .rw, .l⟩, ⟨15, 12, .rw, .l⟩]⟩,
  ⟨"FAB_CFG", 0xC00018, [], .p, .none,
    [⟨15, 0, .rw, .d⟩, ⟨23, 16, .rw, .d⟩, ⟨35, 24, .rw, .d⟩, ⟨47, 36, .rw, .d⟩, ⟨55, 48, .rw, .d⟩]⟩,
  ⟨"FAB_STATUS", 0xC00020, [], .p, .none,
    [⟨0, 0, .ro, .n⟩, ⟨1, 1, .ro, .n⟩, ⟨2, 2, .w1c, .d⟩, ⟨3, 3, .w1c, .d⟩]⟩,
  ⟨"FAB_SEQ_KEY", 0xC00028, [], .p, .none,
    [⟨19, 0, .rw, .d⟩, ⟨35, 20, .rw, .d⟩, ⟨41, 36, .rw, .d⟩, ⟨45, 42, .rw, .d⟩, ⟨46, 46, .rw, .d⟩, ⟨47, 47, .rw, .d⟩, ⟨62, 62, .ro, .n⟩, ⟨63, 63, .ro, .n⟩]⟩,
  ⟨"FAB_SEQ_VAL", 0xC00030, [], .p, .none,
    [⟨31, 0, .ro, .n⟩, ⟨63, 32, .ro, .n⟩]⟩,
  ⟨"FAB_RETX", 0xC00038, [], .p, .none,
    [⟨31, 0, .rc, .n⟩]⟩,
  ⟨"FAB_DUPS", 0xC00040, [], .p, .none,
    [⟨31, 0, .rc, .n⟩]⟩,
  ⟨"FAB_OOS", 0xC00048, [], .p, .none,
    [⟨31, 0, .rc, .n⟩]⟩,
  ⟨"FAB_REJECTS", 0xC00050, [], .p, .none,
    [⟨31, 0, .rc, .n⟩]⟩,
  ⟨"FAB_DROPS", 0xC00058, [], .p, .none,
    [⟨31, 0, .rc, .n⟩]⟩,
  ⟨"FAB_SEQTAB", 0xC00060, [], .p, .none,
    [⟨18, 0, .ro, .n⟩]⟩,
  ⟨"FAB_SSTAT", 0xC01000, [(0x100, 16)], .j, .slot,
    [⟨0, 0, .w1c, .d⟩, ⟨1, 1, .w1c, .d⟩, ⟨2, 2, .w1c, .d⟩, ⟨3, 3, .w1c, .d⟩]⟩,
  ⟨"PORT_CTRL", 0xC10000, [(0x1000, 8)], .p, .none,
    [⟨0, 0, .rw, .d⟩, ⟨1, 1, .wo, .d⟩, ⟨3, 2, .rw, .s⟩]⟩,
  ⟨"PORT_STATE", 0xC10008, [(0x1000, 8)], .jr, .none,
    [⟨3, 0, .ro, .n⟩, ⟨5, 4, .ro, .n⟩, ⟨7, 6, .ro, .n⟩, ⟨8, 8, .ro, .n⟩]⟩,
  ⟨"PORT_PARTNER", 0xC10010, [(0x1000, 8)], .jr, .none,
    [⟨15, 0, .ro, .n⟩, ⟨18, 16, .ro, .n⟩, ⟨19, 19, .ro, .n⟩]⟩,
  ⟨"PORT_LANES", 0xC10018, [(0x1000, 8)], .p, .none,
    [⟨7, 0, .ro, .n⟩, ⟨15, 8, .ro, .n⟩, ⟨16, 16, .ro, .n⟩]⟩,
  ⟨"PORT_FEC", 0xC10020, [(0x1000, 8)], .p, .none,
    [⟨31, 0, .rc, .n⟩, ⟨63, 32, .rc, .n⟩]⟩,
  ⟨"PORT_RETRY", 0xC10028, [(0x1000, 8)], .p, .none,
    [⟨31, 0, .rc, .n⟩, ⟨47, 32, .rc, .n⟩, ⟨63, 48, .rc, .n⟩]⟩,
  ⟨"PORT_LEDG", 0xC10030, [(0x1000, 8)], .p, .none,
    [⟨0, 0, .ro, .n⟩, ⟨3, 1, .ro, .n⟩, ⟨63, 32, .ro, .n⟩]⟩,
  ⟨"PORT_CRED", 0xC10040, [(0x1000, 8), (0x8, 6)], .p, .none,
    [⟨15, 0, .ro, .n⟩, ⟨31, 16, .ro, .n⟩, ⟨47, 32, .rc, .n⟩]⟩,
  ⟨"WIN", 0xD00000, [(0x20, 4096), (0x8, 4)], .p, .none,
    [⟨63, 0, .rw, .d⟩]⟩]

/-- Registers of spec/13_faults_reproducibility.md. -/
def regs13 : List RDesc := [
  ⟨"FLT_ID", 0x700000, [], .jr, .none,
    [⟨63, 0, .ro, .n⟩]⟩,
  ⟨"FLT_HEAD", 0x701000, [(0x100, 16)], .jr, .none,
    [⟨31, 0, .ro, .n⟩]⟩,
  ⟨"FLT_CFG", 0x701008, [(0x100, 16)], .j, .none,
    [⟨15, 0, .rw, .d⟩, ⟨16, 16, .rw, .d⟩]⟩,
  ⟨"FLT_STATUS", 0x701010, [(0x100, 16)], .jr, .none,
    [⟨0, 0, .ro, .n⟩, ⟨1, 1, .ro, .n⟩, ⟨2, 2, .ro, .n⟩, ⟨3, 3, .ro, .n⟩]⟩,
  ⟨"JOB_PROFILE", 0x701018, [(0x100, 16)], .p, .none,
    [⟨0, 0, .rw, .l⟩, ⟨31, 16, .rw, .l⟩]⟩,
  ⟨"TWIN_CFG", 0x701020, [(0x100, 16)], .p, .none,
    [⟨15, 0, .rw, .l⟩, ⟨18, 16, .rw, .l⟩, ⟨19, 19, .rw, .l⟩, ⟨26, 20, .rw, .l⟩, ⟨47, 32, .rw, .l⟩]⟩,
  ⟨"TWIN_STATUS", 0x701028, [(0x100, 16)], .jr, .none,
    [⟨31, 0, .ro, .n⟩, ⟨38, 32, .ro, .n⟩, ⟨40, 39, .ro, .n⟩, ⟨41, 41, .ro, .n⟩, ⟨42, 42, .ro, .n⟩, ⟨43, 43, .ro, .n⟩]⟩,
  ⟨"TWIN_OWN", 0x701030, [(0x100, 16), (0x8, 2)], .jr, .none,
    [⟨63, 0, .ro, .n⟩]⟩,
  ⟨"TWIN_PEER", 0x701040, [(0x100, 16), (0x8, 2)], .jr, .none,
    [⟨63, 0, .ro, .n⟩]⟩,
  ⟨"TWIN_FIRST", 0x701050, [(0x100, 16)], .jr, .none,
    [⟨63, 0, .ro, .n⟩]⟩,
  ⟨"TWIN_WHERE", 0x701058, [(0x100, 16)], .jr, .none,
    [⟨31, 0, .ro, .n⟩, ⟨47, 32, .ro, .n⟩, ⟨63, 48, .ro, .n⟩]⟩,
  ⟨"FLOG", 0x710000, [(0x4000, 16), (0x40, 256), (0x8, 8)], .jr, .none,
    [⟨63, 0, .ro, .n⟩]⟩]

/-- Registers of spec/14_power_clocks_ageing.md. -/
def regs14 : List RDesc := [
  ⟨"PWR_ID", 0x200000, [], .jr, .none,
    [⟨63, 0, .ro, .n⟩]⟩,
  ⟨"PWR_CAP", 0x200008, [], .p, .none,
    [⟨10, 0, .rw, .s⟩, ⟨13, 12, .rw, .l⟩]⟩,
  ⟨"PWR_LIMIT", 0x200010, [], .p, .none,
    [⟨6, 0, .rw, .s⟩]⟩,
  ⟨"PWR_PACE", 0x200018, [], .p, .none,
    [⟨1, 0, .rw, .l⟩, ⟨5, 2, .rw, .l⟩, ⟨10, 6, .rw, .l⟩, ⟨31, 16, .rw, .l⟩]⟩,
  ⟨"PWR_STATUS", 0x200020, [], .p, .none,
    [⟨6, 0, .ro, .n⟩, ⟨14, 8, .ro, .n⟩, ⟨22, 16, .ro, .n⟩, ⟨24, 24, .ro, .n⟩, ⟨25, 25, .ro, .n⟩, ⟨26, 26, .ro, .n⟩, ⟨27, 27, .ro, .n⟩, ⟨28, 28, .w1c, .d⟩, ⟨29, 29, .ro, .n⟩, ⟨30, 30, .w1c, .d⟩, ⟨31, 31, .ro, .n⟩, ⟨63, 32, .ro, .n⟩]⟩,
  ⟨"PWR_MEAS", 0x200028, [], .jr, .none,
    [⟨15, 0, .ro, .n⟩, ⟨31, 16, .ro, .n⟩, ⟨47, 32, .ro, .n⟩, ⟨63, 48, .rc, .n⟩]⟩,
  ⟨"PWR_GUARD", 0x200030, [], .p, .none,
    [⟨7, 0, .ro, .n⟩, ⟨9, 8, .ro, .n⟩]⟩,
  ⟨"PWR_GATE", 0x200038, [], .p, .none,
    [⟨6, 0, .ro, .n⟩, ⟨14, 8, .ro, .n⟩, ⟨22, 16, .ro, .n⟩, ⟨30, 24, .ro, .n⟩]⟩,
  ⟨"PWR_EVENTS", 0x200040, [], .p, .none,
    [⟨15, 0, .rc, .n⟩, ⟨31, 16, .rc, .n⟩, ⟨47, 32, .rc, .n⟩, ⟨63, 48, .rc, .n⟩]⟩,
  ⟨"PWR_DOM", 0x200100, [(0x8, 5)], .jr, .none,
    [⟨15, 0, .ro, .n⟩, ⟨31, 16, .ro, .n⟩, ⟨47, 32, .ro, .n⟩, ⟨48, 48, .ro, .n⟩]⟩,
  ⟨"PWR_TSENS", 0x200200, [(0x8, 40)], .p, .none,
    [⟨15, 0, .ro, .n⟩, ⟨16, 16, .ro, .n⟩]⟩,
  ⟨"PWR_THERM", 0x200300, [], .jr, .none,
    [⟨15, 0, .ro, .n⟩, ⟨21, 16, .ro, .n⟩, ⟨47, 32, .ro, .n⟩]⟩,
  ⟨"PWR_VF", 0x200400, [(0x8, 33)], .p, .none,
    [⟨11, 0, .ro, .n⟩, ⟨12, 12, .ro, .n⟩]⟩,
  ⟨"PWR_AGE", 0x200600, [], .p, .none,
    [⟨6, 0, .ro, .n⟩, ⟨14, 8, .ro, .n⟩, ⟨23, 16, .rw, .s⟩, ⟨63, 24, .ro, .n⟩]⟩,
  ⟨"PWR_PMON", 0x200608, [(0x8, 3)], .p, .none,
    [⟨7, 0, .ro, .n⟩, ⟨13, 8, .ro, .n⟩]⟩]

/-- Registers of spec/15_startup_trust.md. -/
def regs15 : List RDesc := [
  ⟨"SEC_ID", 0x100000, [], .jr, .none,
    [⟨63, 0, .ro, .n⟩]⟩,
  ⟨"SEC_BOOT", 0x100008, [], .jr, .none,
    [⟨3, 0, .ro, .n⟩, ⟨4, 4, .ro, .n⟩, ⟨5, 5, .ro, .n⟩, ⟨11, 8, .ro, .n⟩]⟩,
  ⟨"SEC_BTIME", 0x100010, [], .p, .none,
    [⟨59, 0, .ro, .n⟩]⟩,
  ⟨"SEC_FW", 0x100018, [], .jr, .none,
    [⟨31, 0, .ro, .n⟩, ⟨47, 32, .ro, .n⟩, ⟨63, 48, .ro, .n⟩]⟩,
  ⟨"SEC_LC", 0x100020, [], .jr, .none,
    [⟨2, 0, .ro, .n⟩, ⟨3, 3, .ro, .n⟩, ⟨5, 4, .ro, .n⟩, ⟨6, 6, .ro, .n⟩, ⟨11, 8, .ro, .n⟩, ⟨16, 12, .ro, .n⟩]⟩,
  ⟨"SEC_NONCE", 0x100028, [(0x8, 4)], .p, .none,
    [⟨63, 0, .ro, .n⟩]⟩,
  ⟨"SEC_CMD", 0x100048, [], .p, .none,
    [⟨7, 0, .wo, .d⟩, ⟨8, 8, .ro, .n⟩, ⟨9, 9, .w1c, .d⟩, ⟨15, 12, .ro, .n⟩]⟩,
  ⟨"SEC_RESET", 0x100050, [], .p, .none,
    [⟨0, 0, .wo, .d⟩]⟩,
  ⟨"SEC_JRESET", 0x100058, [], .p, .none,
    [⟨3, 0, .rw, .d⟩, ⟨4, 4, .wo, .d⟩, ⟨5, 5, .ro, .n⟩, ⟨6, 6, .w1c, .d⟩, ⟨7, 7, .w1c, .d⟩]⟩,
  ⟨"SEC_MEXT", 0x100060, [], .p, .none,
    [⟨3, 0, .rw, .d⟩, ⟨4, 4, .wo, .d⟩]⟩,
  ⟨"SEC_DEVID", 0x100100, [(0x8, 2)], .jr, .none,
    [⟨63, 0, .ro, .n⟩]⟩,
  ⟨"SEC_MREG", 0x101000, [(0x40, 16), (0x8, 8)], .jr, .none,
    [⟨63, 0, .ro, .n⟩]⟩,
  ⟨"SEC_MBOX", 0x102000, [(0x8, 512)], .p, .none,
    [⟨63, 0, .rw, .d⟩]⟩]

/-- Registers of spec/16_module_host.md. -/
def regs16 : List RDesc := [
  ⟨"TOP_ID", 0x0, [], .jr, .none,
    [⟨63, 0, .ro, .n⟩]⟩,
  ⟨"MODULE_ID", 0x8, [], .jr, .none,
    [⟨0, 0, .ro, .n⟩, ⟨7, 4, .ro, .n⟩, ⟨11, 8, .ro, .n⟩]⟩,
  ⟨"HST_ID", 0x1E00000, [], .jr, .none,
    [⟨63, 0, .ro, .n⟩]⟩,
  ⟨"HST_STATUS", 0x1E00008, [], .p, .none,
    [⟨3, 0, .ro, .n⟩, ⟨8, 4, .ro, .n⟩, ⟨9, 9, .ro, .n⟩, ⟨10, 10, .ro, .n⟩, ⟨14, 11, .ro, .n⟩]⟩,
  ⟨"HST_CFG", 0x1E00010, [], .p, .none,
    [⟨0, 0, .rw, .d⟩]⟩,
  ⟨"HST_INPUT", 0x1E00018, [], .p, .none,
    [⟨11, 0, .ro, .n⟩, ⟨12, 12, .ro, .n⟩, ⟨13, 13, .ro, .n⟩, ⟨23, 16, .ro, .n⟩, ⟨31, 24, .ro, .n⟩, ⟨35, 32, .ro, .n⟩]⟩,
  ⟨"HST_HERR", 0x1E00020, [], .p, .none,
    [⟨31, 0, .rc, .n⟩]⟩,
  ⟨"HST_IDE", 0x1E00028, [], .p, .none,
    [⟨31, 0, .rc, .n⟩]⟩,
  ⟨"HST_T3ERR", 0x1E00030, [], .p, .none,
    [⟨31, 0, .rc, .n⟩]⟩,
  ⟨"HST_APER", 0x1E10000, [(0x2000, 16)], .p, .none,
    [⟨0, 0, .rw, .l⟩, ⟨1, 1, .rw, .l⟩, ⟨47, 16, .rw, .l⟩]⟩,
  ⟨"HMB_CFG", 0x1E10008, [(0x2000, 16)], .p, .none,
    [⟨0, 0, .rw, .l⟩, ⟨47, 12, .rw, .l⟩]⟩,
  ⟨"HMB_SEND", 0x1E10010, [(0x2000, 16)], .j, .slot,
    [⟨11, 0, .wo, .d⟩]⟩,
  ⟨"HMB_ACK", 0x1E10018, [(0x2000, 16)], .j, .slot,
    [⟨0, 0, .wo, .d⟩]⟩,
  ⟨"HMB_STATUS", 0x1E10020, [(0x2000, 16)], .j, .slot,
    [⟨0, 0, .w1c, .d⟩, ⟨1, 1, .w1c, .d⟩, ⟨47, 16, .ro, .n⟩, ⟨63, 48, .ro, .n⟩]⟩,
  ⟨"HMB_OBJ", 0x1E10028, [(0x2000, 16)], .p, .none,
    [⟨15, 0, .rw, .l⟩, ⟨31, 16, .rw, .l⟩, ⟨47, 32, .rw, .l⟩]⟩,
  ⟨"HMB_DATA", 0x1E10800, [(0x2000, 16), (0x8, 256)], .j, .slot,
    [⟨63, 0, .rw, .d⟩]⟩,
  ⟨"HMB_OUT", 0x1E11000, [(0x2000, 16), (0x8, 256)], .jr, .slot,
    [⟨63, 0, .ro, .n⟩]⟩]

/-- Registers of spec/17_mixed_generations.md. -/
def regs17 : List RDesc := [
  ⟨"DPROF", 0xE00000, [(0x8, 65536)], .p, .none,
    [⟨1, 0, .rw, .l⟩, ⟨14, 2, .rw, .l⟩, ⟨18, 15, .rw, .l⟩]⟩,
  ⟨"RT_RFMT", 0x830000, [(0x8, 256)], .p, .none,
    [⟨3, 0, .rw, .s⟩, ⟨5, 4, .rw, .s⟩, ⟨31, 8, .rw, .s⟩, ⟨32, 32, .rw, .s⟩]⟩,
  ⟨"XGEN_CONV", 0xF01040, [(0x100, 16)], .p, .slot,
    [⟨31, 0, .rc, .n⟩, ⟨63, 32, .rc, .n⟩]⟩,
  ⟨"XGEN_SKIP", 0xF01048, [(0x100, 16)], .p, .slot,
    [⟨31, 0, .rc, .n⟩, ⟨63, 32, .rc, .n⟩]⟩,
  ⟨"XGEN_STAT", 0xF01050, [(0x100, 16)], .p, .slot,
    [⟨0, 0, .w1c, .d⟩, ⟨1, 1, .w1c, .d⟩, ⟨2, 2, .w1c, .d⟩]⟩]

/-- All registers. -/
def allRegs : List RDesc :=
  regs03 ++ regs04 ++ regs06 ++ regs07 ++ regs09 ++ regs10 ++ regs11 ++ regs12 ++
  regs13 ++ regs14 ++ regs15 ++ regs16 ++ regs17

/-- The indices of a register at a distance from its base, outermost first. -/
def decodeDims : List (Nat × Nat) → Nat → Option (List Nat)
  | [], r => if r = 0 then some [] else none
  | (st, n) :: ds, r =>
    if r / st < n then (decodeDims ds (r % st)).map (fun is => r / st :: is) else none

/-- The register at a BAR0 offset and its indices. -/
def regAt (off : Nat) : List RDesc → Option (RDesc × List Nat)
  | [] => none
  | r :: rs =>
    match (if r.base ≤ off then decodeDims r.dims (off - r.base) else none) with
    | some is => some (r, is)
    | none => regAt off rs

/-- Offsets of the ID registers whose blocks have no index. -/
def idRegs : List Nat :=
  [Reg.TOP_ID, Reg.SEC_ID, Reg.PWR_ID, Reg.SCH_ID, Reg.FLT_ID, Reg.RTE_ID, Reg.FAB_ID, Reg.XCH_ID, Reg.TIR_ID,
   Reg.MEM_ID, Reg.CUL_ID, Reg.SYN_ID, Reg.HST_ID]

/-- Voltage table entry D of PWR_VF as fused: millivolts and usable (R695; log 23). -/
def vfWord (mv : Nat) : Word := BitVec.ofNat 64 (mv + 2 ^ 12)

/-- The Reset value of the register at an offset (the Reset columns of the register maps; for registers whose Reset
column names a source outside the device: logs 20 to 23). -/
def resetVal (off : Nat) : Word :=
  if off ∈ idRegs then 0x30001#64
  else if 0x2000000 ≤ off then
    (if off % 0x100000 = 0 then 0x30001#64
     else if off % 0x100000 = 0x18 then 0x10#64
     else if off % 0x100000 = 0x38 then 0x4000#64
     else 0#64)
  else if Reg.XCH_CFG 0 ≤ off ∧ off ≤ Reg.XCH_CFG 15 ∧ (off - Reg.XCH_CFG 0) % 256 = 0 then 0x30064#64
  else if Reg.PORT_CTRL 0 ≤ off ∧ off ≤ Reg.PORT_CTRL 7 ∧ (off - Reg.PORT_CTRL 0) % 4096 = 0 then 1#64
  else if off = Reg.MODULE_ID then 1#64
  else if off = Reg.MEM_CFG then 0x18#64
  else if off = Reg.MEM_STATUS then 0x100000000#64
  else if off = Reg.MEM_FRAMES then BitVec.ofNat 64 4050944
  else if off = Reg.FAB_CFG then 0x000A3E81F40A0014#64
  else if off = Reg.PWR_CAP then 0x640#64
  else if off = Reg.PWR_LIMIT then 0x20#64
  else if off = Reg.PWR_STATUS then 0x202020#64
  else if off = Reg.PWR_GUARD then 0x32#64
  else if off = Reg.PWR_GATE then 0x40404040#64
  else if off = Reg.PWR_AGE then 0xC2000#64
  else if off = Reg.SEC_LC then 0xE002#64
  else if Reg.PWR_VF 0 ≤ off ∧ off ≤ Reg.PWR_VF 32 ∧ (off - Reg.PWR_VF 0) % 8 = 0 then
    vfWord (typicalVtab.getD ((off - Reg.PWR_VF 0) / 8) 0)
  else 0#64

/-! ### Access to registers by the device itself -/

/-- The current value of a register. -/
def Dev.reg (d : Dev) (off : Nat) : Word := tget resetVal d.regs off

/-- Bits [hi:lo] of a register. -/
def Dev.rf (d : Dev) (off hi lo : Nat) : Nat := fld (d.reg off) hi lo

/-- One bit of a register. -/
def Dev.rb (d : Dev) (off i : Nat) : Bool := bitAt (d.reg off) i

/-- Sets a register. -/
def Dev.setReg (d : Dev) (off : Nat) (w : Word) : Dev := { d with regs := tput resetVal d.regs off w }

/-- Sets bits [hi:lo] of a register. -/
def Dev.setRf (d : Dev) (off hi lo x : Nat) : Dev := d.setReg off (setFld (d.reg off) hi lo x)

/-- Sets one bit of a register. -/
def Dev.setRb (d : Dev) (off i : Nat) (b : Bool) : Dev := d.setReg off (setBit (d.reg off) i b)

/-- Adds to a counter field modulo its width. -/
def Dev.addRf (d : Dev) (off hi lo n : Nat) : Dev := d.setRf off hi lo (d.rf off hi lo + n)

/-- Adds to a counter field that stops at all ones. -/
def Dev.satRf (d : Dev) (off hi lo n : Nat) : Dev :=
  d.setRf off hi lo (min (d.rf off hi lo + n) (2 ^ (hi + 1 - lo) - 1))

/-- Bits [hi:lo] of the value in force of a register with class S fields (R23). -/
def Dev.inf (d : Dev) (off hi lo : Nat) : Nat := fld (tget resetVal d.force off) hi lo

/-- A commit point of a register: the written value takes force (R23, R24). -/
def Dev.commit (d : Dev) (off : Nat) : Dev := { d with force := tput resetVal d.force off (d.reg off) }

/-- Keeps a write that changed L fields of an idle block for its CCLK (R29). -/
def Dev.noteL (d : Dev) (w : LWrite) : Dev :=
  { d with hst := { d.hst with lwrites := w :: d.hst.lwrites.filter (fun l => decide (l.time = d.now)) } }

/-- A block becomes busy: writes that changed its L fields in this CCLK are ignored, newest first, and show in the
cfg_rejected bit that covers them (R26, R29). -/
def Dev.becomesBusy (d : Dev) (b : LBlock) : Dev :=
  d.hst.lwrites.foldl (fun a l =>
    if l.block = b ∧ l.time = d.now then
      let b := a.setReg l.off (BitVec.ofNat 64 (((a.reg l.off).toNat &&& ((2 ^ 64 - 1) ^^^ l.mask)) ||| (l.old.toNat &&& l.mask)))
      match l.flag with
      | some f => b.setRb f.1 f.2 true
      | none => b
    else a) d

/-- Commits several registers. -/
def Dev.commitAll (d : Dev) (offs : List Nat) : Dev := offs.foldl Dev.commit d

end Sys2Proof.Machine
end

