-- ==== Sys2Proof/Machine/Ops.lean ====
section
/-! DEFINITION. The named operations over registers of cores, engines and slots: each has one home, and every read and
write goes through these. -/

namespace Sys2Proof.Machine

/-! ### Cores, engines, ports: tables by number -/

/-- Core c. -/
def Dev.core (d : Dev) (c : Nat) : Core := tget (fun _ => Core.reset) d.cores c

/-- Replaces core c. -/
def Dev.setCore (d : Dev) (c : Nat) (x : Core) : Dev := { d with cores := tput (fun _ => Core.reset) d.cores c x }

/-- Changes core c. -/
def Dev.modCore (d : Dev) (c : Nat) (f : Core → Core) : Dev := d.setCore c (f (d.core c))

/-- Engine e. -/
def Dev.engine (d : Dev) (e : Nat) : Eng := tget (fun _ => Eng.reset) d.eng e

/-- Replaces engine e. -/
def Dev.setEngine (d : Dev) (e : Nat) (x : Eng) : Dev := { d with eng := tput (fun _ => Eng.reset) d.eng e x }

/-- Changes engine e. -/
def Dev.modEngine (d : Dev) (e : Nat) (f : Eng → Eng) : Dev := d.setEngine e (f (d.engine e))

/-- Fabric port p. -/
def Dev.port (d : Dev) (p : Nat) : Port := tget (fun _ => Port.reset) d.fab.ports p

/-- Replaces fabric port p. -/
def Dev.setPort (d : Dev) (p : Nat) (x : Port) : Dev :=
  { d with fab := { d.fab with ports := tput (fun _ => Port.reset) d.fab.ports p x } }

/-- Changes fabric port p. -/
def Dev.modPort (d : Dev) (p : Nat) (f : Port → Port) : Dev := d.setPort p (f (d.port p))

/-- Pool p's free store and records. -/
def Dev.pool (d : Dev) (p : Nat) : Pool := tget (fun _ => Pool.reset) d.cul.pools p

/-- Replaces pool p. -/
def Dev.setPool (d : Dev) (p : Nat) (x : Pool) : Dev :=
  { d with cul := { d.cul with pools := tput (fun _ => Pool.reset) d.cul.pools p x } }

/-- Route context s. -/
def Dev.rctx (d : Dev) (s : Nat) : RouteCtx := tget (fun _ => RouteCtx.reset) d.rte.ctx s

/-- Replaces route context s. -/
def Dev.setRctx (d : Dev) (s : Nat) (x : RouteCtx) : Dev :=
  { d with rte := { d.rte with ctx := tput (fun _ => RouteCtx.reset) d.rte.ctx s x } }

/-- Receive queue q of slot s. -/
def Dev.rqueue (d : Dev) (s q : Nat) : RecvQueue := tget (fun _ => RecvQueue.reset) d.xch.queues (s * 16 + q)

/-- Replaces receive queue q of slot s. -/
def Dev.setRqueue (d : Dev) (s q : Nat) (x : RecvQueue) : Dev :=
  { d with xch := { d.xch with queues := tput (fun _ => RecvQueue.reset) d.xch.queues (s * 16 + q) x } }

/-- Cadence n. -/
def Dev.cadence (d : Dev) (n : Nat) : Cadence := tget (fun _ => Cadence.reset) d.sch.cad n

/-- Replaces cadence n. -/
def Dev.setCadence (d : Dev) (n : Nat) (x : Cadence) : Dev :=
  { d with sch := { d.sch with cad := tput (fun _ => Cadence.reset) d.sch.cad n x } }

/-- Twin state of slot s. -/
def Dev.twinOf (d : Dev) (s : Nat) : Twin := tget (fun _ => Twin.reset) d.twin s

/-- Replaces twin state of slot s. -/
def Dev.setTwin (d : Dev) (s : Nat) (x : Twin) : Dev := { d with twin := tput (fun _ => Twin.reset) d.twin s x }

/-- The next free value's number, and the device after it is taken (log 31). -/
def Dev.takeFree (d : Dev) : Nat × Dev := (d.free, { d with free := d.free + 1 })

/-! ### Register files (Table 2-1) -/

/-- g[i]: g0 reads 0. -/
def Core.getG (x : Core) (i : Nat) : Word := if i = 0 then 0 else tget (fun _ => 0) x.g i

/-- Writes g[i]: a write to g0 is discarded. -/
def Core.setG (x : Core) (i : Nat) (w : Word) : Core := if i = 0 then x else { x with g := tput (fun _ => 0) x.g i w }

/-- p[i]: p0 reads 1. -/
def Core.getP (x : Core) (i : Nat) : Bool := if i = 0 then true else bitAt x.p i

/-- Writes p[i]: a write to p0 is discarded. -/
def Core.setP (x : Core) (i : Nat) (b : Bool) : Core := if i = 0 then x else { x with p := setBit x.p i b }

/-- Lane n of v[i]. -/
def Core.getV (x : Core) (i n : Nat) : W32 := tget (fun _ => 0) x.v (i * 128 + n)

/-- Writes lane n of v[i]. -/
def Core.setV (x : Core) (i n : Nat) (w : W32) : Core := { x with v := tput (fun _ => 0) x.v (i * 128 + n) w }

/-- All lanes of v[i]. -/
def Core.lanes (x : Core) (i : Nat) : List W32 := (List.range 128).map (x.getV i)

/-- Writes lanes from lane n on. -/
def Core.setLanes (x : Core) (i : Nat) : Nat → List W32 → Core
  | _, [] => x
  | n, w :: ws => (x.setV i n w).setLanes i (n + 1) ws

/-! ### CSRs (Table 2-2) -/

/-- Numbers of the CSRs whose value the core itself holds. -/
def csrHeld : List Nat :=
  [0x001, 0x002, 0x003, 0x400, 0x401, 0x405, 0x406, 0x407, 0x800, 0x801, 0x802, 0x803, 0x804, 0x805, 0x810]

/-- Reset values of held CSRs: 0, and XVEC as firmware writes it (R802, log 32). -/
def csrReset (n : Nat) : Word := if n = 0x801 then Config.xvec else 0

/-- A held CSR. -/
def Core.csrOf (x : Core) (n : Nat) : Word := tget csrReset x.csr n

/-- Sets a held CSR. -/
def Core.setCsr (x : Core) (n : Nat) (w : Word) : Core := { x with csr := tput csrReset x.csr n w }

/-- The core runs at M: XSTATUS.priv, and the root core always (R66, R67). -/
def Core.atM (x : Core) (c : Nat) : Bool := bitAt (x.csrOf 0x800) 0 || decide (c = 40)

/-- The slot in JOBSLOT, when valid. -/
def Core.slot (x : Core) : Option Nat :=
  if bitAt (x.csrOf 0x810) 31 then some (fld (x.csrOf 0x810) 3 0) else none

/-! ### Slots and jobs (file 09) -/

/-- Slot state: 0 free, 1 admitted, 2 stopped. -/
def Dev.jobState (d : Dev) (s : Nat) : Nat := d.rf (Reg.JOB_ADMIT s) 3 2

/-- A job is admitted in the slot, running or stopped (file 09). -/
def Dev.hasJob (d : Dev) (s : Nat) : Bool := decide (d.jobState s ≠ 0)

/-- The slot's job runs: admitted and not stopped. -/
def Dev.runs (d : Dev) (s : Nat) : Bool := decide (d.jobState s = 1)

/-- The global job identifier of a slot. -/
def Dev.jobId (d : Dev) (s : Nat) : Nat := d.rf (Reg.JOB_ID s) 19 0

/-- The slots. -/
def slots16 : List Nat := List.range 16

/-- The slot that holds a running job of an identifier (check 1 of Table 12-8, R639). -/
def Dev.slotOfJob (d : Dev) (job : Nat) : Option Nat :=
  slots16.find? (fun s => d.runs s && decide (d.jobId s = job))

/-- Node n is a member of the slot's job (R428). -/
def Dev.member (d : Dev) (s n : Nat) : Bool := d.rb (Reg.JOB_MAP s (n / 64)) (n % 64)

/-- The members of a slot's job, ascending. -/
def Dev.members (d : Dev) (s : Nat) : List Nat :=
  (List.range 1024).flatMap (fun i =>
    let w := d.reg (Reg.JOB_MAP s i)
    if w = 0 then [] else ((List.range 64).filter (bitAt w)).map (fun j => 64 * i + j))

/-- The device's own node number. -/
def Dev.node (d : Dev) : Nat := d.rf Reg.FAB_NODE 15 0

/-- Cores that serve a slot at J. -/
def Dev.coresOf (d : Dev) (s : Nat) : List Nat := (List.range 40).filter (fun c => decide ((d.core c).slot = some s))

/-- The slot an engine serves (ENG_STATUS). -/
def Dev.engSlot (d : Dev) (e : Nat) : Option Nat :=
  if d.rb (Reg.ENG_STATUS e) 5 then some (d.rf (Reg.ENG_STATUS e) 4 1) else none

/-- Engines that serve a slot. -/
def Dev.enginesOf (d : Dev) (s : Nat) : List Nat := (List.range 32).filter (fun e => decide (d.engSlot e = some s))

/-- Device-ready has been reached (R586). -/
def Dev.ready (d : Dev) : Bool := d.rb Reg.FAB_STATUS 1

/-- Reads a CSR as the core sees it at M. -/
def Dev.csrGet (d : Dev) (c n : Nat) : Word :=
  let x := d.core c
  if n = 0x000 then BitVec.ofNat 64 (fld (setBit x.p 0 true) 7 0)
  else if n = 0x402 then BitVec.ofNat 64 d.node
  else if n = 0x403 then
    match x.slot with
    | none => 0
    | some s => BitVec.ofNat 64 (d.jobId s + s * 2 ^ 24 + b2n (d.hasJob s) * 2 ^ 31)
  else if n = 0x404 then BitVec.ofNat 64 c
  else if n = 0x408 then BitVec.ofNat 64 (d.rf Reg.PWR_STATUS 6 0 % 64)
  else if n ∈ csrHeld then x.csrOf n
  else 0

/-- Reads a CSR at the core's privilege (R70, R71). -/
def Dev.csrRead (d : Dev) (c n : Nat) : Word :=
  if 0x800 ≤ n ∧ (d.core c).atM c = false then 0 else d.csrGet c n

/-- The bits of a held CSR that a write reaches. Where Table 2-2 names the bits of a CSR, the bits that it does not name are
taken as reserved: they read 0 (R15). So are bits [63:8] of XCAUSE, [63:16] of JFCODE and [63:1] of JFSTATUS, of which the
table says neither that they are reserved nor that they are not: DESIGN CHOICE (log 41). JFEPC and XEPC hold all 64 bits of
what is written or saved, as R90 saves a target with a bit in [63:48]; the bits that pc does not have are dropped when pc
takes the value (Table 2-1; log 41). -/
def csrMask (n : Nat) : Nat :=
  if n = 0x405 then 0xFFFF
  else if n = 0x407 then 1
  else if n = 0x800 then 14
  else if n = 0x803 then 0xFF
  else if n = 0x810 then 2 ^ 31 + 15
  else 2 ^ 64 - 1

/-- CSRs that a write reaches: at J those of view J, at M every CSR that the core holds (R70, R71, R115). NODE, JOB, COREID and
PACE show what stands elsewhere, so that a write at M finds nothing to set (log 41). -/
def csrWritable (m : Bool) (n : Nat) : Bool := decide (n ≤ 0x003) || (m && decide (n ∈ csrHeld))

/-- What a held CSR holds after a write: XSTATUS.priv keeps its value, for a core enters J only through MRET (R117). -/
def Core.csrNew (x : Core) (n : Nat) (w : Word) : Word :=
  if n = 0x800 then setBit (BitVec.ofNat 64 (w.toNat &&& csrMask n)) 0 (bitAt (x.csrOf n) 0)
  else BitVec.ofNat 64 (w.toNat &&& csrMask n)

/-- Writes a CSR at the core's privilege (R70, R71). -/
def Dev.csrWrite (d : Dev) (c n : Nat) (w : Word) : Dev :=
  let x := d.core c
  if csrWritable (x.atM c) n = false then d
  else if n = 0 then d.setCore c { x with p := setBit (BitVec.ofNat 8 w.toNat) 0 false }
  else d.setCore c (x.setCsr n (x.csrNew n w))

/-! ### Host accesses to the BARs (R708, R720 to R723, R769, R770) -/

/-- Host accesses reach a register: at device-ready, or in boot-failed those of the TOP and SEC blocks through BAR0. After a
thermal trip the device answers management only. -/
def Dev.barOpen (d : Dev) (v : Via) (sec : Bool) : Bool :=
  !d.rb Reg.PWR_STATUS 31
    && (decide (d.rf Reg.SEC_BOOT 3 0 = 7) || (decide (d.rf Reg.SEC_BOOT 3 0 = 8) && sec && v.slot.isNone))

/-- A request to BAR2 or BAR4 outside an IDE stream while one is required. -/
def Dev.ideRefused (d : Dev) (ide : Bool) : Bool := d.rb Reg.HST_CFG 0 && !ide

/-- Completes a host access. -/
def Dev.complete (d : Dev) (r : Completion) : Dev := { d with out := { d.out with host := r :: d.out.host } }

/-- The BAR of a host access: 4, 2 for a job view, 0. -/
def hostBar : Instr → Nat
  | .bar4Access _ => 4
  | .synPost v _ => if v.slot.isSome then 2 else 0
  | .synReset v _ => if v.slot.isSome then 2 else 0
  | .windowWrite v _ _ => if v.slot.isSome then 2 else 0
  | .rctxCancelGo v _ _ => if v.slot.isSome then 2 else 0
  | .cadCfgEnableSet v _ _ => if v.slot.isSome then 2 else 0
  | .cadCfgEnableClear v _ _ => if v.slot.isSome then 2 else 0
  | .hmbSend v _ _ => if v.slot.isSome then 2 else 0
  | .hmbAck v _ => if v.slot.isSome then 2 else 0
  | .registerWrite v _ _ => if v.slot.isSome then 2 else 0
  | _ => 0

/-- A host access that is no read: a posted write. -/
def hostWrites : Instr → Bool
  | .bar4Access a => a.write.isSome
  | .registerRcRead _ _ => false
  | _ => true

/-- A posted write may not yet be performed: an earlier one to its BAR waits, or, for a write of SYN_POST or HMB_SEND, one to
BAR2 or BAR4 (R775). -/
def Dev.mustWait (d : Dev) (c : Instr) (post : Bool) : Bool :=
  hostWrites c && d.hst.waits.any (fun w =>
    hostWrites w && (decide (hostBar w = hostBar c) || (post && decide (hostBar w ≠ 0))))

/-- A host access waits. -/
def Dev.hold (d : Dev) (c : Instr) : Dev := { d with hst := { d.hst with waits := d.hst.waits ++ [c] } }

/-- What a host access to a register comes to where it does not reach it: it has no effect, or, in D3hot and without the IDE
stream that HST_CFG.ide_req requires, it completes as Unsupported Request, or it waits behind earlier writes. -/
def Dev.barStop (d : Dev) (c : Instr) (v : Via) (sec post : Bool) : Option Dev :=
  if d.barOpen v sec = false then some d
  else if d.hst.d3hot then some (d.complete .unsupported)
  else if v.slot.isSome && d.ideRefused v.ide then some ((d.satRf Reg.HST_HERR 31 0 1).complete .unsupported)
  else if d.mustWait c post then some (d.hold c)
  else none

/-- A host access to a register, where it reaches it: the command, its view, whether it names the TOP or SEC block, whether it
writes SYN_POST or HMB_SEND. -/
def Dev.barAccess (d : Dev) (c : Instr) (v : Via) (sec post : Bool) (f : Dev → Dev) : Dev :=
  match d.barStop c v sec post with
  | some e => e
  | none => f d

/-- BAR0. -/
def bar0 : Via := { slot := none, ide := true }

/-- A register of slot s stands in a view: BAR0, or the window of that slot (R18). -/
def viaSees (v : Via) (s : Nat) : Bool :=
  match v.slot with
  | none => true
  | some n => decide (n = s)

/-! ### What the device sends out -/

/-- Sends the MSI-X message of a vector (R553). -/
def Dev.msix (d : Dev) (v : Nat) : Dev :=
  if d.hst.d3hot then { d with hst := { d.hst with msixPending := d.hst.msixPending ++ [v] } }
  else { d with out := { d.out with msix := v :: d.out.msix } }

/-- Sends an answer. -/
def Dev.answer (d : Dev) (r : Resp) : Dev := { d with out := { d.out with resp := r :: d.out.resp } }

end Sys2Proof.Machine
end

