-- ==== Sys2Proof/Machine/Sync.lean ====
section
/-! DEFINITION. Sync objects, the sync-count ledger, host interrupts and the end of a cadence's period (file 11, R458). -/

namespace Sys2Proof.Machine

/-! ### Ledger memory (R556, R559) -/

/-- The majority of three copies. -/
def Trip.majority (t : Trip) : Option Word :=
  if t.a = t.b ∨ t.a = t.c then some t.a else if t.b = t.c then some t.b else none

/-- Copies that differ from a value. -/
def Trip.differing (t : Trip) (v : Word) : Nat :=
  b2n (decide (t.a ≠ v)) + b2n (decide (t.b ≠ v)) + b2n (decide (t.c ≠ v))

/-- Three equal copies. -/
def Trip.of (v : Word) : Trip := { a := v, b := v, c := v }

/-- Counters of group g (a slot, or 16 for the device-owned objects): applied, consumed, and of a slot's remote posts
issued, applied, rejected, pending, failed. -/
def ledApplied (g : Nat) : Nat := g * 8
/-- Counter: consumed of a group. -/
def ledConsumed (g : Nat) : Nat := g * 8 + 1
/-- Counter: remote post counts issued. -/
def ledIssued (s : Nat) : Nat := s * 8 + 2
/-- Counter: remote post counts pending. -/
def ledPending (s : Nat) : Nat := s * 8 + 3
/-- Counter: remote post counts failed. -/
def ledFailed (s : Nat) : Nat := s * 8 + 4
/-- Counter: remote post counts acknowledged applied. -/
def ledAckOk (s : Nat) : Nat := s * 8 + 5
/-- Counter: remote post counts acknowledged rejected. -/
def ledAckRej (s : Nat) : Nat := s * 8 + 6

/-- The copies of a counter. -/
def Dev.trip (d : Dev) (k : Nat) : Trip := tget (fun _ => Trip.zero) d.cul.ledger k

/-- A majority stands. -/
def Dev.ledgerOk (d : Dev) (k : Nat) : Bool := (d.trip k).majority.isSome

/-- The value of a counter: the majority, else the first copy (the raise of R559 is the reader's). -/
def Dev.ledgerVal (d : Dev) (k : Nat) : Word := (d.trip k).majority.getD (d.trip k).a

/-- Sets a counter, three copies. -/
def Dev.ledgerSet (d : Dev) (k : Nat) (v : Word) : Dev :=
  { d with cul := { d.cul with ledger := tput (fun _ => Trip.zero) d.cul.ledger k (Trip.of v) } }

/-- Repairs the copies of a counter that differ, counting them (R559). -/
def Dev.ledgerRepair (d : Dev) (k : Nat) : Dev :=
  match (d.trip k).majority with
  | none => d
  | some v =>
    let n := (d.trip k).differing v
    if n = 0 then d else (d.satRf Reg.LEDGER_CE 31 0 n).ledgerSet k v

/-- Reads, repairs, and adds to a counter modulo 2^64; without a majority every copy is added to, and the next check raises
0x0B02. -/
def Dev.ledgerAdd (d : Dev) (k : Nat) (v : Word) : Dev :=
  let t := d.trip k
  if t.majority.isSome then (d.ledgerRepair k).ledgerSet k (d.ledgerVal k + v)
  else { d with cul := { d.cul with ledger := tput (fun _ => Trip.zero) d.cul.ledger k { a := t.a + v, b := t.b + v, c := t.c + v } } }

/-! ### Owners (R547) -/

/-- Slot s's range holds object i. -/
def Dev.inRange (d : Dev) (s i : Nat) : Bool :=
  let b := d.rf (Reg.SYN_RANGE s) 15 0
  decide (b ≤ i) && decide (i < b + d.rf (Reg.SYN_RANGE s) 32 16)

/-- The owner of an object: the lowest slot whose range holds it; none when device-owned. -/
def Dev.owner (d : Dev) (i : Nat) : Option Nat := slots16.find? (fun s => d.inRange s i)

/-- The ledger group of an object. -/
def Dev.group (d : Dev) (i : Nat) : Nat := (d.owner i).getD 16

/-! ### Objects (R546 to R553) -/

/-- An object's count. -/
def Dev.synCount (d : Dev) (i : Nat) : Nat := d.rf (Reg.SYN_STATE i) 31 0

/-- An object's error mark. -/
def Dev.synErr (d : Dev) (i : Nat) : Bool := d.rb (Reg.SYN_STATE i) 48

/-- The condition of R553 on count and mark. -/
def Dev.irqCond (d : Dev) (i : Nat) : Bool :=
  let th := d.rf (Reg.SYN_CTL i) 63 32
  (decide (1 ≤ th) && decide (th ≤ d.synCount i)) || (d.rb (Reg.SYN_CTL i) 1 && d.synErr i)

/-- The vector of an object (R553). -/
def Dev.irqVector (d : Dev) (i : Nat) : Nat :=
  (match d.owner i with
   | some s => 8 * s
   | none => 128) + d.rf (Reg.SYN_CTL i) 4 2

/-- SYNC_OBJECT_IRQ (R553): after an update. -/
def Dev.synIrq (d : Dev) (i : Nat) : Dev :=
  if d.rb (Reg.SYN_CTL i) 0 && !d.rb (Reg.SYN_CTL i) 5 && d.irqCond i then
    (d.setRb (Reg.SYN_CTL i) 5 true).msix (d.irqVector i)
  else d

/-- Resets an object: count 0, mark cleared, epoch + 1; the old count is consumed (R110, R549, R552). -/
def Dev.resetObj (d : Dev) (i : Nat) : Dev :=
  let n := d.synCount i
  let e := d.rf (Reg.SYN_STATE i) 47 32
  let d1 := d.setReg (Reg.SYN_STATE i) (BitVec.ofNat 64 ((e + 1) % 65536 * 2 ^ 32))
  (d1.ledgerAdd (ledConsumed (d.group i)) (BitVec.ofNat 64 n)).synIrq i

/-- Lowers a count by 1 (the scheduler's take, R435). -/
def Dev.takeObj (d : Dev) (i : Nat) : Dev :=
  let d1 := d.setRf (Reg.SYN_STATE i) 31 0 (d.synCount i - 1)
  (d1.ledgerAdd (ledConsumed (d.group i)) 1).synIrq i

/-- CADENCE_PERIOD_END (R458 to R461, R465) of cadence n, whose done object has a count of at least 1 now. -/
def Dev.endPeriod (d : Dev) (n : Nat) : Dev :=
  let x := d.cadence n
  let d0 := if d.synErr x.done then d.setRb (Reg.CAD_STATUS n) 1 true else d
  let d1 := d0.resetObj x.done
  let planned := x.s + x.len
  let late := decide (planned < d.now)
  let nx := if late then d.now else planned
  let debt := x.debt + (nx - x.s) - x.pn
  let d2 := if late then (d1.satRf (Reg.CAD_OVERRUNS n) 31 0 1).setRb (Reg.CAD_STATUS n) 0 true else d1
  d2.setCadence n { x with s := nx, debt := debt, number := x.number + 1, open_ := false }

/-- The number and the debt of the period that starts are shown, the debt saturated at 2^32 - 1 (R459, R465). -/
def Dev.showPeriod (d : Dev) (n number debt : Nat) : Dev :=
  let shown := min debt (2 ^ 32 - 1)
  let d1 := if 2 ^ 32 ≤ debt then d.setRb (Reg.CAD_STATUS n) 2 true else d
  let d2 := (d1.setRf (Reg.CAD_STATE n) 63 32 number).setRf (Reg.CAD_STATE n) 31 0 shown
  d2.setRf (Reg.CAD_MAXDEBT n) 31 0 (max shown (d2.rf (Reg.CAD_MAXDEBT n) 31 0))

/-- The cadences whose open period waits for object i. -/
def Dev.awaiting (d : Dev) (i : Nat) : List Nat :=
  (List.range 32).filter (fun n => let x := d.cadence n; x.on && x.open_ && decide (x.done = i))

/-- Ends the period of every cadence that waits for object i, once its count is at least 1. -/
def Dev.cadenceCheck (d : Dev) (i : Nat) : Dev :=
  (d.awaiting i).foldl (fun a n => if 1 ≤ a.synCount i then a.endPeriod n else a) d

/-- A post (R104, R106, R549, R552): the whole count is added and counted as applied; one that would carry beyond
2^32 − 1 is not applied (R114). Answers whether it was. -/
def Dev.postRaw (d : Dev) (i n : Nat) (err : Bool) : Dev × Bool :=
  let c := d.synCount i + n
  if 2 ^ 32 ≤ c then (d, false)
  else
    let w := setFld (d.reg (Reg.SYN_STATE i)) 31 0 c
    let d1 := d.setReg (Reg.SYN_STATE i) (if err then setBit w 48 true else w)
    (((d1.ledgerAdd (ledApplied (d.group i)) (BitVec.ofNat 64 n)).synIrq i).cadenceCheck i, true)

end Sys2Proof.Machine
end

