-- ==== Sys2Proof/Machine/Faults.lean ====
section
/-! DEFINITION. Fault classes, fault records, the stop of a job, and entry to M (files 02 and 13). -/

namespace Sys2Proof.Machine

/-- The classes of Table 13-1. -/
inductive FClass where
  | deliverable
  | stop
  | ledgerStop
  | deviceStop
  | record
  deriving DecidableEq, Repr

/-- Codes of class stop (Table 13-2). -/
def stopCodes : List Nat :=
  [0x0110, 0x0111, 0x0304, 0x0305, 0x0405, 0x0406, 0x0602, 0x0603, 0x0610, 0x0611, 0x0612, 0x0801, 0x0804, 0x0A10,
   0x0A11, 0x0A14]

/-- Codes of class record (Table 13-2). -/
def recordCodes : List Nat :=
  [0x0113, 0x0507, 0x0508, 0x0604, 0x0901, 0x0903, 0x0904, 0x0905, 0x0906, 0x0A01, 0x0A02]

/-- The class of a code; 0x0605 is deliverable at TPIN and TSTREAM and a record elsewhere (R636). -/
def classOf (code : Nat) : FClass :=
  if code ∈ stopCodes then .stop
  else if code ∈ recordCodes then .record
  else if code = 0x0B01 ∨ code = 0x0B02 then .ledgerStop
  else if code = 0x0902 then .deviceStop
  else .deliverable

/-- A fault with no unit: code, JFINFO, source and detail words. -/
def mkFault (code : Nat) (info : Word) (source d0 d1 d2 : Nat) : FaultInfo :=
  { code := code, info := info, source := source, ukind := 0, units := 0, flight := 0xFFFFFFFF, entry := 0,
    d0 := BitVec.ofNat 64 d0, d1 := BitVec.ofNat 64 d1, d2 := BitVec.ofNat 64 d2 }

/-! ### The fault log (R643 to R651) -/

/-- Bytes 0 to 7 of a record (Table 13-3). -/
def recWord0 (f : FaultInfo) (s rseq : Nat) (deliv delivered stopped devstop : Bool) : Word :=
  BitVec.ofNat 64 (f.code + s * 2 ^ 16 + b2n deliv * 2 ^ 20 + b2n delivered * 2 ^ 21 + b2n stopped * 2 ^ 22
    + b2n devstop * 2 ^ 23 + f.ukind * 2 ^ 24 + rseq % 2 ^ 32 * 2 ^ 32)

/-- Bytes 16 to 23 of a record. -/
def recWord2 (d : Dev) (s source : Nat) : Word :=
  BitVec.ofNat 64 (d.jobId s + d.node * 2 ^ 20 + source * 2 ^ 36)

/-- Record n of slot s says the same, in this CCLK, as a fault does (R645). -/
def Dev.sameCause (d : Dev) (s n : Nat) (f : FaultInfo) : Bool :=
  let r := fun w => d.reg (Reg.FLOG s (n % 256) w)
  decide (r 1 = BitVec.ofNat 64 d.now) && decide (fld (r 0) 15 0 = f.code) && decide (r 3 = BitVec.ofNat 64 f.entry)
    && decide (r 4 = BitVec.ofNat 64 (f.units + f.flight * 2 ^ 32)) && decide (r 5 = f.d0) && decide (r 6 = f.d1)
    && decide (r 7 = f.d2)

/-- The words of record n of a slot's log. -/
def Dev.recWords (d : Dev) (s n : Nat) : List Word := (List.range 8).map (fun w => d.reg (Reg.FLOG s (n % 256) w))

/-- Puts words as record n: bytes 8 to 63 first, bytes 0 to 7 with its sequence number last (R648). -/
def Dev.putRecord (d : Dev) (s n : Nat) (ws : List Word) : Dev :=
  [1, 2, 3, 4, 5, 6, 7, 0].foldl (fun a w =>
    let v := ws.getD w 0
    a.setReg (Reg.FLOG s (n % 256) w) (if w = 0 then setFld v 63 32 n else v)) d

/-- The records from n, k of them, move up by one place. -/
def Dev.shiftRecords (d : Dev) (s n : Nat) : Nat → Dev
  | 0 => d
  | k + 1 => (d.putRecord s (n + k + 1) (d.recWords s (n + k))).shiftRecords s n k

/-- The place of a source's record among those before record n that were raised in this CCLK: after those of lower or equal source
number (R646). -/
def Dev.placeOf (d : Dev) (s source : Nat) : Nat → Nat
  | 0 => 0
  | n + 1 =>
    if d.reg (Reg.FLOG s (n % 256) 1) = BitVec.ofNat 64 d.now ∧ source < d.rf (Reg.FLOG s (n % 256) 2) 41 36 then
      d.placeOf s source n
    else n + 1

/-- The record before record n that was raised in this CCLK and says the same as a fault does (R645). -/
def Dev.causeBefore (d : Dev) (s : Nat) (f : FaultInfo) : Nat → Option Nat
  | 0 => none
  | n + 1 =>
    if d.reg (Reg.FLOG s (n % 256) 1) ≠ BitVec.ofNat 64 d.now then none
    else if d.sameCause s n f then some n else d.causeBefore s f n

/-- The words of a record (Table 13-3). -/
def Dev.newRecord (d : Dev) (s : Nat) (f : FaultInfo) (deliv delivered stopped devstop : Bool) : List Word :=
  [recWord0 f s 0 deliv delivered stopped devstop, BitVec.ofNat 64 d.now, recWord2 d s f.source, BitVec.ofNat 64 f.entry,
   BitVec.ofNat 64 (f.units + f.flight * 2 ^ 32), f.d0, f.d1, f.d2]

/-- Puts a record into its place among n records, of which record j leaves its own (R646). -/
def Dev.insertRecord (d : Dev) (s source j : Nat) (ws : List Word) : Dev :=
  let k := d.placeOf s source j
  (d.shiftRecords s k (j - k)).putRecord s k ws

/-- Writes a record (R647, R648, R651), raises FLT_HEAD, posts the alert object of the slot (R649), and of a power
fault tells the management controller (R766). The records of one CCLK stand in ascending source number (R646); raisings of one
cause keep one record, which names the lowest source (R645). `deliv`: it is raised in the deliverable class (R636). -/
def Dev.writeRecordAs (d : Dev) (s : Nat) (f : FaultInfo) (deliv delivered stopped devstop : Bool) : Dev :=
  let n := d.rf (Reg.FLT_HEAD s) 31 0
  match d.causeBefore s f n with
  | some j =>
    let ws := d.recWords s j
    if fld (ws.getD 2 0) 41 36 ≤ f.source then d
    else d.insertRecord s f.source j (ws.set 2 (setFld (ws.getD 2 0) 41 36 f.source))
  | none =>
    let d7 := (d.insertRecord s f.source n (d.newRecord s f deliv delivered stopped devstop)).setRf (Reg.FLT_HEAD s) 31 0 (n + 1)
    let d8 := if 256 ≤ n then d7.setRb (Reg.FLT_STATUS s) 1 true else d7
    let d9 := if f.code / 256 = 0x09 then d8.answer (.event f.code) else d8
    let o := d.rf (Reg.FLT_CFG s) 15 0
    if d.rb (Reg.FLT_CFG s) 16 && decide (d.owner o = some s) then (d9.postRaw o 1 false).1 else d9

/-- Writes a record of a fault in the class of its code. -/
def Dev.writeRecord (d : Dev) (s : Nat) (f : FaultInfo) (delivered stopped devstop : Bool) : Dev :=
  d.writeRecordAs s f (decide (classOf f.code = .deliverable)) delivered stopped devstop

/-- TIR_SSTAT.poison_data shows that 0x0601 is raised (Table 10-13). -/
def Dev.seePoison (d : Dev) (s : Nat) (f : FaultInfo) : Dev := if f.code = 0x0601 then d.setRb (Reg.TIR_SSTAT s) 4 true else d

/-- A record of a job on this device: none after the record of the fault that stopped the job, but for ledger stops and
device stops (R640). -/
def Dev.record (d0 : Dev) (s : Nat) (f : FaultInfo) (delivered stopped : Bool) : Dev :=
  let d := d0.seePoison s f
  let always := decide (classOf f.code = .ledgerStop) || decide (classOf f.code = .deviceStop)
  if decide (d.jobState s = 2) && !always then d else d.writeRecord s f delivered stopped false

/-! ### Entry to M (R126) -/

/-- A core enters M: ppriv, priv, ie, XEPC, XCAUSE, XTVAL, then XVEC. -/
def Core.enterM (x : Core) (cause : Nat) (tval : Word) : Core :=
  let st := x.csrOf 0x800
  let st' := setBit (setBit (setBit st 1 (bitAt st 0)) 0 true) 3 false
  let y := (((x.setCsr 0x800 st').setCsr 0x802 x.pc).setCsr 0x803 (BitVec.ofNat 64 cause)).setCsr 0x804 tval
  { y with pc := pcMask (x.csrOf 0x801).toNat, wait := none, lines := [] }

/-- MRET (R117): privilege becomes XSTATUS.ppriv and pc XEPC. -/
def Core.mret (x : Core) : Core :=
  { x.setCsr 0x800 (setBit (x.csrOf 0x800) 0 (bitAt (x.csrOf 0x800) 1)) with pc := pcMask (x.csrOf 0x802).toNat }

/-! ### The stop of a job (R637) -/

/-- A core of a stopped job takes cause 0x09, and its service of the job ends (R802). -/
def Core.stopService (x : Core) : Core :=
  let y := x.enterM 0x09 0
  { y with run := .jobStopped, frozen := true, arrived := [], async := [], owed := [], posts := [], entry := none, coll := none }

/-- An engine ends the work in hand of its slot's job; tiles and store stay (R638). -/
def Eng.endWork (x : Eng) : Eng :=
  { x with work := [], fills := [], active := none, streams := [], queued := [], enc := [] }

/-- Cores that take cause 0x09. -/
def Dev.stopCores (d : Dev) (s : Nat) : Dev := (d.coresOf s).foldl (fun a c => a.modCore c Core.stopService) d

/-- Engines that end their work. -/
def Dev.stopEngines (d : Dev) (s : Nat) : Dev := (d.enginesOf s).foldl (fun a e => a.modEngine e Eng.endWork) d

/-- Allocations of a slot's cores that wait on its pools are withdrawn. -/
def Dev.stopWaiters (d : Dev) (s : Nat) : Dev :=
  (d.cul.pools.map Prod.fst).foldl (fun a p =>
    if decide (a.rf (Reg.POOL_CFG p) 5 2 = s) && a.rb (Reg.POOL_CFG p) 1 then
      a.setPool p { a.pool p with waiters := [] }
    else a) d

/-- Host reads through BAR4 that wait on the slot complete as poisoned; its waiting writes there are discarded (R774). -/
def Dev.stopHostWaits (d : Dev) (s : Nat) : Dev :=
  let mine := fun (c : Instr) => match c with
    | .bar4Access a => decide (a.slot = s)
    | _ => false
  let reads := d.hst.waits.filter (fun c => mine c && !hostWrites c)
  { d with hst := { d.hst with waits := d.hst.waits.filter (fun c => !mine c) },
           out := { d.out with host := reads.map (fun _ => .poisoned) ++ d.out.host } }

/-- The frames that copies in hand of a slot had taken are free again. -/
def Dev.freeTaken (d : Dev) (s : Nat) : Dev :=
  (d.tir.busy.filter (fun m => decide (m.slot = s))).foldl (fun a m =>
    match m.frame with
    | some f =>
      ({ a with tir := { a.tir with inUse := tput (fun _ => false) a.tir.inUse f false } } : Dev).setRf (Reg.USAGE s) 21 0
        (a.rf (Reg.USAGE s) 21 0 - 1)
    | none => a) d

/-- Mover work that outlasts a job's stop: of other slots, and the operator's moves of homes. -/
def keepsMoving (s : Nat) (m : MoveReq) : Bool := decide (m.slot ≠ s) || decide (m.kind = .editMove)

/-- The movers end the work of a job that stops. -/
def Dev.stopMovers (d : Dev) (s : Nat) : Dev :=
  let d1 := d.freeTaken s
  let busy := d1.tir.busy.filter (keepsMoving s)
  ({ d1 with tir := { d1.tir with queue := d1.tir.queue.filter (keepsMoving s), busy := busy },
             fab := { d1.fab with reads := d1.fab.reads.filter (fun r =>
               match r.use with
               | .mover k _ => busy.any (fun m => decide (m.id = k))
               | _ => true) } } : Dev).setRf Reg.TIR_STATUS 4 0 busy.length

/-- A step of a unit that waits outlasts the stop of a slot's job: of another slot, or a progress word (R444). -/
def outlastsStop (s : Nat) : UnitStep → Bool
  | .write t src _ _ => decide (t ≠ s) || decide (src = 59)
  | .post t _ _ _ _ => decide (t ≠ s)
  | .skip t _ _ => decide (t ≠ s)
  | .mask t _ => decide (t ≠ s)
  | .abort t _ _ _ _ => decide (t ≠ s)

/-- A job stops on the device: slot state 2, cores, engines, and every unit's work in hand of the slot (R432, R637). -/
def Dev.stopJob (d : Dev) (s : Nat) : Dev :=
  if d.runs s then
    let cs := d.coresOf s
    let d1 := (d.setRf (Reg.JOB_ADMIT s) 3 2 2).setRb (Reg.FLT_STATUS s) 0 true
    let d2 := ((((d1.stopCores s).stopEngines s).stopWaiters s).stopHostWaits s).stopMovers s
    let x := d2.rctx s
    let d3 := d2.setRctx s { x with waits := [] }
    { d3 with
      rte := { d3.rte with ops := d3.rte.ops.filter (fun o => decide (o.slot ≠ s)),
                           packs := d3.rte.packs.filter (fun o => decide (o.slot ≠ s)) },
      xch := { d3.xch with sends := d3.xch.sends.filter (fun m => decide (m.slot ≠ s)),
                           zoneWait := d3.xch.zoneWait.filter (fun z => decide (z.slot ≠ s)) },
      fab := { d3.fab with reads := d3.fab.reads.filter (fun r =>
        match r.use with
        | .ldl c _ _ _ _ => !cs.contains c
        | .core c _ => !cs.contains c
        | .unit src t _ => decide (t ≠ s) || decide (src = 59)
        | _ => true) },
      tir := { d3.tir with later := d3.tir.later.filter (outlastsStop s),
                           lines := d3.tir.lines.filter (fun l => decide (l.2.1 ≠ s) || decide (l.1 = 59)),
                           failed := d3.tir.failed.filter (fun l => decide (l.2.1 ≠ s) || decide (l.1 = 59)) } }
  else d

/-- A fault that stops the job: the record first, then the stop (R648). -/
def Dev.stopWith (d : Dev) (s : Nat) (f : FaultInfo) : Dev := (d.record s f false (d.runs s)).stopJob s

/-- The slots that hold a job. -/
def Dev.jobSlots (d : Dev) : List Nat := slots16.filter d.hasJob

/-- A device-stop fault (R636): every job admitted on the device stops. -/
def Dev.deviceStop (d : Dev) (f : FaultInfo) : Dev :=
  d.jobSlots.foldl (fun a s =>
    let b := a.writeRecord s f false (a.runs s) true
    (if a.runs s then b.setRb (Reg.FLT_STATUS s) 2 true else b).stopJob s) d

/-- FLT_STATUS.lapsed of every slot: a job on this device falls outside R657 until a cold, warm or device reset (R672). -/
def Dev.lapseAll (d : Dev) : Dev := slots16.foldl (fun a s => a.setRb (Reg.FLT_STATUS s) 3 true) d

/-- A ledger fault (R558, R559): code, ledger number, what it concerns, the two sides, and the slots whose jobs stop. -/
def Dev.ledgerStop (d : Dev) (code led what : Nat) (l r : Word) (ss : List Nat) : Dev :=
  let d0 := d.setRf Reg.LEDGER_STATUS 3 1 led
  let d1 := if code = 0x0B02 then (d0.setRb Reg.LEDGER_STATUS 0 true).lapseAll else d0
  ss.foldl (fun a s => a.stopWith s (mkFault code 0 62 (led + what * 2 ^ 16) l.toNat r.toNat)) d1

/-- The slots that a fault of group g stops: the slot, or every job for the device-owned objects. -/
def Dev.groupSlots (d : Dev) (g : Nat) : List Nat := if g < 16 then [g].filter d.hasJob else d.jobSlots

/-- Raises 0x0B02 where a counter of the sync or remote-post ledger has no majority (R559). -/
def Dev.lapse (d : Dev) (k : Nat) : Dev :=
  if d.ledgerOk k then d
  else
    let led := if k % 8 < 2 then 3 else 4
    (d.ledgerSet k (d.ledgerVal k)).ledgerStop 0x0B02 led (k / 8) (d.trip k).a (d.trip k).b (d.groupSlots (k / 8))

/-- A post by the device or a core, with the ledger's check (R549, R559). Answers whether it was applied. -/
def Dev.post (d : Dev) (i n : Nat) (err : Bool) : Dev × Bool :=
  ((if d.awaiting i = [] then d else d.lapse (ledConsumed (d.group i))).lapse (ledApplied (d.group i))).postRaw i n err

/-- A reset of an object, with the ledger's check. -/
def Dev.synReset (d : Dev) (i : Nat) : Dev := (d.lapse (ledConsumed (d.group i))).resetObj i

/-- A unit's completion post to an object of a slot: not applied when the slot does not own the object. -/
def Dev.unitPost (d : Dev) (s i n : Nat) (err : Bool) : Dev :=
  if d.owner i = some s then (d.post i n err).1 else d

/-- A record-class fault, or a stop raised by a unit on behalf of a slot. -/
def Dev.unitFault (d : Dev) (s : Nat) (f : FaultInfo) : Dev :=
  match classOf f.code with
  | .record => d.record s f false false
  | .deviceStop => d.deviceStop f
  | _ => d.stopWith s f

/-- A record for each job admitted on the device. -/
def Dev.recordAll (d : Dev) (f : FaultInfo) : Dev := d.jobSlots.foldl (fun a s => a.record s f false false) d

/-- A record that is written whatever the code's class (0x0605 outside TPIN and TSTREAM, R636). -/
def Dev.recordOnly (d : Dev) (s : Nat) (f : FaultInfo) : Dev :=
  if d.jobState s = 2 then d else d.writeRecordAs s f false false false false

/-- The fault of an operation that names an object not owned by its slot (R550): sync name, count, owner slot (Table
13-4). -/
def Dev.objFault (d : Dev) (src obj n : Nat) : FaultInfo :=
  mkFault 0x0801 (BitVec.ofNat 64 (d.node * 2 ^ 48 + obj)) src (d.node * 2 ^ 48 + obj) n
    (match d.owner obj with
     | some s => s + 16
     | none => 0)

/-- A fault with the entry and the unit counts of the core that raises it (Table 13-3). -/
def Dev.withEntry (d : Dev) (c : Nat) (f : FaultInfo) : FaultInfo :=
  match (d.core c).entry with
  | none => f
  | some e =>
    let area := f.code / 256
    if f.entry ≠ 0 then f
    else if area = 1 ∨ area = 2 then
      { f with entry := e.addr, units := e.units, ukind := if f.ukind = 0 then 1 else f.ukind, flight := e.units }
    else if f.ukind ≠ 0 then { f with entry := e.addr }
    else { f with entry := e.addr, units := e.units }

/-- An asynchronous unit fault: one of a deliverable code or of class stop waits at the core that issued the work, which takes
it at its next boundary (R121); of another class the unit raises it itself. A core that no longer serves the slot takes
none. -/
def Dev.asyncFault (d : Dev) (c s : Nat) (f : FaultInfo) : Dev :=
  let serves := decide ((d.core c).slot = some s)
  match classOf f.code with
  | .deliverable => if serves || decide (c = 40) then d.modCore c (fun x => { x with async := x.async ++ [f] }) else d.stopWith s f
  | .stop => if serves then d.modCore c (fun x => { x with async := x.async ++ [f] }) else d.stopWith s f
  | _ => if serves && decide (f.source = c) then d.unitFault s (d.withEntry c f) else d.unitFault s f

/-- A fault of a unit's access for a slot: at the core that issued the work; none for a transaction from the fabric, which answers for
itself; else the unit's own. -/
def Dev.unitFails (d : Dev) (s src : Nat) (f : FaultInfo) : Dev :=
  if src ≤ 40 then d.asyncFault src s f else if src = 60 then d else d.unitFault s f

/-- The counters of the remote-post ledger of a slot. -/
def ledRemote (s : Nat) : List Nat := [ledIssued s, ledPending s, ledFailed s, ledAckOk s, ledAckRej s]

/-- Reads of counters of the sync and remote-post ledgers: a majority is taken and a copy that differs rewritten, or 0x0B02 raised
(R559). -/
def Dev.ledgerReads (d : Dev) (ks : List Nat) : Dev := ks.foldl (fun a k => (a.lapse k).ledgerRepair k) d

/-- A read of the counters of a credit (0), buffer (1) or token (2) ledger, of what they are kept for: a port and VC, a pool, a
context. A copy that differs is rewritten and counted; with no majority, 0x0B02 stops the jobs given (R559). -/
def Dev.readLedger (d : Dev) (led what : Nat) (ss : List Nat) : Dev :=
  let k := led * 2 ^ 32 + what
  let n := tget (fun _ => 0) d.cul.damage k
  if n = 0 then d
  else
    let d1 : Dev := { d with cul := { d.cul with damage := tput (fun _ => 0) d.cul.damage k 0 } }
    if n = 1 then d1.satRf Reg.LEDGER_CE 31 0 1 else d1.ledgerStop 0x0B02 led what 0 0 ss

/-- The remote-post ledger of a slot holds: issued = applied + rejected + pending + failed (R556). -/
def Dev.remoteLedgerCheck (d0 : Dev) (s : Nat) : Dev :=
  let d := d0.ledgerReads (ledRemote s)
  let l := d.ledgerVal (ledIssued s)
  let r := d.ledgerVal (ledAckOk s) + d.ledgerVal (ledAckRej s) + d.ledgerVal (ledPending s) + d.ledgerVal (ledFailed s)
  if l = r then d else d.ledgerStop 0x0B01 4 s l r [s]

/-- A remote post of n counts enters the ledger of its slot, as issued and as pending (R556). -/
def Dev.notePost (d : Dev) (s n : Nat) : Dev :=
  ((d.ledgerReads [ledIssued s, ledPending s]).ledgerAdd (ledIssued s) (BitVec.ofNat 64 n)).ledgerAdd (ledPending s) (BitVec.ofNat 64 n)

end Sys2Proof.Machine
end

