-- ==== Sys2Proof/Machine/Send.lean ====
section
/-! DEFINITION. How the device sends on the fabric: paths and detours, credits, flits, sequence spaces (file 12). -/

namespace Sys2Proof.Machine

/-! ### Nodes, axes, paths (R566, R613 to R617) -/

/-- Coordinate of a node on an axis: 0 x, 1 y, 2 z, 3 block. -/
def coord (node axis : Nat) : Nat := nfld node (4 * axis + 3) (4 * axis)

/-- A node with one coordinate replaced. -/
def withCoord (node axis v : Nat) : Nat := node - coord node axis * 16 ^ axis + v * 16 ^ axis

/-- Nodes along an axis, from FAB_TOPO. -/
def Dev.dim (d : Dev) (axis : Nat) : Nat := d.rf Reg.FAB_TOPO (4 * axis + 3) (4 * axis) + 1

/-- A node lies in FAB_TOPO. -/
def Dev.inTopo (d : Dev) (node : Nat) : Bool :=
  decide (node < 65536) && (List.range 4).all (fun a => decide (coord node a < d.dim a))

/-- The node that port p of a node joins (Table 12-1). -/
def Dev.neighbour (d : Dev) (node p : Nat) : Nat :=
  let a := p / 2
  let n := d.dim a
  let c := coord node a
  withCoord node a (if p % 2 = 0 then (c + 1) % n else (c + n - 1) % n)

/-- The port at the far end of port p. -/
def farPort (p : Nat) : Nat := if p % 2 = 0 then p + 1 else p - 1

/-- The next port on the default path: axes in the order X, Y, Z, S; the shorter way; at half the ring positive from an
even coordinate (R613). A bin that keeps to its segment takes the way that does not cross the wrap-around cable (R202). None at
the destination. -/
def Dev.nextPort (d : Dev) (segment : Bool) (at_ dst : Nat) : Option Nat :=
  ((List.range 4).find? (fun a => decide (coord at_ a ≠ coord dst a))).map (fun a =>
    let n := d.dim a
    let c := coord at_ a
    let fwd := (coord dst a + n - c % n) % n
    let up := if segment then decide (c < coord dst a) else decide (2 * fwd < n) || (decide (2 * fwd = n) && decide (c % 2 = 0))
    if up then 2 * a else 2 * a + 1)

/-- The hops of the path as (node, port). -/
def Dev.route (d : Dev) (segment : Bool) : Nat → Nat → Nat → List (Nat × Nat)
  | 0, _, _ => []
  | k + 1, at_, dst =>
    match d.nextPort segment at_ dst with
    | none => []
    | some p => (at_, p) :: d.route segment k (d.neighbour at_ p) dst

/-- A fragment of a bin (R205): job, source, channel and core of its message. -/
def binFragment (t : Tx) : Option (Nat × Nat × Nat × Nat) :=
  if t.op = 0x05 ∧ t.vc = 2 ∧ (t.chan = 12 ∨ t.chan = 13) then some (t.job, t.src, t.chan, t.core) else none

/-- The first fragment of a bin begins with its header, which names epoch, half, stage and direction (Table 3-9). -/
def Dev.noteStage (d : Dev) (t : Tx) : Dev :=
  match binFragment t with
  | some k =>
    if t.first then
      { d with fab := { d.fab with
        binStage := (k, nfld (leNat (t.payload.take 4)) 31 16) :: d.fab.binStage.filter (fun b => decide (b.1 ≠ k)) } }
    else d
  | none => d

/-- The exchange stage to which a fragment of a bin belongs (R217): job; epoch, half, stage and direction. -/
def Dev.stageOf (d : Dev) (t : Tx) : Option (Nat × Nat) :=
  (binFragment t).map (fun k => (t.job, ((d.fab.binStage.find? (fun b => decide (b.1 = k))).map Prod.snd).getD 0))

/-- The axis along which a stage's bin goes: the one on which its source and destination differ. -/
def txAxis (t : Tx) : Option Nat := (List.range 4).find? (fun a => decide (coord t.src a ≠ coord t.dst a))

/-- A fragment of a bin keeps to the segment between its source and its destination (R202, R203): at its source, when the job's
axis ring is no full ring; on the way, when it stands strictly between the two. -/
def Dev.onSegment (d : Dev) (t : Tx) : Bool :=
  match binFragment t, txAxis t with
  | some _, some a =>
    if t.src = d.node then
      match d.slotOfJob t.job with
      | some s => !(List.range (d.dim a)).all (fun v => d.member s (withCoord d.node a v))
      | none => false
    else
      let c := coord d.node a
      decide (min (coord t.src a) (coord t.dst a) < c) && decide (c < max (coord t.src a) (coord t.dst a))
  | _, _ => false

/-- State of a port (Table 12-3). -/
def Dev.portState (d : Dev) (p : Nat) : Nat := d.rf (Reg.PORT_STATE p) 3 0

/-- A port is UP; one in a fast retrain is not (R582). -/
def Dev.portUp (d : Dev) (p : Nat) : Bool := decide (d.portState p = 4)

/-- A mark from a link-state notice stands for the link at a port of a node. -/
def Dev.noticeMark (d : Dev) (node p : Nat) : Bool := (tget (fun _ => none) d.fab.marks (node * 8 + p)).isSome

/-- The link at port p of a node is marked at this device (R614): seen from either end. -/
def Dev.marked (d : Dev) (node p : Nat) : Bool :=
  let m := d.neighbour node p
  let q := farPort p
  d.noticeMark node p || d.noticeMark m q || (decide (node = d.node) && !d.portUp p)
    || (decide (m = d.node) && !d.portUp q)

/-- The path from a node crosses a marked link. -/
def Dev.blocked (d : Dev) (segment : Bool) (a b : Nat) : Bool := (d.route segment 64 a b).any (fun h => d.marked h.1 h.2)

/-- Detour candidates in order (R616). -/
def Dev.candidates (d : Dev) (src dst : Nat) : List Nat :=
  ((List.range 6).filter (fun p => decide (1 < d.dim (p / 2)))).map (d.neighbour src) ++
  ((List.range 6).filter (fun p => decide (1 < d.dim (p / 2)))).map (d.neighbour dst)

/-- A transaction with its path chosen (R616, R617). -/
def Dev.choosePath (d : Dev) (t : Tx) : Tx :=
  let t0 := { t with detour := false, via := 0, phase := false }
  if d.blocked (d.onSegment t) d.node t.dst then
    match (d.candidates d.node t.dst).find? (fun v =>
      decide (v ≠ d.node) && !d.blocked false d.node v && !d.blocked false v t.dst) with
    | some v => { t0 with detour := true, via := v }
    | none => t0
  else t0

/-! ### Headers (Table 12-5) -/

/-- The header's four words, with a given crc. -/
def txWords (t : Tx) (crc : Nat) : List Nat :=
  [t.op + t.vc * 2 ^ 5 + t.chan * 2 ^ 8 + t.core * 2 ^ 12 + t.hops * 2 ^ 18 + t.dst * 2 ^ 24 + t.src * 2 ^ 40
     + b2n t.detour * 2 ^ 56 + b2n t.retx * 2 ^ 57 + b2n t.first * 2 ^ 58 + b2n t.last * 2 ^ 59 + b2n t.err * 2 ^ 60
     + t.status * 2 ^ 61 + b2n t.pspace * 2 ^ 63,
   t.offset + t.queue * 2 ^ 48 + t.lenM1 * 2 ^ 52,
   t.seq + t.via * 2 ^ 32 + t.rid * 2 ^ 48,
   crc + t.job * 2 ^ 32 + b2n t.phase * 2 ^ 52]

/-- The bytes of a transaction. -/
def txBytes (t : Tx) (crc : Nat) : List Byte := (txWords t crc).flatMap (leBytes 8) ++ t.payload

/-- The crc of a transaction: over header and payload, with the fields of R599 at 0. -/
def txCrc (t : Tx) : Nat :=
  crc32c (txBytes { t with hops := 0, via := 0, phase := false, detour := false, retx := false } 0)

/-- A transaction with its crc. -/
def withCrc (t : Tx) : Tx := { t with crc := txCrc t }

/-- A transaction of this device with nothing but a destination and an operation. -/
def Dev.tx (d : Dev) (op vc dst job core : Nat) : Tx :=
  { op := op, vc := vc, chan := 0, core := core, hops := 0, dst := dst, src := d.node, detour := false, retx := false,
    first := false, last := false, err := false, status := 0, pspace := false, offset := 0, queue := 0, lenM1 := 0,
    seq := 0, via := 0, rid := 0, crc := 0, job := job, phase := false, payload := [] }

/-! ### Credits (R591 to R595) -/

/-- Units of 64 bytes of a transaction (R592). -/
def txUnits (t : Tx) : Nat := (32 + t.payload.length + 63) / 64

/-- The buffer class on the link that enters a node by axis a: phase, and dateline once the wrap link of the ring has been
crossed (R591). `up` is the positive direction. -/
def txClass (t : Tx) (a : Nat) (up : Bool) (here : Nat) : Nat :=
  let start := coord (if t.phase then t.via else t.src) a
  let line := if up then decide (coord here a < start) else decide (start < coord here a)
  2 * b2n t.phase + b2n line

/-- Receive buffer of a VC in 64-byte credits (Table 12-4). -/
def vcBuffer (span : Bool) (vc : Nat) : Nat :=
  let n :=
    match vc with
    | 0 => 512
    | 1 => 512
    | 2 => 1536
    | 3 => 1024
    | 4 => 256
    | 5 => 256
    | _ => 0
  if span then 4 * n else n

/-- The counters of a VC and class of a port. -/
def Port.credit (x : Port) (k : Nat) : Credit := tget (fun _ => Credit.reset) x.credits k

/-- Replaces them. -/
def Port.setCredit (x : Port) (k : Nat) (c : Credit) : Port :=
  { x with credits := tput (fun _ => Credit.reset) x.credits k c }

/-- Credits held: Gs − C modulo 2^48. -/
def Credit.held (c : Credit) : Nat := (c.gs + 2 ^ 48 - c.c % 2 ^ 48) % 2 ^ 48

/-- Buffer occupied: R − F modulo 2^48. -/
def Credit.occupied (c : Credit) : Nat := (c.r + 2 ^ 48 - c.f % 2 ^ 48) % 2 ^ 48

/-! ### Flits (R569 to R575) -/

/-- The link word of a flit without crc, bits [39:0]. -/
def linkLow (x : Flit) : Nat :=
  x.fseq + x.ack * 2 ^ 13 + x.kind * 2 ^ 26 + x.cvc * 2 ^ 29 + x.ccls * 2 ^ 32 + x.ccnt * 2 ^ 34

/-- The crc of a flit. -/
def flitCrc (x : Flit) : Nat := crc24 (leBytes 5 (linkLow x) ++ x.area)

/-- The 256 bytes of a flit: link word, payload area. -/
def flitBytes (x : Flit) : List Byte := leBytes 8 (linkLow x + x.crc * 2 ^ 40) ++ x.area

/-- The codeword of a flit (R570): its 256 bytes, then 16 parity bytes. No code of 272 bytes over GF(2^8) with 16 parity bytes corrects 8
byte errors, and the rule gives no generator: the parity bytes are free, and what arrives is a flit as corrected with the number of bytes
corrected (log 148). -/
def codeword (x : Flit) : List Byte := flitBytes x ++ (Config.fecParity (flitBytes x) ++ List.replicate 16 0#8).take 16

/-- The bytes of a codeword on active lane l at a width: byte j is on lane j mod width (R570). -/
def Flit.onLane (x : Flit) (width l : Nat) : List Byte :=
  (List.range 272).filterMap (fun j => if j % width = l then (codeword x)[j]? else none)

/-- Sends one sequenced flit: it stands in the replay buffer until the partner's ack covers it. -/
def Dev.sendFlit (d : Dev) (p : Nat) (kind : Nat) (area : List Byte) (hb : List HbEntry) : Dev :=
  let x := d.port p
  let f0 : Flit :=
    { fseq := x.txNext, ack := (x.rxExpect + 8191) % 8192, kind := kind, cvc := 0, ccls := 0, ccnt := 0, crc := 0,
      errs := 0, area := area, hb := hb }
  let f := { f0 with crc := flitCrc f0 }
  let d1 := d.setPort p { x with
    txNext := (x.txNext + 1) % 8192, replay := x.replay ++ [f],
    ackTime := if x.replay = [] then d.now else x.ackTime }
  { d1 with out := { d1.out with flits := (p, f) :: d1.out.flits } }

/-- Flits of the replay buffer (R575). -/
def replaySize (p : Nat) : Nat := if p < 6 then 1024 else 4096

/-- The VC whose credits a transaction takes at a port: an SL1 link carries VC3 on VC2 and VC4 on VC0 (R784). -/
def Dev.linkVc (d : Dev) (p vc : Nat) : Nat :=
  if d.rf (Reg.PORT_STATE p) 7 6 = 1 then (if vc = 3 then 2 else if vc = 4 then 0 else vc) else vc

/-- Key of the credit counters that a transaction takes on the link out of port p. -/
def Dev.outKey (d : Dev) (p : Nat) (t : Tx) : Nat :=
  d.linkVc p t.vc * 4 + txClass t (p / 2) (decide (p % 2 = 0)) (d.neighbour d.node p)

/-- Key of the credit counters that a transaction takes on the link into port p. -/
def Dev.inKey (d : Dev) (p : Nat) (t : Tx) : Nat :=
  d.linkVc p t.vc * 4 + txClass t (p / 2) (decide (p % 2 = 1)) d.node

/-- A port whose partner hears flits: LINKED or UP. -/
def Dev.portLinked (d : Dev) (p : Nat) : Bool := decide (d.portState p = 3) || decide (d.portState p = 4)

/-- Sends the credits that are due in sequenced flits of at most 63 units, while the port is linked and the replay buffer has room
(R569, R575, R593). Fuel: flits. -/
def Dev.sendDue (p : Nat) : Nat → Dev → Dev
  | 0, d => d
  | k + 1, d =>
    let x := d.port p
    match x.due with
    | [] => d
    | (key, n) :: rest =>
      if !d.portLinked p || decide (replaySize p ≤ x.replay.length) then d
      else
        let m := min n 63
        let f0 : Flit :=
          { fseq := x.txNext, ack := (x.rxExpect + 8191) % 8192, kind := 0, cvc := key / 4, ccls := key % 4, ccnt := m, crc := 0,
            errs := 0, area := List.replicate 248 0#8, hb := [] }
        let f := { f0 with crc := flitCrc f0 }
        let c := x.credit key
        let y := { x with
          txNext := (x.txNext + 1) % 8192, replay := x.replay ++ [f], ackTime := if x.replay = [] then d.now else x.ackTime,
          due := if n ≤ 63 then rest else (key, n - 63) :: rest }
        let d1 := d.setPort p (y.setCredit key { c with g := (c.g + m) % 2 ^ 48 })
        Dev.sendDue p k { d1 with out := { d1.out with flits := (p, f) :: d1.out.flits } }

/-- Sends what is due at a port. -/
def Dev.sendCredits (d : Dev) (p : Nat) : Dev := Dev.sendDue p (((d.port p).due.map (fun q => q.2 / 63 + 1)).sum) d

/-- Grants units of a VC and class to the partner. -/
def Dev.grantCredits (d : Dev) (p key n : Nat) : Dev := (d.modPort p (fun x => { x with due := x.due ++ [(key, n)] })).sendCredits p

/-- The bytes that a transaction occupied at a port are free again: its credits return (R593), at a port in a fast retrain once it is
linked again (R583). -/
def Dev.freeCredits (d : Dev) (p key n : Nat) : Dev :=
  let x := d.port p
  let c := x.credit key
  (d.setPort p (x.setCredit key { c with f := (c.f + n) % 2 ^ 48 })).grantCredits p key n

/-- Frees what a transaction in transit occupied. -/
def Dev.freeOrigin (d : Dev) : Option (Nat × Nat × Nat) → Dev
  | none => d
  | some o => d.freeCredits o.1 o.2.1 o.2.2

/-- A transaction may leave by a port now: the port's state carries its VC, credits are held, and the replay buffer has
room. -/
def Dev.canLeave (d : Dev) (p : Nat) (t : Tx) : Bool :=
  let x := d.port p
  let st := d.portState p
  (decide (st = 4) || (decide (st = 3) && decide (t.vc = 5)))
    && decide (txUnits t ≤ (x.credit (d.outKey p t)).held)
    && decide (x.replay.length + (x.tail.length + 32 + t.payload.length + 247) / 248 ≤ replaySize p)

/-- Pieces of 248 bytes, and what is left over. -/
def fullAreas : Nat → List Byte → List (List Byte) × List Byte
  | 0, bs => ([], bs)
  | k + 1, bs =>
    if bs.length < 248 then ([], bs)
    else
      let r := fullAreas k (bs.drop 248)
      (bs.take 248 :: r.1, r.2)

/-- Packs a transaction into the payload areas of data flits, up to the next 8-byte boundary (R572): the areas that it fills go. -/
def Dev.pack (d : Dev) (p : Nat) (bs : List Byte) : Dev :=
  let all := (d.port p).tail ++ bs ++ List.replicate ((8 - bs.length % 8) % 8) 0#8
  let r := fullAreas (all.length / 248) all
  (r.1.foldl (fun a x => a.sendFlit p 0 x []) d).modPort p (fun y => { y with tail := r.2 })

/-- Nothing more is to be packed: the area being filled goes, with op 0x00 in its unused bytes (R572). -/
def Dev.endPack (d : Dev) (p : Nat) : Dev :=
  let bs := (d.port p).tail
  if bs = [] then d else (d.sendFlit p 0 (bs ++ List.replicate (248 - bs.length) 0#8) []).modPort p (fun y => { y with tail := [] })

/-- A transaction leaves by a port: hops + 1, credits consumed, packed into its flits, its own receive buffer freed. -/
def Dev.leave (d : Dev) (p : Nat) (t : Tx) (o : Option (Nat × Nat × Nat)) (stage : Option (Nat × Nat)) : Dev :=
  let t1 := { t with hops := t.hops + 1 }
  let k := d.outKey p t
  let x := d.port p
  let c := x.credit k
  let d1 := d.setPort p (x.setCredit k { c with c := (c.c + txUnits t) % 2 ^ 48 })
  let d2 := d1.pack p (txBytes t1 t1.crc)
  let d3 := if stage.isSome then d2.modPort p (fun y => { y with turn := stage }) else d2
  { d3 with out := { d3.out with fabric := (p, t1) :: d3.out.fabric } }.freeOrigin o

/-- Hands a transaction to a port: it leaves, or waits there behind those of its VC (R592, R618). One whose hops would
reach 64 is discarded, and so is a hint for which there is no credit (R178). -/
def Dev.toPort (d : Dev) (p : Nat) (t : Tx) (o : Option (Nat × Nat × Nat)) : Dev :=
  if 64 ≤ t.hops + 1 then (d.satRf Reg.FAB_DROPS 31 0 1).freeOrigin o
  else
    let d1 := d.noteStage t
    let x := d1.port p
    if d1.canLeave p t && x.held.all (fun h => decide (h.tx.vc ≠ t.vc)) then (d1.leave p t o (d1.stageOf t)).endPack p
    else if t.op = 0x0A then d1.freeOrigin o
    else d1.setPort p { x with held := x.held ++ [{ tx := t, since := d.now, origin := o, stage := d1.stageOf t }] }

/-- Sends what waits at a port and may leave, oldest first, keeping the order within a VC. -/
def Dev.drainHeld (d : Dev) (p : Nat) : List HeldTx → Dev
  | [] => d
  | h :: hs =>
    if d.canLeave p h.tx && (d.port p).held.all (fun y => decide (y.tx.vc ≠ h.tx.vc)) then
      (d.leave p h.tx h.origin h.stage).drainHeld p hs
    else
      let x := d.port p
      (d.setPort p { x with held := x.held ++ [h] }).drainHeld p hs

/-- One bulk transfer of each stage in turn, beginning after the stage that sent last (R217); the order within a stage stays
(R218). Fuel: the number of transfers. -/
def takeTurns (last : Option (Nat × Nat)) : Nat → List HeldTx → List HeldTx
  | 0, hs => hs
  | n + 1, hs =>
    let stages := (hs.map HeldTx.stage).eraseDups
    let after := (stages.dropWhile (fun k => decide (k ≠ last))).drop 1
    let order := after ++ stages.filter (fun k => !after.contains k)
    let heads := order.filterMap (fun k => hs.find? (fun h => decide (h.stage = k)))
    if hs = [] then [] else heads ++ takeTurns last n (order.flatMap (fun k => (hs.filter (fun h => decide (h.stage = k))).drop 1))

/-- The bins among what waits, put into the turns of their stages; everything else keeps its place. -/
def mixTurns : List HeldTx → List HeldTx → List HeldTx
  | [], _ => []
  | h :: hs, bins =>
    if h.stage.isSome then bins.headD h :: mixTurns hs (bins.drop 1) else h :: mixTurns hs bins

/-- Sends what waits at a port, packed. -/
def Dev.flushPort (d : Dev) (p : Nat) : Dev :=
  let x := d.port p
  let bins := x.held.filter (fun h => h.stage.isSome)
  ((d.setPort p { x with held := [] }).drainHeld p (mixTurns x.held (takeTurns x.turn bins.length bins))).endPack p

/-! ### Gateway coalescing (R629 to R632) -/

/-- Operations that a gateway coalesces. -/
def bundleOps : List Nat := [0x02, 0x03, 0x06, 0x07, 0x08, 0x09, 0x0B]

/-- The short header and payload of a bundle's entry (R630). -/
def bundleEntry (t : Tx) : List Byte :=
  let clear := fun n => n % 4096
  let u := { t with dst := clear t.dst, src := clear t.src }
  let w := txWords u t.crc
  leBytes 8 (w.getD 0 0) ++ leBytes 8 (w.getD 1 0) ++ leBytes 8 (t.seq + t.crc * 2 ^ 32) ++ t.payload

/-- Bytes of the entries of a bundle. -/
def bundleBytes (b : Bundle) : List Byte := b.entries.flatMap bundleEntry

/-- The bundles open at a span port. -/
def Dev.bundles (d : Dev) (p : Nat) : List Bundle := tget (fun _ => []) d.fab.bundles p

/-- Replaces them. -/
def Dev.setBundles (d : Dev) (p : Nat) (bs : List Bundle) : Dev :=
  { d with fab := { d.fab with bundles := tput (fun _ => []) d.fab.bundles p bs } }

/-- Sends a bundle (R630): its own header names the far block; its crc covers the bundle. -/
def Dev.sendBundle (d : Dev) (p : Nat) (b : Bundle) : Dev :=
  let bs := bundleBytes b
  let far := withCoord d.node 3 b.block
  d.toPort p (withCrc { d.tx 0x0E b.vc far b.job 0 with offset := b.block, lenM1 := bs.length - 1, payload := bs }) none

/-- Generation of a member: 0 Mionak 3, 1 Mionak 1, 2 Mionak 2 (R788). -/
def Dev.genOf (d : Dev) (node : Nat) : Nat := d.rf (Reg.DPROF node) 1 0 % 3

/-- A gateway coalesces a transaction at a span port (R629, R786): only the first span hop coalesces, the transaction still
being in the source's block. -/
def Dev.coalesces (d : Dev) (p : Nat) (t : Tx) : Bool :=
  decide (d.rf Reg.FAB_CFG 35 24 ≠ 0) && bundleOps.contains t.op && !t.detour
    && decide (coord t.src 3 = coord d.node 3) && decide (d.genOf t.dst = 0) && decide (d.rf (Reg.PORT_STATE p) 7 6 = 3)

/-- A transaction goes out by a span port, coalesced where R629 says so; one that joins a bundle leaves its receive
buffer. -/
def Dev.toSpan (d : Dev) (p : Nat) (t : Tx) (o : Option (Nat × Nat × Nat)) : Dev :=
  let blk := coord t.dst 3
  if d.coalesces p t then
    let bs := d.bundles p
    let fits := fun (b : Bundle) =>
      decide (b.block = blk) && decide (b.vc = t.vc) && decide (b.job = t.job)
    match bs.find? fits with
    | some b =>
      if (bundleBytes b).length + 24 + t.payload.length ≤ 4096 then
        (d.setBundles p (bs.map (fun x => if fits x then { x with entries := x.entries ++ [t] } else x))).freeOrigin o
      else
        (((d.setBundles p (bs.filter (fun x => !fits x))).sendBundle p b).setBundles p
          (bs.filter (fun x => !fits x) ++ [{ block := blk, vc := t.vc, job := t.job, entries := [t], since := d.now }])).freeOrigin o
    | none =>
      if bs.length < 8 then
        (d.setBundles p (bs ++ [{ block := blk, vc := t.vc, job := t.job, entries := [t], since := d.now }])).freeOrigin o
      else d.toPort p t o
  else d.toPort p t o

/-- Sends a transaction onward from this device: by the default path toward the via node or the destination (R613,
R614). A transaction at its destination goes nowhere. -/
def Dev.forward (d : Dev) (t : Tx) (o : Option (Nat × Nat × Nat)) : Dev :=
  let t1 := if t.detour && !t.phase && decide (t.via = d.node) then { t with phase := true } else t
  let goal := if t1.detour && !t1.phase then t1.via else t1.dst
  match d.nextPort (!t1.detour && d.onSegment t1) d.node goal with
  | none => d.freeOrigin o
  | some p => if 6 ≤ p then d.toSpan p t1 o else d.toPort p t1 o

/-- A transaction leaves this device as its source: path chosen as it leaves, crc set; a detour is shown to the slot
(FAB_SSTAT.detoured). -/
def Dev.launch (d : Dev) (t : Tx) : Dev :=
  let t1 := d.choosePath (withCrc t)
  let d1 :=
    if t1.detour then
      match d.slotOfJob t.job with
      | some s => d.setRb (Reg.FAB_SSTAT s) 2 true
      | none => d
    else d
  d1.forward t1 none

/-! ### Sequence spaces (R620 to R626) -/

/-- The sending space of a key. -/
def Dev.space (d : Dev) (k : SpaceKey) : SendSpace :=
  (d.fab.send.find? (fun x => decide (x.key = k))).getD
    ({ key := k, next := 0, unacked := [], waiting := [], msg := none, failed := false, lost := false } : SendSpace)

/-- Replaces or adds a sending space. -/
def Dev.setSpace (d : Dev) (x : SendSpace) : Dev :=
  if d.fab.send.any (fun y => decide (y.key = x.key)) then
    { d with fab := { d.fab with send := d.fab.send.map (fun y => if y.key = x.key then x else y) } }
  else { d with fab := { d.fab with send := d.fab.send ++ [x] } }

/-- The key of the space of a transaction that this device sends. -/
def spaceKeyOf (t : Tx) : SpaceKey :=
  let post := decide (t.op = 0x07) || decide (t.op = 0x0B)
  { job := t.job, src := t.src, core := t.core, dst := t.dst, chan := if post then 0 else t.chan, post := post }

/-- A transaction that a fence or a release waits for: a remote write or post, not the RTS and fragments of a message, which
are work of the fabric (R98, R132, R371). -/
def fencedOp (t : Tx) : Bool := decide (t.op ≠ 0x01) && decide (t.op ≠ 0x05) && decide (t.op ≠ 0x08)

/-- One above the index of the last fenced transaction issued in a space and not acknowledged; 0 for none. Beyond every index of a
failed space that gave up a write unsent. -/
def SendSpace.bound (x : SendSpace) : Nat :=
  if x.lost then x.next + 1 else
  let ws := (x.waiting.map Prod.fst).filter (fun t => decide (t.op ≠ 0x01) && decide (t.op ≠ 0x08))
  match ws.zipIdx.reverse.find? (fun t => fencedOp t.1) with
  | some t => x.next + t.2 + 1
  | none =>
    match x.unacked.reverse.find? (fun u => fencedOp u.tx) with
    | some u => u.idx + 1
    | none => 0

/-- A gate is open: in each space every fenced transaction below its index has been sent and acknowledged. -/
def Dev.gateOpen (d : Dev) (g : Gate) : Bool :=
  g.all (fun kn =>
    let x := d.space kn.1
    decide (kn.2 ≤ x.next) && x.unacked.all (fun u => !fencedOp u.tx || decide (kn.2 ≤ u.idx)))

/-- Spaces in which a core has issued writes (R98, R132), to one node or to any. -/
def Dev.coreSpaces (d : Dev) (c : Nat) (node : Option Nat) : List SendSpace :=
  d.fab.send.filter (fun x => decide (x.key.core = c) &&
    (match node with
     | none => true
     | some n => decide (x.key.dst = n)))

/-- The stores of a core or unit to homes in T2 that are on their way: local stores, performed once they are acknowledged. -/
def Dev.storesOf (d : Dev) (src : Nat) : Gate := (d.fab.stores.filter (fun x => decide (x.1 = src))).map Prod.snd

/-- Notes the last line that a core or unit has stored to a home in T2. -/
def Dev.noteStore (d : Dev) (src : Nat) (k : SpaceKey) : Dev :=
  let n := (d.space k).bound
  if n = 0 then d
  else
    let old := d.fab.stores.filter (fun x => decide (x.1 ≠ src) || decide (x.2.1 ≠ k))
    { d with fab := { d.fab with stores := old ++ [(src, k, n)] } }

/-- Stores to homes in T2 that are acknowledged are no longer noted. -/
def Dev.pruneStores (d : Dev) : Dev :=
  { d with fab := { d.fab with stores := d.fab.stores.filter (fun x => !d.gateOpen [x.2]) } }

/-- What a release by a core waits for (R132): its remote writes, to one node or to any, and its stores to homes in T2. -/
def Dev.gateOf (d : Dev) (c : Nat) (node : Option Nat) : Gate :=
  ((d.coreSpaces c node).map (fun x => (x.key, x.bound))).filter (fun g => decide (g.2 ≠ 0)) ++ d.storesOf c

/-- Nothing fenced of a space is unacknowledged. -/
def SendSpace.quiet (x : SendSpace) : Bool :=
  !x.lost && x.unacked.all (fun u => !fencedOp u.tx) && x.waiting.all (fun w => !fencedOp w.1)

/-- Every write that a core issued, to one node or to any, has been acknowledged, and every store to a home in T2 (R98, R99). -/
def Dev.quiet (d : Dev) (c : Nat) (node : Option Nat) : Bool :=
  (d.coreSpaces c node).all SendSpace.quiet && d.gateOpen (d.storesOf c)

/-- Every write that a core issued has been acknowledged or has failed with its space: what the end of an entry waits for
(R418, R626; log 76). -/
def Dev.settled (d : Dev) (c : Nat) : Bool := (d.coreSpaces c none).all (fun x => x.failed || x.quiet)

/-- FAB_CFG.e2e_us in CCLK, taken within 2 to 1,000 µs (R625). -/
def Dev.e2e (d : Dev) : Nat := max 2 (min 1000 (d.rf Reg.FAB_CFG 15 0)) * 1000

/-- The head of a space's queue may be sent (R608, R620, R621, R132). -/
def Dev.mayIssue (d : Dev) (x : SendSpace) (t : Tx) (g : Gate) : Bool :=
  d.gateOpen g && !x.failed &&
  (decide (t.op = 0x01) ||
    (decide (x.unacked.length < 1024)
      && (match x.unacked.getLast? with
          | none => true
          | some u => decide (u.tx.vc = t.vc))
      && (decide (x.msg = none) || decide (t.op = 0x05))))

/-- Sends from the head of a space's queue while it may (fuel: the queue's length). An RDL takes the next write seq and
an RTS the seq of the message's first fragment; neither advances the space (R608, R627). -/
def Dev.pump : Nat → SpaceKey → Dev → Dev
  | 0, _, d => d
  | n + 1, k, d =>
    let x := d.space k
    match x.waiting with
    | [] => d
    | (t, g) :: ws =>
      if d.mayIssue x t g then
        let t1 := { t with seq := x.next % 2 ^ 32 }
        let sent : Sent := { tx := t1, idx := x.next, first := d.now, last := d.now + d.e2e }
        let x1 :=
          if t.op = 0x01 then { x with waiting := ws }
          else if t.op = 0x08 then
            { x with waiting := ws, unacked := x.unacked ++ [sent], msg := some t.rid }
          else { x with waiting := ws, unacked := x.unacked ++ [sent], next := x.next + 1 }
        let d1 := d.setSpace x1
        let d2 :=
          if t.op = 0x01 then
            { d1 with fab := { d1.fab with reads := d1.fab.reads.map (fun r =>
              if decide (r.rid = t.rid) && !r.host then { r with tx := t1, first := d.now, last := d.now + d.e2e } else r) } }
          else d1
        Dev.pump n k (d2.launch (if t.op = 0x08 then { t1 with rid := 0 } else t1))
      else d

/-- Issues a transaction in its space behind what waits there, with the gate of a release. -/
def Dev.issue (d : Dev) (t : Tx) (g : Gate) : Dev :=
  let k := spaceKeyOf t
  let x := d.space k
  let x1 : SendSpace := { x with waiting := x.waiting ++ [(t, g)] }
  Dev.pump x1.waiting.length k (d.setSpace x1)

/-- The space is failed: every later transaction raises 0x0504 at issue (R626). -/
def Dev.spaceFailed (d : Dev) (t : Tx) : Bool := (d.space (spaceKeyOf t)).failed

/-- Pumps every space, after acknowledgements. -/
def Dev.pumpAll (d : Dev) : Dev :=
  (d.fab.send.map (fun x => (x.key, x.waiting.length))).foldl (fun a kn => Dev.pump kn.2 kn.1 a) d

/-- The identifier of a new line read: the sender's choice (Table 12-5, log 37), but for those of reads in flight, which an
answer must tell apart (R627). -/
def Dev.freshRid (d : Dev) (k : Nat) : Nat :=
  let base := (Config.rid k).toNat
  let taken := (d.fab.reads.filter (fun r => !r.host)).map LineRead.rid
  ((List.range (taken.length + 1)).map (fun j => (base + j) % 65536)).find? (fun r => !taken.contains r) |>.getD base

/-- Remote lines of a core that are outstanding: read and not at hand, or written and not acknowledged (R333). -/
def Dev.remoteLines (d : Dev) (c : Nat) : Nat :=
  (d.fab.reads.filter (fun r => !r.host && decide (r.tx.core = c))).length
    + ((d.coreSpaces c none).map (fun x =>
        ((x.unacked.map (fun u => u.tx) ++ x.waiting.map (fun u => u.1)).filter (fun t => decide (t.op = 0x03))).length)).sum

/-- Remote lines that a core may still have outstanding: an engine core is held to 256 (Table 6-7). -/
def Dev.lineRoom (d : Dev) (c : Nat) : Nat := if c < 32 then 256 - d.remoteLines c else 2 ^ 32

/-- Sends a line read for a use (R627): its rid is the sender's choice. -/
def Dev.lineRead (d : Dev) (job core dst chan off : Nat) (u : ReadUse) : Dev :=
  let k := d.fab.nextRead
  let r := d.freshRid k
  let t : Tx := { d.tx 0x01 0 dst job core with chan := chan, offset := off, rid := r }
  let d1 : Dev := { d with fab := { d.fab with nextRead := k + 1, reads := d.fab.reads ++
    [({ k := k, rid := r, tx := t, use := u, first := d.now, last := d.now + d.e2e, host := false, patch := [] } : LineRead)] } }
  d1.issue t []

/-- Asks the host for a line (T3): the answer is T3_READ_COMPLETION. -/
def Dev.hostRead (d : Dev) (job core addr : Nat) (u : ReadUse) : Dev :=
  let k := d.fab.nextRead
  let t := { d.tx 0x01 0 d.node job core with offset := addr % 2 ^ 48 }
  { d with
    fab := { d.fab with nextRead := k + 1, reads := d.fab.reads ++
      [{ k := k, rid := 0, tx := t, use := u, first := d.now, last := d.now, host := true, patch := [] }] },
    out := { d.out with t3 := (k, addr) :: d.out.t3 } }

/-- Faults of the 0x05 area: key of the space, range of seq, port state (Table 13-4); the source is the core or unit whose
space it is (Table 12-5). -/
def fabFault (code : Nat) (info : Word) (node core chan : Nat) (post : Bool) (reason lo hi : Nat) : FaultInfo :=
  mkFault code info core (node + core * 2 ^ 16 + chan * 2 ^ 22 + b2n post * 2 ^ 26 + reason * 2 ^ 30)
    (lo % 2 ^ 32 + hi % 2 ^ 32 * 2 ^ 32) 0

end Sys2Proof.Machine
end

