-- ==== Sys2Proof/Machine/Tier.lean ====
section
/-! DEFINITION. Local addresses: the tier-table walk, reads and writes of gobs in T0 to T3, poison, and requests to the
movers (file 10). -/

namespace Sys2Proof.Machine

/-! ### The walk (R473 to R478) -/

/-- A 64-bit word of T1 by device physical address. -/
def Dev.t1w (d : Dev) (a : Nat) : Nat := leNat (rdBytes d.mem.t1 a 8)

/-- Symbols in error of the worst line of a range. -/
def Dev.symbols (d : Dev) (pa n : Nat) : Nat :=
  ((List.range ((pa + n + 127) / 128 - pa / 128)).map (fun i => tget (fun _ => 0) d.mem.t1err (pa / 128 + i))).foldl
    max 0

/-- A range of T1 shows an uncorrectable error (R506). -/
def Dev.t1Bad (d : Dev) (pa n : Nat) : Bool := decide (2 ≤ d.symbols pa n)

/-- Payload frames of the part. -/
def Dev.frames (d : Dev) : Nat := d.rf Reg.MEM_FRAMES 21 0

/-- What a walk ends in: the leaf's address and words, or a fault code with the leaf as it stood. -/
inductive Walk where
  | leaf (addr w0 w1 : Nat)
  | bad (code w0 w1 : Nat)
  deriving DecidableEq, Repr

/-- The home tier of a leaf. -/
def leafTier (w0 : Nat) : Nat := nfld w0 4 3

/-- The object index of a leaf. -/
def leafObj (w0 : Nat) : Nat := nfld w0 47 32

/-- Check 3 of R478: tier 0, a frame out of range, or a non-zero reserved bit. -/
def malformedLeaf (frames w0 w1 : Nat) : Bool :=
  match leafTier w0 with
  | 1 => decide (frames ≤ nfld w1 21 0) || decide (nfld w1 63 22 ≠ 0)
  | 2 => decide (nfld w1 47 32 ≠ 0)
  | 3 => decide (nfld w1 63 48 ≠ 0)
  | _ => true

/-- The checks at the leaf, in order (R478). -/
def checkLeaf (frames a w0 w1 : Nat) (wr : Bool) : Walk :=
  if !w0.testBit 0 then .bad 0x0610 w0 w1
  else if (if wr then !w0.testBit 2 else !w0.testBit 1) then .bad 0x0611 w0 w1
  else if malformedLeaf frames w0 w1 then .bad 0x0602 w0 w1
  else .leaf a w0 w1

/-- A reserved bit of an L0 or L1 entry is not 0 (R474). -/
def badEntry (e : Nat) : Bool := decide (nfld e 14 1 ≠ 0) || decide (nfld e 63 40 ≠ 0)

/-- Address of the L0 entry that a walk reads (Table 10-3). -/
def Dev.l0At (d : Dev) (s gob : Nat) : Nat := d.rf (Reg.TT_BASE s) 39 15 * 2 ^ 15 + 8 * (gob / 2 ^ 22 % 1024)

/-- Address of the entry of an L1 table that a walk reads. -/
def l1At (e0 gob : Nat) : Nat := nfld e0 39 15 * 2 ^ 15 + 8 * (gob / 2 ^ 11 % 2048)

/-- Address of the leaf of an L2 table that a walk reads. -/
def l2At (e1 gob : Nat) : Nat := nfld e1 39 15 * 2 ^ 15 + 16 * (gob % 2048)

/-- Where the leaf of a gob stands: the L0 and L1 reads of the walk. An entry in a line with an uncorrectable error, of which the
spec does not speak, is taken as malformed (DESIGN CHOICE, log 139). -/
def Dev.leafAddr (d : Dev) (s gob : Nat) : Except Nat Nat :=
  if !d.rb (Reg.TT_BASE s) 0 then .error 0x0610
  else if d.t1Bad (d.l0At s gob) 8 then .error 0x0602
  else
    let e0 := d.t1w (d.l0At s gob)
    if !e0.testBit 0 then .error 0x0610
    else if badEntry e0 then .error 0x0602
    else if d.t1Bad (l1At e0 gob) 8 then .error 0x0602
    else
      let e1 := d.t1w (l1At e0 gob)
      if !e1.testBit 0 then .error 0x0610
      else if badEntry e1 then .error 0x0602
      else .ok (l2At e1 gob)

/-- TIER_TABLE_WALK (R478). -/
def Dev.walk (d : Dev) (s gob : Nat) (wr : Bool) : Walk :=
  match d.leafAddr s gob with
  | .error c => .bad c 0 0
  | .ok a => if d.t1Bad a 16 then .bad 0x0602 0 0 else checkLeaf d.frames a (d.t1w a) (d.t1w (a + 8)) wr

/-- Writes word 0 of a leaf. -/
def Dev.setLeaf0 (d : Dev) (a w0 : Nat) : Dev :=
  { d with mem := { d.mem with t1 := wrBytes d.mem.t1 a (leBytes 8 w0) } }

/-- Writes both words of a leaf in one update. -/
def Dev.setLeaf (d : Dev) (a w0 w1 : Nat) : Dev :=
  { d with mem := { d.mem with t1 := wrBytes d.mem.t1 a (leBytes 8 w0 ++ leBytes 8 w1) } }

/-- A number with bits [hi:lo] replaced. -/
def nset (x hi lo v : Nat) : Nat := (setFld (BitVec.ofNat 64 x) hi lo v).toNat

/-! ### Objects (R482, R488) -/

/-- An object descriptor (Table 10-6). -/
structure ObjDesc where
  base : Nat
  ngobs : Nat
  kind : Nat
  policy : Nat
  nrep : Nat
  layer : Nat
  pthresh : Nat
  rt : Nat
  rtEn : Bool
  expert : Nat
  kaddr : Nat
  hdr : Nat
  rlist : Nat
  deriving DecidableEq, Repr

/-- Reads an object descriptor as it stands. -/
def Dev.readObj (d : Dev) (s o : Nat) : ObjDesc :=
  let a := d.rf (Reg.OBJ_CFG s) 39 6 * 64 + 64 * o
  let w := fun i => d.t1w (a + 8 * i)
  { base := nfld (w 0) 47 0, ngobs := nfld (w 1) 31 0, kind := nfld (w 1) 33 32, policy := nfld (w 1) 35 34,
    nrep := nfld (w 1) 38 36, layer := nfld (w 1) 55 40, pthresh := nfld (w 1) 63 56, rt := nfld (w 2) 7 0,
    rtEn := (w 2).testBit 8, expert := nfld (w 2) 31 16, kaddr := nfld (w 2) 51 32, hdr := nfld (w 3) 39 0,
    rlist := nfld (w 4) 39 0 }

/-- A descriptor passes the checks of R488. -/
def ObjDesc.valid (x : ObjDesc) : Bool :=
  decide (x.policy ≠ 3) && decide (x.kind ≠ 3) && decide (x.nrep ≤ 4) && decide (x.ngobs ≠ 0)
    && decide (x.base + x.ngobs * 65536 ≤ 0xFFFF00000000)

/-- Where the descriptor of an object of a slot stands. -/
def Dev.objAt (d : Dev) (s o : Nat) : Nat := d.rf (Reg.OBJ_CFG s) 39 6 * 64 + 64 * o

/-- The descriptor of an object of a slot, when there is one and it is valid; one in a line with an uncorrectable error is not
(log 139). -/
def Dev.obj (d : Dev) (s o : Nat) : Option ObjDesc :=
  if d.rb (Reg.OBJ_CFG s) 0 && decide (o ≤ d.rf (Reg.OBJ_CFG s) 63 48) && !d.t1Bad (d.objAt s o) 64 && (d.readObj s o).valid then
    some (d.readObj s o)
  else none

/-- A gob is declared unrecoverable and its object quarantined: it reads as zeros (R516, R517). -/
def Dev.declared (d : Dev) (s gob : Nat) : Bool := (tget (fun _ => []) d.tir.lost s).contains gob

/-- Sets or takes back the declaration of a gob. -/
def Dev.declare (d : Dev) (s gob : Nat) (b : Bool) : Dev :=
  let l := (tget (fun _ => []) d.tir.lost s).filter (fun g => decide (g ≠ gob))
  { d with tir := { d.tir with lost := tput (fun _ => []) d.tir.lost s (if b then l ++ [gob] else l) } }

/-- The kind of a gob's object: 0 when it is unknown (R805). -/
def Dev.gobKind (d : Dev) (s o : Nat) : Nat := ((d.obj s o).map ObjDesc.kind).getD 0

/-- The object is in the slot's quarantine list (R516). -/
def Dev.quarantined (d : Dev) (s o : Nat) : Bool := (tget (fun _ => []) d.tir.quar s).contains o

/-- Where the header of a gob stands in device physical memory (R480). -/
def Dev.headerAddr (d : Dev) (s gob w0 w1 : Nat) : Option Nat :=
  if leafTier w0 = 1 then some (d.frames * 65536 + 64 * nfld w1 21 0)
  else (d.obj s (leafObj w0)).map (fun x => x.hdr + 64 * (gob - x.base / 65536))

/-! ### The gob cache (R501, R502) -/

/-- The set of a gob. -/
def gcSet (s gob : Nat) : Nat := (gob + 37 * s) % 224

/-- An entry of the gob cache. -/
def Dev.gcEntry (d : Dev) (k : Nat) : Option GcEntry := tget (fun _ => none) d.tir.gc k

/-- Replaces an entry. -/
def Dev.setGc (d : Dev) (k : Nat) (x : Option GcEntry) : Dev :=
  { d with tir := { d.tir with gc := tput (fun _ => none) d.tir.gc k x } }

/-- The entry that holds a gob. -/
def Dev.gcFind (d : Dev) (s gob : Nat) : Option Nat :=
  ((List.range 16).map (fun w => gcSet s gob * 16 + w)).find? (fun k =>
    match d.gcEntry k with
    | some x => decide (x.slot = s) && decide (x.gob = gob)
    | none => false)

/-- An entry of the gob cache is used (R502). -/
def Dev.gcUse (d : Dev) (k : Nat) : Dev :=
  match d.gcEntry k with
  | some x =>
    let n := d.tir.uses + 1
    { d with tir := { d.tir with uses := n, gc := tput (fun _ => none) d.tir.gc k (some { x with used := n }) } }
  | none => d

/-- Discards the gob-cache copy of a gob. -/
def Dev.gcDrop (d : Dev) (s gob : Nat) : Dev :=
  match d.gcFind s gob with
  | none => d
  | some k =>
    let pinned := match d.gcEntry k with
      | some x => x.pinned
      | none => false
    let d1 := (d.setGc k none).setRf (Reg.USAGE s) 33 22 (d.rf (Reg.USAGE s) 33 22 - 1)
    let d2 := if pinned then d1.setRf (Reg.USAGE s) 55 34 (d1.rf (Reg.USAGE s) 55 34 - 1) else d1
    { d2 with mem := { d2.mem with gc := zeroRange d2.mem.gc (k * 65536) 65536 } }

/-! ### Frames (R509, R807) -/

/-- Marks a frame in use or free. -/
def Dev.frameUse (d : Dev) (f : Nat) (b : Bool) : Dev :=
  { d with tir := { d.tir with inUse := tput (fun _ => false) d.tir.inUse f b } }

/-- A frame is in use. -/
def Dev.frameUsed (d : Dev) (f : Nat) : Bool := tget (fun _ => false) d.tir.inUse f

/-- A frame is retired. -/
def Dev.frameRetired (d : Dev) (f : Nat) : Bool := tget (fun _ => false) d.tir.retired f

/-- Retires a frame (R509). -/
def Dev.retire (d : Dev) (f : Nat) : Dev :=
  if d.frameRetired f then d
  else ({ d with tir := { d.tir with retired := tput (fun _ => false) d.tir.retired f true } }).addRf
    Reg.MEM_FRAMES 43 22 1

/-- The T1 copy of a leaf is pinned: its pin names the copy where the home stands elsewhere (Table 10-4). -/
def copyPinned (w0 : Nat) : Bool := w0.testBit 9 && w0.testBit 7 && decide (leafTier w0 ≠ 1)

/-- Drops the T1 copy of a leaf, with its pin. -/
def Dev.t1Drop (d : Dev) (s a w0 : Nat) : Dev :=
  if w0.testBit 9 then
    let w := nset (nset w0 9 9 0) 31 10 0
    let d1 := ((d.setLeaf0 a (if copyPinned w0 then nset w 7 7 0 else w)).frameUse (nfld w0 31 10) false).setRf (Reg.USAGE s) 21 0
      (d.rf (Reg.USAGE s) 21 0 - 1)
    if copyPinned w0 then d1.setRf (Reg.USAGE s) 55 34 (d1.rf (Reg.USAGE s) 55 34 - 1) else d1
  else d

/-! ### Errors in GDDR7 (R506 to R511) -/

/-- The channel of a physical address (R505). -/
def channelOf (pa : Nat) : Nat := (pa % 65536 / 2048 + pa / 65536) % 32

/-- CORRECTED_ERROR (R507): lines with one symbol in error are rewritten and counted. -/
def Dev.correct (d : Dev) (pa n : Nat) : Dev :=
  (List.range ((pa + n + 127) / 128 - pa / 128)).foldl (fun a i =>
    let l := pa / 128 + i
    if tget (fun _ => 0) a.mem.t1err l = 1 then
      let a1 := (a.satRf Reg.MEM_CE 31 0 1).satRf (Reg.MEM_CH (channelOf (l * 128))) 15 0 1
      { a1 with mem := { a1.mem with t1err := tput (fun _ => 0) a1.mem.t1err l 0 } }
    else a) d

/-- The line of a range that shows an uncorrectable error, by its address. -/
def Dev.badLine (d : Dev) (pa n : Nat) : Nat :=
  (((List.range ((pa + n + 127) / 128 - pa / 128)).map (fun i => (pa / 128 + i) * 128)).find? (fun a => d.t1Bad a 1)).getD pa

/-- Counts the uncorrectable error of a range of one frame and retires the frame (R509, R520): the header and firmware regions
have no frames to retire. -/
def Dev.countUe (d : Dev) (pa n : Nat) : Dev :=
  let l := d.badLine pa n
  let d1 := (d.satRf Reg.MEM_UE 31 0 1).setReg Reg.MEM_LAST_UE
    (BitVec.ofNat 64 (channelOf l + l / 65536 % 2 ^ 22 * 2 ^ 5 + 2 ^ 27))
  if l / 65536 < d.frames then d1.retire (l / 65536) else d1

/-- A read of a range by the device itself: one-symbol errors are corrected, an uncorrectable one is counted (R506, R507). -/
def Dev.t1Seen (d : Dev) (pa n : Nat) : Dev := if d.t1Bad pa n then d.countUe pa n else d.correct pa n

/-- The reads of a walk (R478): L0, L1, leaf, as far as it goes. -/
def Dev.walkSeen (d : Dev) (s gob : Nat) : Dev :=
  if !d.rb (Reg.TT_BASE s) 0 then d
  else
    let e0 := d.t1w (d.l0At s gob)
    let d0 := d.t1Seen (d.l0At s gob) 8
    if d.t1Bad (d.l0At s gob) 8 || !e0.testBit 0 || badEntry e0 then d0
    else
      let e1 := d.t1w (l1At e0 gob)
      let d1 := d0.t1Seen (l1At e0 gob) 8
      if d.t1Bad (l1At e0 gob) 8 || !e1.testBit 0 || badEntry e1 then d1 else d1.t1Seen (l2At e1 gob) 16

/-! ### Requests to the movers (R489) -/

/-- Asks the movers for a gob and those that follow it, unless the same work already waits. -/
def Dev.askMoves (d : Dev) (k : MoveKind) (s gob : Nat) (dst : MoveDest) (more : Nat) : Dev :=
  if (d.tir.queue ++ d.tir.busy).any (fun r =>
      decide (r.kind = k) && decide (r.slot = s) && decide (r.gob = gob) && decide (r.dest = dst) && decide (r.more = more)) then d
  else { d with tir := { d.tir with nextMove := d.tir.nextMove + 1, queue := d.tir.queue ++
    [({ id := d.tir.nextMove, kind := k, slot := s, gob := gob, dest := dst, replica := 0, since := d.now,
        waitFrame := false, more := more, frame := none, buf := [], hdr := [], gate := none } : MoveReq)] } }

/-- Asks a mover for one gob. -/
def Dev.askMove (d : Dev) (k : MoveKind) (s gob : Nat) (dst : MoveDest) : Dev := d.askMoves k s gob dst 0

/-! ### Poison (R511 to R517, R805) -/

/-- A fault of the memory area (Tables 10-16 and 13-4): JFINFO the address; local address of the gob, or of the misaligned access,
and object; the leaf as it stood. -/
def memFault (code src va obj w0 w1 : Nat) : FaultInfo :=
  mkFault code (BitVec.ofNat 64 va) src ((if code = 0x0612 then va else va / 65536 * 65536) % 2 ^ 48 + obj * 2 ^ 48) w0 w1

/-- The header of a gob (R480); none where it stands in a line with an uncorrectable error (log 139). -/
def Dev.gobHeader (d : Dev) (s gob w0 w1 : Nat) : Option (List Byte) :=
  (d.headerAddr s gob w0 w1).bind (fun h => if d.t1Bad h 64 then none else some (rdBytes d.mem.t1 h 64))

/-- Record 0x0605 of a gob whose object has no valid descriptor, once for the gob (R488, R805). -/
def Dev.noteGob (d : Dev) (s gob w0 w1 : Nat) : Dev :=
  let k := s * 2 ^ 32 + gob
  if tget (fun _ => false) d.tir.noted k then d
  else ({ d with tir := { d.tir with noted := tput (fun _ => false) d.tir.noted k true } } : Dev).recordOnly s
    (memFault 0x0605 56 (gob * 65536) (leafObj w0) w0 w1)

/-- Poison is set in a leaf and the copies are discarded; a weights or keys gob asks for its refetch; a gob of unknown kind
is recorded once (R511, R805). -/
def Dev.poisonLeaf (d : Dev) (s gob a w0 w1 : Nat) : Dev :=
  let d1 := (d.gcDrop s gob).t1Drop s a w0
  let d2 := d1.setLeaf0 a (nset (nset (d1.t1w a) 5 5 1) 8 8 0)
  match d.obj s (leafObj w0) with
  | none => d2.noteGob s gob w0 w1
  | some x => if x.kind = 0 then d2 else d2.askMove .refetch s gob .gobCache

/-- GOB_UNCORRECTABLE_ERROR (R511) in a T1 home: the error is counted, the frame retired, the gob poisoned. -/
def Dev.poison (d : Dev) (s gob a w0 w1 pa n : Nat) : Dev := (d.countUe pa n).poisonLeaf s gob a w0 w1

/-! ### Reads -/

/-- What a read of one gob answers. -/
inductive Rd where
  | bytes (d : Dev) (bs : List Byte)
  | fault (d : Dev) (f : FaultInfo)
  | far (d : Dev) (node off : Nat)
  | host (d : Dev) (addr : Nat)
  | stall (d : Dev)

/-- A consumer read of a poisoned gob (R512, R513, R517). -/
def Dev.poisonedRead (d : Dev) (s va n src w0 w1 : Nat) : Rd :=
  let o := leafObj w0
  if d.gobKind s o = 0 then .fault d (memFault 0x0601 src va o w0 w1)
  else if d.declared s (va / 65536) then .bytes d (List.replicate n 0#8)
  else .stall (d.askMove .refetch s (va / 65536) .gobCache)

/-- Counts line reads served from a T2 or T3 home, and asks for a T1 copy at the promote threshold (R484, R485). -/
def Dev.countAccess (d : Dev) (s gob a w0 lines : Nat) : Dev :=
  let acnt := min (nfld w0 63 48 + lines) 65535
  let d1 := d.setLeaf0 a (nset w0 63 48 acnt)
  match d.obj s (leafObj w0) with
  | some x =>
    if decide (x.policy = 2) && decide (max x.pthresh 1 * 64 ≤ acnt) && !w0.testBit 9 then
      d1.askMove .promote s gob .t1copy
    else d1
  | none => d1

/-- Lines of a gob have been served from its home (R485): reads of a T2 or T3 home are counted. -/
def Dev.countLines (d : Dev) (s va lines : Nat) : Dev :=
  match d.leafAddr s (va / 65536) with
  | .error _ => d
  | .ok a => if leafTier (d.t1w a) = 1 then d else d.countAccess s (va / 65536) a (d.t1w a) lines

/-- A read from the home. -/
def Dev.rdHome (d : Dev) (s va n src a w0 w1 : Nat) : Rd :=
  let gob := va / 65536
  let off := va % 65536
  match leafTier w0 with
  | 1 =>
    let pa := nfld w1 21 0 * 65536 + off
    if 2 ≤ d.symbols pa n then
      (d.poison s gob a w0 w1 pa n).poisonedRead s va n src w0 w1
    else .bytes (d.correct pa n) (rdBytes d.mem.t1 pa n)
  | 2 => .far d (nfld w1 63 48) (nfld w1 31 0 * 65536 + off)
  | _ => .host d (nfld w1 47 0 * 65536 + off)

/-- A read within one gob: from the gob-cache copy, else the T1 copy, else the home (R486). A T1 copy that shows an
uncorrectable error is discarded (R503). -/
def Dev.rdGob (d0 : Dev) (s va n src : Nat) : Rd :=
  let gob := va / 65536
  let d := d0.walkSeen s gob
  match d0.walk s gob false with
  | .bad c w0 w1 => .fault d (memFault c src va (leafObj w0) w0 w1)
  | .leaf a w0 w1 =>
    if w0.testBit 5 then d.poisonedRead s va n src w0 w1
    else
      match d.gcFind s gob with
      | some k => .bytes (d.gcUse k) (rdBytes d.mem.gc (k * 65536 + va % 65536) n)
      | none =>
        if w0.testBit 9 then
          let pa := nfld w0 31 10 * 65536 + va % 65536
          if 2 ≤ d.symbols pa n then
            let d1 := (d.countUe pa n).t1Drop s a w0
            d1.rdHome s va n src a (d1.t1w a) w1
          else .bytes (d.correct pa n) (rdBytes d.mem.t1 pa n)
        else d.rdHome s va n src a w0 w1

/-- Who accesses: slot, issuing engine, source number for records, and the core that can wait for lines (none for a
unit). -/
structure Who where
  slot : Nat
  eng : Option Nat
  src : Nat
  core : Option Nat
  deriving DecidableEq, Repr

/-- A unit of the X die that acts for a slot. -/
def unitWho (s src : Nat) : Who := { slot := s, eng := none, src := src, core := none }

/-- What an access answers. -/
inductive MemRes where
  | ok (d : Dev) (bs : List Byte)
  | fault (d : Dev) (f : FaultInfo)
  | stall (d : Dev)

/-- The device after an access, whatever it answered. -/
def MemRes.dev : MemRes → Dev
  | .ok d _ => d
  | .fault d _ => d
  | .stall d => d

/-- Where an address at or above the engine-store window leads (R470, R471): engine and offset, or a fault code. -/
def Dev.window (d : Dev) (w : Who) (va : Nat) : Except Nat (Nat × Nat) :=
  let o := va - 0xFFFF00000000
  if o < 0x80000000 then
    if o % 0x4000000 < 0x3000000 then
      if d.engSlot (o / 0x4000000) = some w.slot then .ok (o / 0x4000000, o % 0x4000000) else .error 0x0611
    else .error 0x0610
  else
    match w.eng with
    | some e => if o - 0x80000000 < 0x3000000 then .ok (e, o - 0x80000000) else .error 0x0610
    | none => .error 0x0610

/-- Bytes of an engine store. -/
def Dev.esRead (d : Dev) (e off n : Nat) : List Byte := rdBytes d.mem.es (e * 2 ^ 26 + off) n

/-- A write to n bytes of an engine store clears crc_ok of the gob slots it reaches (R481). -/
def Eng.wrote (x : Eng) (off n : Nat) : Eng :=
  { x with heads := x.heads.map (fun h =>
      if decide (off < (h.1 + 1) * 65536) && decide (h.1 * 65536 < off + n) then
        (h.1, h.2.map (fun y => { y with crcOk := false }))
      else h) }

/-- Writes bytes of an engine store. -/
def Dev.esWrite (d : Dev) (e off : Nat) (bs : List Byte) : Dev :=
  ({ d with mem := { d.mem with es := wrBytes d.mem.es (e * 2 ^ 26 + off) bs } } : Dev).modEngine e (fun x => x.wrote off bs.length)

/-- The bytes of a range from lines that have arrived, when all have. -/
def lineBytes (ls : List (Nat × List Byte)) (va : Nat) : Nat → Option (List Byte)
  | 0 => some []
  | n + 1 =>
    match ls.find? (fun l => decide (l.1 = va / 128)) with
    | none => none
    | some l => (lineBytes ls (va + 1) n).map (fun bs => l.2.getD (va % 128) 0 :: bs)

/-- The lines of far homes that have arrived for a core's instruction or for a unit (R93, R469). -/
def Dev.farLines (d : Dev) (w : Who) : List (Nat × List Byte) :=
  match w.core with
  | some c => (d.core c).lines
  | none => (d.tir.lines.filter (fun l => decide (l.1 = w.src) && decide (l.2.1 = w.slot))).map (fun l => l.2.2)

/-- What a line of a far home is read for. -/
def Who.use (w : Who) (va : Nat) : ReadUse :=
  match w.core with
  | some c => .core c va
  | none => .unit w.src w.slot va

/-- The core number that the transactions of an access carry: a core's own, else the movers' (log 38). -/
def Who.tag (w : Who) : Nat := if w.src ≤ 40 then w.src else 56

/-- The entry for a line that a unit needs and that has failed. -/
def Dev.lineFailed (d : Dev) (w : Who) (va n : Nat) : Option (Nat × Nat × Nat × FaultInfo) :=
  if w.core.isSome then none
  else d.tir.failed.find? (fun l => decide (l.1 = w.src) && decide (l.2.1 = w.slot) && decide (va / 128 ≤ l.2.2.1)
    && decide (l.2.2.1 < (va + n + 127) / 128))

/-- A read of a far home by a core or a unit: the lines that have arrived, else requests for those that have not, and a stall
(R93, R469); no more lines are asked for than a core may have outstanding (R333).
`req` sends the request for the line at a distance from the range's start. -/
def Dev.farRead (d : Dev) (w : Who) (va n : Nat) (req : Dev → Nat → Dev) : MemRes :=
  let ls := d.farLines w
  match lineBytes ls va n, d.lineFailed w va n with
  | some bs, _ => .ok d bs
  | none, some l => .fault { d with tir := { d.tir with failed := d.tir.failed.filter (fun m => decide (m ≠ l)) } } l.2.2.2
  | none, none =>
    let missing := (List.range ((va + n + 127) / 128 - va / 128)).filter (fun i =>
      !ls.any (fun l => decide (l.1 = va / 128 + i))
        && !d.fab.reads.any (fun r => decide (r.use = w.use ((va / 128 + i) * 128))))
    .stall ((missing.take (d.lineRoom w.tag)).foldl req d)

/-- The fault of an access to a T2 home whose space has failed: it is raised at issue (R626). -/
def Dev.spaceDown (d : Dev) (w : Who) (node off : Nat) : Option FaultInfo :=
  let t := d.tx 0x03 0 node (d.jobId w.slot) w.tag
  if d.spaceFailed t then some (fabFault 0x0504 (BitVec.ofNat 64 (node * 2 ^ 48 + off)) node w.tag 0 false 0 0 0) else none

/-- Reads lines of a T2 home, by line reads to its node. -/
def Dev.nodeRead (d : Dev) (w : Who) (va n node off : Nat) : MemRes :=
  match lineBytes (d.farLines w) va n, d.spaceDown w node off with
  | none, some f => .fault d f
  | _, _ => d.farRead w va n (fun x i => x.lineRead (x.jobId w.slot) w.tag node 0 (off / 128 * 128 + 128 * i) (w.use ((va / 128 + i) * 128)))

/-- One access within a gob. -/
def Dev.rdPiece (d : Dev) (w : Who) (va n : Nat) : MemRes :=
  if 0xFFFF00000000 ≤ va then
    match d.window w va with
    | .ok eo => .ok d (d.esRead eo.1 eo.2 n)
    | .error c => .fault d (memFault c w.src va 0 0 0)
  else
    match d.rdGob w.slot va n w.src with
    | .bytes d1 bs => .ok d1 bs
    | .fault d1 f => .fault d1 f
    | .stall d1 => .stall d1
    | .far d1 node off => (d1.askMove .stalled w.slot (va / 65536) .gobCache).nodeRead w va n node off
    | .host d1 addr =>
      (match w.core with
       | none => .ok (d1.countLines w.slot va ((va + n + 127) / 128 - va / 128)) (rdBytes d1.mem.t3 addr n)
       | some c => (d1.askMove .stalled w.slot (va / 65536) .gobCache).farRead w va n (fun x i =>
          x.hostRead (x.jobId w.slot) c (addr / 128 * 128 + 128 * i) (w.use ((va / 128 + i) * 128))))

/-- Pieces of a range cut at gob boundaries: address and length. -/
def pieces : Nat → Nat → Nat → List (Nat × Nat)
  | 0, _, _ => []
  | k + 1, va, n =>
    if n = 0 then []
    else
      let m := min n (65536 - va % 65536)
      (va, m) :: pieces k (va + m) (n - m)

/-- The pieces of a range. -/
def piecesOf (va n : Nat) : List (Nat × Nat) := pieces (n / 65536 + 2) va n

/-- Reads a list of pieces. -/
def Dev.rdPieces (d : Dev) (w : Who) : List (Nat × Nat) → List Byte → MemRes
  | [], acc => .ok d acc
  | (va, n) :: ps, acc =>
    match d.rdPiece w va n with
    | .ok d1 bs => d1.rdPieces w ps (acc ++ bs)
    | .fault d1 f => .fault d1 f
    | .stall d1 => .stall d1

/-- Reads a range of local addresses. -/
def Dev.rd (d : Dev) (w : Who) (va n : Nat) : MemRes := d.rdPieces w (piecesOf va n) []

/-! ### Writes -/

/-- A header with crc_ok cleared. -/
def crcCleared (hd : List Byte) : List Byte := leBytes 8 (nset (leNat (hd.take 8)) 12 12 0) ++ hd.drop 8

/-- Clears crc_ok in a gob's header, and in the tag of its gob-cache entry (R480, R481). -/
def Dev.clearCrc (d : Dev) (s gob w0 w1 : Nat) : Dev :=
  let d1 :=
    match d.gcFind s gob with
    | some k =>
      (match d.gcEntry k with
       | some x => d.setGc k (some { x with hdr := crcCleared x.hdr })
       | none => d)
    | none => d
  match d1.headerAddr s gob w0 w1 with
  | none => d1
  | some h =>
    if (d1.t1w h).testBit 12 then
      { d1 with mem := { d1.mem with t1 := wrBytes d1.mem.t1 h (leBytes 8 (nset (d1.t1w h) 12 12 0)) } }
    else d1

/-- A byte of a gob as the device holds it: the gob-cache copy, else the T1 copy, else a line that has arrived for the
access. -/
def Dev.heldByte (d : Dev) (w : Who) (w0 a : Nat) : Option Byte :=
  match d.gcFind w.slot (a / 65536) with
  | some k => some (rdByte d.mem.gc (k * 65536 + a % 65536))
  | none =>
    if w0.testBit 9 then some (rdByte d.mem.t1 (nfld w0 31 10 * 65536 + a % 65536))
    else ((d.farLines w).find? (fun l => decide (l.1 = a / 128))).bind (fun l => l.2[a % 128]?)

/-- A line of a T2 home with some bytes replaced. The others are those the device holds (R93; log 38). -/
def Dev.mergeLine (d : Dev) (w : Who) (w0 va : Nat) (bs : List Byte) (i : Nat) : List Byte :=
  (List.range 128).map (fun j =>
    let a := va / 128 * 128 + 128 * i + j
    let old := (d.heldByte w w0 a).getD 0
    if va ≤ a then (bs[a - va]?).getD old else old)

/-- Writes the home of a gob. A T2 home takes whole lines (Table 12-6); the store is performed once they are acknowledged. -/
def Dev.wrHome (d : Dev) (w : Who) (va w0 w1 : Nat) (bs : List Byte) : Dev :=
  let off := va % 65536
  match leafTier w0 with
  | 1 => { d with mem := { d.mem with t1 := wrBytes d.mem.t1 (nfld w1 21 0 * 65536 + off) bs } }
  | 2 =>
    let t := { d.tx 0x03 0 (nfld w1 63 48) (d.jobId w.slot) w.tag with lenM1 := 127 }
    let o := nfld w1 31 0 * 65536 + off
    ((List.range ((va + bs.length + 127) / 128 - va / 128)).foldl (fun a i =>
      a.issue { t with offset := o / 128 * 128 + 128 * i, payload := d.mergeLine w w0 va bs i } []) d).noteStore w.src (spaceKeyOf t)
  | _ => { d with mem := { d.mem with t3 := wrBytes d.mem.t3 (nfld w1 47 0 * 65536 + off) bs } }

/-- Bytes put into a list from a position on. -/
def overlay (xs : List Byte) (at_ : Nat) (bs : List Byte) : List Byte :=
  (List.range xs.length).map (fun i => if at_ ≤ i then (bs[i - at_]?).getD (xs.getD i 0) else xs.getD i 0)

/-- The part of a store that falls into the line from `la` on: place in the line, byte. -/
def inLine (la va : Nat) (bs : List Byte) : List (Nat × Byte) :=
  (List.range 128).filterMap (fun j => if va ≤ la + j then (bs[la + j - va]?).map (fun b => (j, b)) else none)

/-- A line with some bytes replaced. -/
def patched (line : List Byte) (ps : List (Nat × Byte)) : List Byte := ps.foldl (fun l p => l.set p.1 p.2) line

/-- The local address of the line that a read brings to a slot, where it reads a gob of the slot by its home. -/
def Dev.lineOf (d : Dev) (s : Nat) (r : LineRead) : Option Nat :=
  match r.use with
  | .core c va => if (d.core c).slot = some s then some va else none
  | .unit _ t va => if t = s then some va else none
  | .mover k line =>
    (d.tir.busy.find? (fun m => decide (m.id = k) && decide (m.slot = s) && decide (m.kind ≠ .refetch))).map (fun m =>
      m.gob * 65536 + line * 128)
  | _ => none

/-- A store reaches the lines of its gob that stand here for cores and units, and those that are on their way (R486). -/
def Dev.patchLines (d : Dev) (s va : Nat) (bs : List Byte) : Dev :=
  { d with
    cores := d.cores.map (fun c => if c.2.slot = some s ∧ c.2.lines ≠ [] then
      (c.1, { c.2 with lines := c.2.lines.map (fun l => (l.1, patched l.2 (inLine (l.1 * 128) va bs))) }) else c),
    tir := { d.tir with lines := d.tir.lines.map (fun l =>
      if l.2.1 = s then (l.1, s, l.2.2.1, patched l.2.2.2 (inLine (l.2.2.1 * 128) va bs)) else l) },
    fab := { d.fab with reads := d.fab.reads.map (fun r =>
      match d.lineOf s r with
      | some la => { r with patch := r.patch ++ inLine la va bs }
      | none => r) } }

/-- Updates the copies of a gob in the same order, a copy that a mover is making among them (R486). -/
def Dev.wrCopies (d : Dev) (s va w0 : Nat) (bs : List Byte) : Dev :=
  let e : Dev := { d with tir := { d.tir with busy := d.tir.busy.map (fun (r : MoveReq) =>
    if decide (r.slot = s) && decide (r.gob = va / 65536) && decide (r.kind ≠ .refetch) then
      { r with buf := overlay r.buf (va % 65536) bs }
    else r) } }
  let d0 := if leafTier w0 = 1 then e else e.patchLines s va bs
  let d1 :=
    match d0.gcFind s (va / 65536) with
    | some k => { d0 with mem := { d0.mem with gc := wrBytes d0.mem.gc (k * 65536 + va % 65536) bs } }
    | none => d0
  if w0.testBit 9 then
    { d1 with mem := { d1.mem with t1 := wrBytes d1.mem.t1 (nfld w0 31 10 * 65536 + va % 65536) bs } }
  else d1

/-- A store to part of a line of a T2 home first reads the line, for the home takes whole lines and the other bytes stay as they
are (R93). A line that came poisoned has poisoned the gob: the read of a data gob raises 0x0601 (R512). -/
def Dev.farBase (d : Dev) (w : Who) (va n w0 w1 : Nat) : MemRes :=
  let v := va / 128 * 128
  let m := (va + n + 127) / 128 - va / 128
  let node := nfld w1 63 48
  let off := nfld w1 31 0 * 65536 + v % 65536
  match d.spaceDown w node off with
  | some f => .fault d f
  | none =>
    if d.lineRoom w.tag < m then .stall d
    else if decide (va % 128 = 0) && decide (n % 128 = 0) || (d.heldByte w w0 va).isSome && (d.heldByte w w0 (va + n - 1)).isSome then
      .ok d []
    else if w0.testBit 5 then .fault d (memFault 0x0601 w.src va (leafObj w0) w0 w1)
    else d.nodeRead w v (128 * m) node off

/-- A poisoned weights or keys gob is declared unrecoverable, and a write to it not applied, or it awaits its repair (R804). -/
def Dev.repairNow (d : Dev) (s gob w0 : Nat) : Option Bool :=
  if w0.testBit 5 && decide (d.gobKind s (leafObj w0) ≠ 0) then some (d.declared s gob) else none

/-- Whether a write within one gob may be performed. It waits while the home is being moved or is a weights or keys gob under
repair (R487, R804). -/
def Dev.wrReady (d : Dev) (w : Who) (va n : Nat) : MemRes :=
  if 0xFFFF00000000 ≤ va then
    match d.window w va with
    | .ok _ => .ok d []
    | .error c => .fault d (memFault c w.src va 0 0 0)
  else
    match d.walk w.slot (va / 65536) true with
    | .bad c w0 w1 => .fault (d.walkSeen w.slot (va / 65536)) (memFault c w.src va (leafObj w0) w0 w1)
    | .leaf _ w0 w1 =>
      if w0.testBit 6 then .stall d
      else
        match d.repairNow w.slot (va / 65536) w0 with
        | some q => if q then .ok d [] else .stall d
        | none => if leafTier w0 = 2 then d.farBase w va n w0 w1 else .ok d []

/-- Whether every piece of a write may be performed: a fault of any piece comes before the wait of another (R120). -/
def Dev.wrReadies (d : Dev) (w : Who) : List (Nat × Nat) → MemRes
  | [] => .ok d []
  | (va, n) :: ps =>
    match d.wrReady w va n with
    | .ok d1 _ => d1.wrReadies w ps
    | .fault d1 f => .fault d1 f
    | .stall d1 =>
      match d1.wrReadies w ps with
      | .fault d2 f => .fault d2 f
      | r => .stall r.dev

/-- Performs a write within one gob: home, copies, header; not to an object that is quarantined (R481, R486, R804). -/
def Dev.wrPiece (d : Dev) (w : Who) (va : Nat) (bs : List Byte) : Dev :=
  if 0xFFFF00000000 ≤ va then
    match d.window w va with
    | .ok eo => d.esWrite eo.1 eo.2 bs
    | .error _ => d
  else
    match d.walk w.slot (va / 65536) true with
    | .bad _ _ _ => d
    | .leaf _ w0 w1 =>
      if (d.repairNow w.slot (va / 65536) w0).isSome then d
      else
        let d1 := ((d.walkSeen w.slot (va / 65536)).wrHome w va w0 w1 bs).wrCopies w.slot va w0 bs
        if bs.length = 65536 then d1 else d1.clearCrc w.slot (va / 65536) w0 w1

/-- Performs the pieces of a write. -/
def Dev.wrPieces (d : Dev) (w : Who) : List (Nat × Nat) → List Byte → Dev
  | [], _ => d
  | (va, n) :: ps, bs => (d.wrPiece w va (bs.take n)).wrPieces w ps (bs.drop n)

/-- Writes a range of local addresses: all of it, or, where a piece faults or must wait, nothing. -/
def Dev.wr (d : Dev) (w : Who) (va : Nat) (bs : List Byte) : MemRes :=
  match d.wrReadies w (piecesOf va bs.length) with
  | .ok d1 _ => .ok (d1.wrPieces w (piecesOf va bs.length) bs) []
  | r => r

/-! ### Reads and writes of units (R137, R469, R804) -/

/-- A unit has done with the far lines that it waited for. -/
def Dev.unitDone (d : Dev) (s src : Nat) : Dev :=
  { d with tir := { d.tir with lines := d.tir.lines.filter (fun l => decide (l.1 ≠ src) || decide (l.2.1 ≠ s)),
                               failed := d.tir.failed.filter (fun l => decide (l.1 ≠ src) || decide (l.2.1 ≠ s)) } }

/-- One read of a unit, the whole of what it needs. -/
def Dev.unitRead (d : Dev) (s src va n : Nat) : MemRes :=
  match d.rd (unitWho s src) va n with
  | .ok d1 bs => .ok (d1.unitDone s src) bs
  | r => r

/-- The slot and the source number of a step. -/
def UnitStep.key : UnitStep → Nat × Nat
  | .write s src _ _ => (s, src)
  | .post s src _ _ _ => (s, src)
  | .skip s _ _ => (s, 59)
  | .mask s _ => (s, 57)
  | .abort s _ _ _ _ => (s, 60)

/-- A unit has steps for a slot that wait. -/
def Dev.unitBusy (d : Dev) (s src : Nat) : Bool := d.tir.later.any (fun x => decide (x.key = (s, src)))

/-- A step of a unit waits behind those that wait. -/
def Dev.addLater (d : Dev) (x : UnitStep) : Dev := { d with tir := { d.tir with later := d.tir.later ++ [x] } }

/-- A unit's write: performed, or kept until memory lets it (R804). One that faults is not performed; of the routing engine, and where the
far home does not answer, the fault is raised. -/
def Dev.unitWrite (d : Dev) (s src va : Nat) (bs : List Byte) : Dev :=
  if d.unitBusy s src then d.addLater (.write s src va bs)
  else
    match d.wr (unitWho s src) va bs with
    | .ok d1 _ => d1.unitDone s src
    | .fault d1 f => if src = 57 ∨ f.code / 256 = 5 then (d1.unitDone s src).unitFails s src f else d1.unitDone s src
    | .stall d1 => d1.addLater (.write s src va bs)

/-- A unit's post of completion: applied once every write of its work has been performed (R137). -/
def Dev.donePost (d : Dev) (s src i n : Nat) (err : Bool) : Dev :=
  if d.unitBusy s src || !d.gateOpen (d.storesOf src) then d.addLater (.post s src i n err) else d.unitPost s i n err

end Sys2Proof.Machine
end

