-- ==== Sys2Proof/Machine/Array.lean ====
section
/-! DEFINITION. The arithmetic of the matrix array: scaled values, blocks of weights, in-array partials, promotion and
the drain (files 05 and 07). -/

namespace Sys2Proof.Machine

/-! ### Scaled values (R253 to R258) -/

/-- Bytes of scale per block of 32 (Table 5-2). -/
def scaleBytes (smode : Nat) : Nat := if smode = 2 then 1 else if smode = 3 then 3 else 0

/-- A scale mode is allowed for an element format (Table 5-2, R257). -/
def smodeOk (fmt smode : Nat) : Bool :=
  decide (smode ≤ 1) || (decide (smode = 2) && decide (3 ≤ fmt)) || (decide (smode = 3) && decide (5 ≤ fmt))

/-- An operand format (R252). -/
def operandFmt (fmt : Nat) : Bool := decide (1 ≤ fmt) && decide (fmt ≤ 0xA)

/-- A value under the refinement of mode 3 (R255). -/
def refine (v : Val) (r : Byte) : Val :=
  if r.toNat.testBit 7 then Val.nan
  else
    match decodeElem 0x3 [] r.toNat with
    | Val.nan => Val.nan
    | Val.inf n => Val.inf n
    | Val.fin s m e => if m = 0 then (if v = Val.nan then Val.nan else Val.fin false 0 0) else vmulExact v (Val.fin s m e)

/-- The scaled value of an element: `sc` the scale bytes of its block, `hi` its half of the block (R253 to R255). -/
def scaled (fmt smode : Nat) (book : List Byte) (sc : List Byte) (hi : Bool) (x : Nat) : Val :=
  let v := decodeElem fmt book x
  if smode = 2 then vmulExact v (decodeE8M0 (sc.getD 0 0))
  else if smode = 3 then
    let e := decodeE8M0 (sc.getD 0 0)
    if e = Val.nan then Val.nan else vmulExact (refine v (sc.getD (if hi then 2 else 1) 0)) e
  else v

/-- Bytes of the packed elements of a row of n elements. -/
def elemBytes (fmt n : Nat) : Nat := (n * fmtBits fmt + 7) / 8

/-- Bytes of a scaled row of n elements with its padding (R256). -/
def rowBytes (fmt smode n : Nat) : Nat :=
  (elemBytes fmt n + (n + 31) / 32 * scaleBytes smode + 63) / 64 * 64

/-- The scaled values of K block j of a scaled row of n elements (R803). -/
def rowBlock (fmt smode : Nat) (book : List Byte) (n : Nat) (row : List Byte) (j : Nat) : List Val :=
  let sc := (row.drop (elemBytes fmt n + j * scaleBytes smode)).take (scaleBytes smode)
  (List.range 32).map (fun i => scaled fmt smode book sc (decide (16 ≤ i)) (packedElem (fmtBits fmt) row (32 * j + i)))

/-! ### Weight gobs (R338 to R342) -/

/-- A weight gob's directory (Table 7-2). -/
structure GobDir where
  form : Nat
  efmt : Nat
  smode : Nat
  kb0 : Nat
  nb : Nat
  cg : Nat
  dense : Nat
  used : Nat
  bmap : Nat
  deriving DecidableEq, Repr

/-- Reads a directory of 64 bytes. -/
def gobDir (bs : List Byte) : GobDir :=
  let w := leNat (bs.take 8)
  { form := nfld w 1 0, efmt := nfld w 5 2, smode := nfld w 7 6, kb0 := nfld w 23 8, nb := nfld w 31 24,
    cg := nfld w 47 32, dense := leNat ((bs.drop 8).take 4), used := leNat ((bs.drop 12).take 4),
    bmap := leNat ((bs.drop 16).take 32) }

/-- A length padded to a multiple of 64. -/
def pad64 (n : Nat) : Nat := (n + 63) / 64 * 64

/-- Bytes of a dense block record (Table 7-3). -/
def denseRecord (fmt smode : Nat) : Nat := pad64 (512 * fmtBits fmt + 128 * scaleBytes smode)

/-- Bytes of a form 1 block record. -/
def pairRecord (fmt smode : Nat) : Nat := pad64 (256 * fmtBits fmt + 512 + 128 * scaleBytes smode)

/-- Number of 1 bits in the low `n` bits. -/
def popBits (n x : Nat) : Nat := ((List.range n).filter x.testBit).length

/-- Bytes of a form 2 block record with `k` values. -/
def sparseRecord (fmt smode k : Nat) : Nat := pad64 (512 + 128 * scaleBytes smode + (k * fmtBits fmt + 7) / 8)

/-- The fault that a directory raises against the operand it serves: 0x0203, 0x0202, or 0 (Table 7-5). -/
def dirFault (x : GobDir) (efmt smode nkb : Nat) : Nat :=
  if x.form = 3 ∨ x.efmt ≠ efmt ∨ x.smode ≠ smode ∨ x.nb = 0 ∨ 128 < x.nb
      ∨ 65536 < 320 + x.nb * denseRecord efmt smode ∨ x.dense ≠ 320 + x.nb * denseRecord efmt smode then 0x0203
  else if nkb < x.kb0 + x.nb then 0x0202
  else 0

/-- The 32-bit word of column c in a part of a record. -/
def colWord (bs : List Byte) (base c : Nat) : Nat := leNat ((bs.drop (base + 4 * c)).take 4)

/-- Group indices of a form 1 column word are in order (R342). -/
def groupsOk (x : Nat) : Bool :=
  (List.range 8).all (fun g => decide (nfld x (4 * g + 1) (4 * g) < nfld x (4 * g + 3) (4 * g + 2)))

/-- Each index of a form 1 column word names an element before the end of the K (R363); the block is block b of the whole. -/
def groupsIn (x b nkb : Nat) : Bool :=
  (List.range 8).all (fun g =>
    decide (32 * b + 4 * g + nfld x (4 * g + 1) (4 * g) < 32 * nkb)
      && decide (32 * b + 4 * g + nfld x (4 * g + 3) (4 * g + 2) < 32 * nkb))

/-- The fault of the directory of a gob in an engine store against the operand it serves (Table 7-5). Its form must equal that
of the header that an encoder has written for the slot, while that header is valid. -/
def Dev.gobFault (d : Dev) (e pay : Nat) (wd : WDesc) : Nat :=
  let x := gobDir (d.esRead e pay 64)
  if (match tget (fun _ => none) (d.engine e).heads (pay / 65536) with
      | some h => h.crcOk && decide (h.form ≠ x.form)
      | none => false) then 0x0203
  else dirFault x wd.efmt wd.smode wd.nkb

/-- Reads block j of a gob in an engine store: the record with the fault of its checks (R363). `pay` is the offset of the
payload. -/
def Dev.readBlock (d : Dev) (e pay : Nat) (wd : WDesc) (j : Nat) : WBlock :=
  let x := gobDir (d.esRead e pay 64)
  let code := d.gobFault e pay wd
  if code ≠ 0 then { form := x.form, rcd := [], bad := code }
  else if x.nb ≤ j then { form := x.form, rcd := [], bad := 0x0202 }
  else
    let off := leNat (d.esRead e (pay + 64 + 2 * j) 2)
    if off = 0xFFFF then
      { form := x.form, rcd := [], bad := if x.form = 2 ∧ x.bmap.testBit (2 * j) = false then 0 else 0x0202 }
    else
      let head := d.esRead e (pay + off * 64) 512
      let k := ((List.range 128).map (fun c => popBits 32 (colWord head 0 c))).sum
      let size :=
        if x.form = 0 then denseRecord wd.efmt wd.smode
        else if x.form = 1 then pairRecord wd.efmt wd.smode
        else sparseRecord wd.efmt wd.smode k
      if 65536 < off * 64 + size then { form := x.form, rcd := [], bad := 0x0202 }
      else
        let r := d.esRead e (pay + off * 64) size
        let ix := (List.range 128).map (colWord r (256 * fmtBits wd.efmt))
        { form := x.form, rcd := r,
          bad := if x.form ≠ 1 then 0
            else if !ix.all groupsOk then 0x0201
            else if !ix.all (fun k => groupsIn k (x.kb0 + j) wd.nkb) then 0x0202
            else 0 }

/-- The scale bytes of column c of a record, and the offset of the values of form 2. -/
def WBlock.scaleAt (b : WBlock) (fmt smode c : Nat) : List Byte :=
  let base :=
    if b.form = 0 then 512 * fmtBits fmt
    else if b.form = 1 then 256 * fmtBits fmt + 512
    else 512
  (b.rcd.drop (base + c * scaleBytes smode)).take (scaleBytes smode)

/-- The value that stands where a record lists none. -/
def zeroVal : Val := Val.fin false 0 0

/-- The scaled weights of column c of a block, K elements 0 to 31 (Table 7-3). -/
def WBlock.column (b : WBlock) (fmt smode : Nat) (book : List Byte) (c : Nat) : List Val :=
  if b.rcd = [] then List.replicate 32 zeroVal
  else
    let sc := b.scaleAt fmt smode c
    let val := fun (i x : Nat) => scaled fmt smode book sc (decide (16 ≤ i)) x
    if b.form = 0 then
      (List.range 32).map (fun i => val i (packedElem (fmtBits fmt) b.rcd (32 * c + i)))
    else if b.form = 1 then
      let ix := colWord b.rcd (256 * fmtBits fmt) c
      (List.range 32).map (fun i =>
        let g := i / 4
        if nfld ix (4 * g + 1) (4 * g) = i % 4 then val i (packedElem (fmtBits fmt) b.rcd (16 * c + 2 * g))
        else if nfld ix (4 * g + 3) (4 * g + 2) = i % 4 then val i (packedElem (fmtBits fmt) b.rcd (16 * c + 2 * g + 1))
        else zeroVal)
    else
      let before := ((List.range c).map (fun k => popBits 32 (colWord b.rcd 0 k))).sum
      let bits := colWord b.rcd 0 c
      let vs := b.rcd.drop (512 + 128 * scaleBytes smode)
      (List.range 32).map (fun i =>
        if bits.testBit i then val i (packedElem (fmtBits fmt) vs (before + popBits i bits)) else zeroVal)

/-! ### In-array partials (R269 to R272) -/

/-- The partial of one output element over one K block. -/
inductive Partial where
  /-- All products are zero: the block contributes nothing. -/
  | none
  | nan
  | inf (neg : Bool)
  /-- part × 2^(B − 22). -/
  | fin (part : Int) (b : Int)
  deriving DecidableEq, Repr

/-- ⌊log2⌋ of a non-zero finite product. -/
def prodLog : Val → Option Int
  | Val.fin _ m e => if m = 0 then none else some (flog2 m e)
  | _ => none

/-- The block anchor: the largest ⌊log2⌋ of the non-zero products (R270). -/
def blockAnchor (ps : List Val) : Option Int :=
  ps.foldl (fun a p =>
    match prodLog p, a with
    | some x, some y => some (max x y)
    | some x, none => some x
    | none, y => y) none

/-- A product truncated toward zero to the grid 2^q. -/
def truncTo (q : Int) : Val → Int
  | Val.fin s m e =>
    let n : Nat := if q ≤ e then m * 2 ^ (e - q).toNat else m / 2 ^ (q - e).toNat
    if s then -(n : Int) else (n : Int)
  | _ => 0

/-- The in-array partial of the 32 products of a block (R271, R272). -/
def partialOf (ps : List Val) : Partial :=
  if ps.any (fun p => decide (p = Val.nan)) then .nan
  else if ps.contains (Val.inf false) && ps.contains (Val.inf true) then .nan
  else if ps.contains (Val.inf false) then .inf false
  else if ps.contains (Val.inf true) then .inf true
  else
    match blockAnchor ps with
    | none => .none
    | some b => .fin (ps.map (truncTo (b - 22))).sum b

/-! ### Promotion (R274 to R276) -/

/-- An exact value x × 2^q rounded with RNE to a format, at its largest finite value where it would round to an infinity
(R275): bits, and whether it saturated. -/
def accRound (f : FFmt) (zneg : Bool) (x q : Int) : Nat × Bool :=
  if x = 0 then (signBits f zneg, false)
  else
    let s := scaleRat x.natAbs 1 (-q)
    let b := (roundBits f Rnd.rne s.1 s.2).1
    let neg := decide (x < 0)
    if f.top < b then (signBits f neg + f.top, true) else (signBits f neg + b, false)

/-- Promotion into A16 and A32 (R274, R275): the accumulator's bits, and whether the tile saturated. -/
def promoteFloat (f : FFmt) (acc : Nat) (p : Partial) : Nat × Bool :=
  let nanBits := f.nanBits.getD 0
  let infBits := fun n => signBits f n + (2 ^ f.eb - 1) * 2 ^ f.fb
  match p, decodeFloat f acc with
  | .none, _ => (acc, false)
  | .nan, _ => (nanBits, false)
  | _, Val.nan => (nanBits, false)
  | .inf a, Val.inf b => if a = b then (infBits a, false) else (nanBits, false)
  | .inf a, Val.fin _ _ _ => (infBits a, false)
  | .fin _ _, Val.inf b => (infBits b, false)
  | .fin x b, Val.fin n m e =>
    let r := accRound f false x (b - 22)
    match decodeFloat f r.1 with
    | Val.fin n1 m1 e1 =>
      let s := sumExact n m e n1 m1 e1
      let t := accRound f (n && n1 && decide (m = 0) && decide (m1 = 0)) s.1 s.2
      (t.1, r.2 || t.2)
    | _ => (acc, false)

/-- The non-finite pattern of AX96: −2^95. -/
def ax96Bad : BitVec 96 := BitVec.ofNat 96 (2 ^ 95)

/-- A value held to ±(2^95 − 1), and whether that changed it. -/
def clamp95 (x : Int) : Int × Bool :=
  let t : Int := 2 ^ 95 - 1
  if t < x then (t, true) else if x < -t then (-t, true) else (x, false)

/-- Promotion into AX96 (R276): the accumulator, sat, nonfinite. -/
def promoteExact (ta : Int) (acc : BitVec 96) (p : Partial) : BitVec 96 × Bool × Bool :=
  if acc = ax96Bad then (acc, false, false)
  else
    match p with
    | .none => (acc, false, false)
    | .nan => (ax96Bad, false, true)
    | .inf _ => (ax96Bad, false, true)
    | .fin x b =>
      let sh := (b - 22) - (ta - 94)
      let y : Int := if 0 ≤ sh then x * 2 ^ sh.toNat else Int.tdiv x (2 ^ (-sh).toNat)
      let c := clamp95 y
      let s := clamp95 (acc.toInt + c.1)
      (BitVec.ofInt 96 s.1, c.2 || s.2, false)

/-- The format of a floating accumulator. -/
def AccFmt.ffmt : AccFmt → FFmt
  | .a16 => fp16
  | _ => fp32

/-- Promotes a partial into element c of row r of a tile. -/
def Tile.promote (t : Tile) (r c : Nat) (p : Partial) : Tile :=
  let k := r * 128 + c
  let acc := tget (fun _ => (0 : BitVec 96)) t.acc k
  let put := fun (x : BitVec 96) => tput (fun _ => (0 : BitVec 96)) t.acc k x
  match t.fmt with
  | .ax96 =>
    let y := promoteExact (t.anchor.getD 0) acc p
    { t with acc := put y.1, sat := t.sat || y.2.1, nonfinite := t.nonfinite || y.2.2 }
  | f =>
    let y := promoteFloat f.ffmt acc.toNat p
    { t with acc := put (BitVec.ofNat 96 y.1), sat := t.sat || y.2 }

/-- Marks a row touched and the tile promoted (R311, Table 8-5). -/
def Tile.touch (t : Tile) (r : Nat) : Tile :=
  { t with touched := tput (fun _ => false) t.touched r true, promoted := true }

/-- A new tile: zeros, nothing touched, flags clear (R319). -/
def Tile.new (fmt : AccFmt) (rows : Nat) (anchor : Option Int) : Tile :=
  { fmt := fmt, rows := rows, anchor := anchor, sat := false, nonfinite := false, cvtSat := false, nanz := false,
    promoted := false, scales := none, touched := [], acc := [] }

/-- Slabs of a tile (R318). -/
def slabsOf (fmt : AccFmt) (rows : Nat) : Nat :=
  rows / 16 * (match fmt with
    | .a16 => 1
    | .a32 => 2
    | .ax96 => 6)

/-- The row count of an accumulator format (Table 5-4). -/
def maxRows : AccFmt → Nat
  | .a16 => 8192
  | .a32 => 4096
  | .ax96 => 1360

/-- K blocks of a pass (Tables 6-1 and 7-4): from the two operand formats, the accumulator, and form 1 weights. -/
def passBlocks (af wf : Nat) (fmt : AccFmt) (pairs : Bool) : Nat :=
  let wide := fun k => decide (k = 0x1) || decide (k = 0x2)
  let byte := fun k => decide (k = 0x3) || decide (k = 0x4) || decide (k = 0x8)
  let n :=
    if wide af || wide wf then 4
    else if byte af || byte wf then (if fmt = .a16 then 8 else 4)
    else 8
  if pairs then 2 * n else n

/-! ### Drain (R284 to R286) -/

/-- The combined per-tensor scale (R284). -/
def combinedScale : Option W32 × Option W32 → Val
  | (some a, some b) => val32 (mul32 Rnd.rne a b).1
  | (some a, none) => val32 a
  | (none, some b) => val32 b
  | (none, none) => Val.fin false 1 0

/-- The exact value of element c of row r of a tile. -/
def Tile.value (t : Tile) (r c : Nat) : Val :=
  let acc := tget (fun _ => (0 : BitVec 96)) t.acc (r * 128 + c)
  match t.fmt with
  | .ax96 =>
    if acc = ax96Bad then Val.nan
    else Val.fin (decide (acc.toInt < 0)) acc.toInt.natAbs (t.anchor.getD 0 - 94)
  | f => decodeFloat f.ffmt acc.toNat

/-- The codebook of a drain to CB4, which its descriptor does not name: free entries (log 126). -/
def drainBook : List Byte := (List.range 16).map Config.drainBook

/-- Element c of row r as a drain writes it: its bits and its flags (R284 to R286). -/
def Tile.drained (t : Tile) (ofmt : Nat) (rnd : Rnd) (r c : Nat) : Nat × Flg :=
  if ofmt = 0xB then ((tget (fun _ => (0 : BitVec 96)) t.acc (r * 128 + c)).toNat, Flg.none)
  else convertElem ofmt drainBook rnd (vmulExact (t.value r c) (combinedScale (t.scales.getD (none, none))))

/-- The scaled value of an element as written, for block maps: non-zero and non-finite (R339, R350). -/
def mapBits (vs : List Val) : Nat :=
  b2n (vs.any (fun v => !v.isZero)) + 2 * b2n (vs.any Val.nonFinite)

end Sys2Proof.Machine
end

