-- ==== Sys2Proof/Machine/Cullet.lean ====
section
/-! DEFINITION. Cullet: free stores, records, levels, alerts, reservations (R522 to R545, R556). -/

namespace Sys2Proof.Machine

/-- The payload frames of a record array of n records at a physical address (R527). -/
def recFrames (a n : Nat) : List Nat := (List.range ((a % 65536 + 16 * n + 65535) / 65536)).map (fun i => a / 65536 + i)

/-- The requester code by which a record names a node (Table 11-2 names nodes by their number; held apart from codes). -/
def nodeCode (n : Nat) : Nat := 0x10000 + n

/-- Owner slot of a pool; none for a device pool. -/
def Dev.poolOwner (d : Dev) (p : Nat) : Option Nat :=
  if d.rb (Reg.POOL_CFG p) 1 then some (d.rf (Reg.POOL_CFG p) 5 2) else none

/-- The pool is valid (POOL_CFG). -/
def Dev.poolValid (d : Dev) (p : Nat) : Bool := d.rb (Reg.POOL_CFG p) 0

/-- A pool instruction of a caller may name the pool (R525): in range, valid, owned by the caller's slot; at M also a
device pool. -/
def Dev.poolFor (d : Dev) (p : Nat) (s : Option Nat) : Bool :=
  decide (p < 1024) && d.poolValid p &&
    (match s, d.poolOwner p with
     | some a, some b => decide (a = b)
     | none, none => true
     | _, _ => false)

/-- log2 of the buffer size in force. -/
def Dev.poolLb (d : Dev) (p : Nat) : Nat := d.inf (Reg.POOL_CFG p) 12 8

/-- Local address of buffer i. -/
def Dev.bufAddr (d : Dev) (p i : Nat) : Nat := d.inf (Reg.POOL_BASE p) 47 0 + i * 2 ^ d.poolLb p

/-- Bytes of a buffer of a pool. -/
def Dev.bufSize (d : Dev) (p : Nat) : Nat := 2 ^ d.poolLb p

/-- The record of a buffer. -/
def Pool.recOf (x : Pool) (i : Nat) : BufRec := tget (fun _ => BufRec.free) x.recs i

/-- Replaces the record of a buffer. -/
def Pool.setRec (x : Pool) (i : Nat) (r : BufRec) : Pool := { x with recs := tput (fun _ => BufRec.free) x.recs i r }

/-- Free buffers. -/
def Pool.free (x : Pool) : Nat := x.returned.length + (x.nbuf - x.fresh)

/-- Held buffers. -/
def Pool.held (x : Pool) : Nat := (x.recs.filter (fun r => r.2.held)).length

/-- Reserved buffers. -/
def Pool.reserved (x : Pool) : Nat := (x.recs.filter (fun r => r.2.reserved)).length

/-- Buffers whose releaser is a core (R539); the releaser of a released buffer is a former one (R534). -/
def Pool.charge (x : Pool) (c : Nat) : Nat :=
  (x.recs.filter (fun r => r.2.held && !r.2.released && decide (r.2.releaser = c))).length

/-- Inserts an index in ascending order. -/
def insertAsc (i : Nat) : List Nat → List Nat
  | [] => [i]
  | j :: js => if i ≤ j then i :: j :: js else j :: insertAsc i js

/-- Takes the buffer that the mode hands out (Table 11-1): the lowest free one, or the head of the list. -/
def Pool.take (x : Pool) : Option (Nat × Pool) :=
  match x.returned with
  | i :: is => some (i, { x with returned := is })
  | [] => if x.fresh < x.nbuf then some (x.fresh, { x with fresh := x.fresh + 1 }) else none

/-- Returns a buffer to the free store: the head of the list in list mode. -/
def Pool.giveBack (x : Pool) (list : Bool) (i : Nat) : Pool :=
  { (x.setRec i BufRec.free) with returned := if list then i :: x.returned else insertAsc i x.returned }

/-! ### The frame map (R807) -/

/-- The mapped leaves of a slot: gob number and address of the leaf. -/
def Dev.leaves (d : Dev) (s : Nat) : List (Nat × Nat) :=
  if !d.rb (Reg.TT_BASE s) 0 then []
  else
    (List.range 1024).flatMap (fun i =>
      let e0 := d.t1w (d.rf (Reg.TT_BASE s) 39 15 * 2 ^ 15 + 8 * i)
      if !e0.testBit 0 then []
      else
        (List.range 2048).flatMap (fun j =>
          let e1 := d.t1w (nfld e0 39 15 * 2 ^ 15 + 8 * j)
          if !e1.testBit 0 then []
          else
            ((List.range 2048).filter (fun k => (d.t1w (nfld e1 39 15 * 2 ^ 15 + 16 * k)).testBit 0)).map (fun k =>
              (i * 2 ^ 22 + j * 2 ^ 11 + k, nfld e1 39 15 * 2 ^ 15 + 16 * k))))

/-- The frames that hold a slot's tier tables. -/
def Dev.tableFrames (d : Dev) (s : Nat) : List Nat :=
  if !d.rb (Reg.TT_BASE s) 0 then []
  else
    let l0 := d.rf (Reg.TT_BASE s) 39 15 * 2 ^ 15
    let e0s := ((List.range 1024).map (fun i => d.t1w (l0 + 8 * i))).filter (fun e => e.testBit 0)
    let e1s := (e0s.flatMap (fun e => (List.range 2048).map (fun j => d.t1w (nfld e 39 15 * 2 ^ 15 + 8 * j)))).filter
      (fun e => e.testBit 0)
    ((l0 / 65536) :: (e0s ++ e1s).map (fun e => nfld e 39 15 * 2 ^ 15 / 65536)).eraseDups

/-- The frames that a leaf names: T1 home and T1 copy. -/
def leafFrames (w0 w1 : Nat) : List Nat :=
  (if leafTier w0 = 1 then [nfld w1 21 0] else []) ++ (if w0.testBit 9 then [nfld w0 31 10] else [])

/-- All frames of a slot: tables, homes, copies. -/
def Dev.slotFrames (d : Dev) (s : Nat) : List Nat :=
  (d.tableFrames s ++ (d.leaves s).flatMap (fun l => leafFrames (d.t1w l.2) (d.t1w (l.2 + 8)))).eraseDups

/-- Marks frames in use or free. -/
def Dev.framesUse (d : Dev) (fs : List Nat) (b : Bool) : Dev := fs.foldl (fun a f => a.frameUse f b) d

/-- A slot with a job names a frame: by its tier tables, or by a leaf as a T1 home or copy. -/
def Dev.slotNames (d : Dev) (s f : Nat) : Bool :=
  (d.tableFrames s).contains f || (d.leaves s).any (fun l => (leafFrames (d.t1w l.2) (d.t1w (l.2 + 8))).contains f)

/-- Work in hand or in wait of a mover names a frame: the one taken for a T1 copy, or the target of a move. -/
def MoveReq.names (r : MoveReq) (f : Nat) : Bool :=
  decide (r.frame = some f) || (match r.dest with
    | .home tier loc => decide (tier = 1) && decide (nfld loc 21 0 = f)
    | _ => false)

/-- The record array of a valid pool stands in a frame. -/
def Dev.recordNames (d : Dev) (f : Nat) : Bool := d.cul.pools.any (fun r => d.poolValid r.1 && r.2.recAt.contains f)

/-- Something names a frame (R807). -/
def Dev.frameNamed (d : Dev) (f : Nat) : Bool :=
  d.recordNames f || (d.tir.queue ++ d.tir.busy).any (fun r => r.names f) || (slots16.filter d.hasJob).any (fun s => d.slotNames s f)

/-- Frames that one thing names no more are free where nothing else names them. -/
def Dev.framesDrop (d : Dev) (fs : List Nat) : Dev := fs.foldl (fun a f => if a.frameNamed f then a else a.frameUse f false) d

/-- The record array of a pool is taken off: its frames, and its count against the quota that it was charged to (R527). -/
def Dev.recRelease (d : Dev) (p : Nat) : Dev :=
  let x := d.pool p
  let d1 := (d.setPool p { x with recAt := [], recSlot := none }).framesDrop x.recAt
  match x.recSlot with
  | some s => d1.setRf (Reg.USAGE s) 21 0 (d1.rf (Reg.USAGE s) 21 0 - x.recAt.length)
  | none => d1

/-- The record array of a pool of n buffers stands in frames that are in use and count against the owner's T1 quota (R527, R807). -/
def Dev.recCharge (d : Dev) (p n : Nat) : Dev :=
  let fs := recFrames (d.inf (Reg.POOL_REC p) 39 0) n
  let d1 := (d.setPool p { d.pool p with recAt := fs, recSlot := d.poolOwner p }).framesUse fs true
  match d.poolOwner p with
  | some s => d1.setRf (Reg.USAGE s) 21 0 (d1.rf (Reg.USAGE s) 21 0 + fs.length)
  | none => d1

/-! ### Levels and alerts (R540, R544) -/

/-- The level at a free count: 0 OK, 1 WARN, 2 PRESS, 3 STOP. -/
def levelOf (warn press stop free : Nat) : Nat :=
  let p := min press warn
  let s := min stop p
  if free ≤ s then 3 else if free ≤ p then 2 else if free ≤ warn then 1 else 0

/-- The level of a pool at the thresholds in force. -/
def Dev.poolLevel (d : Dev) (p : Nat) : Nat :=
  levelOf (d.inf (Reg.POOL_THR p) 19 0) (d.inf (Reg.POOL_THR p) 39 20) (d.inf (Reg.POOL_THR p) 59 40) (d.pool p).free

/-- The stop threshold in force (R540). -/
def Dev.poolStopAt (d : Dev) (p : Nat) : Nat :=
  min (d.inf (Reg.POOL_THR p) 59 40) (min (d.inf (Reg.POOL_THR p) 39 20) (d.inf (Reg.POOL_THR p) 19 0))

/-- The pool is quiesced (R545): between commands Cullet serves no operation. -/
def Dev.poolQuiesced (d : Dev) (p : Nat) : Bool := !d.poolValid p || d.rb (Reg.POOL_CTRL p) 0

/-- The pool's init is complete. -/
def Dev.poolReady (d : Dev) (p : Nat) : Bool := d.rb (Reg.POOL_STAT p) 35

/-- POOL_STAT of a pool as it stands, with a level. -/
def Dev.poolWord (d : Dev) (p level : Nat) : Nat :=
  let x := d.pool p
  x.free % 2 ^ 25 + x.reserved % 256 * 2 ^ 25 + level * 2 ^ 33 + b2n (d.poolReady p) * 2 ^ 35
    + b2n (d.poolQuiesced p) * 2 ^ 36 + x.waiters.length % 1024 * 2 ^ 37

/-- Writes POOL_STAT and POOL_HELD from the pool. -/
def Dev.poolShow (d : Dev) (p : Nat) : Dev :=
  let x := d.pool p
  (d.setReg (Reg.POOL_STAT p) (BitVec.ofNat 64 (d.poolWord p (d.poolLevel p)))).setReg (Reg.POOL_HELD p) (BitVec.ofNat 64 x.held)

/-- POOL_LEVEL_ALERT (R544): one post for each level crossed by a worsening. An alert object that the pool's slot does not own
raises 0x0801 (R550). -/
def Dev.poolAlert (d : Dev) (p old new : Nat) : Dev :=
  let o := d.inf (Reg.POOL_ALERT p) 15 0
  if d.inf (Reg.POOL_ALERT p) 16 16 = 0 ∨ new ≤ old then d
  else if d.owner o = d.poolOwner p then (List.range (new - old)).foldl (fun a _ => (a.post o 1 false).1) d
  else
    match d.poolOwner p with
    | some s => d.stopWith s (d.objFault 58 o 1)
    | none => d

/-- Held buffers whose releaser is one of a pool's, by releaser; released ones that await a drop. -/
def Pool.perReleaser (x : Pool) : List Nat :=
  let rs := x.recs.filter (fun r => r.2.held && !r.2.released)
  ((rs.map (fun r => r.2.releaser)).eraseDups).map (fun c => (rs.filter (fun r => decide (r.2.releaser = c))).length)

/-- Released buffers that await a drop. -/
def Pool.awaiting (x : Pool) : Nat := (x.recs.filter (fun r => r.2.held && r.2.released)).length

/-- The jobs that a fault of a pool's ledger stops (Table 11-7). -/
def Dev.poolSlots (d : Dev) (p : Nat) : List Nat :=
  match d.poolOwner p with
  | some s => [s]
  | none => d.jobSlots

/-- The buffer ledger of a pool (R556): nbuf = free + reserved + held; held = buffers per releaser + released buffers. -/
def Dev.poolLedger (d0 : Dev) (p : Nat) : Dev :=
  let d := d0.readLedger 1 p (d0.poolSlots p)
  let x := d.pool p
  let r := x.free + x.reserved + x.held
  let h := x.perReleaser.sum + x.awaiting
  if x.nbuf ≠ r then d.ledgerStop 0x0B01 1 p (BitVec.ofNat 64 x.nbuf) (BitVec.ofNat 64 r) (d.poolSlots p)
  else if x.held ≠ h then d.ledgerStop 0x0B01 1 p (BitVec.ofNat 64 x.held) (BitVec.ofNat 64 h) (d.poolSlots p)
  else d

/-- Ends an operation of a pool: the level is recomputed, alerts posted, the ledger checked. -/
def Dev.poolDone (d : Dev) (p : Nat) : Dev :=
  let old := d.rf (Reg.POOL_STAT p) 34 33
  ((d.poolShow p).poolAlert p old (d.poolLevel p)).poolLedger p

/-! ### Allocation (R530, R539, R541) -/

/-- The level and the quotas permit an allocation by a requester. -/
def Dev.allocPermitted (d : Dev) (p r : Nat) : Bool :=
  let x := d.pool p
  let lv := d.poolLevel p
  let mx := d.inf (Reg.POOL_QUOTA p) 23 0
  let mn := d.inf (Reg.POOL_QUOTA p) 47 24
  d.poolReady p && !d.rb (Reg.POOL_CTRL p) 0 && decide (lv ≠ 3) && decide (0 < x.free)
    && (decide (41 ≤ r) ||
      ((decide (mx = 0) || decide (x.charge r < mx)) && (decide (lv ≠ 2) || decide (x.charge r < mn))))

/-- Hands a buffer to a requester as its sole holder and releaser. -/
def Dev.handOut (d : Dev) (p r : Nat) : Option (Nat × Dev) :=
  match (d.pool p).take with
  | none => none
  | some (i, x) =>
    let y := x.setRec i { held := true, holders := [r], releaser := r, relNode := false, released := false,
                          reserved := false }
    some (i, (((d.setPool p y).addRf (Reg.POOL_ALLOCS p) 63 0 1)).poolDone p)

/-- An allocation served at once, when the pool permits and none waits before it that could be served (R529, R543). -/
def Dev.allocNow (d : Dev) (p r : Nat) : Option (Nat × Dev) :=
  if d.allocPermitted p r && (d.pool p).waiters.all (fun k => !d.allocPermitted p k) then d.handOut p r else none

/-- Returns a buffer to the free store (BUFFER_RETURN, R534). -/
def Dev.bufReturn (d : Dev) (p i : Nat) : Dev :=
  (d.setPool p ((d.pool p).giveBack (decide (d.inf (Reg.POOL_CFG p) 6 6 = 1)) i)).poolDone p

/-- Hands a held buffer over to a new sole holder and releaser (R531). -/
def Dev.bufHand (d : Dev) (p i r : Nat) : Dev :=
  d.setPool p ((d.pool p).setRec i { held := true, holders := [r], releaser := r, relNode := false, released := false,
                                     reserved := false })

/-- The pool and buffer of an address among the pools of a slot (none: the device pools); it must be a buffer's start. -/
def Dev.findBuf (d : Dev) (s : Option Nat) (a : Nat) : Option (Nat × Nat) :=
  ((d.cul.pools.map Prod.fst).find? (fun p =>
    d.poolFor p s && decide (d.bufAddr p 0 ≤ a) && decide (a < d.bufAddr p (d.pool p).nbuf)
      && decide ((a - d.bufAddr p 0) % d.bufSize p = 0))).map (fun p => (p, (a - d.bufAddr p 0) / d.bufSize p))

/-- Returns a list of buffers given by address, each where the slot holds it. -/
def Dev.returnAll (d : Dev) (s : Nat) (bs : List Nat) : Dev :=
  bs.foldl (fun a b =>
    match a.findBuf (some s) b with
    | some pi => if ((a.pool pi.1).recOf pi.2).held then a.bufReturn pi.1 pi.2 else a
    | none => a) d

/-- Hands a list of buffers given by address to a requester. -/
def Dev.handAll (d : Dev) (s r : Nat) (bs : List Nat) : Dev :=
  bs.foldl (fun a b =>
    match a.findBuf (some s) b with
    | some pi => a.bufHand pi.1 pi.2 r
    | none => a) d

/-- A released buffer whose other holders have dropped it returns (R534). -/
def Dev.bufSettle (d : Dev) (p i : Nat) : Dev :=
  let r := (d.pool p).recOf i
  if r.released && decide (r.holders.all (fun h => decide (h = r.releaser))) then d.bufReturn p i else d.poolDone p

/-- The release of a buffer by its releaser (R534, R535). -/
def Dev.bufRelease (d : Dev) (p i : Nat) : Dev :=
  let x := d.pool p
  (d.setPool p (x.setRec i { x.recOf i with released := true })).bufSettle p i

/-- A fault of the 0x07 area. -/
def poolFault (code : Nat) (info : Word) (p addr r : Nat) : FaultInfo := mkFault code info 58 (p % 1024) addr r

/-! ### Receive queues (R542) -/

/-- Queues bound to a pool, as slot × 16 + queue, ascending. -/
def Dev.queuesOf (d : Dev) (p : Nat) : List Nat :=
  (List.range 256).filter (fun k => decide ((d.rqueue (k / 16) (k % 16)).pool = some p))

/-- A queue may reserve a buffer now. -/
def Dev.mayReserve (d : Dev) (p k : Nat) : Bool :=
  let q := d.rqueue (k / 16) (k % 16)
  d.poolReady p && !d.rb (Reg.POOL_CTRL p) 0 && decide ((d.pool p).waiters = [])
    && decide (q.reserved.length < d.inf (Reg.POOL_THR p) 63 60) && decide (d.poolStopAt p < (d.pool p).free)

/-- The queue whose turn it is: the next after the last served that can reserve. -/
def Dev.nextQueue (d : Dev) (p : Nat) : Option Nat :=
  let ks := (d.queuesOf p).filter (d.mayReserve p)
  match (d.pool p).lastQueue with
  | none => ks.head?
  | some l =>
    match ks.find? (fun k => decide (l < k)) with
    | some k => some k
    | none => ks.head?

/-- One reservation for a queue. -/
def Dev.reserveFor (d : Dev) (p k : Nat) : Dev :=
  match (d.pool p).take with
  | none => d
  | some (i, x) =>
    let y := { (x.setRec i { BufRec.free with reserved := true }) with lastQueue := some k }
    let q := d.rqueue (k / 16) (k % 16)
    ((d.setPool p y).setRqueue (k / 16) (k % 16) { q with reserved := q.reserved ++ [i] }).poolDone p

end Sys2Proof.Machine
end

