-- ==== Sys2Proof/Machine/Issue.lean ====
section
/-! DEFINITION. How a core runs one instruction: wide forms and predicates, retirement and the loop stack, jumps, stalls,
and the faults a core raises (files 02, 08 and 13). -/

namespace Sys2Proof.Machine

/-! ### Command-list entries in hand (R421, R443, R444) -/

/-- A progress word (Table 8-16). -/
def progressWord (units state core : Nat) : Nat := units % 2 ^ 32 + state * 2 ^ 32 + core * 2 ^ 36

/-- Writes the progress word of the entry at an address. -/
def Dev.putProgress (d : Dev) (s addr units state core : Nat) : Dev :=
  d.unitWrite s 59 (addr + 56) (leBytes 8 (progressWord units state core))

/-- Writes the progress word of a core's entry: state 2, or 4 once it has faulted. -/
def Dev.coreProgress (d : Dev) (c : Nat) : Dev :=
  match (d.core c).entry with
  | none => d
  | some e => d.putProgress e.slot e.addr e.units (if e.faulted then 4 else 2) c

/-- Word i of an entry given as eight words. -/
def entWord (ws : List Word) (i : Nat) : Nat := (ws.getD i 0).toNat

/-- An entry takes state 5, and its done object is posted with dcount and the error epoch marked (R137, R415, R443). -/
def Dev.skipEntry (d : Dev) (s addr : Nat) (ws : List Word) : Dev :=
  let d1 := d.putProgress s addr 0 5 0
  let w6 := entWord ws 6
  if w6.testBit 48 then d1.donePost s 59 (nfld w6 15 0) (nfld w6 47 16) true else d1

/-- Twin mode is on for a slot (R663). -/
def Dev.twinOn (d : Dev) (s : Nat) : Bool := d.rb (Reg.TWIN_CFG s) 19 && !d.rb (Reg.TWIN_STATUS s) 43

/-- The header of a unit in the byte stream of R665: kind 0 tile, 1 gob, 2 fold; index; byte count. -/
def unitHeader (kind idx n : Nat) : List Byte := leBytes 4 kind ++ leBytes 4 idx ++ leBytes 8 n

/-- A unit or fold joins the byte stream of a core's entry; a unit is committed and counted (R324, R361, R421, R665). -/
def Dev.commitUnit (d : Dev) (c kind row : Nat) (bs : List Byte) : Dev :=
  match (d.core c).entry with
  | none => d
  | some e =>
    let h := unitHeader kind (if kind = 2 then 0 else e.units) bs.length
    let on := d.twinOn e.slot
    let k := if kind = 2 then 2 * e.nextUnit else 2 * e.units + 1
    let e1 := if on then { e with stream := e.stream ++ [(k, row, h, bs)] } else e
    if kind = 2 then d.modCore c (fun x => { x with entry := some e1 })
    else (d.modCore c (fun x => { x with entry := some { e1 with units := e.units + 1 } })).coreProgress c

/-- Skips the entries of a list from an address on, to the one with last = 1 (R443). An entry that is not at hand is awaited; a read
that faults stops the job, as any read of a list does (log 67). -/
def Dev.skipFrom (d : Dev) (s : Nat) : Nat → Nat → Dev
  | 0, _ => d
  | k + 1, addr =>
    match d.unitRead s 59 addr 64 with
    | .ok d0 bs =>
      let ws := (leWords 8 8 bs).map (BitVec.ofNat 64)
      let d1 := d0.skipEntry s addr ws
      if (entWord ws 0).testBit 52 then d1 else d1.skipFrom s k (addr + 64)
    | .fault d0 f => d0.stopWith s f
    | .stall d0 => d0.addLater (.skip s addr (k + 1))

/-- Sets the mask bit in a word of a route state object (R186). -/
def Dev.maskWord (d : Dev) (s va : Nat) : Dev :=
  match d.unitRead s 57 va 8 with
  | .ok d0 bs => d0.unitWrite s 57 va (leBytes 8 (nset (leNat bs) 61 61 1))
  | .fault d0 _ => d0
  | .stall d0 => d0.addLater (.mask s va)

/-! ### Faults of the exchange (R229, R247, R248) -/

/-- A fault of the 0x04 area: tag; epoch, half, stage and direction of a bin; sender and index (Table 13-4). -/
def xchFault (code : Nat) (info : Word) (src tag d1 sender idx : Nat) : FaultInfo :=
  mkFault code info src tag d1 (sender + idx * 2 ^ 32)

/-- It names the unit in flight and the units committed before it: of kind 4 a bin, of kind 3 a chunk (R248, Table 13-3). -/
def FaultInfo.inFlight (f : FaultInfo) (kind units : Nat) : FaultInfo := { f with ukind := kind, units := units, flight := units }

/-- It names the units committed, and none in flight. -/
def FaultInfo.after (f : FaultInfo) (kind units : Nat) : FaultInfo := { f with ukind := kind, units := units }

/-- XCH_STATUS bit of a code. -/
def xchBit (code : Nat) : Option Nat :=
  match code with
  | 0x0401 => some 0
  | 0x0402 => some 1
  | 0x0403 => some 3
  | 0x0407 => some 4
  | _ => none

/-- What a 0x04 fault leaves in the exchange registers of a slot: its flag, its code and sender. -/
def Dev.xchShow (d : Dev) (s code sender : Nat) : Dev :=
  let d1 := d.setReg (Reg.XCH_LAST_SRC s) (BitVec.ofNat 64 (sender % 65536 + code * 65536))
  match xchBit code with
  | some b => d1.setRb (Reg.XCH_STATUS s) b true
  | none => d1

/-- A member's steps on an abort message (R230, R231): fault 0x0407 with the sequence number and the committed chunks of the
descriptor, the status word with the code, then the post of its object with the error epoch marked. Of a descriptor that
cannot be read only the tag and the sender are known. -/
def Dev.abortSteps (d : Dev) (s c desc tag sender : Nat) : Dev :=
  let f := xchFault 0x0407 (BitVec.ofNat 64 tag) 60 tag
  match d.unitRead s 60 desc 80 with
  | .stall d1 => d1.addLater (.abort s c desc tag sender)
  | .fault d1 _ => (d1.unitDone s 60).asyncFault c s (f 0 sender 0)
  | .ok d1 bs =>
    let w := fun (i : Nat) => (leWords 8 10 bs).getD i 0
    let d2 := d1.asyncFault c s ((f (nfld (w 0) 63 32) sender 0).after 3 (nfld (w 9) 63 32))
    (d2.unitWrite s 60 (desc + 72) (leBytes 8 (nset (nset (w 9) 1 0 1) 31 16 0x0407))).donePost s 60 (nfld (w 6) 15 0) 1 true

/-- One step of a unit that waited: it is performed, or waits again behind those before it. -/
def Dev.doStep (d : Dev) : UnitStep → Dev
  | .write s src va bs => d.unitWrite s src va bs
  | .post s src i n err => d.donePost s src i n err
  | .skip s addr fuel => if d.unitBusy s 59 then d.addLater (.skip s addr fuel) else d.skipFrom s fuel addr
  | .mask s va => if d.unitBusy s 57 then d.addLater (.mask s va) else d.maskWord s va
  | .abort s c desc tag sender =>
    if d.unitBusy s 60 then d.addLater (.abort s c desc tag sender) else d.abortSteps s c desc tag sender

/-- The steps of units that wait are tried again, oldest first. -/
def Dev.runLater (d : Dev) : Dev :=
  if d.tir.later = [] then d
  else d.tir.later.foldl Dev.doStep { d with tir := { d.tir with later := [] } }

/-- Replaces the list with the given slot, queue and taken value. -/
def Dev.modList (d : Dev) (s q taken : Nat) (f : CmdList → CmdList) : Dev :=
  { d with sch := { d.sch with lists := d.sch.lists.map (fun l =>
      if decide (l.slot = s) && decide (l.queue = q) && decide (l.taken = taken) then f l else l) } }

/-- The list with the given slot, queue and taken value. -/
def Dev.listOf (d : Dev) (s q taken : Nat) : Option CmdList :=
  d.sch.lists.find? (fun l => decide (l.slot = s) && decide (l.queue = q) && decide (l.taken = taken))

/-- LIST_SKIP_AFTER_FAULT (R443): the entries in the window and those not entered take state 5. -/
def Dev.skipList (d : Dev) (s q taken : Nat) : Dev :=
  match d.listOf s q taken with
  | none => d
  | some l =>
    let d1 := d.modList s q taken (fun x => { x with faulted := true, win := [], lastIn := true })
    let d2 := l.win.foldl (fun a e => a.skipEntry s e.addr e.words) d1
    if l.lastIn || l.faulted then d2 else d2.skipFrom s 65536 l.next

/-- The entry in hand of a core takes state 4 (R444); its list is skipped when the job goes on. -/
def Dev.entryFault (d : Dev) (c : Nat) (goesOn : Bool) : Dev :=
  match (d.core c).entry with
  | none => d
  | some e =>
    let d1 := (d.modCore c (fun x => { x with entry := some { e with faulted := true } })).coreProgress c
    if goesOn && !e.faulted then d1.skipList e.slot e.queue e.taken else d1

/-! ### Faults at a core (R122, R123, R126) -/

/-- Delivery to JFVEC (R123). -/
def Core.deliver (x : Core) (f : FaultInfo) : Core :=
  let y := (((x.setCsr 0x002 x.pc).setCsr 0x405 (BitVec.ofNat 64 f.code)).setCsr 0x406 f.info).setCsr 0x407 1
  { y with pc := pcMask (x.csrOf 0x001).toNat, frozen := true, wait := none, lines := [], run := .running }

/-- XTVAL of an exception: the fault code for cause 0x08, else the address or operand. -/
def tvalOf (cause : Nat) (f : FaultInfo) : Word := if cause = 8 then BitVec.ofNat 64 f.code else f.info

/-- The line reads of a core's instruction that has ended bring nothing any more (R93, R136). -/
def Dev.endReads (d : Dev) (c : Nat) : Dev :=
  if d.fab.reads.any (fun r =>
      match r.use with
      | .core k _ => decide (k = c)
      | _ => false) then
    { d with fab := { d.fab with reads := d.fab.reads.map (fun (r : LineRead) =>
        match r.use with
        | .core k _ => if k = c then { r with use := .gone c } else r
        | _ => r) } }
  else d

/-- The job goes on after a fault that a core takes: the unit returns the buffers of the operation that it ended (R531). -/
def Dev.returnOwed (d : Dev) (c s : Nat) (f : FaultInfo) : Dev :=
  let mine := (d.core c).owed.filter (fun o => decide (o.1 = f))
  (d.modCore c (fun x => { x with owed := x.owed.filter (fun o => decide (o.1 ≠ f)) })).returnAll s (mine.flatMap Prod.snd)

/-- A unit's operation ends in a fault at the core that issued it. When the job goes on its buffers return; when it stops they stay
held by the unit (R531). -/
def Dev.opFails (d : Dev) (c s : Nat) (f : FaultInfo) (bufs : List Nat) : Dev :=
  if classOf f.code = .deliverable ∧ (d.core c).slot = some s then
    (d.modCore c (fun x => { x with owed := x.owed ++ [(f, bufs)] })).asyncFault c s f
  else
    let d1 := d.asyncFault c s f
    if d1.runs s ∧ classOf f.code = .record then d1.returnAll s bufs else d1

/-- A core raises a fault. At M it enters M again; at J the record is written, then the fault is delivered or the job
stops (R122, R123). A core at J whose JOBSLOT is not valid has no job that could stop or whose log could hold a record, and
the spec does not speak of it: it enters M with the cause (DESIGN CHOICE, log 123). -/
def Dev.raiseCore (d0 : Dev) (c cause : Nat) (f0 : FaultInfo) : Dev :=
  let d := d0.endReads c
  let x := d.core c
  let f := d.withEntry c f0
  match x.atM c, x.slot with
  | false, some s =>
    if decide (classOf f.code = .deliverable) && decide (x.csrOf 0x001 ≠ 0) && !bitAt (x.csrOf 0x407) 0 then
      (((d.record s f true false).modCore c (fun y => y.deliver f)).entryFault c true).returnOwed c s f0
    else ((d.record s f false (d.runs s)).entryFault c false).stopJob s
  | _, some s => (d.seePoison s f).setCore c { x.enterM cause (tvalOf cause f) with frozen := true }
  | _, none => d.setCore c { x.enterM cause (tvalOf cause f) with frozen := true }

/-! ### What an instruction answers -/

/-- The outcome of an instruction's body. -/
inductive IRes where
  /-- It completes, and the next instruction follows. -/
  | done (d : Dev)
  /-- A taken branch or jump. -/
  | jump (d : Dev) (target : Nat)
  /-- The core stalls. -/
  | stall (d : Dev) (w : Wait)
  /-- A synchronous exception: no effect of the instruction but those of memory units on the way (R120). -/
  | raise (d : Dev) (cause : Nat) (f : FaultInfo)
  /-- Entry to M without a fault (JCALL, EBREAK with debug unlocked). -/
  | enter (d : Dev) (cause : Nat) (r : RunState)
  /-- The core continues at an address without a jump (MRET, JFRET). -/
  | go (d : Dev) (pc : Nat)
  /-- The device is left as it stands: the core's job has stopped. -/
  | leave (d : Dev)

/-- The word of an instruction (Table 2-3). -/
def wordOf (major : Nat) (w : IW) : Nat :=
  major * 2 ^ 26 + w.rd.toNat * 2 ^ 21 + w.rs1.toNat * 2 ^ 16 + w.rs2.toNat * 2 ^ 11 + w.fn.toNat

/-- The illegal-instruction fault: pc and instruction word (Table 13-4). -/
def illegalFault (src : Nat) (pc : Word) (word : Nat) : FaultInfo :=
  mkFault 0x0A10 (BitVec.ofNat 64 word) src pc.toNat word 0

/-- A level whose last instruction retires decrements, and returns or pops; a level that pops passes the retirement on
to the level around it (R407; log 50). -/
def loopEnd (last npc : Nat) : List LoopLevel → List LoopLevel × Nat
  | [] => ([], npc)
  | l :: ls =>
    if l.last = last then
      if l.count - 1 ≠ 0 then ({ l with count := l.count - 1 } :: ls, l.first) else loopEnd last npc ls
    else (l :: ls, npc)

/-- Retirement without a taken branch or jump: pc advances, RETIRED counts, the loop stack acts (R407, R410). -/
def Core.retire (x : Core) (ilen : Nat) : Core :=
  let npc := x.pc.toNat + ilen
  let r := if x.frozen then (x.loops, npc) else loopEnd (npc - 4) npc x.loops
  { x.setCsr 0x401 (x.csrOf 0x401 + 1) with pc := pcMask r.2, loops := r.1, wait := none, lines := [] }

/-- The entry end address (R416). -/
def entryEnd : Nat := 0xFFFFFFFFFFFC

/-- A target outside the body of the innermost level pops that level (R408, R410). -/
def jumpLoops (frozen : Bool) (target : Nat) : List LoopLevel → List LoopLevel
  | [] => []
  | l :: ls => if frozen || (decide (l.first ≤ target) && decide (target ≤ l.last)) then l :: ls else ls

/-- A core continues at an address; at the entry end address the entry's code ends (R417). -/
def Core.goTo (x : Core) (target : Nat) : Core :=
  { x with pc := pcMask target, wait := none, lines := [],
           run := if target = entryEnd ∧ x.entry.isSome then .ended else x.run }

/-- A core that returns from M or from a fault handler to a collective it was in goes on with it. -/
def Core.resume (x : Core) : Core :=
  match x.coll with
  | none => x
  | some k => if x.pc = k.pc then { x with wait := some .coll } else x

/-- The members of each block of the slot's job form a box: their number is that of the coordinates they use on each axis
(R199). -/
def boxes (ns : List Nat) : Bool :=
  (List.range 16).all (fun b =>
    let ms := ns.filter (fun n => decide (n / 4096 = b))
    let used := fun (a : Nat) => ((List.range 16).filter (fun v => ms.any (fun n => decide (nfld n (4 * a + 3) (4 * a) = v)))).length
    decide (ms.length = used 0 * used 1 * used 2))

/-- A core that has come, at J, to the address of a shipped program of its job's image runs it (log 129): the collective
program, or the exchange program, which raises 0x0408 where the job's members in some block form no box (R199). -/
def Dev.enterRings (d : Dev) (c : Nat) : Dev :=
  let x := d.core c
  match x.slot with
  | none => d
  | some s =>
    match tget (fun _ => none) d.xch.rings s with
    | none => d
    | some r =>
      if decide (x.run ≠ .running) || x.atM c then d
      else if x.pc.toNat = r.1 then d.setCore c { x with wait := some .coll, coll := none }
      else if x.pc.toNat = r.2 ∧ boxes (d.members s) = false then
        (d.setReg (Reg.XCH_LAST_SRC s) (BitVec.ofNat 64 (0x0408 * 65536))).raiseCore c 8 (mkFault 0x0408 x.pc c 0 0 0)
      else d

/-- A taken branch or jump. A target with a bit in [63:48] raises a fetch fault at the target (R90). -/
def Dev.jumpTo (d : Dev) (c target : Nat) : Dev :=
  let x := d.core c
  let y := { x.setCsr 0x401 (x.csrOf 0x401 + 1) with loops := jumpLoops x.frozen target x.loops }
  if target % 2 ^ 64 / 2 ^ 48 = 0 then (d.setCore c (y.goTo (target % 2 ^ 64))).enterRings c
  else
    (d.setCore c { y with pc := BitVec.ofNat 64 target, wait := none, lines := [] }).raiseCore c 1
      (memFault 0x0610 c (target % 2 ^ 64) 0 0 0)

/-- An instruction passed over: pc changes and nothing else (R80). `lines` is what the instruction in hand had waited for. -/
def Core.skip (x : Core) (ilen : Nat) : Core := { x with pc := pcMask (x.pc.toNat + ilen), lines := [] }

/-- Applies the outcome of an instruction of `ilen` bytes. -/
def Dev.finish (c ilen : Nat) : IRes → Dev
  | .done d => (d.endReads c).modCore c (fun x => x.retire ilen)
  | .jump d t => (d.endReads c).jumpTo c t
  | .stall d w => d.modCore c (fun x => { x with wait := some w, ilen := ilen })
  | .raise d cause f => (d.modCore c (fun x => { x with lines := [] })).raiseCore c cause f
  | .enter d cause r => d.modCore c (fun x => { x.enterM cause 0 with run := r, frozen := true })
  | .leave d => d
  | .go d t => (d.endReads c).modCore c (fun x => ({ x.setCsr 0x401 (x.csrOf 0x401 + 1) with frozen := false } : Core).goTo t |>.resume)

/-- What an instruction's encoding demands: its major opcode, whether it takes imm as a value (R78), whether it is BP,
JAL or JALR (R79), whether it is E only (R67), and whether its own fields are legal. -/
structure Op where
  major : Nat
  takesImm : Bool
  branch : Bool
  eOnly : Bool
  deriving DecidableEq, Repr

/-- The wide form is legal (R79). -/
def wideLegal (op : Op) (w : IW) : Bool :=
  match w.pre with
  | none => true
  | some x =>
    decide (x.pmode.toNat ≠ 3) && (op.takesImm || decide (x.ximm = 0))
      && !(op.branch && decide (x.pmode.toNat ≠ 0))

/-- The predicate of a wide form holds (Table 2-5). -/
def predHolds (x : Core) (w : IW) : Bool :=
  match w.pre with
  | none => true
  | some p =>
    match p.pmode.toNat with
    | 1 => x.getP p.psel.toNat
    | 2 => !x.getP p.psel.toNat
    | _ => true

/-- A core that takes an instruction now. -/
def Core.takes (x : Core) : Bool := decide (x.run = .running) && decide (x.wait = none)

/-- One instruction on a core: legality, profile, predicate, body (R67, R79, R80). A core that does not take instructions
is left as it is, and so is every core of a tripped device (R708). The privilege that JFRET, WFI, MRET and HALT demand is
part of their bodies: a wide form of one of them whose predicate is false is passed over at J too, where R80 leaves open
whether it is illegal (DESIGN CHOICE, log 80). -/
def Dev.instr (d : Dev) (op : Op) (legal : Bool) (w : IW) (body : Dev → Core → IRes) : Dev :=
  let c := w.core
  let x := d.core c
  if x.takes = false ∨ d.rb Reg.PWR_STATUS 31 then d
  else if !legal || !wideLegal op w || (op.eOnly && decide (32 ≤ c)) then
    Dev.finish c (ilenOf w) (.raise d 2 (illegalFault c x.pc (wordOf op.major w)))
  else if predHolds x w = false then d.modCore c (fun y => y.skip (ilenOf w))
  else Dev.finish c (ilenOf w) (body d x)

/-- A change of everything but the queue, fuses and flash. -/
def onDev (s : State) (f : Dev → Dev) : Host.Outcome State Fault Refusal := .next { s with dev := f s.dev }

/-- A command whose effect is a change of the device: refused where it is not well-formed. -/
def run (i : Instr) (f : Dev → Dev) (s : State) : Host.Outcome State Fault Refusal :=
  if i.wf then onDev s f else .refused .illFormed

/-- A host access: refused when it is not well-formed, else subject to `Dev.barAccess`. -/
def host (c : Instr) (v : Via) (sec post : Bool) (f : Dev → Dev) (s : State) : Host.Outcome State Fault Refusal :=
  run c (fun d => d.barAccess c v sec post f) s

/-! ### Operands -/

/-- g[rs1]. -/
def Core.r1 (x : Core) (w : IW) : Word := x.getG w.rs1.toNat

/-- g[rs2]. -/
def Core.r2 (x : Core) (w : IW) : Word := x.getG w.rs2.toNat

/-- g[rd]. -/
def Core.r0 (x : Core) (w : IW) : Word := x.getG w.rd.toNat

/-- Writes g[rd] and completes. -/
def doneRd (d : Dev) (w : IW) (v : Word) : IRes := .done (d.modCore w.core (fun x => x.setG w.rd.toNat v))

/-! ### Memory as a core reaches it (R93, R115, R116) -/

/-- The accessor of a core at a slot. -/
def coreWho (c s : Nat) : Who :=
  { slot := s, eng := if c < 32 then some c else none, src := c, core := some c }

/-- Device physical T1 as firmware reaches it: the bytes of the payload frames, the header region and the firmware region (R504,
R806; Table 10-11). -/
def Dev.physLimit (d : Dev) : Nat := (if d.board.memPop then 4194304 - 131072 else 2097152 - 65536) * 65536

/-- A drain to the engine store that will write within a range of it. -/
def Drain.hits (y : Drain) (off n : Nat) : Bool :=
  !y.toVec && decide (0 < y.nrows) && decide (y.obase * 64 < off + n)
    && decide (off < y.obase * 64 + (y.nrows - 1) * y.opitch * 64 + 128 * fmtBits y.ofmt / 8)

/-- Drains of an engine that have been issued and not committed. -/
def Eng.drains (x : Eng) : List Drain :=
  x.work.filterMap (fun m =>
    match m with
    | .drain y => some y
    | _ => none)

/-- The offset in the store of engine c at which a local address stands; none for another place. -/
def ownOff (c va : Nat) : Option Nat :=
  if 32 ≤ c ∨ va < 0xFFFF00000000 then none
  else
    let o := va - 0xFFFF00000000
    if 0x80000000 ≤ o then some (o - 0x80000000) else if o / 0x4000000 = c then some (o % 0x4000000) else none

/-- The local address of the map byte that a drain ORs its bits into (R381). -/
def Drain.mapVa (y : Drain) : Nat := y.amap + y.c0 / 128

/-- A drain that will OR its bits into a byte of a range of engine c's local addresses (R323, R350). -/
def Drain.mapHits (y : Drain) (c va n : Nat) : Bool :=
  y.map && ((decide (va ≤ y.mapVa) && decide (y.mapVa < va + n)) ||
    (match ownOff c va, ownOff c y.mapVa with
     | some a, some b => decide (a ≤ b) && decide (b < a + n)
     | _, _ => false))

/-- A drain of engine c will write within a range of the engine's store: rows, or its map byte. -/
def Drain.meets (y : Drain) (c off n : Nat) : Bool :=
  y.hits off n || (y.map && (match ownOff c y.mapVa with
    | some b => decide (off ≤ b) && decide (b < off + n)
    | none => false))

/-- An access by an engine's core to a range that an earlier drain will write, or whose map byte it will update (R128,
R323). -/
def Dev.drainPending (d : Dev) (c va n : Nat) : Bool :=
  decide (c < 32) && (d.engine c).drains.any (fun y =>
    y.mapHits c va n || (match ownOff c va with
      | some off => y.hits off n
      | none => false))

/-- A prefetch stream of an engine. -/
def Eng.pstream (x : Eng) (i : Nat) : Option PStream := tget (fun _ => none) x.streams i

/-- Replaces a prefetch stream. -/
def Eng.setPstream (x : Eng) (i : Nat) (p : Option PStream) : Eng :=
  { x with streams := tput (fun _ => none) x.streams i p }

/-- Passes issued and not started. -/
def Eng.passes (x : Eng) : List Pass :=
  x.work.filterMap (fun m =>
    match m with
    | .pass p => some p
    | _ => none)

/-- A pass that takes a fill of its own MLOADW. -/
def Pass.takesFill (p : Pass) : Bool := p.newW && p.gather.isNone

/-- The fewest K blocks of any pass (Tables 6-1 and 7-4). -/
def fewBlocks (pairs : Bool) : Nat := passBlocks 0x1 0x1 .a16 pairs

/-- The pass that takes the fill at the head of the queue. -/
def Eng.claimant (x : Eng) : Option Pass := x.passes.find? Pass.takesFill

/-- K blocks of a pass on a fill's weights. -/
def fillBlocks (p : Pass) (wd : WDesc) (pairs : Bool) : Nat := passBlocks p.ad.efmt wd.efmt p.fmt pairs

/-- K blocks that the fill at the head has to hold: those of the pass that takes it, before that is known the fewest of any
pass (log 52). -/
def Eng.fillNeed (x : Eng) (f : Fill) (pairs : Bool) : Nat :=
  match x.claimant with
  | some p => fillBlocks p f.wd pairs
  | none => fewBlocks pairs

/-- The weights of a fill are of form 1. -/
def Fill.pairs (f : Fill) : Bool := (f.blocks.map (fun b => decide (b.form = 1))).headD false

/-- A fill has still to read: it has not begun, or its pass needs more blocks than have been there to read (R302, R330). -/
def Eng.fillOpen (x : Eng) (f : Fill) : Bool :=
  decide (f.stage < 2) || decide (f.blocks.length < x.fillNeed f f.pairs)

/-- The end of the blocks that a fill may read: 16, the most of any pass (Table 7-4), until it knows what it needs. -/
def Eng.fillEnd (x : Eng) (f : Fill) : Nat := min f.wd.nkb (f.kb + if f.stage < 2 then 16 else x.fillNeed f f.pairs)

/-- The stream that a weight operand names: one that a TSTREAM is ending serves the reads issued before it (R405). -/
def Eng.wdStream (x : Eng) (wd : WDesc) : Option PStream :=
  match x.pstream wd.stream with
  | some p => if p.closing && !wd.ended then none else some p
  | none => none

/-- The ring that a weight operand will be read from: that of its stream, or of the one that waits to take its place. -/
def Eng.wdRing (x : Eng) (wd : WDesc) : Option PStream :=
  match x.wdStream wd with
  | some p => some p
  | none => tget (fun _ => none) x.queued wd.stream

/-- Gob slots that a fill may still read. -/
def Eng.fillSlots (x : Eng) (f : Fill) : List Nat :=
  let lo := f.kb + f.blocks.length
  let hi := x.fillEnd f
  if hi ≤ lo then []
  else
    let g0 := lo / f.wd.nb - f.kb / f.wd.nb
    let k := (hi - 1) / f.wd.nb - lo / f.wd.nb + 1
    if f.wd.viaStream then
      match x.wdRing f.wd with
      | none => []
      | some p => (List.range k).map (fun i => p.slot0 + (f.q + g0 + i) % p.slots)
    else (List.range k).map (fun i => f.wd.gslot0 + lo / f.wd.nb + i)

/-- A fill that has still to read may read within a range of the engine's store: a slot, or its codebook (R302). -/
def Eng.fillHits (x : Eng) (f : Fill) (off n : Nat) : Bool :=
  x.fillOpen f && ((x.fillSlots f).any (fun g => decide (g * 65536 < off + n) && decide (off < (g + 1) * 65536))
    || (decide (f.stage < 2) && decide (f.wd.efmt = 0xA) && decide (f.wd.cbook * 64 < off + n)
      && decide (off < f.wd.cbook * 64 + 16)))

/-- A store by an engine's core to a range that the fill of an earlier MLOADW still has to read (R128, R307). -/
def Dev.fillPending (d : Dev) (c va n : Nat) : Bool :=
  match ownOff c va with
  | none => false
  | some off => (d.engine c).fills.any (fun f => (d.engine c).fillHits f off n)

/-- Loads and stores that a core's matrix work still has to perform: drains, and fills of issued MLOADWs (R307, R323). -/
def Dev.matrixQuiet (d : Dev) (c : Nat) : Bool :=
  !decide (c < 32) || (decide ((d.engine c).drains = []) && (d.engine c).fills.all (fun f => !(d.engine c).fillOpen f))

/-- A core's addresses are physical: at M with jva = 0 (R116). -/
def Core.phys (x : Core) (c : Nat) : Bool := x.atM c && !bitAt (x.csrOf 0x800) 2

/-- A line read is an LDL of a core. -/
def LineRead.isLdl (c : Nat) (r : LineRead) : Bool :=
  match r.use with
  | .ldl k _ _ _ _ => decide (k = c)
  | _ => false

/-- Lines of a core's LDLs that are not yet in local memory. -/
def Dev.linesOut (d : Dev) (c : Nat) : Bool := d.fab.reads.any (LineRead.isLdl c) || decide ((d.core c).arrived ≠ [])

/-- An LDL of the core is still to write a line within a range, of physical or of local addresses (R128). -/
def Dev.lineDue (d : Dev) (c : Nat) (ph : Bool) (va n : Nat) : Bool :=
  let hit := fun (p : Bool) (la : Nat) => decide (p = ph) && decide (la < va + n) && decide (va < la + 128)
  d.fab.reads.any (fun r =>
    match r.use with
    | .ldl k _ la p _ => decide (k = c) && hit p la
    | _ => false) || (d.core c).arrived.any (fun l => hit l.2.2.1 l.2.1)

/-- An LDL of the core is still to write a line within a range, as the core's accesses address it (R128). -/
def Dev.linePending (d : Dev) (c va n : Nat) : Bool := d.lineDue c ((d.core c).phys c) va n

/-- An access by a core to a range waits for earlier work of the same core on it (R128, R323). -/
def Dev.accessWaits (d : Dev) (c va n : Nat) : Bool :=
  (!(d.core c).phys c && d.drainPending c va n) || d.linePending c va n

/-- A store by a core waits as any access does, and for the fills of earlier MLOADWs that read there (R307). -/
def Dev.storeWaits (d : Dev) (c va n : Nat) : Bool :=
  d.accessWaits c va n || (!(d.core c).phys c && d.fillPending c va n)

/-- A read by a core; an uncorrectable error in what firmware reads by its physical address is poisoned data (log 139). Physical at M with jva = 0, else local addresses of its slot. -/
def Dev.coreRd (d : Dev) (c va n : Nat) : MemRes :=
  let x := d.core c
  if d.accessWaits c va n then .stall d
  else if x.phys c then
    if va + n ≤ d.physLimit then
      if d.t1Bad va n then .fault (d.countUe va n) (memFault 0x0601 c va 0 0 0) else .ok (d.correct va n) (rdBytes d.mem.t1 va n)
    else .fault d (memFault 0x0610 c va 0 0 0)
  else
    match x.slot with
    | some s => d.rd (coreWho c s) va n
    | none => .fault d (memFault 0x0610 c va 0 0 0)

/-- A write to device physical memory (R806). -/
def Dev.physWr (d : Dev) (c va : Nat) (bs : List Byte) : MemRes :=
  if va + bs.length ≤ d.physLimit then .ok { d with mem := { d.mem with t1 := wrBytes d.mem.t1 va bs } } []
  else .fault d (memFault 0x0610 c va 0 0 0)

/-- A write by a core. -/
def Dev.coreWr (d : Dev) (c va : Nat) (bs : List Byte) : MemRes :=
  let x := d.core c
  if d.storeWaits c va bs.length then .stall d
  else if x.phys c then d.physWr c va bs
  else
    match x.slot with
    | some s => d.wr (coreWho c s) va bs
    | none => .fault d (memFault 0x0610 c va 0 0 0)

/-- The slot whose job an access or a post of a core carries. A core at M without a valid JOBSLOT has none, and the spec does not
say which identifier its transactions carry: slot 0's (DESIGN CHOICE, log 123). -/
def Core.slotN (x : Core) : Nat := x.slot.getD 0

/-- The cause of a memory fault: poisoned data is a unit fault (0x08), else a load or store fault. -/
def causeOf (store : Bool) (code : Nat) : Nat :=
  if code = 0x0610 ∨ code = 0x0611 then (if store then 5 else 4) else if code = 0x0612 then 3 else 8

/-- The misaligned fault. -/
def misaligned (c va : Nat) : FaultInfo := memFault 0x0612 c va 0 0 0

/-- A descriptor as an instruction reads it: 64-byte aligned, mapped, at hand (R367, R427). -/
inductive DescRes where
  | ok (d : Dev) (ws : List Nat)
  | stop (r : IRes)

/-- An access to local addresses of a core's slot on behalf of the core waits for the core's earlier work there (R128, R323). -/
def Dev.localWaits (d : Dev) (c va n : Nat) : Bool := d.drainPending c va n || d.lineDue c false va n

/-- What an instruction's unit reads from local memory, as a load of its core: local addresses of the core's slot also at M,
for R116 gives physical ones to LD, ST, LDL and STL alone. It waits as a load does (R128, R323). -/
def Dev.unitLoad (d : Dev) (c va n : Nat) : MemRes :=
  if d.localWaits c va n then .stall d
  else
    match (d.core c).slot with
    | some s => d.rd (coreWho c s) va n
    | none => .fault d (memFault 0x0610 c va 0 0 0)

/-- What an instruction's unit writes to local memory, as a store of its core, with local addresses also at M (R116); it waits
as a store does (R128, R307, R323). -/
def Dev.unitStore (d : Dev) (c va : Nat) (bs : List Byte) : MemRes :=
  if d.localWaits c va bs.length || d.fillPending c va bs.length then .stall d
  else
    match (d.core c).slot with
    | some s => d.wr (coreWho c s) va bs
    | none => .fault d (memFault 0x0610 c va 0 0 0)

/-- Reads a descriptor of `n` 64-bit words for a core's instruction, as its unit does. -/
def Dev.desc (d : Dev) (c : Nat) (a : Word) (n : Nat) : DescRes :=
  let va := a.toNat
  if va % 64 ≠ 0 then .stop (.raise d 3 (misaligned c va))
  else if 2 ^ 48 ≤ va then .stop (.raise d 4 (memFault 0x0610 c va 0 0 0))
  else
    match d.unitLoad c va (8 * n) with
    | .ok d1 bs => .ok d1 (leWords 8 n bs)
    | .fault d1 f => .stop (.raise d1 (causeOf false f.code) f)
    | .stall d1 => .stop (.stall d1 (.operand (d.core c).slotN va))

/-- A slot owns an object. -/
def Dev.owns (d : Dev) (s obj : Nat) : Bool := decide (d.owner obj = some s)

/-- A unit fault of an instruction (cause 0x08). -/
def unitRaise (d : Dev) (f : FaultInfo) : IRes := .raise d 8 f

end Sys2Proof.Machine
end

