-- ==== Sys2Proof/Machine/Flags.lean ====
section
/-! DEFINITION. Conditions of compares and the flags of the vector unit (R86, R290). -/

namespace Sys2Proof.Machine

/-- The conditions of CMP and CMPI: 0 EQ, 1 NE, 2 LT, 3 GE, 4 LTU, 5 GEU (R86). -/
def condHolds (k : Nat) (x y : Word) : Bool :=
  match k with
  | 0 => decide (x = y)
  | 1 => decide (x ≠ y)
  | 2 => decide (x.toInt < y.toInt)
  | 3 => decide (y.toInt ≤ x.toInt)
  | 4 => decide (x.toNat < y.toNat)
  | _ => decide (y.toNat ≤ x.toNat)

/-- The bits of ENG_VFLAGS that flags set. -/
def flagBits (f : Flg) : Nat :=
  b2n f.invalid + b2n f.divzero * 2 + b2n f.overflow * 4 + b2n f.underflow * 8 + b2n f.inexact * 16
    + b2n f.cvtSat * 32 + b2n f.nanz * 64

/-- Sets sticky flags of an engine's vector unit (R290). -/
def Dev.vflags (d : Dev) (e : Nat) (f : Flg) : Dev :=
  d.setRf (Reg.ENG_VFLAGS e) 6 0 (d.rf (Reg.ENG_VFLAGS e) 6 0 ||| flagBits f)

/-- Flags of a list of happenings. -/
def flagsOf (fs : List Flg) : Flg := fs.foldl Flg.or Flg.none

end Sys2Proof.Machine
end

