-- ==== Sys2Proof/Machine/Scalar.lean ====
section
/-! DEFINITION. Scalar instructions: ALU, LUH, compares, predicates, branches and jumps, CSRs (R83 to R90, R801). -/

namespace Sys2Proof.Machine

/-! ### Arithmetic of Table 2-6 -/

/-- Signed quotient toward zero; all ones for y = 0; −2^63 for −2^63 / −1 (R84). -/
def divS (x y : Word) : Word := if y = 0 then BitVec.allOnes 64 else BitVec.ofInt 64 (x.toInt.tdiv y.toInt)

/-- Unsigned quotient; all ones for y = 0 (R84). -/
def divU (x y : Word) : Word := if y = 0 then BitVec.allOnes 64 else BitVec.ofNat 64 (x.toNat / y.toNat)

/-- Signed remainder with the sign of x; x for y = 0 (R84). -/
def remS (x y : Word) : Word := if y = 0 then x else BitVec.ofInt 64 (x.toInt.tmod y.toInt)

/-- Unsigned remainder; x for y = 0 (R84). -/
def remU (x y : Word) : Word := if y = 0 then x else BitVec.ofNat 64 (x.toNat % y.toNat)

/-- Number of 1 bits. -/
def popCount (x : Word) : Nat := ((List.range 64).filter (bitAt x)).length

/-- Leading zeros; 64 for 0. -/
def leadZeros (x : Word) : Nat := if x = 0 then 64 else 63 - Nat.log2 x.toNat

/-- Trailing zeros; 64 for 0. -/
def trailZeros (x : Word) : Nat := ((List.range 64).find? (bitAt x)).getD 64

/-- Major opcode of the ALU forms. -/
def aluOp (i : Bool) : Op := { major := if i then 2 else 1, takesImm := i, branch := false, eOnly := false }

/-- The register form requires fn[10:5] = 0 (R83). -/
def aluLegal (i : Bool) (w : IW) : Bool := i || decide (fld w.fn 10 5 = 0)

/-- The second operand: g[rs2] or the immediate. -/
def aluY (x : Core) (i : Bool) (w : IW) : Word := if i then immValue w else x.r2 w

/-- An ALU instruction whose result is a function of x and y. -/
def Dev.alu (d : Dev) (i : Bool) (w : IW) (f : Word → Word → Word) : Dev :=
  d.instr (aluOp i) (aluLegal i w) w (fun d1 x => doneRd d1 w (f (x.r1 w) (aluY x i w)))

/-- ADD (R83). -/
def execAdd (i : Bool) (w : IW) (s : State) : Host.Outcome State Fault Refusal :=
  run (.add i w) (fun d => d.alu i w (fun x y => x + y)) s

/-- SUB (R83). -/
def execSub (i : Bool) (w : IW) (s : State) : Host.Outcome State Fault Refusal :=
  run (.sub i w) (fun d => d.alu i w (fun x y => x - y)) s

/-- AND (R83). -/
def execAnd (i : Bool) (w : IW) (s : State) : Host.Outcome State Fault Refusal :=
  run (.and i w) (fun d => d.alu i w (fun x y => x &&& y)) s

/-- OR (R83). -/
def execOr (i : Bool) (w : IW) (s : State) : Host.Outcome State Fault Refusal :=
  run (.or i w) (fun d => d.alu i w (fun x y => x ||| y)) s

/-- XOR (R83). -/
def execXor (i : Bool) (w : IW) (s : State) : Host.Outcome State Fault Refusal :=
  run (.xor i w) (fun d => d.alu i w (fun x y => x ^^^ y)) s

/-- SLL (R83). -/
def execSll (i : Bool) (w : IW) (s : State) : Host.Outcome State Fault Refusal :=
  run (.sll i w) (fun d => d.alu i w (fun x y => x <<< (y.toNat % 64))) s

/-- SRL (R83). -/
def execSrl (i : Bool) (w : IW) (s : State) : Host.Outcome State Fault Refusal :=
  run (.srl i w) (fun d => d.alu i w (fun x y => x >>> (y.toNat % 64))) s

/-- SRA (R83). -/
def execSra (i : Bool) (w : IW) (s : State) : Host.Outcome State Fault Refusal :=
  run (.sra i w) (fun d => d.alu i w (fun x y => x.sshiftRight (y.toNat % 64))) s

/-- MIN (R83). -/
def execMin (i : Bool) (w : IW) (s : State) : Host.Outcome State Fault Refusal :=
  run (.min i w) (fun d => d.alu i w (fun x y => if x.toInt ≤ y.toInt then x else y)) s

/-- MAX (R83). -/
def execMax (i : Bool) (w : IW) (s : State) : Host.Outcome State Fault Refusal :=
  run (.max i w) (fun d => d.alu i w (fun x y => if x.toInt ≤ y.toInt then y else x)) s

/-- MINU (R83). -/
def execMinu (i : Bool) (w : IW) (s : State) : Host.Outcome State Fault Refusal :=
  run (.minu i w) (fun d => d.alu i w (fun x y => if x.toNat ≤ y.toNat then x else y)) s

/-- MAXU (R83). -/
def execMaxu (i : Bool) (w : IW) (s : State) : Host.Outcome State Fault Refusal :=
  run (.maxu i w) (fun d => d.alu i w (fun x y => if x.toNat ≤ y.toNat then y else x)) s

/-- MUL (R83). -/
def execMul (i : Bool) (w : IW) (s : State) : Host.Outcome State Fault Refusal :=
  run (.mul i w) (fun d => d.alu i w (fun x y => x * y)) s

/-- MULH (R83). -/
def execMulh (i : Bool) (w : IW) (s : State) : Host.Outcome State Fault Refusal :=
  run (.mulh i w) (fun d => d.alu i w (fun x y => BitVec.ofInt 64 (x.toInt * y.toInt / 2 ^ 64))) s

/-- MULHU (R83). -/
def execMulhu (i : Bool) (w : IW) (s : State) : Host.Outcome State Fault Refusal :=
  run (.mulhu i w) (fun d => d.alu i w (fun x y => BitVec.ofNat 64 (x.toNat * y.toNat / 2 ^ 64))) s

/-- DIV (R83, R84). -/
def execDiv (i : Bool) (w : IW) (s : State) : Host.Outcome State Fault Refusal :=
  run (.div i w) (fun d => d.alu i w (fun x y => divS x y)) s

/-- DIVU (R83, R84). -/
def execDivu (i : Bool) (w : IW) (s : State) : Host.Outcome State Fault Refusal :=
  run (.divu i w) (fun d => d.alu i w (fun x y => divU x y)) s

/-- REM (R83, R84). -/
def execRem (i : Bool) (w : IW) (s : State) : Host.Outcome State Fault Refusal :=
  run (.rem i w) (fun d => d.alu i w (fun x y => remS x y)) s

/-- REMU (R83, R84). -/
def execRemu (i : Bool) (w : IW) (s : State) : Host.Outcome State Fault Refusal :=
  run (.remu i w) (fun d => d.alu i w (fun x y => remU x y)) s

/-- POPC (R83). -/
def execPopc (i : Bool) (w : IW) (s : State) : Host.Outcome State Fault Refusal :=
  run (.popc i w) (fun d => d.alu i w (fun x _ => BitVec.ofNat 64 (popCount x))) s

/-- CLZ (R83). -/
def execClz (i : Bool) (w : IW) (s : State) : Host.Outcome State Fault Refusal :=
  run (.clz i w) (fun d => d.alu i w (fun x _ => BitVec.ofNat 64 (leadZeros x))) s

/-- CTZ (R83). -/
def execCtz (i : Bool) (w : IW) (s : State) : Host.Outcome State Fault Refusal :=
  run (.ctz i w) (fun d => d.alu i w (fun x _ => BitVec.ofNat 64 (trailZeros x))) s

/-- A plain instruction of the C profile. -/
def cOp (major : Nat) (imm : Bool) : Op := { major := major, takesImm := imm, branch := false, eOnly := false }

/-- LUH: imm × 2^32 (R85). Rules are silent on rs1 and rs2, which are ignored (DESIGN CHOICE, log 124). -/
def execLuh (w : IW) (s : State) : Host.Outcome State Fault Refusal :=
  run (.luh w) (fun d => d.instr (cOp 0x03 true) true w (fun d1 _ => doneRd d1 w (immValue w <<< 32))) s

/-- Writes p[rd[23:21]] and completes. -/
def doneP (d : Dev) (w : IW) (b : Bool) : IRes := .done (d.modCore w.core (fun x => x.setP (fld w.rd 2 0) b))

/-- CMP: fn[10:3] and rd[25:24] are 0, the condition is 0 to 5 (R86). -/
def cmpLegal (w : IW) : Bool := decide (fld w.fn 10 3 = 0) && decide (fld w.rd 4 3 = 0) && decide (fld w.fn 2 0 ≤ 5)

/-- CMP (R86). -/
def execCmp (w : IW) (s : State) : Host.Outcome State Fault Refusal :=
  run (.cmp w) (fun d => d.instr (cOp 0x04 false) (cmpLegal w) w
    (fun d1 x => doneP d1 w (condHolds (fld w.fn 2 0) (x.r1 w) (x.r2 w)))) s

/-- CMPI: the condition is rs2[13:11]; rs2[15:14] and rd[25:24] are 0 (R86). -/
def cmpiLegal (w : IW) : Bool := decide (fld w.rs2 4 3 = 0) && decide (fld w.rd 4 3 = 0) && decide (fld w.rs2 2 0 ≤ 5)

/-- CMPI (R86). -/
def execCmpi (w : IW) (s : State) : Host.Outcome State Fault Refusal :=
  run (.cmpi w) (fun d => d.instr (cOp 0x05 true) (cmpiLegal w) w
    (fun d1 x => doneP d1 w (condHolds (fld w.rs2 2 0) (x.r1 w) (immValue w)))) s

/-- In a predicate instruction rd[25:24], rs1[20:19], rs2[15:14] and fn[10:2] are 0 (R87). -/
def predLegal (w : IW) : Bool :=
  decide (fld w.rd 4 3 = 0) && decide (fld w.rs1 4 3 = 0) && decide (fld w.rs2 4 3 = 0) && decide (fld w.fn 10 2 = 0)

/-- A predicate instruction (R87). -/
def Dev.pred (d : Dev) (w : IW) (f : Bool → Bool → Bool) : Dev :=
  d.instr (cOp 0x06 false) (predLegal w) w
    (fun d1 x => doneP d1 w (f (x.getP (fld w.rs1 2 0)) (x.getP (fld w.rs2 2 0))))

/-- PAND (R87). -/
def execPand (w : IW) (s : State) : Host.Outcome State Fault Refusal :=
  run (.pand w) (fun d => d.pred w (fun a b => a && b)) s

/-- POR (R87). -/
def execPor (w : IW) (s : State) : Host.Outcome State Fault Refusal :=
  run (.por w) (fun d => d.pred w (fun a b => a || b)) s

/-- PXOR (R87). -/
def execPxor (w : IW) (s : State) : Host.Outcome State Fault Refusal :=
  run (.pxor w) (fun d => d.pred w (fun a b => a != b)) s

/-- PANDN: first and not second (R87). -/
def execPandn (w : IW) (s : State) : Host.Outcome State Fault Refusal :=
  run (.pandn w) (fun d => d.pred w (fun a b => a && !b)) s

/-- A branch or jump. -/
def brOp (major : Nat) (imm : Bool) : Op := { major := major, takesImm := imm, branch := true, eOnly := false }

/-- The target of a relative branch or jump: pc plus the offset, modulo 2^64 (R75, R89). -/
def relTarget (pc : Word) (w : IW) : Nat := (BitVec.ofInt 64 ((pc.toNat : Int) + offset21 w)).toNat

/-- BP: branches when p[rd[23:21]] differs from rd[24]; rd[25] is 0 (R88). -/
def execBp (w : IW) (s : State) : Host.Outcome State Fault Refusal :=
  run (.bp w) (fun d => d.instr (brOp 0x08 false) (!bitAt w.rd 4) w (fun d1 x =>
    if x.getP (fld w.rd 2 0) != bitAt w.rd 3 then .jump d1 (relTarget x.pc w) else .done d1)) s

/-- The link address: pc + 4, or pc + 8 in the wide form (R89). -/
def linkOf (x : Core) (w : IW) : Word := x.pc + BitVec.ofNat 64 (ilenOf w)

/-- JAL (R89). -/
def execJal (w : IW) (s : State) : Host.Outcome State Fault Refusal :=
  run (.jal w) (fun d => d.instr (brOp 0x09 false) true w (fun d1 x =>
    .jump (d1.modCore w.core (fun y => y.setG w.rd.toNat (linkOf x w))) (relTarget x.pc w))) s

/-- JALR: g[rs1] + imm with bits [1:0] cleared; rs2 is 0 (R89). -/
def execJalr (w : IW) (s : State) : Host.Outcome State Fault Refusal :=
  run (.jalr w) (fun d => d.instr (brOp 0x0A true) (decide (w.rs2 = 0)) w (fun d1 x =>
    .jump (d1.modCore w.core (fun y => y.setG w.rd.toNat (linkOf x w))) ((x.r1 w + immValue w).toNat / 4 * 4))) s

/-! ### CSRs (R801) -/

/-- The CSR number: imm[10:0] with rs2[11] as bit 11. -/
def csrNum (w : IW) : Nat := w.fn.toNat + 2 ^ 11 * fld w.rs2 0 0

/-- A CSR instruction: g[rd] takes the value a read returns; the new value, if any, is a function of it and g[rs1]. -/
def Dev.csrOp (d : Dev) (w : IW) (f : Word → Word → Option Word) : Dev :=
  d.instr (cOp 0x11 false) (decide (fld w.rs2 4 3 = 0)) w (fun d1 x =>
    let old := d1.csrRead w.core (csrNum w)
    let d2 :=
      match f old (x.r1 w) with
      | some v => d1.csrWrite w.core (csrNum w) v
      | none => d1
    doneRd d2 w old)

/-- CSRR (R801). -/
def execCsrr (w : IW) (s : State) : Host.Outcome State Fault Refusal :=
  run (.csrr w) (fun d => d.csrOp w (fun _ _ => none)) s

/-- CSRW (R801). -/
def execCsrw (w : IW) (s : State) : Host.Outcome State Fault Refusal :=
  run (.csrw w) (fun d => d.csrOp w (fun _ v => some v)) s

/-- CSRS (R801). -/
def execCsrs (w : IW) (s : State) : Host.Outcome State Fault Refusal :=
  run (.csrs w) (fun d => d.csrOp w (fun o v => some (o ||| v))) s

/-- CSRC (R801). -/
def execCsrc (w : IW) (s : State) : Host.Outcome State Fault Refusal :=
  run (.csrc w) (fun d => d.csrOp w (fun o v => some (o &&& ~~~v))) s

end Sys2Proof.Machine
end

