-- ==== Sys2Proof/Machine/Pools.lean ====
section
/-! DEFINITION. Pool instructions and the pools' own happenings (R522 to R545, Table 8-13). -/

namespace Sys2Proof.Machine

/-- A core may name pool p: its own slot's at J; any valid one at M (R525). -/
def Dev.poolNamed (d : Dev) (c p : Nat) : Bool :=
  let x := d.core c
  if x.atM c then decide (p < 1024) && d.poolValid p else d.poolFor p x.slot

/-- The pool and buffer that an address names for a core: of its slot at J, of the device pools at M. -/
def Dev.bufNamed (d : Dev) (c a : Nat) : Option (Nat × Nat) :=
  let x := d.core c
  if x.atM c then d.findBuf none a else
    match x.slot with
    | some s => d.findBuf (some s) a
    | none => none

/-! ### BALLOC (R530) -/

/-- BALLOC: a buffer at once, 0 with try, or a wait (R530, R539, R541, R543). -/
def execBalloc (w : IW) (s : State) : Host.Outcome State Fault Refusal :=
  run (.balloc w) (fun d => d.instr (cOp 0x15 false) (decide (fld w.fn 10 3 = 0)) w (fun d1 x =>
    let p := fld (x.r1 w) 15 0
    if d1.poolNamed w.core p = false then unitRaise d1 (poolFault 0x0701 (x.r1 w) p 0 w.core)
    else
      match d1.allocNow p w.core with
      | some r => doneRd r.2 w (BitVec.ofNat 64 (r.2.bufAddr p r.1))
      | none =>
        if bitAt w.fn 2 then doneRd d1 w 0
        else
          .stall ((d1.setPool p { d1.pool p with waiters := (d1.pool p).waiters ++ [w.core] }).poolShow p)
            (.balloc w.rd.toNat p none))) s

/-- The first waiter of a pool that the level permits (R543). -/
def Dev.nextWaiter (d : Dev) (p : Nat) : Option Nat := (d.pool p).waiters.find? (d.allocPermitted p)

/-- A waiter leaves the queue of a pool. -/
def Dev.dropWaiter (d : Dev) (p r : Nat) : Dev :=
  d.setPool p { d.pool p with waiters := (d.pool p).waiters.erase r }

/-- A core whose BALLOC waits receives its buffer. -/
def Dev.ballocGot (d : Dev) (c p i : Nat) : Dev :=
  d.modCore c (fun x =>
    match x.wait with
    | some (.balloc rd _ _) => (x.setG rd (BitVec.ofNat 64 (d.bufAddr p i))).retire x.ilen
    | _ => x)

/-! ### BSHARE, BDROP, BFREE (R532 to R538) -/

/-- A pool instruction on a held buffer: 0x0702 unless the address names one (R538). -/
def bufOp (d : Dev) (w : IW) (x : Core) (k : Nat → Nat → BufRec → IRes) : IRes :=
  match d.bufNamed w.core (x.r1 w).toNat with
  | none => unitRaise d (poolFault 0x0702 (x.r1 w) 0 (x.r1 w).toNat w.core)
  | some pi =>
    let r := (d.pool pi.1).recOf pi.2
    if r.held = false ∨ r.reserved then unitRaise d (poolFault 0x0702 (x.r1 w) pi.1 (x.r1 w).toNat w.core)
    else k pi.1 pi.2 r

/-- The fault of R537. -/
def holderFault (d : Dev) (w : IW) (x : Core) (p : Nat) : IRes :=
  unitRaise d (poolFault 0x0703 (x.r1 w) p (x.r1 w).toNat w.core)

/-- A core is the releaser of a buffer that is not released. -/
def BufRec.releasedBy (r : BufRec) (c : Nat) : Bool := decide (r.releaser = c) && !r.relNode && !r.released

/-- The requester that BSHARE names may become the releaser (R537). -/
def Dev.shareTarget (d : Dev) (x : Core) (node : Bool) (n : Nat) : Bool :=
  if node then decide (n ≠ d.node) && (match x.slot with
    | some s => d.member s n
    | none => false)
  else decide (n ≤ 40) && decide ((d.core n).slot = x.slot)

/-- BSHARE (R532, R537): the named requester becomes a holder and the releaser. -/
def execBshare (w : IW) (s : State) : Host.Outcome State Fault Refusal :=
  run (.bshare w) (fun d => d.instr (cOp 0x15 false) (decide (fld w.fn 10 3 = 0)) w (fun d1 x =>
    bufOp d1 w x (fun p i r =>
      let node := bitAt w.fn 2
      let n := fld (x.r2 w) 15 0
      let h := if node then nodeCode n else n
      if !r.releasedBy w.core || !d1.shareTarget x node n
          || (decide (4 ≤ r.holders.length) && !r.holders.contains h) then holderFault d1 w x p
      else
        let r1 := { r with holders := if r.holders.contains h then r.holders else r.holders ++ [h],
                           releaser := h, relNode := node }
        .done ((d1.setPool p ((d1.pool p).setRec i r1)).poolDone p)))) s

/-- Earlier loads and stores of the core to the buffer are not all performed, so that a drop or a free of it waits (R536): the line
of an LDL, the map bits of a drain, a store whose home stands in T2. -/
def Dev.bufDue (d : Dev) (c p i : Nat) : Bool :=
  d.localWaits c (d.bufAddr p i) (d.bufSize p) || !d.gateOpen (d.storesOf c)

/-- BDROP (R533, R536). -/
def execBdrop (w : IW) (s : State) : Host.Outcome State Fault Refusal :=
  run (.bdrop w) (fun d => d.instr (cOp 0x15 false) (decide (fld w.fn 10 2 = 0)) w (fun d1 x =>
    bufOp d1 w x (fun p i r =>
      if !r.holders.contains w.core || (decide (r.releaser = w.core) && !r.relNode) then holderFault d1 w x p
      else if d1.bufDue w.core p i then .stall d1 .lines
      else
        .done ((d1.setPool p ((d1.pool p).setRec i { r with holders := r.holders.erase w.core })).bufSettle p i)))) s

/-- BFREE (R534, R536). -/
def execBfree (w : IW) (s : State) : Host.Outcome State Fault Refusal :=
  run (.bfree w) (fun d => d.instr (cOp 0x15 false) (decide (fld w.fn 10 2 = 0)) w (fun d1 x =>
    bufOp d1 w x (fun p i r =>
      if !r.releasedBy w.core then holderFault d1 w x p
      else if d1.bufDue w.core p i then .stall d1 .lines
      else .done (d1.bufRelease p i)))) s

/-! ### Pools themselves -/

/-- QUEUE_RESERVATION (R542): the queue whose turn it is reserves one buffer; none when no queue can. -/
def execQueueReservation (p : Nat) (s : State) : Host.Outcome State Fault Refusal :=
  run (.queueReservation p) (fun d =>
    match d.nextQueue p with
    | some k => d.reserveFor p k
    | none => d) s

/-- The S fields of a pool take force (R545, Table 0-6). -/
def Dev.poolCommit (d : Dev) (p : Nat) : Dev := d.commitAll [Reg.POOL_THR p, Reg.POOL_QUOTA p, Reg.POOL_ALERT p]

/-- Buffers of the other valid bitmap pools that have been made (R526). -/
def Dev.bitmapUsed (d : Dev) (but : Option Nat) : Nat :=
  ((d.cul.pools.filter (fun r => decide (some r.1 ≠ but) && d.poolValid r.1
      && decide (d.inf (Reg.POOL_CFG r.1) 6 6 = 0))).map (fun r => r.2.nbuf)).sum

/-- The geometry written for a pool is one that an init takes (R523, R526). -/
def Dev.geometryOk (d : Dev) (p : Nat) : Bool :=
  let lb := d.rf (Reg.POOL_CFG p) 12 8
  let n := d.rf (Reg.POOL_CFG p) 55 32 + 1
  let base := d.rf (Reg.POOL_BASE p) 47 0
  decide (6 ≤ lb) && decide (lb ≤ 30) && decide (base % 2 ^ min lb 16 = 0)
    && decide (base + n * 2 ^ lb ≤ 0xFFFF00000000)
    && (d.rb (Reg.POOL_CFG p) 6 || (decide (n ≤ 4096)
      && (!d.poolValid p || decide (d.bitmapUsed (some p) + n ≤ 131072))))

/-- POOL_INIT (R528): a write of 1 to POOL_CTRL.init. The pool is quiesced, so its S fields in wait take force with its
geometry (log 51). -/
def Dev.poolInit (d : Dev) (p : Nat) : Dev :=
  let x := d.pool p
  if d.poolQuiesced p && decide (x.held = 0) && decide (x.reserved = 0) && d.geometryOk p then
    let d0 := d.recRelease p
    let d1 := d0.commitAll [Reg.POOL_CFG p, Reg.POOL_BASE p, Reg.POOL_REC p]
    let d2 := d1.setPool p { d1.pool p with nbuf := d.rf (Reg.POOL_CFG p) 55 32 + 1, returned := [], fresh := 0, recs := [] }
    ((d2.recCharge p (d.rf (Reg.POOL_CFG p) 55 32 + 1)).setRb (Reg.POOL_STAT p) 35 true).poolDone p
  else d.setRb (Reg.POOL_CTRL p) 2 true

/-- POOL_INIT (R528). -/
def execPoolInit (p : Nat) (s : State) : Host.Outcome State Fault Refusal :=
  host (.poolInit p) bar0 false false (fun a => a.poolInit p) s

/-- A write of POOL_CTRL.quiesce (R545). -/
def Dev.poolQuiesce (d : Dev) (p : Nat) (q : Bool) : Dev :=
  ((if d.poolQuiesced p && d.poolValid p && !q then d.becomesBusy (.pool p) else d).setRb (Reg.POOL_CTRL p) 0 q).poolShow p

/-- POOL_QUIESCE_WRITE (R545). -/
def execPoolQuiesceWrite (p : Nat) (q : Bool) (s : State) : Host.Outcome State Fault Refusal :=
  host (.poolQuiesceWrite p q) bar0 false false (fun a => a.poolQuiesce p q) s

/-- POOL_QUIESCED (R545): a quiesced pool's S fields take force, and its level is recomputed (R540). -/
def execPoolQuiesced (p : Nat) (s : State) : Host.Outcome State Fault Refusal :=
  run (.poolQuiesced p) (fun d => if d.poolQuiesced p then (d.poolCommit p).poolDone p else d) s

end Sys2Proof.Machine
end

