-- ==== Sys2Proof/Machine/Memory.lean ====
section
/-! DEFINITION. Loads, stores, line copies and fences (R91 to R102), and what completes them when they wait. -/

namespace Sys2Proof.Machine

/-! ### LD and ST -/

/-- Access size in bytes (Table 2-7). -/
def accSize (w : IW) : Nat := 2 ^ fld w.rs2 1 0

/-- The value a load writes. -/
def loadValue (sx : Bool) (bs : List Byte) : Word :=
  if sx then sext (8 * bs.length) (leNat bs) else BitVec.ofNat 64 (leNat bs)

/-- A load's outcome from its access: the value to g[rd], the fault, or the stall. -/
def loadRes (c rd size : Nat) (sx : Bool) (slot va : Nat) : MemRes → IRes
  | .ok d bs => .done (d.modCore c (fun x => x.setG rd (loadValue sx bs)))
  | .fault d f => .raise d (causeOf false f.code) f
  | .stall d => .stall d (.load rd size sx slot va)

/-- Checks of an effective address: alignment, then bits [63:48] (R92, R122). -/
def addrCheck (d : Dev) (c : Nat) (store : Bool) (a : Word) (size : Nat) (k : Nat → IRes) : IRes :=
  if a.toNat % size ≠ 0 then .raise d 3 (misaligned c a.toNat)
  else if fld a 63 48 ≠ 0 then .raise d (if store then 5 else 4) (memFault 0x0610 c a.toNat 0 0 0)
  else k a.toNat

/-- LD (R91 to R93). -/
def execLd (w : IW) (s : State) : Host.Outcome State Fault Refusal :=
  run (.ld w) (fun d => d.instr (cOp 0x0C true) (decide (fld w.rs2 4 3 ≠ 3)) w (fun d1 x =>
    addrCheck d1 w.core false (x.r1 w + immValue w) (accSize w) (fun va =>
      loadRes w.core w.rd.toNat (accSize w) (bitAt w.rs2 2) x.slotN va (d1.coreRd w.core va (accSize w))))) s

/-- A store's outcome from its access. -/
def storeRes (size slot va : Nat) (v : Word) : MemRes → IRes
  | .ok d _ => .done d
  | .fault d f => .raise d (causeOf true f.code) f
  | .stall d => .stall d (.store size slot va v)

/-- ST (R91 to R93). -/
def execSt (w : IW) (s : State) : Host.Outcome State Fault Refusal :=
  run (.st w) (fun d => d.instr (cOp 0x0D true) (decide (fld w.rs2 4 3 ≠ 3) && !bitAt w.rs2 2) w (fun d1 x =>
    addrCheck d1 w.core true (x.r1 w + immValue w) (accSize w) (fun va =>
      storeRes (accSize w) x.slotN va (x.r0 w)
        (d1.coreWr w.core va (leBytes (accSize w) (x.r0 w).toNat))))) s

/-! ### Windows (R601 to R604) -/

/-- The window entry of a job and window number: the lowest valid one, and whether two match (R602). -/
def Dev.windowOf (d : Dev) (job win : Nat) : Option Nat × Bool :=
  let ms := (List.range 4096).filter (fun i =>
    let w := d.reg (Reg.WIN i 0)
    bitAt w 0 && decide (fld w 27 8 = job) && decide (fld w 35 28 = win))
  (ms.head?, decide (1 < ms.length))

/-- The receiver checks of Table 12-8 on an offset of a job: the slot and local address, or the reason. -/
def Dev.receiverCheck (d : Dev) (job off n : Nat) (wr : Bool) : Except Nat (Nat × Nat) :=
  match d.slotOfJob job with
  | none => .error 1
  | some s =>
    match (d.windowOf job (nfld off 47 40)).1 with
    | none => .error 2
    | some i =>
      let w0 := d.reg (Reg.WIN i 0)
      let a := d.rf (Reg.WIN i 1) 47 0 + nfld off 39 0
      if !bitAt w0 (if wr then 2 else 1) then .error 3
      else if d.rf (Reg.WIN i 2) 40 0 < nfld off 39 0 + n then .error 4
      else
        match (List.range ((a % 65536 + n + 65535) / 65536)).findSome? (fun i =>
          match d.walk s (a / 65536 + i) wr with
          | .leaf _ _ _ => none
          | .bad c _ _ => some (if c = 0x0610 then 5 else if c = 0x0611 then 6 else 7)) with
        | some r => .error r
        | none => .ok (s, a)

/-- Shows a double match (FAB_STATUS.dup_window). -/
def Dev.windowSeen (d : Dev) (job off : Nat) : Dev :=
  if (d.windowOf job (nfld off 47 40)).2 then d.setRb Reg.FAB_STATUS 3 true else d

/-- The fault code of a rejection by the receiver's checks (R605). -/
def rejectCode (reason : Nat) : Nat := if reason ≤ 4 then 0x0501 else 0x0502

/-! ### LDL and STL (R94 to R97) -/

/-- The channel of an LDL or STL (Table 2-8). -/
def lineChan (w : IW) : Nat := fld w.fn 3 0

/-- Node of a global address. -/
def gaNode (a : Word) : Nat := fld a 63 48

/-- Offset of a global address. -/
def gaOff (a : Word) : Nat := fld a 47 0

/-- The rejected flag of a slot's fabric use. -/
def Dev.rejected (d : Dev) (s : Nat) : Dev := d.setRb (Reg.FAB_SSTAT s) 0 true

/-- A local check failed (R95, R607): the fault of R605, attributed to the instruction. -/
def localReject (d : Dev) (c chan s reason : Nat) (ga : Word) : Dev :=
  (d.rejected s).asyncFault c s (fabFault (rejectCode reason) ga d.node c chan false reason 0 0)

/-- The line that an LDL or STL moves, through physical or local addresses. -/
def lineRes (slot va : Nat) (k : Dev → List Byte → IRes) : MemRes → IRes
  | .ok d bs => k d bs
  | .fault d f => .raise d (causeOf false f.code) f
  | .stall d => .stall d (.operand slot va)

/-- LDL of a line of the device's own node: a local access through its own inbound window table (R95, R607). The store to the
local line is checked first: its faults come before those of the source (R122). -/
def ldlLocal (w : IW) (s : Nat) (ga : Word) (la : Nat) (d : Dev) : IRes :=
  match d.coreWr w.core la (List.replicate 128 0#8) with
  | .fault _ f => .raise d (causeOf true f.code) f
  | .stall d1 => .stall d1 (.operand s la)
  | .ok _ _ =>
    let d1 := d.windowSeen (d.jobId s) (gaOff ga)
    match d1.receiverCheck (d1.jobId s) (gaOff ga) 128 false with
    | .error r => .done (localReject d1 w.core (lineChan w) s r ga)
    | .ok sa =>
      if d1.localWaits w.core sa.2 128 then .stall d1 (.operand s sa.2)
      else
        lineRes s sa.2 (fun d2 bs =>
          match d2.coreWr w.core la bs with
          | .ok d3 _ => .done d3
          | .fault d3 f => .raise d3 (causeOf true f.code) f
          | .stall d3 => .stall d3 (.operand s la)) (d1.rd (coreWho w.core sa.1) sa.2 128)

/-- The line of an LDL is asked for, and with aq = 1 the core waits for it (R94, R131). The store to the local line is checked
before the read is sent: its faults are synchronous and come before those of the fabric (R120, R122). -/
def ldlRemote (w : IW) (x : Core) (ga : Word) (la : Nat) (d : Dev) : IRes :=
  let c := w.core
  if d.storeWaits c la 128 ∨ d.lineRoom c = 0 then .stall d .lines
  else
    match d.coreWr c la (List.replicate 128 0#8) with
    | .fault _ f => .raise d (causeOf true f.code) f
    | _ =>
      if !d.inTopo (gaNode ga) then unitRaise d (fabFault 0x0503 ga (gaNode ga) c (lineChan w) false 0 0 0)
      else
        let t : Tx := { d.tx 0x01 0 (gaNode ga) (d.jobId x.slotN) c with chan := lineChan w }
        if d.spaceFailed t then unitRaise d (fabFault 0x0504 ga (gaNode ga) c (lineChan w) false 0 0 0)
        else
          let e := d.lineRead (d.jobId x.slotN) c (gaNode ga) (lineChan w) (gaOff ga)
            (.ldl c x.slotN la (x.phys c) (bitAt w.fn 4))
          if bitAt w.fn 4 then .stall e .acquire else .done e

/-- LDL (R94 to R97): imm[10:5] and rs2 are 0. Where both addresses are misaligned, the fault names the global one: the spec does not
say which (DESIGN CHOICE, log 140). -/
def execLdl (w : IW) (s : State) : Host.Outcome State Fault Refusal :=
  run (.ldl w) (fun d => d.instr (cOp 0x0E false) (decide (w.rs2 = 0) && decide (fld w.fn 10 5 = 0)) w (fun d1 x =>
    let ga := x.r1 w
    let la := x.r0 w
    if ga.toNat % 128 ≠ 0 ∨ la.toNat % 128 ≠ 0 then
      .raise d1 3 (misaligned w.core (if ga.toNat % 128 ≠ 0 then ga.toNat else la.toNat))
    else if fld la 63 48 ≠ 0 then .raise d1 5 (memFault 0x0610 w.core la.toNat 0 0 0)
    else if gaNode ga = d1.node then ldlLocal w x.slotN ga (va48 la) d1
    else ldlRemote w x ga (va48 la) d1)) s

/-- Sends or applies the line of an STL (R94, R95, R132); it stalls while the core has its limit of lines outstanding (R333). -/
def stlGo (c chan : Nat) (rl : Bool) (ga : Word) (s la : Nat) (d : Dev) (bs : List Byte) : IRes :=
  if gaNode ga = d.node then
    let d1 := d.windowSeen (d.jobId s) (gaOff ga)
    match d1.receiverCheck (d1.jobId s) (gaOff ga) 128 true with
    | .error r => .done (localReject d1 c chan s r ga)
    | .ok sa =>
      if d1.localWaits c sa.2 128 || d1.fillPending c sa.2 128 then .stall d1 (.operand s sa.2)
      else
        match d1.wr (coreWho c sa.1) sa.2 bs with
        | .ok d2 _ => .done d2
        | .fault d2 f => .raise d2 (causeOf true f.code) f
        | .stall d2 => .stall d2 (.operand s sa.2)
  else if !d.inTopo (gaNode ga) then unitRaise d (fabFault 0x0503 ga (gaNode ga) c chan false 0 0 0)
  else
    let t : Tx := { d.tx 0x03 0 (gaNode ga) (d.jobId s) c with
                    chan := chan, offset := gaOff ga, lenM1 := 127, payload := bs }
    if d.spaceFailed t then unitRaise d (fabFault 0x0504 ga (gaNode ga) c chan false 0 0 0)
    else if d.lineRoom c = 0 then .stall d (.stl chan rl ga.toNat s la)
    else .done (d.issue t (if rl then d.gateOf c none else []))

/-- STL's outcome from the read of its source line. A release to a line of the device itself waits for the acknowledgements of
earlier writes (R132); one that is sent carries its gate. -/
def stlRes (c chan : Nat) (rl : Bool) (ga : Word) (s va : Nat) : MemRes → IRes
  | .ok d bs =>
    if rl && decide (gaNode ga = d.node) && !d.gateOpen (d.gateOf c none) then .stall d (.stl chan rl ga.toNat s va)
    else stlGo c chan rl ga s va d bs
  | .fault d f => .raise d (causeOf false f.code) f
  | .stall d => .stall d (.stl chan rl ga.toNat s va)

/-- In STL imm[4], imm[10:6] and rs2 are 0 (R94, R97). -/
def stlLegal (w : IW) : Bool := decide (w.rs2 = 0) && decide (fld w.fn 10 6 = 0) && !bitAt w.fn 4

/-- STL (R94 to R97). Where both addresses are misaligned, the fault names the global one (DESIGN CHOICE, log 140). -/
def execStl (w : IW) (s : State) : Host.Outcome State Fault Refusal :=
  run (.stl w) (fun d => d.instr (cOp 0x0F false) (stlLegal w) w (fun d1 x =>
    let ga := x.r1 w
    let la := x.r0 w
    if ga.toNat % 128 ≠ 0 ∨ la.toNat % 128 ≠ 0 then
      .raise d1 3 (misaligned w.core (if ga.toNat % 128 ≠ 0 then ga.toNat else la.toNat))
    else if fld la 63 48 ≠ 0 then .raise d1 4 (memFault 0x0610 w.core la.toNat 0 0 0)
    else if bitAt w.fn 5 && !d1.matrixQuiet w.core then .stall d1 (.room w.core)
    else if bitAt w.fn 5 && d1.linesOut w.core then .stall d1 .lines
    else stlRes w.core (lineChan w) (bitAt w.fn 5) ga x.slotN (va48 la) (d1.coreRd w.core (va48 la) 128))) s

/-! ### Fences (R98 to R101) -/

/-- A fence's outcome: complete when every remote write it covers has been acknowledged and every line of an LDL stands in
local memory, else the core stalls. Local accesses have been performed at issue (log 42). -/
def fenceRes (d : Dev) (c : Nat) (node : Option Nat) : IRes :=
  if d.quiet c node && d.matrixQuiet c && !d.linesOut c then .done d else .stall d (.fence node)

/-- In FENCE fn, rd, rs1 and rs2 are 0 (R98, R99). -/
def fenceLegal (w : IW) : Bool := decide (w.fn = 0) && decide (w.rd = 0) && decide (w.rs1 = 0) && decide (w.rs2 = 0)

/-- FENCE (R98). -/
def execFence (w : IW) (s : State) : Host.Outcome State Fault Refusal :=
  run (.fence w) (fun d => d.instr (cOp 0x10 false) (fenceLegal w) w (fun d1 _ =>
    fenceRes d1 w.core none)) s

/-- FENCE.D: covers the node g[rs1][63:48]; rd and rs2 are 0 (R99). -/
def execFenceD (w : IW) (s : State) : Host.Outcome State Fault Refusal :=
  run (.fenceD w) (fun d => d.instr (cOp 0x10 false) (decide (w.rd = 0) && decide (w.rs2 = 0)) w (fun d1 x =>
    fenceRes d1 w.core (some (gaNode (x.r1 w))))) s

/-! ### What completes a stalled instruction -/

/-- Tries the stalled instruction of a core again: it completes, raises, or stalls on. -/
def Dev.retry (d : Dev) (c : Nat) : Dev :=
  let x := d.core c
  match x.wait with
  | some (.load rd size sx slot va) =>
    Dev.finish c x.ilen (match d.coreRd c va size with
      | .ok d1 bs => .done (d1.modCore c (fun y => y.setG rd (loadValue sx bs)))
      | .fault d1 f => .raise d1 (causeOf false f.code) f
      | .stall d1 => .stall d1 (.load rd size sx slot va))
  | some (.vload vd slot va) =>
    Dev.finish c x.ilen (match d.unitLoad c va 512 with
      | .ok d1 bs => .done (d1.modCore c (fun y => y.setLanes vd 0 ((leWords 4 128 bs).map (BitVec.ofNat 32))))
      | .fault d1 f => .raise d1 (causeOf false f.code) f
      | .stall d1 => .stall d1 (.vload vd slot va))
  | some (.store size slot va v) =>
    Dev.finish c x.ilen (storeRes size slot va v (d.coreWr c va (leBytes size v.toNat)))
  | some (.vstore vs slot va) =>
    Dev.finish c x.ilen (match d.unitStore c va ((x.lanes vs).flatMap (fun l => leBytes 4 l.toNat)) with
      | .ok d1 _ => .done d1
      | .fault d1 f => .raise d1 (causeOf true f.code) f
      | .stall d1 => .stall d1 (.vstore vs slot va))
  | some (.stl chan rl ga slot va) =>
    Dev.finish c x.ilen (stlRes c chan rl (BitVec.ofNat 64 ga) slot va (d.coreRd c va 128))
  | some (.operand _ _) => d.modCore c (fun y => { y with wait := none })
  | some .lines => d.modCore c (fun y => { y with wait := none })
  | some .acquire => Dev.finish c x.ilen (if d.linesOut c then .stall d .acquire else .done d)
  | some (.fence node) => Dev.finish c x.ilen (fenceRes d c node)
  | _ => d

/-- The cores. -/
def cores41 : List Nat := List.range 41

/-- A core's load or store waits with no line of its own on the way: for room among its remote lines (R333). -/
def Dev.wantsLines (d : Dev) (c : Nat) : Bool :=
  !d.fab.reads.any (fun r =>
    match r.use with
    | .core k _ => decide (k = c)
    | _ => false)

/-- Fences that wait may complete (R98, R99), releases held back may take effect (R132), and what waits for room among the
core's remote lines goes on (R333). -/
def Dev.retryFences (d : Dev) : Dev :=
  cores41.foldl (fun a c =>
    match (a.core c).wait with
    | some (.fence _) => a.retry c
    | some (.stl _ _ _ _ _) => a.retry c
    | some .lines => a.retry c
    | some (.load _ _ _ _ _) => if a.wantsLines c then a.retry c else a
    | some (.vload _ _ _) => if a.wantsLines c then a.retry c else a
    | some (.store _ _ _ _) => if a.wantsLines c then a.retry c else a
    | some (.vstore _ _ _) => if a.wantsLines c then a.retry c else a
    | _ => a) d

/-- A core's LDL has ended: what the core waits with may go on (R128, R131). -/
def Dev.wake (d : Dev) (c : Nat) : Dev := (d.retry c).retryFences

/-- Applies the local posts of a core whose release is met, oldest first (R132). -/
def Dev.releasePosts (d : Dev) (c : Nat) : List HeldPost → Dev
  | [] => d
  | h :: hs =>
    if d.gateOpen h.gate then
      let i := fld h.name 15 0
      let r := d.post i h.count h.err
      let d1 := if r.2 then r.1 else
        r.1.asyncFault c (d.core c).slotN (mkFault 0x0803 h.name c h.name.toNat h.count ((d.owner i).getD 0 + 16))
      d1.releasePosts c hs
    else d.releasePosts c hs |>.modCore c (fun x => { x with posts := h :: x.posts })

/-- After acknowledgements: spaces send on, stores to T2 homes are performed, releases take effect, units go on, fences
complete. -/
def Dev.afterAck (d : Dev) : Dev :=
  (cores41.foldl (fun a c =>
    let hs := (a.core c).posts
    if hs = [] then a else (a.modCore c (fun x => { x with posts := [] })).releasePosts c hs) d.pumpAll.pruneStores.runLater).retryFences

/-- Writes the line of an LDL: to a physical address, or to a local address of the slot (R94, R116). -/
def Dev.lineWrite (d : Dev) (c slot la : Nat) (phys : Bool) (bs : List Byte) : MemRes :=
  if phys then d.physWr c la bs else d.wr { coreWho c slot with core := none } la bs

/-- A line of an LDL arrives: it is written to the local address (R94). A write that must wait is tried again when the move or
the repair ends (R487, R804); one that faults, for the mapping has changed since issue, raises its fault at the core. -/
def Dev.ldlArrives (d : Dev) (c slot la : Nat) (phys : Bool) (bs : List Byte) : Dev :=
  match d.lineWrite c slot la phys bs with
  | .ok d1 _ => d1.wake c
  | .fault d1 f => (d1.asyncFault c slot f).wake c
  | .stall d1 => d1.modCore c (fun x => { x with arrived := x.arrived ++ [(slot, la, phys, bs)] })

/-- Tries again the lines of LDLs that wait at a core, oldest first. -/
def Dev.retryArrived (d : Dev) (c : Nat) : Dev :=
  let ls := (d.core c).arrived
  if ls = [] then d
  else ls.foldl (fun a l => a.ldlArrives c l.1 l.2.1 l.2.2.1 l.2.2.2) (d.modCore c (fun x => { x with arrived := [] }))

/-- After a repair, a move or an arrival for a slot: the units and cores that wait on memory try again. -/
def Dev.retryMemory (d : Dev) (slot gob : Nat) : Dev :=
  cores41.foldl (fun a0 c =>
    let a := a0.retryArrived c
    let hit := fun (s va n : Nat) => decide (s = slot) && decide (va / 65536 ≤ gob) && decide (gob ≤ (va + n) / 65536)
    match (a.core c).wait with
    | some (.load _ n _ s va) => if hit s va n then a.retry c else a
    | some (.vload _ s va) => if hit s va 511 then a.retry c else a
    | some (.store n s va _) => if hit s va n then a.retry c else a
    | some (.vstore _ s va) => if hit s va 511 then a.retry c else a
    | some (.stl _ _ _ s va) => if hit s va 127 then a.retry c else a
    | some (.operand s va) => if hit s va 65535 then a.retry c else a
    | _ => a) d.runLater

/-- A line of a far gob arrives for a core that stalls on it (R93, R485). -/
def Dev.lineArrives (d : Dev) (c va : Nat) (bs : List Byte) : Dev :=
  ((d.countLines (d.core c).slotN va 1).modCore c (fun x => { x with lines := x.lines ++ [(va / 128, bs)] })).retry c

/-- A line of a far gob will not come for a unit that waits for it: its access takes the fault. -/
def Dev.unitLineFails (d : Dev) (src s va : Nat) (f : FaultInfo) : Dev :=
  ({ d with tir := { d.tir with failed := d.tir.failed ++ [(src, s, va / 128, f)] } } : Dev).retryMemory s (va / 65536)

/-- A line of a far gob arrives for a unit that waits for it (R469, R485); what waits on the gob goes on. -/
def Dev.unitArrives (d : Dev) (src s va : Nat) (bs : List Byte) : Dev :=
  let d1 := d.countLines s va 1
  ({ d1 with tir := { d1.tir with lines := d1.tir.lines ++ [(src, s, va / 128, bs)] } } : Dev).retryMemory s (va / 65536)

end Sys2Proof.Machine
end

