-- ==== Sys2Proof/Machine/RouteTab.lean ====
section
/-! DEFINITION. Route tables: descriptors, ranges, working arrays, key ranges, and the quarantine of an expert (R139 to R147,
R186; Tables 3-1 and 3-2). -/

namespace Sys2Proof.Machine

/-- A route table descriptor (Table 3-2). -/
structure Rtd where
  kbase : Nat
  kfmt : Nat
  kdim32 : Nat
  ecount : Nat
  ebase : Nat
  k : Nat
  groups : Nat
  topg : Nat
  gmode : Nat
  sdepth : Nat
  cappol : Nat
  renorm : Bool
  qpol : Bool
  gtab : Nat
  submax : Bool
  gnorm : Bool
  laMax : Nat
  temp : W32
  rscale : W32
  kscale : W32
  bmode : Nat
  bsrc : Bool
  brate : W32
  bmax : W32
  capf : W32
  state : Nat
  laTable : Nat
  laEn : Bool
  laShift : Nat
  qfmt : Nat
  ansfmt : Nat
  outfmt : Nat
  rowlen64 : Nat
  hdim128 : Nat
  laMin : Nat
  deriving DecidableEq, Repr

/-- A 32-bit word at bits [lo + 31:lo]. -/
def f32at (w : Word) (lo : Nat) : W32 := BitVec.ofNat 32 (fld w (lo + 31) lo)

/-- The descriptor that eight words spell (Table 3-2). -/
def rtdOf (ws : List Word) : Rtd :=
  let w := fun i => ws.getD i 0
  { kbase := fld (w 0) 19 0, kfmt := fld (w 0) 23 20, kdim32 := fld (w 0) 28 24, ecount := fld (w 0) 47 32 + 1,
    ebase := fld (w 0) 63 48, k := fld (w 1) 3 0 + 1, groups := fld (w 1) 11 4 + 1, topg := fld (w 1) 19 12 + 1,
    gmode := fld (w 1) 20 20, sdepth := fld (w 1) 23 21, cappol := fld (w 1) 25 24, renorm := bitAt (w 1) 26,
    qpol := bitAt (w 1) 27, gtab := fld (w 2) 1 0, submax := bitAt (w 2) 2, gnorm := bitAt (w 2) 3,
    laMax := fld (w 2) 31 16, temp := f32at (w 2) 32, rscale := f32at (w 3) 0, kscale := f32at (w 3) 32,
    bmode := fld (w 4) 1 0, bsrc := bitAt (w 4) 2, brate := f32at (w 4) 32, bmax := f32at (w 5) 0,
    capf := f32at (w 5) 32, state := fld (w 6) 47 0, laTable := fld (w 6) 55 48, laEn := bitAt (w 6) 56,
    laShift := fld (w 6) 60 57, qfmt := fld (w 7) 3 0, ansfmt := fld (w 7) 7 4, outfmt := fld (w 7) 11 8,
    rowlen64 := fld (w 7) 31 16, hdim128 := fld (w 7) 41 32, laMin := fld (w 7) 63 48 }

/-- The words of route table rt as written. -/
def Dev.rtdWords (d : Dev) (rt : Nat) : List Word := (List.range 8).map (fun w => d.reg (Reg.RTD rt w))

/-- The words of route table rt in force (R144). -/
def Dev.rtdForce (d : Dev) (rt : Nat) : List Word :=
  (List.range 8).map (fun w => tget resetVal d.force (Reg.RTD rt w))

/-- The words of route table rt as last opened; as written for one that has not been opened. -/
def Dev.rtdKnown (d : Dev) (rt : Nat) : List Word :=
  if (d.rtdForce rt).all (fun w => decide (w = 0)) then d.rtdWords rt else d.rtdForce rt

/-- Key dimension (R148). -/
def Rtd.dim (x : Rtd) : Nat := x.kdim32 * 32

/-- Keys are FP8. -/
def Rtd.fp8 (x : Rtd) : Bool := decide (x.kfmt = 3) || decide (x.kfmt = 4)

/-- Row pitch of the key store in bytes. -/
def Rtd.keyPitch (x : Rtd) : Nat := if x.fp8 then x.kdim32 * 32 else x.kdim32 * 64

/-- First byte of the keys (R146). -/
def Rtd.keyLo (x : Rtd) : Nat := x.kbase * 32

/-- The byte after the keys. -/
def Rtd.keyHi (x : Rtd) : Nat := x.keyLo + x.ecount * x.keyPitch

/-- Bytes of the key store. -/
def keyStoreBytes : Nat := 2 ^ 25

/-! ### Ranges of a context (R139) -/

/-- The context of a slot is valid. -/
def Dev.rctxValid (d : Dev) (s : Nat) : Bool := d.rb (Reg.RCTX_CFG s) 48

/-- The slot may use route table rt. -/
def Dev.rtAllowed (d : Dev) (s rt : Nat) : Bool :=
  let b := d.rf (Reg.RCTX_CFG s) 7 0
  decide (b ≤ rt) && decide (rt ≤ b + d.rf (Reg.RCTX_CFG s) 15 8)

/-- The slot may use working-array indices lo to hi − 1. -/
def Dev.workAllowed (d : Dev) (s lo hi : Nat) : Bool :=
  let b := d.rf (Reg.RCTX_CFG s) 31 16
  decide (b ≤ lo) && decide (hi ≤ b + d.rf (Reg.RCTX_CFG s) 47 32 + 1)

/-- The checks of R145 on the descriptor alone. Table 3-2 bounds state[5:0] and la_shift too, and R145 lists no fault for them: the batch
opens and uses them as they stand (DESIGN CHOICE, log 152). -/
def Rtd.valid (x : Rtd) : Bool :=
  let n := x.ecount / x.groups
  (if x.fp8 then decide (1 ≤ x.kdim32) && decide (x.kdim32 ≤ 16) && (decide (x.qfmt = 3) || decide (x.qfmt = 4))
   else decide (x.kfmt = 1) && decide (1 ≤ x.kdim32) && decide (x.kdim32 ≤ 8) && decide (x.qfmt = 1))
    && decide (x.ecount % x.groups = 0) && decide (x.topg ≤ x.groups) && decide (x.k ≤ x.topg * n)
    && decide (x.sdepth ≤ 4) && decide (x.cappol ≠ 3) && decide (x.bmode ≠ 3) && decide (x.ansfmt ≤ 2)
    && decide (x.outfmt ≤ 2) && decide (1 ≤ x.rowlen64) && decide (1 ≤ x.hdim128)
    && decide (x.keyHi ≤ keyStoreBytes) && decide (x.ebase + x.ecount ≤ 65536)

/-- The checks of R145. -/
def Dev.rtdOk (d : Dev) (s : Nat) (x : Rtd) : Bool :=
  x.valid && d.workAllowed s x.ebase (x.ebase + x.ecount) && (!x.laEn || d.rtAllowed s x.laTable)

/-! ### Working arrays (Table 3-1) -/

/-- Word w of working-array entry e. -/
def Dev.workW (d : Dev) (e w : Nat) : Word := d.reg (Reg.WORK e w)

/-- The node field of an entry. -/
def entNode (w0 : Word) : Nat := fld w0 47 32

/-- The lexp field. -/
def entLexp (w0 : Word) : Nat := fld w0 59 48

/-- An expert is eligible: valid and not masked. -/
def entEligible (w0 : Word) : Bool := bitAt w0 60 && !bitAt w0 61

/-- The entry of expert e of a table. -/
def Dev.expertW0 (d : Dev) (x : Rtd) (e : Nat) : Word := d.workW (x.ebase + e) 0

/-- The route table is resident. -/
def Dev.isResident (d : Dev) (rt : Nat) : Bool := d.rte.resident.any (fun r => decide (r.1 = rt))

/-! ### Key ranges of open batches (R147) -/

/-- The batches of every context. -/
def Dev.allBatches (d : Dev) : List Batch := d.rte.ctx.flatMap (fun c => c.2.batches)

/-- A write into the key store from byte lo on is held: an open batch short of route close reads the range (R147), taken so also of a
batch that RSELECT scores, which reads no keys (DESIGN CHOICE, log 152). -/
def Dev.keyHeld (d : Dev) (lo n : Nat) : Bool :=
  d.allBatches.any (fun b =>
    !b.routeClosed &&
      (let x := rtdOf b.rtd
       let hit := fun (y : Rtd) => decide (lo < y.keyHi) && decide (y.keyLo < lo + n)
       hit x || (x.laEn && hit (rtdOf (d.rtdForce x.laTable)))))

/-- Writes bytes of the key store; those beyond its end are discarded. -/
def Dev.ksWrite (d : Dev) (lo : Nat) (bs : List Byte) : Dev :=
  { d with mem := { d.mem with ks := wrBytes d.mem.ks lo (bs.take (keyStoreBytes - lo)) } }

/-! ### Quarantine (R186) -/

/-- Sets the mask of an expert in its route state object and, where the table is resident, in the working arrays. -/
def Dev.maskExpert (d : Dev) (s rt expert : Nat) : Dev :=
  let x := rtdOf (d.rtdKnown rt)
  if x.ecount ≤ expert then d
  else
    let d1 := d.maskWord s (x.state + 16 * expert)
    if d1.isResident rt then d1.setRb (Reg.WORK (x.ebase + expert) 0) 61 true else d1

end Sys2Proof.Machine
end

