-- ==== Sys2Proof/Machine/RouteMath.lean ====
section
/-! DEFINITION. What the routing engine computes: scores, selection, weights, bias update, capacity, combination (R148 to
R171, R187). -/

namespace Sys2Proof.Machine

/-- FP32 sum with RNE. -/
def fadd (x y : W32) : W32 := (add32 Rnd.rne x y).1
/-- FP32 difference with RNE. -/
def fsub (x y : W32) : W32 := (sub32 Rnd.rne x y).1
/-- FP32 product with RNE. -/
def fmul (x y : W32) : W32 := (mul32 Rnd.rne x y).1
/-- FP32 quotient with RNE. -/
def fdiv (x y : W32) : W32 := (div32 Rnd.rne x y).1
/-- x ranks below y by FP32 value. -/
def flt (x y : W32) : Bool := ltVal (val32 x) (val32 y)
/-- A finite FP32 value. -/
def ffin (x : W32) : Bool := !(val32 x).nonFinite

/-! ### Scores (R150 to R152) -/

/-- The exact dot product at FP8, rounded once (R150). -/
def dotExact (xs ys : List Val) : W32 :=
  let ps := List.zipWith vmulExact xs ys
  (roundInt32 Rnd.rne false ((ps.map (fun p =>
    match p with
    | Val.fin n m e => scaledTo (-32) n m e
    | _ => 0)).sum) (-32)).1

/-- One level of the balanced tree. -/
def pairSums : List W32 → List W32
  | a :: b :: t => fadd a b :: pairSums t
  | t => t

/-- The first level: exact products enter without rounding. -/
def pairProducts : List Val → List W32
  | a :: b :: t => (fmaVal Rnd.rne a b).1 :: pairProducts t
  | _ => []

/-- The sum of the 16 products of a step (R151). -/
def stepSum (ps : List Val) : W32 := (pairSums (pairSums (pairSums (pairProducts ps)))).headD 0

/-- The sums of the steps of 16 elements each. -/
def stepSums : Nat → List Val → List W32
  | 0, _ => []
  | n + 1, ps => stepSum (ps.take 16) :: stepSums n (ps.drop 16)

/-- The dot product at BF16 (R151). -/
def dotTree (xs ys : List Val) : W32 :=
  match stepSums (xs.length / 16) (List.zipWith vmulExact xs ys) with
  | [] => 0
  | a :: t => t.foldl fadd a

/-- A dot product; a NaN or infinite input yields NaN. -/
def dotOf (fp8 : Bool) (xs ys : List Val) : W32 :=
  if xs.any Val.nonFinite || ys.any Val.nonFinite then qnan else if fp8 then dotExact xs ys else dotTree xs ys

/-- The raw score (R152). -/
def rawScore (dot qscale kscale : W32) : W32 := fmul (fmul dot qscale) kscale

/-- The n elements of a packed row. -/
def rowVals (fmt n : Nat) (row : List Byte) : List Val :=
  (List.range n).map (fun i => decodeElem fmt [] (packedElem (fmtBits fmt) row i))

/-- The key of expert e (R146). -/
def Dev.keyVals (d : Dev) (x : Rtd) (e : Nat) : List Val :=
  rowVals x.kfmt x.dim (rdBytes d.mem.ks (x.keyLo + e * x.keyPitch) x.keyPitch)

/-! ### Selection (R153 to R160) -/

/-- An expert that enters the selection of a token: index, raw score, biased score. -/
structure Cand where
  e : Nat
  raw : W32
  biased : W32
  deriving DecidableEq, Repr

/-- The candidates of a token: eligible, raw and biased scores finite (R153, R154). -/
def candidates (work : List Word) (raws : List W32) : List Cand :=
  ((List.range raws.length).map (fun e =>
    (work.getD e 0, ({ e := e, raw := raws.getD e 0, biased := fadd (raws.getD e 0) (f32at (work.getD e 0) 0) } : Cand)))).filterMap
    (fun wc => if entEligible wc.1 && ffin wc.2.raw && ffin wc.2.biased then some wc.2 else none)

/-- Inserts behind every candidate that scores at least as high (R155). -/
def rankIn (c : Cand) : List Cand → List Cand
  | [] => [c]
  | x :: xs => if flt x.biased c.biased then c :: x :: xs else x :: rankIn c xs

/-- Candidates in rank order: the lower index first among equals. -/
def ranked (cs : List Cand) : List Cand := cs.foldl (fun a c => rankIn c a) []

/-- The score of a group (R156), from its candidates in rank order. -/
def groupScore (gmode : Nat) : List Cand → Option W32
  | [] => none
  | [a] => some a.biased
  | a :: b :: _ => some (if gmode = 0 then a.biased else fadd a.biased b.biased)

/-- Inserts a group behind every group that scores at least as high. -/
def rankGroup (g : Nat × W32) : List (Nat × W32) → List (Nat × W32)
  | [] => [g]
  | x :: xs => if flt x.2 g.2 then g :: x :: xs else x :: rankGroup g xs

/-- The groups that selection keeps (R157); groups without an eligible expert rank below and add nothing. -/
def keptGroups (x : Rtd) (cs : List Cand) : List Nat :=
  let gs := x.ecount / x.groups
  let scored := (List.range x.groups).filterMap (fun g =>
    (groupScore x.gmode (cs.filter (fun c => decide (c.e / gs = g)))).map (fun s => (g, s)))
  ((scored.foldl (fun a g => rankGroup g a) []).take x.topg).map Prod.fst

/-- The selected experts in slot order, and the spill candidates (R158, R160). -/
def selectExperts (x : Rtd) (work : List Word) (raws : List W32) : List Cand × List Nat :=
  let cs := ranked (candidates work raws)
  let kept := keptGroups x cs
  let ok := cs.filter (fun c => kept.contains (c.e / (x.ecount / x.groups)))
  (ok.take x.k, ((ok.drop x.k).take x.sdepth).map Cand.e)

/-! ### Gating (R162) -/

/-- ⌊u⌋ of a finite value from 0 to below 512. -/
def floorOf : Val → Nat
  | Val.fin _ m e => if 0 ≤ e then m * 2 ^ e.toNat else m / 2 ^ (-e).toNat
  | _ => 0

/-- The gating function table at one score. -/
def Dev.gateValue (d : Dev) (x : Rtd) (m s : W32) : W32 :=
  let cfg := d.reg (Reg.GFT_CFG x.gtab)
  let y := fmul (if x.submax then fsub s m else s) x.temp
  let u := fmul (fsub y (f32at cfg 0)) (f32at cfg 32)
  let id : Nat × W32 :=
    if val32 u = Val.nan then (0, u)
    else if flt u 0 then (0, 0)
    else if !flt u (nat32 512) then (511, nat32 1)
    else (floorOf (val32 u), fsub u (nat32 (floorOf (val32 u))))
  let seg := d.reg (Reg.GFT_SEG x.gtab id.1)
  fadd (f32at seg 0) (fmul (f32at seg 32) id.2)

/-- The largest score of the filled slots. R162 does not say which zero is the largest of −0 and +0: the one in the earlier slot (DESIGN
CHOICE, log 152). -/
def largest : List W32 → W32
  | [] => 0
  | s :: ss => ss.foldl (fun a b => if flt a b then b else a) s

/-- The weights of the filled slots of a token, in slot order (R162). -/
def Dev.weightsOf (d : Dev) (x : Rtd) (ss : List W32) : List W32 :=
  let fs := ss.map (d.gateValue x (largest ss))
  if x.gnorm then
    let z := fs.foldl fadd 0
    if ffin z && flt 0 z then fs.map (fun f => fmul (fdiv f z) x.rscale)
    else fs.map (fun _ => fdiv x.rscale (nat32 ss.length))
  else fs.map (fun f => fmul f x.rscale)

/-- A slot that carries no copy (R159). -/
def SlotSel.void : SlotSel :=
  { expert := 0, node := 0, lexp := 0, score := 0, weight := 0, spilled := false, st := .void }

/-- A token after selection and gating: slots in order, void ones last; spill candidates. -/
def Dev.tokenOf (d : Dev) (x : Rtd) (work : List Word) (token : Nat) (raws : List W32) : TokSel :=
  let sel := selectExperts x work raws
  let ws := d.weightsOf x (sel.1.map Cand.raw)
  let filled := (List.zip sel.1 ws).map (fun cw =>
    ({ expert := cw.1.e, node := entNode (work.getD cw.1.e 0), lexp := entLexp (work.getD cw.1.e 0), score := cw.1.raw,
       weight := cw.2, spilled := false, st := .waiting } : SlotSel))
  { token := token, slots := filled ++ List.replicate (x.k - filled.length) SlotSel.void, cands := sel.2, out := false }

/-! ### Bias update (R165) -/

/-- The new bias of an eligible expert. -/
def newBias (x : Rtd) (target bias : W32) (count : Nat) : W32 :=
  let c := nat32 count
  let g := fsub target c
  let d :=
    if x.bmode = 1 then
      fmul x.brate (if flt 0 g then nat32 1 else if flt g 0 then neg32 (nat32 1) else if val32 g = Val.nan then g else 0)
    else fmul x.brate (fdiv g target)
  (min32 (max32 (fadd bias d) (neg32 x.bmax)).1 x.bmax).1

/-- Biases of the experts after route close, from the working-array words and the counts. -/
def biasesOf (x : Rtd) (work : List Word) (counts : List Nat) : List W32 :=
  let el := (List.range x.ecount).filter (fun e => entEligible (work.getD e 0))
  let tot := (el.map (fun e => counts.getD e 0)).sum % 2 ^ 64
  let old := fun e => f32at (work.getD e 0) 0
  if el = [] ∨ tot = 0 ∨ x.bmode = 0 then (List.range x.ecount).map old
  else
    let target := fdiv (nat32 tot) (nat32 el.length)
    (List.range x.ecount).map (fun e =>
      if entEligible (work.getD e 0) then newBias x target (old e) (counts.getD e 0) else old e)

/-! ### Capacity (R170, R171) -/

/-- ⌈v⌉ of a positive finite value. -/
def ceilOf : Val → Nat
  | Val.fin _ m e => if 0 ≤ e then m * 2 ^ e.toNat else (m + 2 ^ (-e).toNat - 1) / 2 ^ (-e).toNat
  | _ => 0

/-- The capacity of each expert (R170). -/
def capOf (x : Rtd) (tokens : Nat) : Nat :=
  let v := fdiv (fmul (nat32 (tokens * x.k)) x.capf) (nat32 x.ecount)
  match val32 v with
  | Val.nan => 65536
  | Val.inf n => if n then 1 else 65536
  | Val.fin n m e => if n ∨ m = 0 then 1 else max 1 (min 65536 (ceilOf (Val.fin n m e)))

/-- The limit of an expert in a half (R170). RPACK of H1 issued before RPACK of H0 takes nothing off the limit of H1, for no copy
of H0 has been accepted yet: the spec is silent on that order (DESIGN CHOICE, log 128). -/
def limOf (cap : Nat) (h1 : Bool) (used0 : Tab Nat) (e : Nat) : Nat :=
  if h1 then cap - tget (fun _ => 0) used0 e else (cap + 1) / 2

/-- What one slot of a token changes to. -/
def TokSel.setSlot (t : TokSel) (s : Nat) (f : SlotSel → SlotSel) : TokSel :=
  { t with slots := (List.range t.slots.length).map (fun i =>
      if i = s then f (t.slots.getD i SlotSel.void) else t.slots.getD i SlotSel.void) }

/-- The first pass at slot s over the tokens of a half: counts, and the tokens that are over. -/
def fillPass (lim : Nat → Nat) (s : Nat) : List TokSel → Tab Nat → Tab Nat × List Nat
  | [], u => (u, [])
  | t :: ts, u =>
    let x := t.slots.getD s SlotSel.void
    if x.st = .waiting then
      if tget (fun _ => 0) u x.expert < lim x.expert then
        fillPass lim s ts (tput (fun _ => 0) u x.expert (tget (fun _ => 0) u x.expert + 1))
      else
        let r := fillPass lim s ts u
        (r.1, t.token :: r.2)
    else fillPass lim s ts u

/-- All slots of the first pass: the counts, and the copies that are over in slot order. -/
def overCopies (lim : Nat → Nat) (k : Nat) (ts : List TokSel) : Tab Nat × List (Nat × Nat) :=
  (List.range k).foldl (fun a s =>
    let r := fillPass lim s ts a.1
    (r.1, a.2 ++ r.2.map (fun t => (t, s)))) ([], [])

/-- The spill candidate that takes an over copy. -/
def spillTo (lim : Nat → Nat) (u : Tab Nat) (t : TokSel) : Option Nat :=
  t.cands.find? (fun c =>
    t.slots.all (fun x => x.st = .void || decide (x.expert ≠ c)) && decide (tget (fun _ => 0) u c < lim c))

/-- Settles one over copy: spilled to a candidate, or dropped. -/
def settleOver (x : Rtd) (work : List Word) (lim : Nat → Nat) (u : Tab Nat) (ts : List TokSel) (o : Nat × Nat) :
    Tab Nat × List TokSel :=
  match ts.find? (fun t => decide (t.token = o.1)) with
  | none => (u, ts)
  | some t =>
    let put := fun (f : SlotSel → SlotSel) => ts.map (fun y => if y.token = o.1 then y.setSlot o.2 f else y)
    match (if x.cappol = 2 then spillTo lim u t else none) with
    | some c =>
      (tput (fun _ => 0) u c (tget (fun _ => 0) u c + 1),
        put (fun y => { y with expert := c, node := entNode (work.getD c 0), lexp := entLexp (work.getD c 0),
                               spilled := true }))
    | none => (u, put (fun y => { y with st := .dropped }))

/-- CAPACITY_PASS (R171) over a half: copies of each expert accepted, and the tokens after it. -/
def capacityPass (x : Rtd) (work : List Word) (tokens : Nat) (h1 : Bool) (used0 : Tab Nat) (ts : List TokSel) :
    Tab Nat × List TokSel :=
  if x.cappol = 0 then ([], ts)
  else
    let lim := limOf (capOf x tokens) h1 used0
    let r := overCopies lim x.k ts
    r.2.foldl (fun a o => settleOver x work lim a.1 a.2 o) (r.1, ts)

/-! ### Combination (R187, R188) -/

/-- The row of an answered slot. -/
def SlotSel.answer (x : SlotSel) : Option (List W32) :=
  match x.st with
  | .answered r => some r
  | _ => none

/-- The factor r of R187. -/
def renormOf (renorm : Bool) (ss : List SlotSel) : W32 :=
  let all := ss.foldl (fun a x => if x.st ≠ .void ∧ x.st ≠ .poisoned then fadd a x.weight else a) 0
  let ok := ss.foldl (fun a x => if x.answer.isSome then fadd a x.weight else a) 0
  let poison := ss.any (fun x => decide (x.st = .poisoned))
  let dropped := ss.any (fun x => decide (x.st = .dropped))
  if (poison || (renorm && dropped)) && !(val32 ok).isZero then fdiv all ok else nat32 1

/-- Element i of a token's output (R187). -/
def combineElem (ss : List SlotSel) (r : W32) (i : Nat) : W32 :=
  ss.foldl (fun a x =>
    match x.answer with
    | some row => fadd a (fmul (fmul x.weight r) (row.getD i 0))
    | none => a) 0

/-- The output row of a token, in outfmt. -/
def combineRow (x : Rtd) (ss : List SlotSel) : List Byte :=
  let r := renormOf x.renorm ss
  packElems (fmtBits x.outfmt) ((List.range (x.hdim128 * 128)).map (fun i =>
    (convertElem x.outfmt [] Rnd.rne (val32 (combineElem ss r i))).1))

end Sys2Proof.Machine
end

