-- ==== Sys2Proof/Machine/Bins.lean ====
section
/-! DEFINITION. Stage bins: their layout, the order of copies, the stages of an exchange, tags, and conversion for members
of earlier generations (R173 to R175, R199 to R215, R228, R790 to R794). -/

namespace Sys2Proof.Machine

/-! ### Copies (Table 3-5) -/

/-- A copy descriptor. -/
structure CopyDesc where
  token : Nat
  slot : Nat
  epoch : Nat
  home : Nat
  expert : Nat
  lexp : Nat
  dest : Nat
  rt : Nat
  poison : Bool
  spilled : Bool
  deriving DecidableEq, Repr

/-- The 16 bytes of a copy descriptor. -/
def CopyDesc.bytes (c : CopyDesc) : List Byte :=
  leBytes 8 (c.token + c.slot * 2 ^ 16 + c.epoch * 2 ^ 20 + c.home * 2 ^ 32 + c.expert * 2 ^ 48)
    ++ leBytes 8 (c.lexp + c.dest * 2 ^ 16 + c.rt * 2 ^ 32 + b2n c.poison * 2 ^ 40 + b2n c.spilled * 2 ^ 41)

/-- The descriptor that 16 bytes spell. -/
def copyDescOf (bs : List Byte) : CopyDesc :=
  let x := leNat (bs.take 8)
  let y := leNat (bs.drop 8)
  { token := nfld x 15 0, slot := nfld x 19 16, epoch := nfld x 31 20, home := nfld x 47 32, expert := nfld x 63 48,
    lexp := nfld y 11 0, dest := nfld y 31 16, rt := nfld y 39 32, poison := y.testBit 40, spilled := y.testBit 41 }

/-- A copy or an answer with its row. -/
structure Copy where
  desc : CopyDesc
  row : List Byte
  deriving DecidableEq, Repr

/-- The order of copies within a bin (R46, R210). -/
def CopyDesc.order (ret : Bool) (c : CopyDesc) : Nat :=
  if ret then (c.home * 2 ^ 16 + c.token) * 16 + c.slot
  else ((c.dest * 2 ^ 16 + c.expert) * 2 ^ 16 + c.home) * 2 ^ 16 + c.token

/-- Inserts behind every element whose key is at most its own: sorting with it is stable. -/
def insertBy {α : Type} (key : α → Nat) (x : α) : List α → List α
  | [] => [x]
  | y :: ys => if key x < key y then x :: y :: ys else y :: insertBy key x ys

/-- Sorts by a key, keeping the order of equals. -/
def sortBy {α : Type} (key : α → Nat) (xs : List α) : List α := xs.foldl (fun a x => insertBy key x a) []

/-! ### Layout (Tables 3-3 and 3-4) -/

/-- The header of a bin. -/
structure BinHead where
  src : Nat
  epoch : Nat
  half : Bool
  stage : Nat
  ret : Bool
  nentries : Nat
  rt : Nat
  ncopies : Nat
  rowbytes : Nat
  tag : Nat
  deriving DecidableEq, Repr

/-- The 64 bytes of a header. 65,536 entries do not fit nentries; R174 is silent there: the sum carries into rt (DESIGN CHOICE, log
152). -/
def BinHead.bytes (h : BinHead) : List Byte :=
  leBytes 8 (h.src + h.epoch * 2 ^ 16 + b2n h.half * 2 ^ 28 + h.stage * 2 ^ 29 + b2n h.ret * 2 ^ 31 + h.nentries * 2 ^ 32
      + h.rt * 2 ^ 48)
    ++ leBytes 8 (h.ncopies + h.rowbytes * 2 ^ 32) ++ leBytes 8 h.tag ++ List.replicate 40 0#8

/-- The header that 64 bytes spell. -/
def binHeadOf (bs : List Byte) : BinHead :=
  let x := leNat (bs.take 8)
  let y := leNat ((bs.drop 8).take 8)
  { src := nfld x 15 0, epoch := nfld x 27 16, half := x.testBit 28, stage := nfld x 30 29, ret := x.testBit 31,
    nentries := nfld x 47 32, rt := nfld x 55 48, ncopies := nfld y 31 0, rowbytes := nfld y 63 32,
    tag := leNat ((bs.drop 16).take 8) }

/-- An entry of a count list: node, local expert, count. -/
abbrev CountEntry := Nat × Nat × Nat

/-- Adds one copy to a count list. -/
def countCopy (c : CopyDesc) : List CountEntry → List CountEntry
  | [] => [(c.dest, c.lexp, 1)]
  | e :: es => if e.1 = c.dest ∧ e.2.1 = c.lexp then (e.1, e.2.1, e.2.2 + 1) :: es else e :: countCopy c es

/-- The count list of copies in bin order: one entry for each destination node and local expert (R211). -/
def countList (cs : List Copy) : List CountEntry := cs.foldl (fun a c => countCopy c.desc a) []

/-- The 8 bytes of a count-list entry. -/
def countBytes (e : CountEntry) : List Byte := leBytes 8 (e.1 + e.2.1 * 2 ^ 16 + e.2.2 * 2 ^ 32)

/-- The entry that a word spells. -/
def countOf (w : Nat) : CountEntry := (nfld w 15 0, nfld w 27 16, nfld w 63 32)

/-- Bytes padded with zeros to a multiple of 64. -/
def padded (bs : List Byte) : List Byte := bs ++ List.replicate (pad64 bs.length - bs.length) 0#8

/-- A bin: everything but nentries and ncopies of its header is given. -/
def binBytes (h : BinHead) (cs : List Copy) : List Byte :=
  let es := countList cs
  ({ h with nentries := es.length, ncopies := cs.length } : BinHead).bytes ++ padded (es.flatMap countBytes)
    ++ padded (cs.flatMap (fun c => c.desc.bytes)) ++ cs.flatMap Copy.row

/-- Bytes of a bin of n copies with e count-list entries. -/
def binSize (e n rowbytes : Nat) : Nat := 64 + pad64 (8 * e) + pad64 (16 * n) + n * rowbytes

/-! ### Reading bins -/

/-- What a sequence of reads answers. -/
inductive RowsRes where
  | ok (d : Dev) (rows : List (List Byte))
  | fault (d : Dev) (f : FaultInfo)
  | stall (d : Dev) (va : Nat)

/-- Reads ranges of local addresses as a unit does. -/
def Dev.rdRanges (d : Dev) (w : Who) : List (Nat × Nat) → List (List Byte) → RowsRes
  | [], acc => .ok d acc.reverse
  | (va, n) :: ps, acc =>
    match d.rd w va n with
    | .ok d1 bs => d1.rdRanges w ps (bs :: acc)
    | .fault d1 f => .fault d1 f
    | .stall d1 => .stall d1 va

/-- The ranges of n rows at a pitch. -/
def rowRanges (base pitch len n : Nat) : List (Nat × Nat) := (List.range n).map (fun i => (base + i * pitch, len))

/-- Bytes of one answer row of a route table (R213). -/
def Rtd.answerBytes (x : Rtd) : Nat := x.hdim128 * 128 * (fmtBits x.ansfmt / 8)

/-- Bytes of one output row of a route table (R392). -/
def Rtd.outBytes (x : Rtd) : Nat := x.hdim128 * 128 * (fmtBits x.outfmt / 8)

/-- Bytes of a row in a bin with a header: answers by the route table in force, else as the header states. -/
def Dev.binRow (d : Dev) (h : BinHead) : Nat := if h.ret then (rtdOf (d.rtdForce h.rt)).answerBytes else h.rowbytes

/-- The ranges of a bin's parts after its header. -/
def binParts (a : Nat) (h : BinHead) (row : Nat) : List (Nat × Nat) :=
  let o := a + 64 + pad64 (8 * h.nentries)
  [(a + 64, 8 * h.nentries), (o, 16 * h.ncopies)] ++ rowRanges (o + pad64 (16 * h.ncopies)) row row h.ncopies

/-- A bin as read. -/
structure Bin where
  head : BinHead
  counts : List CountEntry
  copies : List Copy
  deriving DecidableEq, Repr

/-- The bin that a header and its parts spell. -/
def binOf (h : BinHead) (parts : List (List Byte)) : Bin :=
  let ds := parts.getD 1 []
  { head := h, counts := (leWords 8 h.nentries (parts.getD 0 [])).map countOf,
    copies := (List.range h.ncopies).map (fun i =>
      ({ desc := copyDescOf ((ds.drop (16 * i)).take 16), row := parts.getD (i + 2) [] } : Copy)) }

/-- What reading bins answers. -/
inductive BinsRes where
  | ok (d : Dev) (bins : List Bin)
  | fault (d : Dev) (f : FaultInfo)
  | stall (d : Dev) (va : Nat)

/-- Reads bins by address. -/
def Dev.readBins (d : Dev) (w : Who) : List Nat → List Bin → BinsRes
  | [], acc => .ok d acc.reverse
  | a :: as, acc =>
    match d.rdRanges w [(a, 64)] [] with
    | .fault d1 f => .fault d1 f
    | .stall d1 va => .stall d1 va
    | .ok d1 hs =>
      let h := binHeadOf (hs.getD 0 [])
      match d1.rdRanges w (binParts a h (d1.binRow h)) [] with
      | .fault d2 f => .fault d2 f
      | .stall d2 va => .stall d2 va
      | .ok d2 ps => d2.readBins w as (binOf h ps :: acc)

/-! ### Stages (R199 to R201) -/

/-- The coordinate of a node on an axis: 0 X, 1 Y, 2 Z, 3 the block. -/
def axisCoord (axis node : Nat) : Nat := if axis = 3 then node / 4096 else coord node axis

/-- The node at another coordinate of an axis. -/
def axisNode (axis node v : Nat) : Nat := if axis = 3 then v * 4096 + node % 4096 else withCoord node axis v

/-- The stage partners of this device on an axis, itself included, by coordinate, ascending (R199, R200). -/
def Dev.ring (d : Dev) (s axis : Nat) : List Nat :=
  sortBy id (((d.members s).filter (fun n => decide (axisNode axis n (axisCoord axis d.node) = d.node))).map
    (axisCoord axis))

/-- An axis has more than one member (R201). -/
def Dev.axisUsed (d : Dev) (s axis : Nat) : Bool :=
  let ms := if axis = 3 then d.members s else (d.members s).filter (fun n => decide (n / 4096 = d.node / 4096))
  ms.any (fun n => decide (axisCoord axis n ≠ axisCoord axis d.node))

/-- The first dispatch stage of a job's exchange (R174). -/
def Dev.firstAxis (d : Dev) (s : Nat) : Option Nat := [0, 1, 2, 3].find? (d.axisUsed s)

/-- The exchange runs in direct mode: some member is of an earlier generation (R794). -/
def Dev.directMode (d : Dev) (s : Nat) : Bool := (d.members s).any (fun n => decide (d.genOf n ≠ 0))

/-- How copies are keyed into bins: by node (direct mode), by a coordinate, or all into the own bin. -/
inductive BinKey where
  | node
  | axis (a : Nat)
  | own
  deriving DecidableEq, Repr

/-- The key of a node. -/
def BinKey.of (k : BinKey) (node : Nat) : Nat :=
  match k with
  | .node => node
  | .axis a => axisCoord a node
  | .own => 0

/-- The node a bin goes to. -/
def BinKey.partner (k : BinKey) (me v : Nat) : Nat :=
  match k with
  | .node => v
  | .axis a => axisNode a me v
  | .own => me

/-- The stage field of a bin. -/
def BinKey.stage (k : BinKey) : Nat :=
  match k with
  | .axis a => a
  | _ => 0

/-- Adds a key that is not listed. -/
def addKey (ks : List Nat) (k : Nat) : List Nat := if ks.contains k then ks else ks ++ [k]

/-- The bins to write, by key ascending: one for each of the given keys, one for the device itself, and one for each
other key that a copy has. -/
def BinKey.bins (k : BinKey) (me : Nat) (keys : List Nat) (of : CopyDesc → Nat) (cs : List Copy) :
    List (Nat × List Copy) :=
  let all := (cs.map (fun c => k.of (of c.desc))).foldl addKey (addKey keys (k.of me))
  (sortBy id all).map (fun v => (v, cs.filter (fun c => decide (k.of (of c.desc) = v))))

/-! ### Tags (R228) -/

/-- The tag that a tag block gives. -/
def tagOfBlock (bs : List Byte) : Nat := leNat (shake256 8 bs)

/-- The tag block of a token exchange (Table 4-7). -/
def exchangeBlock (job epoch : Nat) (half : Bool) (stage : Nat) (ret : Bool) (count : Nat) : List Byte :=
  leBytes 4 job ++ leBytes 4 0
    ++ leBytes 8 (epoch + b2n half * 2 ^ 12 + stage * 2 ^ 13 + b2n ret * 2 ^ 15)
    ++ leBytes 4 ((0x10 + b2n ret) * 256) ++ leBytes 8 count ++ leBytes 4 0

/-! ### Conversion (R790 to R793) -/

/-- A node's profile refuses a format; the bit of FP32 is ignored. -/
def Dev.refusesFmt (d : Dev) (node fmt : Nat) : Bool := decide (fmt ≠ 0) && d.rb (Reg.DPROF node) (2 + fmt)

/-- A node's profile refuses a scale mode; the bit of mode 0 is ignored. -/
def Dev.refusesMode (d : Dev) (node m : Nat) : Bool := decide (m ≠ 0) && d.rb (Reg.DPROF node) (15 + m)

/-- The replacement chain of a format (Table 17-3). -/
def chainOf : Nat → List Nat
  | 0x7 => [0x6, 0x3, 0x1, 0x0]
  | 0x6 => [0x3, 0x1, 0x0]
  | 0x5 => [0x3, 0x1, 0x0]
  | 0x3 => [0x1, 0x0]
  | 0x4 => [0x2, 0x0]
  | 0x9 => [0x8, 0x1, 0x0]
  | 0x8 => [0x1, 0x0]
  | 0xA => [0x3, 0x1, 0x0]
  | _ => [0x0]

/-- What Marver does to the rows bound for a node. -/
inductive Conv where
  | keep
  /-- Elements replaced (R790): new format. -/
  | fmt (fmt : Nat)
  /-- Scales multiplied in (R791). -/
  | scales
  deriving DecidableEq, Repr

/-- The conversion toward a node of rows with the layout of RT_RFMT in force (R792). -/
def Dev.convOf (d : Dev) (rt node : Nat) : Conv :=
  let o := Reg.RT_RFMT rt
  if d.inf o 32 32 = 0 then .keep
  else if d.refusesMode node (d.inf o 5 4) then .scales
  else if d.refusesFmt node (d.inf o 3 0) then
    .fmt (((chainOf (d.inf o 3 0)).find? (fun c => !d.refusesFmt node c)).getD 0)
  else .keep

/-- The codebook by which Marver decodes CB4 rows: RT_RFMT names none, so that its entries are free (log 59). -/
def freeBook (n : Nat) : List Byte := leBytes 8 (Config.freeWord n).toNat ++ leBytes 8 (Config.freeWord (n + 1)).toNat

/-- A row converted, and whether an element saturated. -/
def convertRow (cv : Conv) (efmt smode n : Nat) (book : List Byte) (row : List Byte) : List Byte × Bool :=
  let w := fmtBits efmt
  match cv with
  | .keep => (row, false)
  | .fmt f =>
    let es := (List.range n).map (fun i => convertElem f [] Rnd.rne (decodeElem efmt book (packedElem w row i)))
    let sc := (row.drop (elemBytes efmt n)).take (rowBytes efmt smode n - elemBytes efmt n)
    (padded (packElems (fmtBits f) (es.map Prod.fst)
      ++ (if scaleBytes smode = 0 then [] else sc.take ((n + 31) / 32 * scaleBytes smode))), es.any (fun e => e.2.cvtSat))
  | .scales =>
    let vs := (List.range ((n + 31) / 32)).flatMap (rowBlock efmt smode book n row)
    let es := (vs.take n).map (convertElem 0 [] Rnd.rne)
    (padded (packElems 32 (es.map Prod.fst)), es.any (fun e => e.2.cvtSat))

/-- Bytes of a converted row of a route table whose dispatched rows have `raw` bytes. -/
def Dev.convBytes (d : Dev) (rt : Nat) (cv : Conv) (raw : Nat) : Nat :=
  let n := d.inf (Reg.RT_RFMT rt) 31 8
  let m := d.inf (Reg.RT_RFMT rt) 5 4
  match cv with
  | .keep => raw
  | .fmt f => pad64 (elemBytes f n + (n + 31) / 32 * scaleBytes m)
  | .scales => pad64 (4 * n)

/-- The rows of a bin converted, with the count and the flag (XGEN_CONV, XGEN_STAT). -/
def Dev.convertBin (d : Dev) (s rt node : Nat) (cs : List Copy) : Dev × List Copy :=
  let cv := d.convOf rt node
  if cv = .keep ∨ cs = [] then (d, cs)
  else
    let o := Reg.RT_RFMT rt
    let rows := cs.map (fun c => (c, convertRow cv (d.inf o 3 0) (d.inf o 5 4) (d.inf o 31 8) (freeBook d.free) c.row))
    let d1 := d.satRf (Reg.XGEN_CONV s) 31 0 cs.length
    let d2 := if rows.any (fun r => r.2.2) then d1.setRb (Reg.XGEN_STAT s) 0 true else d1
    ({ d2 with free := if d.inf o 3 0 = 0xA then d.free + 2 else d.free },
      rows.map (fun r => { r.1 with row := r.2.1 }))

end Sys2Proof.Machine
end

