-- ==== Sys2Proof/Machine/Movers.lean ====
section
/-! DEFINITION. The movers: copies into the gob cache, T1 and the key store, moves of homes, refetch and quarantine, the
window, hints, TPREF, TPIN, patrol scrub and TIR_EDIT (R472 to R518, R806 to R808). -/

namespace Sys2Proof.Machine

/-! ### Frames (R807) -/

/-- Frames of the refetch reserve. -/
def reserveFrames : Nat := 256

/-- A frame that may be handed out. -/
def Dev.frameFree (d : Dev) (f : Nat) : Bool := !d.frameUsed f && !d.frameRetired f

/-- The lowest free frame below the refetch reserve. -/
def Dev.nextFrame (d : Dev) : Option Nat :=
  (List.range (min (d.frames - reserveFrames) (d.tir.inUse.length + d.tir.retired.length + 1))).find? d.frameFree

/-- The lowest free frame of the reserve. -/
def Dev.nextReserve (d : Dev) : Option Nat :=
  ((List.range reserveFrames).map (fun i => d.frames - reserveFrames + i)).find? d.frameFree

/-- Use of a quota: t1 [21:0], gc [33:22], pin [55:34]. -/
def Dev.quotaUsed (d : Dev) (s hi lo : Nat) : Nat := d.rf (Reg.USAGE s) hi lo

/-- A quota lets the slot grow. -/
def Dev.quotaRoom (d : Dev) (s hi lo : Nat) : Bool := decide (d.quotaUsed s hi lo < d.rf (Reg.QUOTA s) hi lo)

/-- Changes a use by one. -/
def Dev.quotaAdd (d : Dev) (s hi lo : Nat) (up : Bool) : Dev :=
  d.setRf (Reg.USAGE s) hi lo (if up then d.quotaUsed s hi lo + 1 else d.quotaUsed s hi lo - 1)

/-- A quota stopped growth (TIR_SSTAT.quota_hit). -/
def Dev.quotaHit (d : Dev) (s : Nat) : Dev := d.setRb (Reg.TIR_SSTAT s) 0 true

/-- Frames of the record arrays of a slot's pools, which count against its quota (R527). -/
def Dev.recordFrames (d : Dev) (s : Nat) : Nat :=
  ((d.cul.pools.filter (fun r => decide (r.2.recSlot = some s))).map (fun r => r.2.recAt.length)).sum

/-- Keeps which frames hold a slot's tier tables. -/
def Dev.keepTables (d : Dev) (s : Nat) (fs : List Nat) : Dev :=
  { d with tir := { d.tir with tables := tput (fun _ => []) d.tir.tables s fs } }

/-- Reads a slot's tier tables and leaves into the frame map, and counts them against its T1 quota (R498, R807). -/
def Dev.mapSlot (d : Dev) (s : Nat) : Dev :=
  let fs := d.slotFrames s
  ((d.framesUse fs true).setRf (Reg.USAGE s) 21 0 (fs.length + d.recordFrames s)).keepTables s (d.tableFrames s)

/-- The frames that held a slot's tables when they were last read. -/
def Dev.tablesKept (d : Dev) (s : Nat) : List Nat := tget (fun _ => []) d.tir.tables s

/-- Reads a slot's L0 and L1 tables again (R477, R807): frames that no slot's tables name any more are free. -/
def Dev.rereadTables (d : Dev) (s : Nat) : Dev :=
  let old := d.tablesKept s
  let new := d.tableFrames s
  let gone := old.filter (fun f => !new.contains f)
  (((d.framesDrop gone).framesUse new true).setRf (Reg.USAGE s) 21 0
    (d.quotaUsed s 21 0 + new.length - old.length)).keepTables s new

/-- The T1 copies of a slot that are not pinned: access count, gob, leaf address, word 0. -/
def Dev.looseCopies (d : Dev) (s : Nat) : List (Nat × Nat × Nat × Nat) :=
  ((d.leaves s).map (fun l => (l.1, l.2, d.t1w l.2))).filterMap (fun l =>
    if l.2.2.testBit 9 && !l.2.2.testBit 7 then some (nfld l.2.2 63 48, l.1, l.2.1, l.2.2) else none)

/-- The copy that R500 drops: lowest acnt, lowest local address among equals. -/
def lowestCopy : List (Nat × Nat × Nat × Nat) → Option (Nat × Nat × Nat × Nat)
  | [] => none
  | x :: xs =>
    match lowestCopy xs with
    | none => some x
    | some y => if y.1 < x.1 then some y else some x

/-- Room for one more T1 frame of a slot (R500): within the quota, else by dropping a copy of its own. -/
def Dev.makeRoom (d : Dev) (s : Nat) : Option Dev :=
  if d.quotaRoom s 21 0 then some d
  else
    match lowestCopy (d.looseCopies s) with
    | some x => some (d.t1Drop s x.2.2.1 x.2.2.2)
    | none => none

/-- A T1 frame for a copy or a move (R500, R807): it is in use and counted from now on. -/
def Dev.takeFrame (d : Dev) (s : Nat) : Option (Nat × Dev) :=
  match d.makeRoom s with
  | none => none
  | some d1 => d1.nextFrame.map (fun f => (f, (d1.frameUse f true).quotaAdd s 21 0 true))

/-! ### The gob cache (R498, R501, R502) -/

/-- Least recently used among entries (k, used). -/
def lruOf : List (Nat × Nat) → Option Nat
  | [] => none
  | x :: xs =>
    match xs.foldl (fun a y => if y.2 < a.2 then y else a) x with
    | y => some y.1

/-- The entries of a set that may be replaced: none pinned, of one slot when asked. -/
def Dev.gcLoose (d : Dev) (s gob : Nat) (own : Bool) : List (Nat × Nat) :=
  ((List.range 16).map (fun w => gcSet s gob * 16 + w)).filterMap (fun k =>
    match d.gcEntry k with
    | some x => if !x.pinned && (!own || decide (x.slot = s)) then some (k, x.used) else none
    | none => none)

/-- The entry that a fill takes (R502): none when it cannot be made. -/
def Dev.gcVictim (d : Dev) (s gob : Nat) : Option Nat :=
  if d.quotaRoom s 33 22 then
    match ((List.range 16).map (fun w => gcSet s gob * 16 + w)).find? (fun k => (d.gcEntry k).isNone) with
    | some k => some k
    | none => lruOf (d.gcLoose s gob false)
  else lruOf (d.gcLoose s gob true)

/-- Sets or clears the cached bit of a gob's leaf. -/
def Dev.setCached (d : Dev) (s gob : Nat) (b : Bool) : Dev :=
  match d.leafAddr s gob with
  | .ok a => d.setLeaf0 a (nset (d.t1w a) 8 8 (b2n b))
  | .error _ => d

/-- Empties an entry. -/
def Dev.gcEmpty (d : Dev) (k : Nat) : Dev :=
  match d.gcEntry k with
  | none => d
  | some x => (d.gcDrop x.slot x.gob).setCached x.slot x.gob false

/-- A fill of the gob cache: payload, and the header in the entry's tag (R480). -/
def Dev.gcFill (d : Dev) (s gob : Nat) (bs hd : List Byte) : Option Dev :=
  match d.gcFind s gob with
  | some _ => some d
  | none =>
    (d.gcVictim s gob).map (fun k =>
      let d1 := d.gcEmpty k
      let d2 := ((d1.setGc k (some { slot := s, gob := gob, pinned := false, used := 0, hdr := hd })).gcUse k).quotaAdd s 33 22 true
      ({ d2 with mem := { d2.mem with gc := wrBytes d2.mem.gc (k * 65536) bs } }).setCached s gob true)

/-! ### Headers -/

/-- Writes the header slot of a frame. -/
def Dev.putHeader (d : Dev) (f : Nat) (hd : List Byte) : Dev :=
  { d with mem := { d.mem with t1 := wrBytes d.mem.t1 (d.frames * 65536 + 64 * f) hd } }

/-- A header's crc does not verify over a payload that it covers (R481). -/
def crcBad (hd bs : List Byte) : Bool :=
  (leNat (hd.take 8)).testBit 12 && decide (leNat ((hd.drop 16).take 8) ≠ crc64xz bs)

/-! ### Objects -/

/-- The object that holds a gob, by its leaf. -/
def Dev.objOfGob (d : Dev) (s gob : Nat) : Option (Nat × ObjDesc) :=
  match d.leafAddr s gob with
  | .error _ => none
  | .ok a => (d.obj s (leafObj (d.t1w a))).map (fun x => (leafObj (d.t1w a), x))

/-- The first gob of an object. -/
def ObjDesc.gob0 (x : ObjDesc) : Nat := x.base / 65536

/-- Where a keys object's gob goes in the key store. -/
def ObjDesc.keyAddr (x : ObjDesc) (gob : Nat) : Nat := x.kaddr * 32 + (gob - x.gob0) * 65536

/-! ### What a mover has in hand -/

/-- The work in hand with an identifier. -/
def Dev.moveInHand (d : Dev) (k : Nat) : Option MoveReq := d.tir.busy.find? (fun r => decide (r.id = k))

/-- TIR_STATUS.busy. -/
def Dev.showMovers (d : Dev) : Dev := d.setRf Reg.TIR_STATUS 4 0 d.tir.busy.length

/-- Replaces the work in hand. -/
def Dev.setMove (d : Dev) (r : MoveReq) : Dev :=
  { d with tir := { d.tir with busy := d.tir.busy.map (fun (x : MoveReq) => if x.id = r.id then r else x) } }

/-- A mover is free again. -/
def Dev.endMove (d : Dev) (k : Nat) : Dev :=
  ({ d with
     tir := { d.tir with busy := d.tir.busy.filter (fun (r : MoveReq) => decide (r.id ≠ k)) },
     fab := { d.fab with reads := d.fab.reads.filter (fun (r : LineRead) =>
       match r.use with
       | .mover m _ => decide (m ≠ k)
       | _ => true) } } : Dev).showMovers

/-- The streams of an engine, or one of them, give up what the movers were to read for them. -/
def Dev.dropRing (d : Dev) (e : Nat) (i : Option Nat) : Dev :=
  let hit := fun (r : MoveReq) =>
    match r.dest with
    | .ring e1 i1 _ => decide (e1 = e) && decide (i1 = i.getD i1)
    | _ => false
  let d1 := (d.tir.busy.filter hit).foldl (fun a r => a.endMove r.id) d
  { d1 with tir := { d1.tir with queue := d1.tir.queue.filter (fun r => !hit r) } }

/-- The core number that a mover's transactions carry. -/
def moverCore : Nat := 56

/-- Asks for line i of a far gob: global address in T2, host address in T3. -/
def Dev.moverLine (d : Dev) (k s i : Nat) (host : Bool) (addr : Nat) : Dev :=
  if host then d.hostRead (d.jobId s) moverCore addr (.mover k i)
  else d.lineRead (d.jobId s) moverCore (nfld addr 63 48) 0 (nfld addr 47 0) (.mover k i)

/-! ### TPIN (R497) -/

/-- The status word of Table 10-9. -/
def pinStatus (done : Nat) (quota full policy : Bool) : Word :=
  BitVec.ofNat 64 (done % 2 ^ 32 + b2n quota * 2 ^ 32 + b2n full * 2 ^ 33 + b2n policy * 2 ^ 34)

/-- What TPIN finds at one gob. -/
inductive PinRes where
  | next (d : Dev)
  | stop (d : Dev) (quota full policy : Bool)
  | wait (d : Dev)
  | fault (d : Dev) (f : FaultInfo)

/-- Pins in a set of the gob cache. -/
def Dev.setPins (d : Dev) (s gob : Nat) : Nat :=
  ((List.range 16).filter (fun w =>
    match d.gcEntry (gcSet s gob * 16 + w) with
    | some x => x.pinned
    | none => false)).length

/-- A pin within the pin quota. -/
def Dev.pinCount (d : Dev) (s : Nat) (k : Dev → Dev) : PinRes :=
  if d.quotaRoom s 55 34 then .next (k (d.quotaAdd s 55 34 true)) else .stop (d.quotaHit s) true false false

/-- Asks for a copy that TPIN waits for. -/
def Dev.askPin (d : Dev) (s gob : Nat) (dest : MoveDest) : Dev :=
  let d1 := d.askMove .tpref s gob dest
  { d1 with tir := { d1.tir with queue := d1.tir.queue.map (fun (r : MoveReq) =>
      if decide (r.kind = .tpref) && decide (r.slot = s) && decide (r.gob = gob) && decide (r.dest = dest) then
        { r with replica := 1 } else r) } }

/-- Tier 0 of TPIN at one gob: a pinned gob-cache copy, or for a keys object a copy in the key store. -/
def Dev.pinCache (d : Dev) (s gob : Nat) (x : ObjDesc) (copied : Bool) : PinRes :=
  if x.kind = 2 then
    if copied then .next d else .wait (d.askPin s gob (.keyStore (x.keyAddr gob)))
  else
    match d.gcFind s gob with
    | some k =>
      (match d.gcEntry k with
       | some y =>
         if y.pinned then .next d
         else if 12 ≤ d.setPins s gob then .stop d false true false
         else d.pinCount s (fun a => a.setGc k (some { y with pinned := true }))
       | none => .next d)
    | none =>
      if 12 ≤ d.setPins s gob then .stop d false true false
      else if !d.quotaRoom s 55 34 || (d.gcVictim s gob).isNone then .stop (d.quotaHit s) true false false
      else .wait (d.askPin s gob .gobCache)

/-- Tier 1 of TPIN at one gob: its T1 home or T1 copy. -/
def Dev.pinT1 (d : Dev) (s gob a w0 : Nat) (x : ObjDesc) : PinRes :=
  if leafTier w0 = 1 ∨ w0.testBit 9 then
    if w0.testBit 7 then .next d else d.pinCount s (fun b => b.setLeaf0 a (nset w0 7 7 1))
  else if x.policy = 0 then .stop d false false true
  else if !d.quotaRoom s 55 34 || (d.makeRoom s).isNone then .stop (d.quotaHit s) true false false
  else .wait (d.askPin s gob .t1copy)

/-- Clears the pin of one gob. -/
def Dev.unpin (d : Dev) (s gob tier a w0 : Nat) : Dev :=
  if tier = 0 then
    match d.gcFind s gob with
    | some k =>
      (match d.gcEntry k with
       | some y => if y.pinned then (d.setGc k (some { y with pinned := false })).quotaAdd s 55 34 false else d
       | none => d)
    | none => d
  else if w0.testBit 7 then (d.setLeaf0 a (nset w0 7 7 0)).quotaAdd s 55 34 false
  else d

/-- TPIN at one gob: walk, descriptor (R488), poison (R512, R513), then the pin. The walk is not made for an address of the
engine-store window (R471); a gob of an engine store of the slot is in place, with nothing to pin (log 141). -/
def Dev.pinGob (d : Dev) (c s gob tier : Nat) (clear copied : Bool) : PinRes :=
  if 0xFFFF0000 ≤ gob then
    match d.window (unitWho s c) (gob * 65536) with
    | .ok _ => .next d
    | .error code => .fault d (memFault code c (gob * 65536) 0 0 0)
  else
  match d.walk s gob false with
  | .bad code w0 w1 => .fault d (memFault code c (gob * 65536) (leafObj w0) w0 w1)
  | .leaf a w0 w1 =>
    if clear then .next (d.unpin s gob tier a w0)
    else
      match d.obj s (leafObj w0) with
      | none => .fault d (memFault 0x0605 c (gob * 65536) (leafObj w0) w0 w1)
      | some x =>
        if w0.testBit 5 then
          if x.kind = 0 then .fault d (memFault 0x0601 c (gob * 65536) (leafObj w0) w0 w1)
          else if d.declared s gob then .next d
          else .wait (d.askMove .refetch s gob .gobCache)
        else if tier = 0 then d.pinCache s gob x copied
        else d.pinT1 s gob a w0 x

/-- TPIN from gob `gob + done` on; `copied` says that the key-store copy of that gob has just been made. -/
def Dev.tpinRun (c s rd gob n tier : Nat) (clear : Bool) : Nat → Bool → Nat → Dev → IRes
  | 0, _, done, d => .stall d (.tpin rd gob n tier done (b2n clear))
  | fuel + 1, copied, done, d =>
    if n ≤ done then .done (d.modCore c (fun x => x.setG rd (pinStatus done false false false)))
    else
      match d.pinGob c s (gob + done) tier clear copied with
      | .next d1 => Dev.tpinRun c s rd gob n tier clear fuel false (done + 1) d1
      | .stop d1 q f p => .done (d1.modCore c (fun x => x.setG rd (pinStatus done q f p)))
      | .wait d1 => .stall d1 (.tpin rd gob n tier done (b2n clear))
      | .fault d1 f => .raise d1 (causeOf false f.code) f

/-- TPIN (R497): the core stalls until every gob it handles is in place. -/
def execTpin (w : IW) (s : State) : Host.Outcome State Fault Refusal :=
  run (.tpin w) (fun d => d.instr (cOp 0x2C false) (decide (fld w.fn 10 5 = 0)) w (fun d1 x =>
    let tier := fld w.fn 3 2
    let va := (x.r1 w).toNat
    let n := fld (x.r2 w) 31 0
    if 2 ^ 48 ≤ va then .raise d1 4 (memFault 0x0610 w.core va 0 0 0)
    else if 2 ≤ tier then unitRaise d1 (memFault 0x0606 w.core va 0 0 0)
    else Dev.tpinRun w.core x.slotN w.rd.toNat (va / 65536) n tier (bitAt w.fn 4) (n + 1) false 0 d1)) s

/-- A TPIN that waits goes on after a copy of its slot. -/
def Dev.tpinOn (d : Dev) (s gob : Nat) (keys : Bool) : Dev :=
  cores41.foldl (fun a c =>
    match (a.core c).wait with
    | some (.tpin rd g n tier done flags) =>
      if (a.core c).slotN = s ∧ g + done = gob then
        Dev.finish c (a.core c).ilen (Dev.tpinRun c s rd g n tier (decide (flags = 1)) (n + 1) keys done a)
      else a
    | _ => a) d

/-- After a repair, a move, or a change of a gob's leaf: whatever waits on the gob tries again, a TPIN among it (R497, R513). -/
def Dev.resumeGob (d : Dev) (s gob : Nat) : Dev := (d.retryMemory s gob).tpinOn s gob false

/-- The words of a gob's leaf as it stands; zeros where the walk finds none. -/
def Dev.leafWords (d : Dev) (s gob : Nat) : Nat × Nat :=
  match d.leafAddr s gob with
  | .ok a => (d.t1w a, d.t1w (a + 8))
  | .error _ => (0, 0)

/-! ### Refetch (R514 to R516) -/

/-- An entry of a replica list (R483): payload address, header array, host. -/
def Dev.replica (d : Dev) (x : ObjDesc) (i : Nat) : Nat × Nat × Bool :=
  let a := x.rlist + 32 * i
  (d.t1w a, d.t1w (a + 8), (d.t1w (a + 16)).testBit 0)

/-- Starts the read of replica i: its header line first. -/
def Dev.readReplica (d : Dev) (r : MoveReq) (x : ObjDesc) (i : Nat) : Dev :=
  let p := d.replica x i
  let h := p.2.1 + 64 * (r.gob - x.gob0)
  (d.setMove { r with replica := i, since := d.now, waitFrame := false, buf := [], hdr := [] }).moverLine r.id r.slot 512
    p.2.2 (h / 128 * 128)

/-- The core of R516: enters the object in the quarantine list, where it may stand already, and tells the members. -/
def Dev.quarantineObj (d : Dev) (s o : Nat) (x : ObjDesc) : Dev :=
  let q := (tget (fun _ => []) d.tir.quar s).filter (fun y => decide (y ≠ o))
  let d1 : Dev := { d with tir := { d.tir with quar := tput (fun _ => []) d.tir.quar s (q ++ [o]) } }
  let d2 := (d1.setReg (Reg.QUAR_LAST s) (BitVec.ofNat 64 (o + x.rt * 2 ^ 16 + x.expert * 2 ^ 24))).setReg
    (Reg.QUAR_COUNT s) (BitVec.ofNat 64 (q.length + 1))
  let d3 := (d2.setRb (Reg.TIR_SSTAT s) 3 true).maskExpert s x.rt x.expert
  ((d3.members s).filter (fun n => decide (n ≠ d3.node))).foldl (fun a n =>
    if a.genOf n = 0 then
      a.issue { a.tx 0x0B 0 n (a.jobId s) moverCore with offset := x.rt + x.expert * 2 ^ 8 } []
    else a.satRf (Reg.XGEN_SKIP s) 63 32 1) d3

/-- GOB_UNRECOVERABLE (R516): one record for each gob that is declared. -/
def Dev.unrecoverable (d : Dev) (r : MoveReq) (o : Nat) (x : ObjDesc) : Dev :=
  let w := d.leafWords r.slot r.gob
  let f := fun c => memFault c 56 (r.gob * 65536) o w.1 w.2
  let q := tget (fun _ => []) d.tir.quar r.slot
  let d0 := d.endMove r.id
  if decide (x.kind = 1) && x.rtEn && !(rtdOf (d.rtdKnown x.rt)).qpol && (q.contains o || decide (q.length < 256)) then
    (((d0.unitFault r.slot (f 0x0604)).quarantineObj r.slot o x).declare r.slot r.gob true).resumeGob r.slot r.gob
  else d0.unitFault r.slot (f 0x0603)

/-- Goes on with the next replica from i, or gives up. -/
def Dev.nextReplica (d : Dev) (r : MoveReq) (i : Nat) : Dev :=
  match d.objOfGob r.slot r.gob with
  | none => d.endMove r.id
  | some ox => if i < ox.2.nrep then d.readReplica r ox.2 i else d.unrecoverable r ox.1 ox.2

/-- A replica's header names the gob and its version, and its crc covers the payload read (R514). -/
def replicaOk (hd bs : List Byte) (idx version : Nat) : Bool :=
  decide (nfld (leNat (hd.take 8)) 63 32 = idx) && decide (leNat ((hd.drop 8).take 8) = version)
    && (leNat (hd.take 8)).testBit 12 && decide (leNat ((hd.drop 16).take 8) = crc64xz bs)

/-- The repair: the payload goes to frame f, and the leaf names it in one update. -/
def Dev.repairTo (d : Dev) (r : MoveReq) (a f : Nat) : Dev :=
  let w0 := d.t1w a
  let w1 := d.t1w (a + 8)
  let old := if leafTier w0 = 1 then some (nfld w1 21 0) else none
  let d1 : Dev := { d with mem := { d.mem with t1 := wrBytes d.mem.t1 (f * 65536) r.buf } }
  let d2 := (d1.putHeader f r.hdr).frameUse f true
  let d3 := d2.setLeaf a (nset (nset w0 4 3 1) 5 5 0) f
  let d4 := match old with
    | some g => d3.frameUse g false
    | none => d3.quotaAdd r.slot 21 0 true
  let d5 := (d4.satRf (Reg.REFETCHES r.slot) 31 0 1).setRb (Reg.TIR_SSTAT r.slot) 2 true
  (d5.endMove r.id).resumeGob r.slot r.gob

/-- A verified replica takes a frame within the slot's quota, else of the reserve, else waits (R514). -/
def Dev.repairFrame (d : Dev) (r : MoveReq) : Dev :=
  match d.leafAddr r.slot r.gob with
  | .error _ => d.endMove r.id
  | .ok a =>
    match (if d.quotaRoom r.slot 21 0 then d.nextFrame else none) with
    | some f => d.repairTo r a f
    | none =>
      match d.nextReserve with
      | some f => (d.repairTo r a f).setRb Reg.TIR_STATUS 5 true
      | none =>
        if r.waitFrame then d
        else (d.setMove { r with waitFrame := true, since := d.now }).quotaHit r.slot

/-- Repairs that wait for a frame try again. -/
def Dev.retryRepairs (d : Dev) : Dev :=
  d.tir.busy.foldl (fun a r => if r.waitFrame then a.repairFrame r else a) d

/-- All of a replica stands here: it is checked (R514). -/
def Dev.replicaRead (d : Dev) (r : MoveReq) : Dev :=
  match d.objOfGob r.slot r.gob, d.leafAddr r.slot r.gob with
  | some ox, .ok a =>
    let v := match d.gobHeader r.slot r.gob (d.t1w a) (d.t1w (a + 8)) with
      | some hd => leNat ((hd.drop 8).take 8)
      | none => 0
    if replicaOk r.hdr r.buf (r.gob - ox.2.gob0) v then d.repairFrame r else d.nextReplica r (r.replica + 1)
  | _, _ => d.endMove r.id

/-! ### Lines that arrive for a mover -/

/-- The copy that a read of a gob is served from (R486): payload and header. -/
def Dev.nearCopy (d : Dev) (s gob w0 w1 : Nat) : Option (List Byte × List Byte) :=
  match d.gcFind s gob with
  | some k => some (rdBytes d.mem.gc (k * 65536) 65536, ((d.gcEntry k).map GcEntry.hdr).getD [])
  | none =>
    if w0.testBit 9 then some (rdBytes d.mem.t1 (nfld w0 31 10 * 65536) 65536, (d.gobHeader s gob w0 w1).getD []) else none

/-- Work in hand reads a copy at hand, and no lines of the home; the move of a home reads the home (R490). -/
def Dev.copyServes (d : Dev) (r : MoveReq) (w0 w1 : Nat) : Option (List Byte × List Byte) :=
  if r.kind = .editMove then none else d.nearCopy r.slot r.gob w0 w1

/-- The copy of a gob that a read found in error is discarded (R503): of T1, with its frame retired (R509). -/
def Dev.dropNear (d : Dev) (s gob : Nat) : Dev :=
  match d.gcFind s gob with
  | some k => d.gcEmpty k
  | none =>
    match d.leafAddr s gob with
    | .ok a => (d.countUe (nfld (d.t1w a) 31 10 * 65536) 65536).t1Drop s a (d.t1w a)
    | .error _ => d

/-- A mover is about to read a gob: a T1 copy that shows an uncorrectable error is discarded (R503). -/
def Dev.sweepCopy (d : Dev) (s gob : Nat) : Dev :=
  match d.leafAddr s gob with
  | .ok a =>
    let w0 := d.t1w a
    if (d.gcFind s gob).isNone && w0.testBit 9 && d.t1Bad (nfld w0 31 10 * 65536) 65536 then d.dropNear s gob else d
  | .error _ => d

/-- The next line of the work in hand: of the replica in a refetch, of the home in a copy. -/
def Dev.askLine (d0 : Dev) (r : MoveReq) : Dev :=
  let i := r.buf.length / 128
  if r.kind = .refetch then
    match d0.objOfGob r.slot r.gob with
    | none => d0
    | some ox =>
      let p := d0.replica ox.2 r.replica
      d0.moverLine r.id r.slot i p.2.2 (p.1 + 65536 * (r.gob - ox.2.gob0) + 128 * i)
  else if 0xFFFF0000 ≤ r.gob then d0
  else
    let d := d0.sweepCopy r.slot r.gob
    match d.leafAddr r.slot r.gob with
    | .error _ => d
    | .ok a =>
      let w0 := d.t1w a
      let w1 := d.t1w (a + 8)
      if (d.copyServes r w0 w1).isSome then d
      else if leafTier w0 = 2 then
        d.moverLine r.id r.slot i false (nfld w1 63 48 * 2 ^ 48 + nfld w1 31 0 * 65536 + 128 * i)
      else if leafTier w0 = 3 then d.moverLine r.id r.slot i true (nfld w1 47 0 * 65536 + 128 * i)
      else d

/-- A line arrives for work k: line 512 is the line of a replica's header. -/
def Dev.moverData (d : Dev) (k line : Nat) (bs : List Byte) : Dev :=
  match d.moveInHand k with
  | none => d
  | some r =>
    if line = 512 then
      match d.objOfGob r.slot r.gob with
      | none => d.endMove k
      | some ox =>
        let h := (d.replica ox.2 r.replica).2.1 + 64 * (r.gob - ox.2.gob0)
        let r1 := { r with hdr := (bs.drop (h % 128)).take 64 }
        (d.setMove r1).askLine r1
    else if line * 128 = r.buf.length then
      let r1 := { r with buf := r.buf ++ bs }
      let d1 := if r.kind = .refetch then d.setMove r1 else (d.setMove r1).countLines r.slot (r.gob * 65536) 1
      if line < 511 then d1.askLine r1 else if r.kind = .refetch then d1.replicaRead r1 else d1
    else d

/-! ### Taking work (R489 to R491) -/

/-- The kinds in priority order (Table 10-8). -/
def MoveKind.rank : MoveKind → Nat
  | .refetch => 1
  | .stalled => 2
  | .stream => 3
  | .window => 4
  | .hint => 5
  | .tpref => 6
  | .promote => 7
  | .editMove => 7
  | .scrub => 8

/-- A gob that a mover's copy would stall on (R513). -/
def Dev.underRepair (d : Dev) (s gob : Nat) : Bool :=
  match d.leafAddr s gob with
  | .error _ => false
  | .ok a =>
    let w0 := d.t1w a
    w0.testBit 5 && decide (d.gobKind s (leafObj w0) ≠ 0) && !d.declared s gob

/-- The work reads a gob for a stream's ring. -/
def MoveReq.toRing (r : MoveReq) : Bool :=
  match r.dest with
  | .ring _ _ _ => true
  | _ => false

/-- Work that a free mover may take now (R491, R513). -/
def Dev.takable (d : Dev) (r : MoveReq) : Bool :=
  (!d.rb Reg.TIR_CTRL 0 || decide (r.kind.rank ≤ 2)) && (decide (r.kind = .refetch) || !d.underRepair r.slot r.gob)

/-- The highest kind, and the oldest of it. -/
def bestWork : List MoveReq → Option MoveReq
  | [] => none
  | r :: rs =>
    match bestWork rs with
    | none => some r
    | some x => if x.kind.rank < r.kind.rank then some x else some r

/-- Where the next gob of a request goes. -/
def nextDest : MoveDest → MoveDest
  | .keyStore a => .keyStore (a + 65536)
  | x => x

/-- The request that remains once its first gob is taken. -/
def MoveReq.rest (r : MoveReq) (id : Nat) : List MoveReq :=
  if r.more = 0 then [] else [{ r with id := id, gob := r.gob + 1, dest := nextDest r.dest, more := r.more - 1 }]

/-- A request leaves the queue with its first gob; what remains keeps its place. -/
def Dev.popWork (d : Dev) (r : MoveReq) : Dev :=
  { d with tir := { d.tir with
      nextMove := d.tir.nextMove + (if r.more = 0 then 0 else 1),
      queue := d.tir.queue.flatMap (fun (x : MoveReq) => if x.id = r.id then x.rest d.tir.nextMove else [x]) } }

/-- A mover takes work in hand. -/
def Dev.beginMove (d : Dev) (r : MoveReq) : Dev :=
  let r1 := { r with more := 0, since := d.now, buf := [], hdr := [] }
  ({ d with tir := { d.tir with busy := d.tir.busy ++ [r1] } } : Dev).showMovers

/-- The policy of a gob's object lets this kind of work copy it (Table 10-7). -/
def Dev.policyLets (d : Dev) (r : MoveReq) : Bool :=
  match d.objOfGob r.slot r.gob with
  | some ox =>
    (match r.kind with
     | .stalled => true
     | .promote => decide (ox.2.policy = 2)
     | .tpref => decide (ox.2.policy = 1) || decide (r.replica = 1)
     | _ => decide (ox.2.policy = 1))
  | none => false

/-- Where a copy goes: TPREF brings gobs of a keys object to the key store (R484); a copy that TPIN asked for goes where it asked. -/
def Dev.destOf (d : Dev) (r : MoveReq) : MoveDest :=
  match r.kind, d.objOfGob r.slot r.gob with
  | .tpref, some ox => if ox.2.kind = 2 ∧ r.replica ≠ 1 then .keyStore (ox.2.keyAddr r.gob) else r.dest
  | _, _ => r.dest

/-- A copy begins, or is dropped: where its gob is not readable, is poisoned, has a copy already, has no valid object, which
is recorded, or one of another policy; a T1 copy takes its frame (R484, R488, R498, R500). -/
def Dev.beginCopy (d : Dev) (r : MoveReq) : Dev × Bool :=
  match d.walk r.slot r.gob false with
  | .bad _ _ _ => (d, false)
  | .leaf _ w0 w1 =>
    if (d.objOfGob r.slot r.gob).isNone then (d.noteGob r.slot r.gob w0 w1, false)
    else if w0.testBit 5 ∨ d.policyLets r = false then (d, false)
    else
      match d.destOf r with
      | .gobCache =>
        if (d.gcFind r.slot r.gob).isSome then (d, false) else ((d.beginMove r).askLine { r with buf := [] }, true)
      | .t1copy =>
        if w0.testBit 9 ∨ leafTier w0 = 1 then (d, false)
        else
          (match d.takeFrame r.slot with
           | none => (d.quotaHit r.slot, false)
           | some fd => ((fd.2.beginMove { r with frame := some fd.1 }).askLine { r with buf := [] }, true))
      | dst => ((d.beginMove { r with dest := dst }).askLine { r with buf := [] }, true)

/-- The read of a stream gob begins, if the stream still asks for it. -/
def Dev.beginRing (d : Dev) (r : MoveReq) (e i q : Nat) : Dev :=
  match (d.engine e).pstream i with
  | none => d
  | some p => if p.slot = r.slot ∧ q ∈ p.asked then (d.beginMove r).askLine { r with buf := [] } else d

/-- What waits for a copy that is not made looks again: a TPIN of the gob. -/
def Dev.copyDropped (d : Dev) (r : MoveReq) : Dev :=
  if r.kind = .tpref ∧ r.replica = 1 then d.tpinOn r.slot r.gob false else d

/-- MOVER_TAKE_WORK (R489): a free mover takes the work that stands highest. -/
def Dev.moverTake (d0 : Dev) : Dev :=
  let d := d0.retryRepairs
  if 16 ≤ d.tir.busy.length then d
  else
    match bestWork (d.tir.queue.filter d.takable) with
    | none => d
    | some r =>
      let d1 := d.popWork r
      match r.kind with
      | .refetch =>
        if d1.underRepair r.slot r.gob then
          let d2 := d1.beginMove r
          d2.nextReplica { r with more := 0, since := d2.now, buf := [], hdr := [] } 0
        else d1
      | .editMove => (d1.beginMove r).askLine { r with buf := [] }
      | _ =>
        match r.dest with
        | .ring e i q => d1.beginRing r e i q
        | _ => if (d1.beginCopy r).2 then (d1.beginCopy r).1 else (d1.beginCopy r).1.copyDropped r

/-- MOVER_TAKE_WORK (R489). -/
def execMoverTakeWork (s : State) : Host.Outcome State Fault Refusal :=
  run .moverTakeWork (fun d => d.moverTake) s

/-- TPREF (R403, R496): a hint; copies of stream-policy gobs in the gob cache or T1, and of keys in the key store. -/
def execTpref (w : IW) (s : State) : Host.Outcome State Fault Refusal :=
  run (.tpref w) (fun d => d.instr (cOp 0x2C false) (decide (fld w.fn 10 4 = 0)) w (fun d1 x =>
    let va := (x.r1 w).toNat
    let n := fld (x.r2 w) 31 0
    let k := fld w.fn 3 2
    let gob := va / 65536
    if 2 ≤ k ∨ n = 0 ∨ 0xFFFF00000000 < va + n * 65536 then .done d1
    else .done (d1.askMoves .tpref x.slotN gob (if k = 0 then .gobCache else .t1copy) (n - 1)))) s

/-! ### The end of a copy -/

/-- The payload and header that work in hand copies: those of a copy at hand, of the home's frame, or the lines that have arrived
with the gob's header (R486); none before they have. -/
def Dev.payload (d : Dev) (r : MoveReq) (w0 w1 : Nat) : Option (List Byte × List Byte) :=
  let hd := (d.gobHeader r.slot r.gob w0 w1).getD []
  if (d.copyServes r w0 w1).isSome then d.copyServes r w0 w1
  else if leafTier w0 = 1 then some (rdBytes d.mem.t1 (nfld w1 21 0 * 65536) 65536, hd)
  else if r.buf.length = 65536 then some (r.buf, hd)
  else none

/-- Gives back the frame of a T1 copy that is not made. -/
def Dev.dropFrame (d : Dev) (r : MoveReq) : Dev :=
  match r.frame with
  | some f => (d.frameUse f false).quotaAdd r.slot 21 0 false
  | none => d

/-- Places a copy; none where it is held (R147) or cannot be made. -/
def Dev.placeCopy (d : Dev) (r : MoveReq) (a w0 : Nat) (bs hd : List Byte) : Dev :=
  match r.dest, r.frame with
  | .t1copy, some f =>
    ({ d with mem := { d.mem with t1 := wrBytes d.mem.t1 (f * 65536) bs } } : Dev).setLeaf0 a
      (nset (nset w0 9 9 1) 31 10 f)
  | .keyStore lo, _ => d.ksWrite lo bs
  | .gobCache, _ => (d.gcFill r.slot r.gob bs hd).getD (d.quotaHit r.slot)
  | _, _ => d

/-- Work whose write into the key store is held until a route close (R147). -/
def Dev.heldByBatch (d : Dev) (r : MoveReq) : Bool :=
  match r.dest with
  | .keyStore lo => d.keyHeld lo 65536
  | _ => false

/-- Work in hand whose copy at hand has gone asks for the lines of the home. -/
def Dev.moverResume (d : Dev) (r : MoveReq) : Dev :=
  if d.fab.reads.any (fun (x : LineRead) =>
      match x.use with
      | .mover m _ => decide (m = r.id)
      | _ => false) then d
  else d.askLine r

/-- The bytes that work in hand has read stand in T1: their one-symbol errors are corrected (R507). -/
def Dev.readSeen (d : Dev) (r : MoveReq) (w0 w1 : Nat) : Dev :=
  if (d.copyServes r w0 w1).isSome then
    if (d.gcFind r.slot r.gob).isSome then d else d.correct (nfld w0 31 10 * 65536) 65536
  else if leafTier w0 = 1 then d.correct (nfld w1 21 0 * 65536) 65536
  else d

/-- MOVER_COPY_COMPLETE (R481, R493, R497, R502, R503): the copy in hand is placed. An uncorrectable error in the home, or a crc that
does not verify over its bytes, poisons it; a copy that does not verify is discarded, and the home is read. -/
def Dev.copyComplete (d0 : Dev) (k : Nat) : Dev :=
  match d0.moveInHand k with
  | none => d0
  | some r =>
    if r.kind = .refetch ∨ r.kind = .editMove ∨ r.toRing then d0
    else
      let d := d0.sweepCopy r.slot r.gob
      match d.walk r.slot r.gob false with
      | .bad _ _ _ => ((d.dropFrame r).endMove k).copyDropped r
      | .leaf a w0 w1 =>
        match d.payload r w0 w1 with
        | none => d.moverResume r
        | some b =>
          let pa := nfld w1 21 0 * 65536
          let near := (d.copyServes r w0 w1).isSome
          if d.heldByBatch r then d
          else if w0.testBit 5 then ((d.dropFrame r).endMove k).copyDropped r
          else if !near && decide (leafTier w0 = 1) && d.t1Bad pa 65536 then
            (((d.dropFrame r).poison r.slot r.gob a w0 w1 pa 65536).endMove k).copyDropped r
          else if crcBad b.2 b.1 then
            if near then (d.dropNear r.slot r.gob).moverResume r
            else
              ((if leafTier w0 = 1 then (d.dropFrame r).poison r.slot r.gob a w0 w1 pa 65536
                else (d.dropFrame r).poisonLeaf r.slot r.gob a w0 w1).endMove k).copyDropped r
          else
            ((((d.readSeen r w0 w1).placeCopy r a w0 b.1 b.2).endMove k).retryMemory r.slot r.gob).tpinOn r.slot r.gob
              (match r.dest with
               | .keyStore _ => true
               | _ => false)

/-- MOVER_COPY_COMPLETE (R493, R497, R502). -/
def execMoverCopyComplete (k : Nat) (s : State) : Host.Outcome State Fault Refusal :=
  run (.moverCopyComplete k) (fun d => d.copyComplete k) s

/-! ### TIR_EDIT (R476, R477, R490, R807, R808) -/

/-- The result of an edit: err and ecode. -/
def Dev.editDone (d : Dev) (ecode : Nat) : Dev :=
  let d1 := (d.setRb Reg.TIR_EDIT_OP 3 false).setRf Reg.TIR_EDIT_OP 11 8 ecode
  if ecode = 0 then d1 else d1.setRb Reg.TIR_EDIT_OP 4 true

/-- Drops a T1 copy that stands in a frame, whatever the slot (R807). -/
def Dev.dropCopyIn (d : Dev) (f : Nat) : Dev :=
  if !d.frameUsed f then d
  else
    (slots16.filter d.hasJob).foldl (fun a s =>
      (a.leaves s).foldl (fun b l =>
        let w0 := b.t1w l.2
        if w0.testBit 9 ∧ nfld w0 31 10 = f then b.t1Drop s l.2 w0 else b) a) d

/-- The ecode of the target of a write or move: 2 malformed, 3 frame out of range or of the reserve. -/
def Dev.editTarget (d : Dev) (w0 w1 : Nat) : Nat :=
  if leafTier w0 = 1 then
    if nfld w1 63 22 ≠ 0 then 2 else if d.frames - reserveFrames ≤ nfld w1 21 0 then 3 else 0
  else if malformedLeaf d.frames w0 w1 then 2 else 0

/-- Removes waiting and running copies of a gob. -/
def Dev.dropMoves (d : Dev) (s gob : Nat) : Dev :=
  let hit := fun (r : MoveReq) => decide (r.slot = s) && decide (r.gob = gob) && decide (r.more = 0)
  let d1 := (d.tir.busy.filter hit).foldl (fun a r => (a.dropFrame r).endMove r.id) d
  { d1 with tir := { d1.tir with queue := d1.tir.queue.filter (fun r => !hit r) } }

/-- Operation 1: writes valid, r, w, tier, loc and obj, clears the rest, and invalidates the copies. -/
def Dev.editWrite (d : Dev) (va w0 w1 : Nat) : Dev :=
  let s := nfld va 51 48
  let gob := nfld va 47 16
  match d.leafAddr s gob with
  | .error _ => d.editDone 1
  | .ok a =>
    let o0 := d.t1w a
    let o1 := d.t1w (a + 8)
    let oldHome := o0.testBit 0 && decide (leafTier o0 = 1)
    let newHome := w0.testBit 0 && decide (leafTier w0 = 1)
    let bad := if w0.testBit 0 then d.editTarget w0 w1 else 0
    if bad ≠ 0 then d.editDone bad
    else if newHome && !oldHome && !d.quotaRoom s 21 0 then (d.editDone 4).quotaHit s
    else
      let d1 := ((d.dropMoves s gob).gcDrop s gob).t1Drop s a o0
      let d2 := if (d1.t1w a).testBit 7 then d1.quotaAdd s 55 34 false else d1
      let d3 := if oldHome then (d2.frameUse (nfld o1 21 0) false).quotaAdd s 21 0 false else d2
      let d4 := if newHome then ((d3.dropCopyIn (nfld w1 21 0)).frameUse (nfld w1 21 0) true).quotaAdd s 21 0 true else d3
      let w := nfld w0 2 0 + nfld w0 4 3 * 8 + nfld w0 47 32 * 2 ^ 32
      (((d4.setLeaf a w w1).declare s gob false).editDone 0).resumeGob s gob

/-- Operation 3: a move of the home begins; reads go on at the old home, writes wait (R490). -/
def Dev.editMoveStart (d : Dev) (va w0 w1 : Nat) : Dev :=
  let s := nfld va 51 48
  let gob := nfld va 47 16
  match d.leafAddr s gob with
  | .error _ => d.editDone 1
  | .ok a =>
    let o0 := d.t1w a
    let bad := if malformedLeaf d.frames o0 (d.t1w (a + 8)) then 2 else d.editTarget w0 w1
    if !o0.testBit 0 then d.editDone 5
    else if bad ≠ 0 then d.editDone bad
    else if decide (leafTier w0 = 1) && decide (leafTier o0 ≠ 1) && !d.quotaRoom s 21 0 then (d.editDone 4).quotaHit s
    else
      let d1 := if leafTier w0 = 1 then
          let e := (d.dropCopyIn (nfld w1 21 0)).frameUse (nfld w1 21 0) true
          if leafTier o0 = 1 then e else e.quotaAdd s 21 0 true
        else d
      (d1.setLeaf0 a (nset (d1.t1w a) 6 6 1)).askMove .editMove s gob (.home (leafTier w0) w1)

/-- The home of the gob that TIR_EDIT_VA names is being moved. -/
def Dev.leafMoving (d : Dev) (va : Nat) : Bool :=
  match d.leafAddr (nfld va 51 48) (nfld va 47 16) with
  | .ok a => (d.t1w a).testBit 6
  | .error _ => false

/-- A TIR_EDIT write or move: it waits while the leaf's home is being moved (R476). -/
def Dev.editRun (d : Dev) (op va w0 w1 : Nat) : Dev :=
  if d.leafMoving va then { d with tir := { d.tir with edit := some (op, va, w0, w1) } }
  else
    let d1 : Dev := { d with tir := { d.tir with edit := none } }
    if op = 1 then d1.editWrite va w0 w1 else d1.editMoveStart va w0 w1

/-- Operation 2: fills TIR_EDIT_W0 and W1. -/
def Dev.editRead (d : Dev) (va : Nat) : Dev :=
  match d.leafAddr (nfld va 51 48) (nfld va 47 16) with
  | .error _ => d.editDone 1
  | .ok a =>
    ((d.setReg Reg.TIR_EDIT_W0 (BitVec.ofNat 64 (d.t1w a))).setReg Reg.TIR_EDIT_W1
      (BitVec.ofNat 64 (d.t1w (a + 8)))).editDone 0

/-- Operation 4: the walk caches of the slot hold nothing more; its L0 and L1 tables are read again into the frame map. -/
def Dev.editInvalidate (d : Dev) (va : Nat) : Dev :=
  let s := nfld va 51 48
  (if d.hasJob s then d.rereadTables s else d).editDone 0

/-- A TIR_EDIT operation from the registers. While another is in progress one is ignored, but for a write or move of the leaf
whose home is being moved, which waits (R476; log 104). -/
def Dev.tirEdit (d : Dev) (op : Nat) : Dev :=
  let va := (d.reg Reg.TIR_EDIT_VA).toNat
  let w0 := (d.reg Reg.TIR_EDIT_W0).toNat
  let w1 := (d.reg Reg.TIR_EDIT_W1).toNat
  if d.rb Reg.TIR_EDIT_OP 3 then
    if (op = 1 ∨ op = 3) ∧ d.leafMoving va ∧ d.tir.edit = none then { d with tir := { d.tir with edit := some (op, va, w0, w1) } }
    else d
  else
    let d1 := d.setRb Reg.TIR_EDIT_OP 3 true
    match op with
    | 1 => d1.editRun 1 va w0 w1
    | 2 => d1.editRead va
    | 3 => d1.editRun 3 va w0 w1
    | 4 => d1.editInvalidate va
    | _ => d

/-- TIR_EDIT_WRITE_LEAF (R476). -/
def execTirEditWriteLeaf (s : State) : Host.Outcome State Fault Refusal :=
  host .tirEditWriteLeaf bar0 false false (fun a => a.tirEdit 1) s

/-- TIR_EDIT_READ_LEAF (R475). -/
def execTirEditReadLeaf (s : State) : Host.Outcome State Fault Refusal :=
  host .tirEditReadLeaf bar0 false false (fun a => a.tirEdit 2) s

/-- TIR_EDIT_MOVE (R490, R807, R808). -/
def execTirEditMove (s : State) : Host.Outcome State Fault Refusal :=
  host .tirEditMove bar0 false false (fun a => a.tirEdit 3) s

/-- TIR_EDIT_INVALIDATE (R477, R807). -/
def execTirEditInvalidate (s : State) : Host.Outcome State Fault Refusal :=
  host .tirEditInvalidate bar0 false false (fun a => a.tirEdit 4) s

/-- Writes a payload to a new home in T1 or T3. -/
def Dev.writeHome (d : Dev) (tier w1 : Nat) (bs hd : List Byte) : Dev :=
  if tier = 1 then
    ({ d with mem := { d.mem with t1 := wrBytes d.mem.t1 (nfld w1 21 0 * 65536) bs } } : Dev).putHeader (nfld w1 21 0) hd
  else { d with mem := { d.mem with t3 := wrBytes d.mem.t3 (nfld w1 47 0 * 65536) bs } }

/-- The space of a mover's writes to a node. -/
def Dev.moverSpace (d : Dev) (s node : Nat) : SpaceKey := spaceKeyOf (d.tx 0x03 0 node (d.jobId s) moverCore)

/-- Sends a payload to a new home in T2; the move goes on once its lines are acknowledged (R490). -/
def Dev.sendHome (d : Dev) (r : MoveReq) (w1 : Nat) (bs : List Byte) : Dev :=
  let node := nfld w1 63 48
  let d1 := (List.range 512).foldl (fun a i =>
    a.issue { a.tx 0x03 0 node (a.jobId r.slot) moverCore with
      offset := nfld w1 31 0 * 65536 + 128 * i, lenM1 := 127, payload := (bs.drop (128 * i)).take 128 } []) d
  d1.setMove { r with gate := some [(d1.moverSpace r.slot node, (d1.space (d1.moverSpace r.slot node)).bound)] }

/-- A TIR_EDIT operation that waited for a move to end is carried out (R476). -/
def Dev.nextEdit (d : Dev) (w : Option (Nat × Nat × Nat × Nat)) : Dev :=
  match w with
  | some e => (d.setRb Reg.TIR_EDIT_OP 3 true).editRun e.1 e.2.1 e.2.2.1 e.2.2.2
  | none => d

/-- A move of a home ends where it began: the target frame is free again, the operation shows err, what waited goes on. -/
def Dev.moveGivenUp (d : Dev) (r : MoveReq) (a tier w1 : Nat) : Dev :=
  let w0 := d.t1w a
  let d1 := if tier = 1 then
      let e := d.frameUse (nfld w1 21 0) false
      if leafTier w0 = 1 then e else e.quotaAdd r.slot 21 0 false
    else d
  (((((d1.setLeaf0 a (nset w0 6 6 0)).editDone 0).setRb Reg.TIR_EDIT_OP 4 true).endMove r.id).resumeGob r.slot r.gob).nextEdit
    d.tir.edit

/-- A pin names the T1 home or T1 copy (Table 10-4): it goes with a home that leaves T1 for another tier, with its count (R498). -/
def Dev.unpinMoved (d : Dev) (s a o0 tier : Nat) : Dev :=
  if decide (tier ≠ 1) && decide (leafTier o0 = 1) && o0.testBit 7 && !o0.testBit 9 then
    (d.setLeaf0 a (nset (d.t1w a) 7 7 0)).quotaAdd s 55 34 false
  else d

/-- The new home stands: loc, tier and moving = 0 in one update, the header at its new place, the old frame free; writes that waited
go on. -/
def Dev.moveEnds (d : Dev) (r : MoveReq) (a tier w1 : Nat) (hd : List Byte) : Dev :=
  let o0 := d.t1w a
  let o1 := d.t1w (a + 8)
  let n0 := nset (nset o0 4 3 tier) 6 6 0
  let d2 := d.setLeaf a n0 w1
  let d3 := match d2.headerAddr r.slot r.gob n0 w1 with
    | some h => { d2 with mem := { d2.mem with t1 := wrBytes d2.mem.t1 h hd } }
    | none => d2
  let d4 := if leafTier o0 = 1 then
      let e := d3.frameUse (nfld o1 21 0) false
      if tier = 1 then e else e.quotaAdd r.slot 21 0 false
    else d3
  (((((d4.unpinMoved r.slot a o0 tier).editDone 0).endMove r.id).resumeGob r.slot r.gob)).nextEdit d.tir.edit

/-- MOVE_COMPLETE (R490): the payload goes to the new home, and once it stands there the leaf names it. Of a home in T2 the lines are
sent first, and the move ends when they are acknowledged; where their space fails it ends where it began. -/
def Dev.moveComplete (d : Dev) (k : Nat) : Dev :=
  match d.moveInHand k with
  | none => d
  | some r =>
    match r.dest, d.leafAddr r.slot r.gob with
    | .home tier w1, .ok a =>
      let o0 := d.t1w a
      let o1 := d.t1w (a + 8)
      let pa := nfld o1 21 0 * 65536
      (match d.payload r o0 o1 with
       | none => d
       | some b =>
         if d.underRepair r.slot r.gob then d
         else
           match r.gate with
           | some g =>
             if (d.space (d.moverSpace r.slot (nfld w1 63 48))).failed then d.moveGivenUp r a tier w1
             else if d.gateOpen g then d.moveEnds r a tier w1 b.2
             else d
           | none =>
             let bad := decide (leafTier o0 = 1) && d.t1Bad pa 65536
             if bad || o0.testBit 5 || crcBad b.2 b.1 then
               (if o0.testBit 5 then d else if leafTier o0 = 1 then d.poison r.slot r.gob a o0 o1 pa 65536
                 else d.poisonLeaf r.slot r.gob a o0 o1).moveGivenUp r a tier w1
             else if tier = 2 then (d.readSeen r o0 o1).sendHome r w1 b.1
             else ((d.readSeen r o0 o1).writeHome tier w1 b.1 b.2).moveEnds r a tier w1 b.2)
    | _, _ => d

/-- A line of a move's new home is rejected there (R605): the move ends where it began. -/
def Dev.moveRejected (d : Dev) (node off : Nat) : Option Dev :=
  (d.tir.busy.find? (fun r =>
    match r.dest with
    | .home tier w1 => decide (tier = 2) && r.gate.isSome && decide (nfld w1 63 48 = node) && decide (nfld w1 31 0 = off / 65536)
    | _ => false)).bind (fun r =>
      match r.dest, d.leafAddr r.slot r.gob with
      | .home tier w1, .ok a => some (d.moveGivenUp r a tier w1)
      | _, _ => none)

/-- MOVE_COMPLETE (R490). -/
def execMoveComplete (k : Nat) (s : State) : Host.Outcome State Fault Refusal :=
  run (.moveComplete k) (fun d => d.moveComplete k) s

/-! ### Reads that fail for a mover -/

/-- A gob that a stream asked for does not come: it is asked for no more. -/
def Eng.ringLost (x : Eng) (i q : Nat) : Eng :=
  match x.pstream i with
  | none => x
  | some p => x.setPstream i (some { p with asked := p.asked.filter (fun y => decide (y ≠ q)) })

/-- The cores whose TPIN waits for a gob's copy. -/
def Dev.pinning (d : Dev) (s gob : Nat) : List Nat :=
  cores41.filter (fun c =>
    match (d.core c).wait with
    | some (.tpin _ g _ _ done _) => decide ((d.core c).slotN = s) && decide (g + done = gob)
    | _ => false)

/-- A read for work k fails (R605, R627): a refetch goes on to the next replica; a move of a home ends where it began; a stream's
gob is lost, and a TPIN stopped, by the fault at the instruction that asked; other work is dropped. -/
def Dev.moverFails (d : Dev) (k : Nat) (f : FaultInfo) : Dev :=
  match d.moveInHand k with
  | none => d
  | some r =>
    match r.kind, r.dest with
    | .refetch, _ => d.nextReplica r (r.replica + 1)
    | _, .home tier w1 =>
      (match d.leafAddr r.slot r.gob with
       | .ok a => d.moveGivenUp r a tier w1
       | .error _ => d.endMove k)
    | _, .ring e i q => ((d.endMove k).modEngine e (fun x => x.ringLost i q)).asyncFault e r.slot f
    | _, _ =>
      let d1 := (d.dropFrame r).endMove k
      if r.kind = .tpref ∧ r.replica = 1 then (d1.pinning r.slot r.gob).foldl (fun a c => a.raiseCore c 8 f) d1 else d1

/-- A line of a far home is answered poisoned, or its host read fails: the gob is poisoned here as well (R511, R768). Work that
copies it is dropped, and a stream's read waits for the repair (R513). -/
def Dev.moverPoisoned (d : Dev) (k : Nat) (f : FaultInfo) : Dev :=
  match d.moveInHand k with
  | none => d
  | some r =>
    match r.kind, d.leafAddr r.slot r.gob with
    | .refetch, _ => d.moverFails k f
    | _, .error _ => d.moverFails k f
    | _, .ok a =>
      let d1 := (d.poisonLeaf r.slot r.gob a (d.t1w a) (d.t1w (a + 8))).resumeGob r.slot r.gob
      match r.dest with
      | .home tier w1 => d1.moveGivenUp r a tier w1
      | .ring _ _ _ => (d1.endMove k).askMove r.kind r.slot r.gob r.dest
      | _ => ((d1.dropFrame r).endMove k).copyDropped r

/-! ### Time limits of a refetch (R514) -/

/-- CCLK in 100 ms. -/
def ms100 : Nat := 100000000

/-- REPLICA_READ_TIMEOUT (R514): a replica not read within 100 ms gives way to the next. -/
def Dev.replicaTimeout (d : Dev) (k : Nat) : Dev :=
  match d.moveInHand k with
  | none => d
  | some r =>
    if r.kind = .refetch ∧ r.waitFrame = false ∧ r.since + ms100 ≤ d.now then
      let d1 : Dev := { d with fab := { d.fab with reads := d.fab.reads.filter (fun (x : LineRead) =>
        match x.use with
        | .mover m _ => decide (m ≠ k)
        | _ => true) } }
      d1.nextReplica r (r.replica + 1)
    else d

/-- REPLICA_READ_TIMEOUT (R514). -/
def execReplicaReadTimeout (k : Nat) (s : State) : Host.Outcome State Fault Refusal :=
  run (.replicaReadTimeout k) (fun d => d.replicaTimeout k) s

/-- REFETCH_FRAME_WAIT_TIMEOUT (R514): no frame within 100 ms of the verified read. -/
def Dev.frameTimeout (d0 : Dev) (k : Nat) : Dev :=
  let d := d0.retryRepairs
  match d.moveInHand k with
  | none => d
  | some r =>
    if r.waitFrame ∧ r.since + ms100 ≤ d.now then
      match d.objOfGob r.slot r.gob with
      | some ox => d.unrecoverable r ox.1 ox.2
      | none => d.endMove k
    else d

/-- REFETCH_FRAME_WAIT_TIMEOUT (R514). -/
def execRefetchFrameWaitTimeout (k : Nat) (s : State) : Host.Outcome State Fault Refusal :=
  run (.refetchFrameWaitTimeout k) (fun d => d.frameTimeout k) s

/-! ### Window and hints (R492 to R494) -/

/-- Distance of a layer ahead of the cursor. -/
def layerDist (layer cursor nlayers : Nat) : Nat := (layer + nlayers - cursor % nlayers) % nlayers

/-- Objects of a slot within its window at distance n: index and descriptor as it stands. -/
def Dev.windowObjs (d : Dev) (s n : Nat) : List (Nat × ObjDesc) :=
  if !d.rb (Reg.OBJ_CFG s) 0 then []
  else
    ((List.range (d.rf (Reg.OBJ_CFG s) 63 48 + 1)).map (fun o => (o, d.readObj s o))).filter (fun ox =>
      decide (ox.2.policy = 1)
        && decide (layerDist ox.2.layer (d.rf (Reg.WINDOW s) 15 0) (d.rf (Reg.WINDOW s) 31 16) = n))

/-- Queues an object of the window, or records its invalid descriptor (R488). -/
def Dev.windowAsk (d : Dev) (s : Nat) (ox : Nat × ObjDesc) : Dev :=
  let x := ox.2
  if !x.valid then
    let w := d.leafWords s x.gob0
    d.recordOnly s (memFault 0x0605 56 x.base ox.1 w.1 w.2)
  else
    d.askMoves .window s x.gob0
      (if x.kind = 2 then .keyStore (x.keyAddr x.gob0) else if d.rb (Reg.WINDOW s) 36 then .t1copy else .gobCache)
      (x.ngobs - 1)

/-- WINDOW_WRITE (R492): with nlayers not 0 the window queue is made anew. -/
def Dev.windowWrite (d : Dev) (s : Nat) (x : Word) : Dev :=
  let d0 := d.setReg (Reg.WINDOW s) (BitVec.ofNat 64 (fld x 36 0))
  if d0.rf (Reg.WINDOW s) 31 16 = 0 then d0
  else
    let d1 : Dev := { d0 with tir := { d0.tir with queue := d0.tir.queue.filter (fun (r : MoveReq) =>
      !(decide (r.kind = .window) && decide (r.slot = s))) } }
    (List.range (min (d0.rf (Reg.WINDOW s) 35 32) (d0.rf (Reg.WINDOW s) 31 16 - 1) + 1)).foldl (fun a n =>
      (a.windowObjs s n).foldl (fun b ox => b.windowAsk s ox) a) d1

/-- WINDOW_WRITE (R492). -/
def execWindowWrite (v : Via) (sl : Nat) (x : BitVec 64) (s : State) : Host.Outcome State Fault Refusal :=
  host (.windowWrite v sl x) v false false (fun a => if viaSees v sl then a.windowWrite sl x else a) s

/-- Hints that wait. -/
def Dev.hintsHeld (d : Dev) : Nat := (d.tir.queue.filter (fun (r : MoveReq) => decide (r.kind = .hint))).length

/-- A lookahead hint for a slot (R494). -/
def Dev.takeHint (d : Dev) (s rt lexp : Nat) : Dev :=
  let o := d.rf (Reg.RT_OBJ rt) 15 0 + lexp
  let dropped := fun (a : Dev) => (a.addRf (Reg.HINTS s) 63 32 1).setRb (Reg.TIR_SSTAT s) 1 true
  if d.rf (Reg.RT_OBJ rt) 27 16 ≤ lexp ∨ d.rb (Reg.OBJ_CFG s) 0 = false ∨ d.rf (Reg.OBJ_CFG s) 63 48 < o then dropped d
  else
    let x := d.readObj s o
    if !x.valid then
      let w := d.leafWords s x.gob0
      dropped (d.recordOnly s (memFault 0x0605 56 x.base o w.1 w.2))
    else if x.policy ≠ 1 ∨ 1024 ≤ d.hintsHeld then dropped d
    else (d.addRf (Reg.HINTS s) 31 0 1).askMoves .hint s x.gob0 .gobCache (x.ngobs - 1)

/-! ### Patrol scrub (R508) -/

/-- The leaf that has its home in frame f. -/
def Dev.homeOf (d : Dev) (f : Nat) : Option (Nat × Nat × Nat) :=
  (slots16.filter d.hasJob).findSome? (fun s =>
    ((d.leaves s).find? (fun l => decide (leafTier (d.t1w l.2) = 1) && decide (nfld (d.t1w (l.2 + 8)) 21 0 = f))).map
      (fun l => (s, l.1, l.2)))

/-- The leaf that has its T1 copy in frame f. -/
def Dev.copyOf (d : Dev) (f : Nat) : Option (Nat × Nat × Nat) :=
  (slots16.filter d.hasJob).findSome? (fun s =>
    ((d.leaves s).find? (fun l => (d.t1w l.2).testBit 9 && decide (nfld (d.t1w l.2) 31 10 = f))).map
      (fun l => (s, l.1, l.2)))

/-- CCLK from one frame of the patrol scrub to the next: a pass reads every frame once in MEM_CFG.scrub_h hours (R508). -/
def Dev.scrubPeriod (d : Dev) : Nat := d.rf Reg.MEM_CFG 7 0 * 3600000000000 / max 1 d.frames

/-- PATROL_SCRUB (R507 to R509, R511): once it is due, and with no other work that waits, the next frame of the pass is read;
one-symbol errors are corrected, an uncorrectable one in a home is handled as if a consumer had read it, one in a copy drops the
copy. -/
def Dev.patrol (d0 : Dev) : Dev :=
  if d0.rf Reg.MEM_CFG 7 0 = 0 ∨ d0.now < d0.tir.scrubAt ∨ d0.rb Reg.TIR_CTRL 0 ∨ 16 ≤ d0.tir.busy.length
      ∨ d0.tir.queue.any d0.takable then d0
  else
    let d : Dev := { d0 with tir := { d0.tir with scrubAt := d0.tir.scrubAt + d0.scrubPeriod } }
    let f := d.rf Reg.MEM_SCRUB 21 0
    let pa := f * 65536
    let d1 :=
      if d.t1Bad pa 65536 then
        match d.homeOf f with
        | some l =>
          if (d.t1w l.2.2).testBit 5 then d else d.poison l.1 l.2.1 l.2.2 (d.t1w l.2.2) (d.t1w (l.2.2 + 8)) pa 65536
        | none =>
          match d.copyOf f with
          | some l => (d.countUe pa 65536).t1Drop l.1 l.2.2 (d.t1w l.2.2)
          | none => if d.frameRetired f then d else d.countUe pa 65536
      else d
    let d2 := d1.correct pa 65536
    if f + 1 < d.frames then d2.setRf Reg.MEM_SCRUB 21 0 (f + 1)
    else (d2.setRf Reg.MEM_SCRUB 21 0 0).addRf Reg.MEM_SCRUB 63 32 1

/-- PATROL_SCRUB (R508). -/
def execPatrolScrub (s : State) : Host.Outcome State Fault Refusal :=
  run .patrolScrub (fun d => d.patrol) s

end Sys2Proof.Machine
end

