-- ==== Sys2Proof/Machine/Routing.lean ====
section
/-! DEFINITION. The routing engine's operations: batch open, scoring, route close, combination, ledger, cancel (R139 to R198,
R390 to R396). -/

namespace Sys2Proof.Machine

/-! ### Operations and faults -/

/-- A route operation descriptor (Table 8-8). -/
structure ROp where
  rt : Nat
  half : Bool
  ntok : Nat
  so : Nat
  pool : Nat
  bufA : Nat
  bufB : Nat
  bufC : Nat
  nbins : Nat
  pitch : Nat
  deriving DecidableEq, Repr

/-- The descriptor that eight words spell. -/
def ropOf (ws : List Word) : ROp :=
  let w := fun i => ws.getD i 0
  { rt := fld (w 0) 7 0, half := bitAt (w 0) 8, ntok := fld (w 0) 24 9 + 1, so := fld (w 0) 47 32, pool := fld (w 0) 63 48,
    bufA := fld (w 1) 47 0, bufB := fld (w 2) 47 0, bufC := fld (w 3) 47 0, nbins := fld (w 3) 63 48,
    pitch := fld (w 4) 31 0 }

/-- A routing fault: context, route table, epoch, half; token and slot; expert and node (Table 13-4). -/
def routeFault (code s rt epoch : Nat) (half : Bool) (token slot expert node : Nat) : FaultInfo :=
  let d0 := s + rt * 2 ^ 4 + epoch * 2 ^ 12 + b2n half * 2 ^ 24
  mkFault code (BitVec.ofNat 64 d0) 57 d0 (token + slot * 2 ^ 16) (expert + node * 2 ^ 16)

/-- A routing fault of an operation as a whole; the epoch is that of the batch it acts on, for one that acts on none the
context's. -/
def Dev.opFault (d : Dev) (code s : Nat) (o : ROp) : FaultInfo :=
  routeFault code s o.rt (d.rctx s).epoch o.half 0 0 0 0

/-- A routing fault of an operation on a batch. -/
def Batch.opFault (b : Batch) (code s : Nat) (o : ROp) : FaultInfo := routeFault code s o.rt b.epoch o.half 0 0 0 0

/-- What a routing operation answers. -/
inductive RRes where
  | ok (d : Dev)
  /-- A check fails: the operation has no effect (R198). -/
  | fault (d : Dev) (f : FaultInfo)
  /-- A read of its buffers faults (R368). -/
  | late (d : Dev) (f : FaultInfo)
  /-- A buffer is under repair. -/
  | stall (d : Dev) (va : Nat)
  /-- It waits (R142, R181, R182). -/
  | wait (d : Dev)

/-! ### Batches -/

/-- A half of a batch. -/
def Batch.half (b : Batch) (h1 : Bool) : Option Half := if h1 then b.h1 else b.h0

/-- Replaces a half. -/
def Batch.setHalf (b : Batch) (h1 : Bool) (x : Option Half) : Batch := if h1 then { b with h1 := x } else { b with h0 := x }

/-- Index of the first token of a half (R49). -/
def Batch.first (b : Batch) (h1 : Bool) : Nat := if h1 then (b.ntok + 1) / 2 else 0

/-- Tokens of a half (R49). -/
def Batch.count (b : Batch) (h1 : Bool) : Nat := if h1 then b.ntok - (b.ntok + 1) / 2 else (b.ntok + 1) / 2

/-- The descriptor of a batch. -/
def Batch.table (b : Batch) : Rtd := rtdOf b.rtd

/-- The open batch with an epoch. -/
def Dev.batchOf (d : Dev) (s epoch : Nat) : Option Batch := (d.rctx s).batches.find? (fun b => decide (b.epoch = epoch))

/-- The batches on which operations may be due: the open ones, oldest first, then cancelled ones that have closed. -/
def Dev.knownBatches (d : Dev) (s : Nat) : List Batch := (d.rctx s).batches ++ (d.rctx s).closed

/-- The batch with an epoch, open or cancelled and closed. -/
def Dev.knownBatch (d : Dev) (s epoch : Nat) : Option Batch := (d.knownBatches s).find? (fun b => decide (b.epoch = epoch))

/-- Changes the batch with an epoch. -/
def Dev.modBatch (d : Dev) (s epoch : Nat) (f : Batch → Batch) : Dev :=
  let x := d.rctx s
  let g := fun (b : Batch) => if b.epoch = epoch then f b else b
  d.setRctx s { x with batches := x.batches.map g, closed := x.closed.map g }

/-- Changes a half of an open batch. -/
def Dev.modHalf (d : Dev) (s epoch : Nat) (h1 : Bool) (f : Half → Half) : Dev :=
  d.modBatch s epoch (fun b => b.setHalf h1 ((b.half h1).map f))

/-- The first batch of a route table on which an operation is due: a cancelled one that has closed comes before the open
ones, for it was opened earlier. -/
def Dev.dueBatch (d : Dev) (s rt : Nat) (p : Batch → Bool) : Option Batch :=
  ((d.rctx s).closed ++ (d.rctx s).batches).find? (fun b => decide (b.rt = rt) && p b)

/-- A route table's own batch, in any context, has not reached route close (R142, R190). -/
def Dev.ownOpen (d : Dev) (rt : Nat) : Bool := d.allBatches.any (fun b => decide (b.rt = rt) && !b.routeClosed)

/-- Scoring of H1 is due. -/
def dueH1 (b : Batch) : Bool := b.h0.isSome && b.h1.isNone && (!b.routeClosed || b.cancelled)

/-- RPACK pack of a half is due. R190 names a half that has not been scored; that a second RPACK or RCOMBINE of a half is out
of sequence too is this model's reading (DESIGN CHOICE, log 128). -/
def duePack (h1 : Bool) (b : Batch) : Bool := (b.half h1).any (fun h => !h.packed)

/-- RCOMBINE of a half is due. -/
def dueCombine (h1 : Bool) (b : Batch) : Bool := (b.half h1).any (fun h => h.combine.isNone)

/-- A routing operation has finished its work: its object is posted when it completes (R189). -/
def Dev.addOp (d : Dev) (s c so : Nat) (err : Bool) (scores : Option (Nat × Bool)) (holder : Nat) (bufs : List Nat) : Dev :=
  let o : RouteOp := { id := d.rte.nextOp, slot := s, core := c, so := so, err := err, scores := scores, holder := holder,
                       bufs := bufs }
  { d with rte := { d.rte with ops := d.rte.ops ++ [o], nextOp := d.rte.nextOp + 1 } }

/-! ### Ledger and closes (R196, Tables 3-8 and 3-10) -/

/-- Tokens of a batch that have been selected. -/
def Batch.tokens (b : Batch) : List TokSel := (b.h0.map Half.toks).getD [] ++ (b.h1.map Half.toks).getD []

/-- Both sides of the batch-close identity. -/
def Batch.sums (b : Batch) : Nat × Nat := (b.nSel, b.nDrop + b.nUnsent + b.nAns + b.nPois + b.nStale)

/-- Every token of a half has its output. -/
def Batch.halfOut (b : Batch) (h1 : Bool) : Bool := (b.half h1).any (fun h => h.toks.all TokSel.out)

/-- Every copy of a batch is accounted for at the combine unit. -/
def Batch.closable (b : Batch) : Bool :=
  b.routeClosed && (if b.cancelled then decide (b.sums.1 ≤ b.sums.2) else b.halfOut false && b.halfOut true)

/-- A ledger fault of the token ledger (R196, R559). -/
def Dev.tokenLedgerStop (d : Dev) (s l r : Nat) : Dev :=
  d.ledgerStop 0x0B01 2 s (BitVec.ofNat 64 l) (BitVec.ofNat 64 r) [s]

/-- The values of LEDG[0] to LEDG[7]. -/
def Batch.ledger (b : Batch) : List Nat :=
  [b.nVoid, b.nSel, b.nDrop, b.nSpill, b.nUnsent, b.nAns, b.nPois, b.nStale]

/-- Batch close: the ledger registers, and the identity (R196). A cancelled batch stays known (R184). -/
def Dev.closeBatch (d0 : Dev) (s : Nat) (b : Batch) : Dev :=
  let d := d0.readLedger 2 s [s]
  if d0.runs s && !d.runs s then d else
  let x := d.rctx s
  let d1 := d.setRctx s { x with batches := x.batches.filter (fun y => decide (y.epoch ≠ b.epoch))
                                 closed := if b.cancelled then x.closed ++ [b] else x.closed }
  let d2 := (List.range 8).foldl (fun a i => a.setRf (Reg.LEDG s i) 31 0 (b.ledger.getD i 0)) d1
  let good := decide (b.sums.1 = b.sums.2)
  let d3 := d2.setReg (Reg.LEDG_INFO s) (BitVec.ofNat 64 (b.epoch + b2n b.cancelled * 2 ^ 12 + b2n good * 2 ^ 13))
  if good then d3 else d3.tokenLedgerStop s b.sums.1 b.sums.2

/-- An RPACK of the batch has not scattered its bins. -/
def Dev.packing (d : Dev) (s epoch : Nat) : Bool :=
  d.rte.packs.any (fun y => decide (y.kind = 0) && decide (y.slot = s) && decide (y.desc.getD 8 0 = BitVec.ofNat 64 epoch))

/-- Closes the batch with an epoch once its last copy is accounted for. -/
def Dev.tryClose (d : Dev) (s epoch : Nat) : Dev :=
  match d.batchOf s epoch with
  | none => d
  | some b => if b.closable && !d.packing s epoch then d.closeBatch s b else d

/-! ### Combination (R187, R188) -/

/-- A slot is settled. -/
def SlotSel.settled (x : SlotSel) : Bool :=
  match x.st with
  | .waiting => false
  | .sent => false
  | .unsent => false
  | _ => true

/-- A token to combine: every slot settled, output not written. -/
def TokSel.ready (t : TokSel) : Bool := !t.out && t.slots.all SlotSel.settled

/-- Combines one token: its output row, and empty_seen. -/
def Dev.combineTok (d : Dev) (s : Nat) (x : Rtd) (o : CombineOp) (first : Nat) (t : TokSel) : MemRes :=
  let d1 := if t.slots.any (fun y => y.answer.isSome) then d else d.setRb (Reg.RCTX_STATUS s) 2 true
  d1.wr (unitWho s 57) (o.buf + (t.token - first) * o.pitch) (combineRow x t.slots)

/-- Combines every ready token of a half in token order. A write that faults is the issuing core's fault. -/
def Dev.combineToks (d : Dev) (s epoch : Nat) (h1 : Bool) (x : Rtd) (o : CombineOp) (first : Nat) : List TokSel → Dev
  | [] => d
  | t :: ts =>
    match d.combineTok s x o first t with
    | .ok d1 _ =>
      let n := (t.slots.filter (fun y => y.answer.isSome)).length
      let mark := fun (y : TokSel) => if y.token = t.token then { y with out := true } else y
      (((d1.modHalf s epoch h1 (fun h => { h with toks := h.toks.map mark })).modBatch s epoch
        (fun b => { b with nAns := b.nAns + n })).combineToks s epoch h1 x o first ts)
    | .fault d1 f => (d1.unitDone s 57).asyncFault o.core s f
    | .stall d1 => d1

/-- Runs the RCOMBINE of a half as far as its slots have settled; once every token is out it has done its work. -/
def Dev.combineHalf (d : Dev) (s epoch : Nat) (h1 : Bool) : Dev :=
  match d.knownBatch s epoch with
  | none => d
  | some b =>
    match b.half h1 with
    | none => d
    | some h =>
      match h.combine with
      | none => d
      | some o =>
        if o.done then d
        else if b.cancelled then
          (d.modHalf s epoch h1 (fun y => { y with combine := some { o with done := true } })).addOp s o.core o.so true none 49 []
        else
          let d1 := d.combineToks s epoch h1 b.table o (b.first h1) (h.toks.filter TokSel.ready)
          match d1.batchOf s epoch with
          | none => d1
          | some b1 =>
            if b1.halfOut h1 then
              (((d1.unitDone s 57).modHalf s epoch h1 (fun y => { y with combine := some { o with done := true } })).addOp s o.core
                o.so false none 49 []).tryClose s epoch
            else d1

/-! ### Route close (R141, R164 to R167, R178) -/

/-- The Turnstile count of an expert. -/
def Dev.turnstile (d : Dev) (e : Nat) : Nat := fld (d.workW e 1) 31 0

/-- Writes an expert's bias and count back to the working arrays and the route state object (R141). -/
def Dev.writeBack (d : Dev) (s : Nat) (x : Rtd) (e : Nat) (bias : W32) : Dev :=
  let d1 := d.setRf (Reg.WORK (x.ebase + e) 0) 31 0 bias.toNat
  let a := x.state + 16 * e
  (d1.unitWrite s 57 a (leBytes 4 bias.toNat)).unitWrite s 57 (a + 8) (leBytes 4 (d.turnstile (x.ebase + e)))

/-- The tally of an expert of a lookahead table. -/
def Dev.tallyOf (d : Dev) (table e : Nat) : Nat := tget (fun _ => 0) d.rte.tally (table * 65536 + e)

/-- The words of the experts of a batch's lookahead table: the working arrays when it is resident, else its route state object. Where
that cannot be read no expert is eligible (log 145); none while the read waits. -/
def Dev.stateWords (d : Dev) (s : Nat) (x : Rtd) : Dev × Option (List Word) :=
  let y := rtdOf (d.rtdForce x.laTable)
  if !x.laEn then (d, some [])
  else if d.isResident x.laTable then (d, some ((List.range y.ecount).map (d.expertW0 y)))
  else
    match d.rd (unitWho s 57) y.state (16 * y.ecount) with
    | .ok d1 bs => (d1, some ((List.range y.ecount).map (fun e => BitVec.ofNat 64 ((leWords 8 (2 * y.ecount) bs).getD (2 * e) 0))))
    | .fault d1 _ => (d1, some [])
    | .stall d1 => (d1, none)

/-- Experts of the lookahead table that take a hint, in descending tally, the lower index first among equals (R178). -/
def Dev.hintList (d : Dev) (x : Rtd) (y : Rtd) : List Nat :=
  let es := (List.range y.ecount).filter (fun e =>
    decide (x.laMin ≤ d.tallyOf x.laTable e))
  (sortBy (fun e => 2 ^ 32 - d.tallyOf x.laTable e) es).take x.laMax

/-- Sends one hint (R178, R786): to the own tier manager, or on VC0; toward an earlier generation it is skipped. -/
def Dev.sendHint (d : Dev) (s rt : Nat) (w0 : Word) : Dev :=
  let n := entNode w0
  if n = d.node then d.takeHint s rt (entLexp w0)
  else if d.genOf n ≠ 0 then d.satRf (Reg.XGEN_SKIP s) 31 0 1
  else d.launch { d.tx 0x0A 0 n (d.jobId s) 57 with offset := rt + entLexp w0 * 2 ^ 8 }

/-- The hints of a route close; then the tally is cleared. R177 does not say whose the tally is: it is kept for each la_table,
so that batches that name one la_table share it, and the first route close among them clears it (DESIGN CHOICE, log 127). -/
def Dev.routeHints (d : Dev) (s : Nat) (x : Rtd) (ws : List Word) : Dev :=
  if x.laEn then
    let y := rtdOf (d.rtdForce x.laTable)
    let d1 := ((d.hintList x y).filter (fun e => decide (e < ws.length))).foldl (fun a e => a.sendHint s x.laTable (ws.getD e 0)) d
    { d1 with rte := { d1.rte with tally := d1.rte.tally.filter (fun t => decide (t.1 / 65536 ≠ x.laTable)) } }
  else d

/-- Route close of a batch with given counts and its lookahead table's words; `none` skips the update (R165, R167, R169). -/
def Dev.closeWith (d0 : Dev) (s : Nat) (b : Batch) (counts : Option (List Nat)) (ws : List Word) : Dev :=
  let d := d0.readLedger 2 s [s]
  if d0.runs s && !d.runs s then d else
  let x := b.table
  let turns := (List.range x.ecount).map (fun e => d.turnstile (x.ebase + e))
  let slots := (b.tokens.map (fun t => t.slots.length)).sum
  if slots ≠ b.nVoid + b.nSel then d.tokenLedgerStop s slots (b.nVoid + b.nSel)
  else if turns.sum ≠ b.nSel then d.tokenLedgerStop s turns.sum b.nSel
  else
    let old := (List.range x.ecount).map (fun e => f32at (b.work.getD e 0) 0)
    let biases :=
      match counts with
      | some cs => if b.cancelled then old else biasesOf x b.work cs
      | none => old
    let d1 := (List.range x.ecount).foldl (fun a e => a.writeBack s x e (biases.getD e 0)) d
    let d2 := d1.routeHints s x ws
    (d2.modBatch s b.epoch (fun y => { y with routeClosed := true, waitCounts := none })).tryClose s b.epoch

/-- Route close of a batch, once the route state of its lookahead table has been read. -/
def Dev.finishClose (d : Dev) (s : Nat) (b : Batch) (counts : Option (List Nat)) (then_ : Dev → Dev) : Dev :=
  match d.stateWords s b.table with
  | (d1, some ws) => then_ ((d1.closeWith s b counts ws).unitDone s 57)
  | (d1, none) => d1

/-- The batch of a route table whose route close is due: the last dispatch entry of its H1 stands in Marver, which scoring H1 puts there
(Table 3-6), or the batch is cancelled (R164, R165; log 144). -/
def Dev.closing (d : Dev) (s rt : Nat) : Option Batch :=
  d.dueBatch s rt (fun b => !b.routeClosed && (b.h1.isSome || b.cancelled))

/-- Counts supplied for a route table. -/
def Dev.supplied (d : Dev) (rt : Nat) : List Nat := tget (fun _ => []) d.rte.supply rt

/-- Sets the counts supplied for a route table. -/
def Dev.setSupply (d : Dev) (rt : Nat) (cs : List Nat) : Dev :=
  { d with rte := { d.rte with supply := tput (fun _ => []) d.rte.supply rt cs } }

/-- Route close (R165, R167): with bsrc = 1 it waits for supplied counts, also where no update follows (bmode 0, R169). -/
def Dev.routeCloseRun (d : Dev) (s rt : Nat) : Dev :=
  match d.closing s rt with
  | none => d
  | some b =>
    let x := b.table
    let use := fun (cs : List Nat) => if b.cancelled || decide (x.bmode = 0) then none else some cs
    if x.bsrc then
      if d.supplied rt = [] then
        (if b.waitCounts.isSome then d else d.modBatch s b.epoch (fun y => { y with waitCounts := some d.now }))
      else d.finishClose s b (use (d.supplied rt)) (fun a => a.setSupply rt [])
    else d.finishClose s b (use ((List.range x.ecount).map (fun e => d.turnstile (x.ebase + e)))) id

/-- ROUTE_CLOSE (R165). -/
def execRouteClose (sl rt : Nat) (s : State) : Host.Outcome State Fault Refusal :=
  run (.routeClose sl rt) (fun d => d.routeCloseRun sl rt) s

/-- ROUTE_CLOSE_COUNTS_TIMEOUT (R167): 0x0308, and the close completes without the update. -/
def execRouteCloseCountsTimeout (sl rt : Nat) (s : State) : Host.Outcome State Fault Refusal :=
  run (.routeCloseCountsTimeout sl rt) (fun d =>
    match d.closing sl rt with
    | none => d
    | some b =>
      match b.waitCounts with
      | none => d
      | some t =>
        if d.now < t + ms100 then d
        else d.finishClose sl b none (fun a => a.asyncFault b.core sl (routeFault 0x0308 sl rt b.epoch true 0 0 0 0))) s

/-! ### Batch open (R140, R142 to R145, R180 to R182) -/

/-- A route table's range overlaps that of another with a batch not yet at route close (R142). -/
def Dev.overlapsOpen (d : Dev) (rt : Nat) (x : Rtd) : Bool :=
  d.allBatches.any (fun b =>
    !b.routeClosed && decide (b.rt ≠ rt) &&
      (let y := b.table
       decide (x.ebase < y.ebase + y.ecount) && decide (y.ebase < x.ebase + x.ecount)))

/-- The epoch of the next batch (R180). -/
def RouteCtx.nextEpoch (x : RouteCtx) : Nat := (x.epoch + 1) % 4096

/-- The next epoch is that of a batch short of batch close (R182). -/
def RouteCtx.epochTaken (x : RouteCtx) : Bool := x.batches.any (fun b => decide (b.epoch = x.nextEpoch))

/-- A batch open waits. -/
def Dev.openWaits (d : Dev) (s rt : Nat) : Bool :=
  let x := d.rctx s
  d.overlapsOpen rt (rtdOf (d.rtdWords rt)) || decide (4 ≤ x.batches.length) || x.epochTaken

/-- The table stands in the working arrays as it is described, and no reload is due (R140, R143). -/
def Dev.residentAs (d : Dev) (rt : Nat) (x : Rtd) : Bool :=
  d.rte.resident.contains (rt, x.ebase, x.ecount) && !tget (fun _ => false) d.rte.reload rt

/-- Makes a table resident with the given bytes of its route state object, and evicts tables that overlap (R140). -/
def Dev.loadTable (d : Dev) (rt : Nat) (x : Rtd) (bs : List Byte) : Dev :=
  let ws := leWords 8 (2 * x.ecount) bs
  let d1 := (List.range x.ecount).foldl (fun a e =>
    (a.setReg (Reg.WORK (x.ebase + e) 0) (BitVec.ofNat 64 (ws.getD (2 * e) 0 % 2 ^ 62))).setReg
      (Reg.WORK (x.ebase + e) 1) 0) d
  let others := d.rte.resident.filter (fun r =>
    decide (r.1 ≠ rt) && !(decide (r.2.1 < x.ebase + x.ecount) && decide (x.ebase < r.2.1 + r.2.2)))
  { d1 with rte := { d1.rte with resident := others ++ [(rt, x.ebase, x.ecount)],
                                 reload := tput (fun _ => false) d1.rte.reload rt false } }

/-- Clears the Turnstiles of a table's range (R164). -/
def Dev.clearCounts (d : Dev) (x : Rtd) : Dev :=
  (List.range x.ecount).foldl (fun a e => a.setRf (Reg.WORK (x.ebase + e) 1) 31 0 0) d

/-- The batch that an open makes. -/
def Dev.newBatch (d : Dev) (s c : Nat) (o : ROp) (x : Rtd) : Batch :=
  { epoch := (d.rctx s).nextEpoch, rt := o.rt, core := c, rtd := d.rtdWords o.rt, ntok := o.ntok, cancelled := false,
    h0 := none, h1 := none, routeClosed := false, waitCounts := none, nVoid := 0, nSel := 0, nDrop := 0, nSpill := 0,
    nUnsent := 0, nAns := 0, nPois := 0, nStale := 0, work := (List.range x.ecount).map (d.expertW0 x), used0 := [] }

/-- A half on which nothing more is due. -/
def Half.over : Half :=
  { toks := [], scored := true, packed := true, combine := some { core := 0, so := 0, buf := 0, pitch := 0, done := true } }

/-- A cancelled batch that has closed, when a further batch is opened on its table: only RCOMBINEs of the halves that were scored are
still due on it, which may be issued after that open (R50, R184; log 128). -/
def Batch.superseded (b : Batch) : Batch :=
  let f := fun (h : Option Half) => some ((h.map (fun y => { y with packed := true })).getD Half.over)
  { b with h0 := f b.h0, h1 := f b.h1 }

/-- Opens a batch on a table whose state stands in the working arrays: descriptor and row format take force (R144). What is
issued on the table from now on is for the new batch, but for RCOMBINEs of cancelled ones (R184). -/
def Dev.openBatch (d : Dev) (s c : Nat) (o : ROp) (x : Rtd) : Dev :=
  let d1 := (((d.becomesBusy (.rctx s)).becomesBusy .tables).clearCounts x).commitAll (Reg.RT_RFMT o.rt :: (List.range 8).map (Reg.RTD o.rt))
  let r := d1.rctx s
  d1.setRctx s { r with epoch := r.nextEpoch, batches := r.batches ++ [d1.newBatch s c o x]
                        closed := (r.closed.map (fun b => if b.rt = o.rt then b.superseded else b)).filter (fun b =>
                          dueCombine false b || dueCombine true b || decide (b.rt ≠ o.rt)) }

/-! ### Scoring a half (R148 to R164, R176, R177) -/

/-- The ranges that scoring a half reads: queries and their scales, or the score matrix (R391). -/
def scoreRanges (sel : Bool) (x : Rtd) (o : ROp) (n : Nat) : List (Nat × Nat) :=
  if sel then rowRanges o.bufA o.pitch (x.ecount * 4) n
  else rowRanges o.bufA o.pitch (x.dim * (fmtBits x.qfmt / 8)) n ++ [(o.bufB, 4 * n)]

/-- The row that a pitch must hold (R392). -/
def scoreRow (sel : Bool) (x : Rtd) : Nat := if sel then x.ecount * 4 else x.dim * (fmtBits x.qfmt / 8)

/-- A pitch is a multiple of 64 and holds the row (R392; log 60). -/
def pitchOk (pitch row : Nat) : Bool := decide (pitch % 64 = 0) && decide (row ≤ pitch)

/-- Raw scores of a row of queries against a table's keys. -/
def Dev.rawsOf (d : Dev) (x : Rtd) (q : List Val) (qscale : W32) : List W32 :=
  (List.range x.ecount).map (fun e => rawScore (dotOf x.fp8 q (d.keyVals x e)) qscale x.kscale)

/-- The raw scores of the tokens of a half from what was read. -/
def Dev.halfRaws (d : Dev) (sel : Bool) (x : Rtd) (n : Nat) (rows : List (List Byte)) : List (List W32) :=
  if sel then rows.map (fun r => (leWords 4 x.ecount r).map (BitVec.ofNat 32))
  else
    let qs := (leWords 4 n (rows.getD n [])).map (BitVec.ofNat 32)
    (List.range n).map (fun i => d.rawsOf x (rowVals x.qfmt x.dim (rows.getD i [])) (qs.getD i (0 : W32)))

/-- Counts the filled slots of a token at the Turnstiles. -/
def Dev.countTok (d : Dev) (x : Rtd) (t : TokSel) : Dev :=
  t.slots.foldl (fun a y =>
    if y.st = .waiting then
      let e := x.ebase + y.expert
      a.setRf (Reg.WORK e 1) 31 0 (a.turnstile e + 1)
    else a) d

/-- Biased scores that are not finite (R154). -/
def nanBiased (work : List Word) (raws : List W32) : Bool :=
  (List.range raws.length).any (fun e => !ffin (fadd (raws.getD e 0) (f32at (work.getD e 0) 0)))

/-- Adds the lookahead selections of a half to the tally (R176, R177); raw scores that are not finite count as any (R153). The table in force must pass R145 and have the
shape of the queries (log 61). -/
def Dev.lookahead (d : Dev) (s : Nat) (x : Rtd) (first n : Nat) (rows : List (List Byte)) (ws : List Word) : Dev :=
  let y := rtdOf (d.rtdForce x.laTable)
  if x.laEn && d.rtdOk s y && decide (y.kdim32 = x.kdim32) && decide (y.fp8 = x.fp8) then
    let qs := (leWords 4 n (rows.getD n [])).map (BitVec.ofNat 32)
    let work := (List.range y.ecount).map (fun e => ws.getD e 0)
    ((List.range n).filter (fun i => decide ((first + i) % 2 ^ x.laShift = 0))).foldl (fun a i =>
      let raws := d.rawsOf y (rowVals x.qfmt x.dim (rows.getD i [])) (qs.getD i (0 : W32))
      let bad := (raws.filter (fun v => !ffin v)).length
      let a1 := a.satRf (Reg.NAN_SCORES s) 31 0 bad
      let a2 := if decide (0 < bad) || nanBiased work raws then a1.setRb (Reg.RCTX_STATUS s) 1 true else a1
      (selectExperts y work raws).1.foldl (fun b c =>
        let k := x.laTable * 65536 + c.e
        { b with rte := { b.rte with tally := tput (fun _ => 0) b.rte.tally k (tget (fun _ => 0) b.rte.tally k + 1) } }) a2) d
  else d

/-- Scores, selects, gates and counts a half of an open batch from its raw scores (R189). -/
def Dev.scoreHalf (d : Dev) (s : Nat) (b : Batch) (h1 : Bool) (raws : List (List W32)) : Dev :=
  let x := b.table
  let toks := (List.range raws.length).map (fun i => d.tokenOf x b.work (b.first h1 + i) (raws.getD i []))
  let bad := (raws.map (fun r => (r.filter (fun v => !ffin v)).length)).sum
  let d1 := toks.foldl (fun a t => a.countTok x t) d
  let d2 := (d1.satRf (Reg.NAN_SCORES s) 31 0 bad).addRf (Reg.DECISIONS s) 63 0 raws.length
  let d3 := if decide (0 < bad) || raws.any (nanBiased b.work) then d2.setRb (Reg.RCTX_STATUS s) 1 true else d2
  let filled := (toks.map (fun t => (t.slots.filter (fun y => decide (y.st = .waiting))).length)).sum
  let all := (toks.map (fun t => t.slots.length)).sum
  d3.modBatch s b.epoch (fun y =>
    { y.setHalf h1 (some { toks := toks, scored := false, packed := false, combine := none }) with
      nSel := y.nSel + filled, nVoid := y.nVoid + (all - filled) })

/-- Reads and scores a half of an open batch; of a cancelled one nothing is selected (R183). -/
def Dev.runScore (d : Dev) (s c : Nat) (sel : Bool) (o : ROp) (b : Batch) : RRes :=
  let x := b.table
  let n := b.count o.half
  if b.cancelled then
    .ok ((d.modBatch s b.epoch (fun y =>
      y.setHalf o.half (some { toks := [], scored := false, packed := false, combine := none }))).addOp
      s c o.so false (some (b.epoch, o.half)) 48 [])
  else if !pitchOk o.pitch (scoreRow sel x) then .fault d (b.opFault 0x0302 s o)
  else
    match d.rdRanges (unitWho s 57) (scoreRanges sel x o n) [] with
    | .fault d1 f => .late d1 f
    | .stall d1 va => .stall d1 va
    | .ok d1 rows =>
      match if sel then (d1, some []) else d1.stateWords s x with
      | (d2, none) => .stall d2 (rtdOf (d2.rtdForce x.laTable)).state
      | (d2, some ws) =>
        let d3 := d2.scoreHalf s b o.half (d2.halfRaws sel x n rows)
        let d4 := if sel then d3 else d3.lookahead s x (b.first o.half) n rows ws
        .ok (((d4.modBatch s b.epoch (fun y => { y with core := c })).addOp s c o.so false
          (some (b.epoch, o.half)) 48 []))

/-- The reads of memory that scoring a half makes, before it has any effect. -/
def Dev.scoreReads (d : Dev) (s : Nat) (sel : Bool) (x : Rtd) (o : ROp) (n : Nat) : RRes :=
  match d.rdRanges (unitWho s 57) (scoreRanges sel x o n) [] with
  | .fault d1 f => .late d1 f
  | .stall d1 va => .stall d1 va
  | .ok d1 _ =>
    match if sel then (d1, some []) else d1.stateWords s x with
    | (d2, none) => .stall d2 (rtdOf (d2.rtdForce x.laTable)).state
    | (d2, some _) => .ok d2

/-- Scoring of H0 on the opened batch. A read that fails opens no batch. -/
def Dev.openAndScore (d : Dev) (s c : Nat) (sel : Bool) (o : ROp) (x : Rtd) : RRes :=
  match d.scoreReads s sel x o ((o.ntok + 1) / 2) with
  | .ok d0 =>
    let d1 := d0.openBatch s c o x
    (match d1.batchOf s (d1.rctx s).epoch with
     | none => .ok d1
     | some b => d1.runScore s c sel o b)
  | r => r

/-- Opens a batch and scores its H0 (R140, R145, R661). -/
def Dev.runOpen (d : Dev) (s c : Nat) (sel : Bool) (o : ROp) : RRes :=
  let x := rtdOf (d.rtdWords o.rt)
  if !d.rtdOk s x then .fault d (d.opFault 0x0301 s o)
  else if d.rb (Reg.JOB_PROFILE s) 0 && decide (x.bmode ≠ 0) && !x.bsrc then .fault d (mkFault 0x0112 1 57 0 1 0)
  else if !pitchOk o.pitch (scoreRow sel x) then .fault d (d.opFault 0x0302 s o)
  else if d.residentAs o.rt x then d.openAndScore s c sel o x
  else
    match d.rdRanges (unitWho s 57) [(x.state, 16 * x.ecount)] [] with
    | .fault d1 f => .late d1 f
    | .stall d1 va => .stall d1 va
    | .ok d1 bs => (d1.loadTable o.rt x (bs.getD 0 [])).openAndScore s c sel o x

/-! ### Packing a half (R171 to R174, R393, R794) -/

/-- The waiting copies of a half, in token order and slot order within a token. -/
def Batch.copies (b : Batch) (me : Nat) (h1 : Bool) : List CopyDesc :=
  ((b.half h1).map Half.toks).getD [] |>.flatMap (fun t =>
    ((List.range t.slots.length).filter (fun i => decide ((t.slots.getD i SlotSel.void).st = .waiting))).map (fun i =>
      let y := t.slots.getD i SlotSel.void
      ({ token := t.token, slot := i, epoch := b.epoch, home := me, expert := y.expert, lexp := y.lexp, dest := y.node,
         rt := b.rt, poison := false, spilled := y.spilled } : CopyDesc)))

/-- How a half's copies are keyed, and the keys whose bins are written whatever copies there are (R174, R794). -/
def Dev.packKey (d : Dev) (s : Nat) (b : Batch) : BinKey × List Nat :=
  if d.directMode s then
    (.node, (d.members s).filter (fun n => b.work.any (fun w => bitAt w 60 && decide (entNode w = n))))
  else
    match d.firstAxis s with
    | some a => (.axis a, d.ring s a)
    | none => (.own, [])

/-- The bins of a half with empty rows: key and copies in order. -/
def Dev.packBins (d : Dev) (s : Nat) (b : Batch) (h1 : Bool) : BinKey × List (Nat × List Copy) :=
  let k := d.packKey s b
  let cs := sortBy (fun (c : Copy) => c.desc.order false) ((b.copies d.node h1).map (fun c => ({ desc := c, row := [] } : Copy)))
  (k.1, k.1.bins d.node k.2 CopyDesc.dest cs)

/-- Row length of a bin bound for a node. -/
def Dev.packRow (d : Dev) (b : Batch) (node : Nat) : Nat :=
  d.convBytes b.rt (d.convOf b.rt node) (b.table.rowlen64 * 64)

/-- Every bin of a half fits into a buffer of the pool (Table 3-11). -/
def Dev.binsFit (d : Dev) (p : Nat) (b : Batch) (k : BinKey) (bins : List (Nat × List Copy)) : Bool :=
  bins.all (fun v => decide (binSize (countList v.2).length v.2.length (d.packRow b (k.partner d.node v.1)) ≤ d.bufSize p))

/-- A selected expert's node that lies outside the job's members (Table 3-11). -/
def Dev.outsider (d : Dev) (s : Nat) (ts : List TokSel) : Option (Nat × Nat × SlotSel) :=
  ts.findSome? (fun t => (List.range t.slots.length).findSome? (fun i =>
    let y := t.slots.getD i SlotSel.void
    if y.st ≠ .void ∧ d.member s y.node = false then some (t.token, i, y) else none))

/-- Takes buffers for a Marver operation as far as the pool gives them at once (R174, R543). -/
def Dev.takeBins (d : Dev) (p : Nat) : Nat → List Nat → Dev × List Nat
  | 0, got => (d, got)
  | n + 1, got =>
    match d.allocNow p 48 with
    | some r => r.2.takeBins p n (got ++ [r.2.bufAddr p r.1])
    | none => (d, got)

/-- Adds a Marver operation that takes buffers; one that lacks some waits at its pool (R174). -/
def Dev.addPack (d : Dev) (y : PackOp) : Dev :=
  let r := d.takeBins y.pool y.need []
  let id := r.1.rte.nextOp
  let z := { y with id := id, got := r.2 }
  let d1 := { r.1 with rte := { r.1.rte with packs := r.1.rte.packs ++ [z], nextOp := id + 1 } }
  if z.got.length < z.need then
    (d1.setPool y.pool { d1.pool y.pool with waiters := (d1.pool y.pool).waiters ++ [1000 + id] }).poolShow y.pool
  else d1

/-- RPACK pack of a half (R171, R174). The bins are scattered when the operation completes. One issued again after 0x0303 takes each
copy's node from the dispatch entry, as selection found it (R198 does not say; DESIGN CHOICE, log 152). -/
def Dev.runPack (d : Dev) (s c : Nat) (ws : List Word) (b : Batch) : RRes :=
  let o := ropOf ws
  let x := b.table
  let h := (b.half o.half).getD { toks := [], scored := true, packed := false, combine := none }
  let cp := capacityPass x b.work b.ntok o.half b.used0 h.toks
  let toks := if b.cancelled then h.toks else cp.2
  let b1 : Batch := b.setHalf o.half (some { h with toks := toks })
  let k := d.packBins s b1 o.half
  if !pitchOk o.pitch (x.rowlen64 * 64) then .fault d (b.opFault 0x0302 s o)
  else if !d.poolFor o.pool (some s) then .fault d (poolFault 0x0701 (BitVec.ofNat 64 o.pool) o.pool 0 48)
  else
    match d.outsider s toks with
    | some t => .fault d (routeFault 0x0303 s o.rt b.epoch o.half t.1 t.2.1 t.2.2.expert t.2.2.node)
    | none =>
      if !d.binsFit o.pool b k.1 k.2 then .fault d (b.opFault 0x0302 s o)
      else
        let n := fun (p : SlotSel → Bool) => (toks.map (fun t => (t.slots.filter p).length)).sum
        let d1 := d.modBatch s b.epoch (fun y =>
          { y.setHalf o.half (some { h with toks := toks, packed := true }) with
            nDrop := y.nDrop + n (fun z => decide (z.st = .dropped)),
            nSpill := y.nSpill + n SlotSel.spilled,
            used0 := if o.half then y.used0 else cp.1 })
        let d2 := if d.directMode s then d1.setRb (Reg.XGEN_STAT s) 1 true else d1
        let y : PackOp := { id := 0, kind := 0, slot := s, core := c, pool := o.pool, desc := ws ++ [BitVec.ofNat 64 b.epoch],
                            held := [], stage := 0, need := k.2.length, got := [] }
        .ok ((d2.addPack y).combineHalf s b.epoch o.half)

/-! ### RCOMBINE (R187, R189) -/

/-- RCOMBINE of a half. -/
def Dev.runCombine (d : Dev) (s c : Nat) (o : ROp) (b : Batch) : RRes :=
  if !pitchOk o.pitch b.table.outBytes then .fault d (b.opFault 0x0302 s o)
  else
    let y : CombineOp := { core := c, so := o.so, buf := o.bufA, pitch := o.pitch, done := false }
    .ok ((d.modHalf s b.epoch o.half (fun h => { h with combine := some y })).combineHalf s b.epoch o.half)

/-! ### Sequence and waiting (R190) -/

/-- A waiting operation of a route table. -/
def OpenWait.is (y : OpenWait) (rt : Nat) (score : Bool) (h1 : Bool) : Bool :=
  decide ((ropOf y.desc).rt = rt) && decide ((ropOf y.desc).half = h1) && (score == decide (y.kind ≤ 1))

/-- A waiting operation opens a batch. -/
def OpenWait.opens (y : OpenWait) : Bool := decide (y.kind ≤ 1) && !(ropOf y.desc).half

/-- A fifth batch open waits for the close of the batch that is then the oldest (R181). -/
def RouteCtx.putBehind (x : RouteCtx) (y : OpenWait) : OpenWait :=
  if y.opens && y.behind.isNone && decide (4 ≤ x.batches.length) then
    { y with behind := x.batches.head?.map (fun b => b.epoch) }
  else y

/-- The batch whose close an open waits for is still open. -/
def RouteCtx.heldBehind (x : RouteCtx) (y : OpenWait) : Bool :=
  match y.behind with
  | some n => x.batches.any (fun b => decide (b.epoch = n))
  | none => false

/-- Runs a routing operation that waits behind nothing: 0 RSCORE, 1 RSELECT, 2 RPACK pack, 3 RCOMBINE. RPACK waits until the
scoring of its half has posted (R42). -/
def Dev.routeRun (d : Dev) (s c kind : Nat) (ws : List Word) : RRes :=
  let o := ropOf ws
  let seq := RRes.fault d (d.opFault 0x0306 s o)
  if kind ≤ 1 then
    if o.half then
      match d.dueBatch s o.rt dueH1 with
      | some b => d.runScore s c (kind == 1) o b
      | none => seq
    else if d.ownOpen o.rt then seq
    else if d.openWaits s o.rt then .wait d
    else d.runOpen s c (kind == 1) o
  else if kind = 2 then
    match d.dueBatch s o.rt (duePack o.half) with
    | some b => if (b.half o.half).any (fun h => h.scored) then d.runPack s c ws b else .wait d
    | none => seq
  else
    match d.dueBatch s o.rt (dueCombine o.half) with
    | some b => d.runCombine s c o b
    | none => seq

/-- The operation is out of sequence against what waits on its route table (R190). -/
def RouteCtx.waitSeq (x : RouteCtx) (kind : Nat) (o : ROp) : Bool :=
  if kind ≤ 1 then
    x.waits.any (fun y => y.is o.rt true o.half) || (o.half && !x.waits.any (fun y => y.is o.rt true false))
  else
    !x.waits.any (fun y => y.is o.rt true o.half)

/-- A waiting RPACK or RCOMBINE of the same half of the route table. -/
def OpenWait.repeats (y : OpenWait) (kind : Nat) (o : ROp) : Bool :=
  decide (2 ≤ kind) && decide (y.kind = kind) && decide ((ropOf y.desc).rt = o.rt) && decide ((ropOf y.desc).half = o.half)

/-- A waiting operation stands behind another: an open behind an open, any behind a scoring of its route table, and behind
what acts on the same half of it. -/
def OpenWait.after (y z : OpenWait) : Bool :=
  (y.opens && z.opens) || (decide ((ropOf z.desc).rt = (ropOf y.desc).rt)
    && (decide (z.kind ≤ 1) || decide ((ropOf z.desc).half = (ropOf y.desc).half)))

/-- RPACK pack or RCOMBINE is due on a batch that is open. -/
def Dev.dueNow (d : Dev) (s kind : Nat) (o : ROp) : Bool :=
  if kind = 2 then (d.dueBatch s o.rt (duePack o.half)).isSome
  else decide (kind = 3) && (d.dueBatch s o.rt (dueCombine o.half)).isSome

/-- Issues a routing operation in the context of a slot (R139, R190): it runs, or waits behind what waits on its route
table, an open also behind any waiting open. -/
def Dev.routeTake (d : Dev) (s c kind : Nat) (ws : List Word) : RRes :=
  let o := ropOf ws
  let x := d.rctx s
  if !d.rctxValid s || !d.rtAllowed s o.rt then .fault d (d.opFault 0x0301 s o)
  else if x.waits.any (fun y => y.repeats kind o) then .fault d (d.opFault 0x0306 s o)
  else if x.waits.any (fun y => decide (y.kind ≤ 1) && decide ((ropOf y.desc).rt = o.rt)) && !d.dueNow s kind o then
    (if x.waitSeq kind o then .fault d (d.opFault 0x0306 s o) else .wait d)
  else if decide (kind ≤ 1) && !o.half && x.waits.any OpenWait.opens then
    (if d.ownOpen o.rt then .fault d (d.opFault 0x0306 s o) else .wait d)
  else d.routeRun s c kind ws

/-- Issue of a routing operation; an RPACK that is to wait has its pool checked here (R525). -/
def Dev.routeIssue (d : Dev) (s c kind : Nat) (ws : List Word) : RRes :=
  match d.routeTake s c kind ws with
  | .wait d1 =>
    let p := (ropOf ws).pool
    if kind = 2 ∧ d.poolFor p (some s) = false then .fault d (poolFault 0x0701 (BitVec.ofNat 64 p) p 0 48) else .wait d1
  | r => r

/-- Puts an operation behind the others that wait. -/
def Dev.addWait (d : Dev) (s c kind : Nat) (ws : List Word) : Dev :=
  let x := d.rctx s
  let y : OpenWait := { core := c, kind := kind, desc := ws, since := d.now, behind := none }
  d.setRctx s { x with waits := x.waits ++ [x.putBehind y] }

/-- A routing instruction that takes a route operation descriptor in g[rs1]. While RTE_CTRL.hold is set it waits. -/
def routeInstr (kind : Nat) (w : IW) (d : Dev) (x : Core) : IRes :=
  if d.rb Reg.RTE_CTRL 0 then .stall d (.room 256)
  else
    match d.desc w.core (x.r1 w) 8 with
    | .stop r => r
    | .ok d1 ws =>
      let ds := ws.map (BitVec.ofNat 64)
      if !d1.owns x.slotN (ropOf ds).so then unitRaise d1 (d1.objFault w.core (ropOf ds).so 1)
      else
      match d1.routeIssue x.slotN w.core kind ds with
      | .ok d2 => .done (d2.unitDone x.slotN 57)
      | .fault d2 f => unitRaise (d2.unitDone x.slotN 57) f
      | .late d2 f => .done ((d2.unitDone x.slotN 57).asyncFault w.core x.slotN f)
      | .stall d2 va => .stall d2 (.operand x.slotN va)
      | .wait d2 => .done (d2.addWait x.slotN w.core kind ds)

/-- RSCORE (R189, R390). -/
def execRscore (w : IW) (s : State) : Host.Outcome State Fault Refusal :=
  run (.rscore w) (fun d => d.instr (cOp 0x28 false) (decide (fld w.fn 10 1 = 0)) w (routeInstr 0 w)) s

/-- RSELECT (R189, R390). -/
def execRselect (w : IW) (s : State) : Host.Outcome State Fault Refusal :=
  run (.rselect w) (fun d => d.instr (cOp 0x28 false) (decide (fld w.fn 10 1 = 0)) w (routeInstr 1 w)) s

/-- RPACK pack (R189, R393). -/
def execRpackPack (w : IW) (s : State) : Host.Outcome State Fault Refusal :=
  run (.rpackPack w) (fun d => d.instr (cOp 0x29 false) (decide (fld w.fn 10 3 = 0)) w (routeInstr 2 w)) s

/-- RCOMBINE (R187, R189). -/
def execRcombine (w : IW) (s : State) : Host.Outcome State Fault Refusal :=
  run (.rcombine w) (fun d => d.instr (cOp 0x29 false) (decide (fld w.fn 10 2 = 0)) w (routeInstr 3 w)) s

/-! ### Waiting opens -/

/-- Offers each waiting operation its run, in order: an open not behind another that still waits, any other not behind one
of its route table. Answers what waits on. -/
def Dev.resumeList (d : Dev) (s : Nat) : List OpenWait → List OpenWait → Dev × List OpenWait
  | [], left => (d, left)
  | y :: ys, left =>
    let z := (d.rctx s).putBehind { y with behind := if (d.rctx s).heldBehind y then y.behind else none }
    if left.any y.after || z.behind.isSome then
      d.resumeList s ys (left ++ [z])
    else
      match d.routeRun s y.core y.kind y.desc with
      | .ok d1 => (d1.unitDone s 57).resumeList s ys left
      | .fault d1 f => ((d1.unitDone s 57).asyncFault y.core s f).resumeList s ys left
      | .late d1 f => ((d1.unitDone s 57).asyncFault y.core s f).resumeList s ys left
      | .stall d1 _ => d1.resumeList s ys (left ++ [y])
      | .wait d1 => d1.resumeList s ys (left ++ [y])

/-- The operations that wait in a context proceed as far as they can. -/
def Dev.resumeOpens (d : Dev) (s : Nat) : Dev :=
  let x := d.rctx s
  let r := (d.setRctx s { x with waits := [] }).resumeList s x.waits []
  if r.1.runs s then r.1.setRctx s { r.1.rctx s with waits := r.2 } else r.1

/-- BATCH_OPEN_RESUME (R142, R181, R182). -/
def execBatchOpenResume (sl : Nat) (s : State) : Host.Outcome State Fault Refusal :=
  run (.batchOpenResume sl) (fun d => d.resumeOpens sl) s

/-- Removes the first waiting open. -/
def dropOpen : List OpenWait → List OpenWait
  | [] => []
  | y :: ys => if y.opens then ys else y :: dropOpen ys

/-- BATCH_OPEN_EPOCH_TIMEOUT (R182): 0x0307, and no batch is opened. -/
def execBatchOpenEpochTimeout (sl : Nat) (s : State) : Host.Outcome State Fault Refusal :=
  run (.batchOpenEpochTimeout sl) (fun d =>
    let x := d.rctx sl
    match x.waits.find? OpenWait.opens with
    | none => d
    | some y =>
      if x.epochTaken = false ∨ d.now < y.since + ms100 then d
      else
        (d.setRctx sl { x with waits := dropOpen x.waits }).asyncFault y.core sl (d.opFault 0x0307 sl (ropOf y.desc))) s

/-! ### Cancel (R183, R184, R661) -/

/-- What a cancel does to the slots of a half: copies not scattered are unsent. -/
def Half.cancel (h : Half) : Half :=
  { h with toks := h.toks.map (fun t => { t with slots := t.slots.map (fun y =>
      if y.st = .waiting then { y with st := .unsent } else y) }) }

/-- Slots of a batch that satisfy a condition. -/
def Batch.slotCount (b : Batch) (p : TokSel → SlotSel → Bool) : Nat :=
  (b.tokens.map (fun t => (t.slots.filter (p t)).length)).sum

/-- Cancels the open batch with an epoch. Answers that stand uncombined are discarded as stale (log 62). -/
def Dev.cancelBatch (d : Dev) (s epoch : Nat) : Dev :=
  match d.batchOf s epoch with
  | none => d
  | some b =>
    if b.cancelled then d
    else
      let un := b.slotCount (fun _ y => decide (y.st = .waiting))
      let st := b.slotCount (fun t y => !t.out && y.answer.isSome)
      let d1 := d.modBatch s epoch (fun y =>
        { y with cancelled := true, h0 := y.h0.map Half.cancel, h1 := y.h1.map Half.cancel, nUnsent := y.nUnsent + un,
                 nStale := y.nStale + st })
      let d2 := d1.satRf (Reg.STALE_DROPS s) 31 0 st
      ((d2.combineHalf s epoch false).combineHalf s epoch true).tryClose s epoch

/-- The fault of a cancel in a job that declares the reproducible profile (R661). -/
def cancelFault (pc : Nat) : FaultInfo := mkFault 0x0112 4 57 pc 4 0

/-- RCTX_CANCEL_GO (R183): a write of 1 to RCTX_CANCEL.go. -/
def Dev.cancelGo (d : Dev) (s epoch : Nat) : Dev :=
  if d.hasJob s && d.rb (Reg.JOB_PROFILE s) 0 then d.unitFault s (cancelFault 0) else d.cancelBatch s epoch

/-- RCTX_CANCEL_GO (R183). -/
def execRctxCancelGo (v : Via) (sl epoch : Nat) (s : State) : Host.Outcome State Fault Refusal :=
  host (.rctxCancelGo v sl epoch) v false false (fun a => if viaSees v sl then a.cancelGo sl epoch else a) s

/-! ### RSTAT (R396) -/

/-- The encoding of RSTAT is legal (Table 8-10). -/
def rstatLegal (w : IW) : Bool := !bitAt w.fn 2 && decide (fld w.fn 10 6 = 0)

/-- RSTAT in a valid context; with a route table, one of its range. -/
def rstat (d : Dev) (x : Core) (rt : Option Nat) (k : Nat → IRes) : IRes :=
  let s := x.slotN
  let o : ROp := { ropOf [] with rt := rt.getD 0 }
  if d.rb Reg.RTE_CTRL 0 then .stall d (.room 256)
  else if !d.rctxValid s || (match rt with
      | some r => !d.rtAllowed s r
      | none => false) then unitRaise d (d.opFault 0x0301 s o)
  else k s

/-- RSTAT read ledger (Table 8-10). -/
def execRstatReadLedger (w : IW) (s : State) : Host.Outcome State Fault Refusal :=
  run (.rstatReadLedger w) (fun d => d.instr (cOp 0x29 false) (rstatLegal w) w (fun d1 x =>
    rstat d1 x none (fun sl =>
      let ls := (List.range 8).map (fun i => d1.reg (Reg.LEDG sl i)) ++ [d1.reg (Reg.LEDG_INFO sl)]
      let va := (x.r2 w).toNat
      if 2 ^ 48 ≤ va then .raise d1 5 (memFault 0x0610 w.core va 0 0 0)
      else
      match d1.unitStore w.core va (ls.flatMap (fun v => leBytes 8 v.toNat)) with
      | .ok d2 _ => doneRd d2 w (d1.reg (Reg.LEDG_INFO sl))
      | .fault d2 f => .raise d2 (causeOf true f.code) f
      | .stall d2 => .stall d2 (.operand sl va)))) s

/-- RSTAT cancel (R183, R661). -/
def execRstatCancel (w : IW) (s : State) : Host.Outcome State Fault Refusal :=
  run (.rstatCancel w) (fun d => d.instr (cOp 0x29 false) (rstatLegal w) w (fun d1 x =>
    rstat d1 x none (fun sl =>
      if d1.rb (Reg.JOB_PROFILE sl) 0 then unitRaise d1 (cancelFault x.pc.toNat)
      else doneRd (d1.cancelBatch sl (fld (x.r1 w) 11 0)) w 0))) s

/-- The descriptor whose counts RSTAT supplies: of the oldest batch not route-closed, else the one in force. -/
def Dev.supplyTable (d : Dev) (s rt : Nat) : Rtd :=
  match d.dueBatch s rt (fun b => !b.routeClosed) with
  | some b => b.table
  | none => rtdOf (d.rtdForce rt)

/-- RSTAT supply counts (R167): a route close that waits for them completes. -/
def execRstatSupplyCounts (w : IW) (s : State) : Host.Outcome State Fault Refusal :=
  run (.rstatSupplyCounts w) (fun d => d.instr (cOp 0x29 false) (rstatLegal w) w (fun d1 x =>
    let rt := fld (x.r1 w) 7 0
    rstat d1 x (some rt) (fun sl =>
      let n := (d1.supplyTable sl rt).ecount
      let va := (x.r2 w).toNat
      if va % 4 ≠ 0 then .raise d1 3 (misaligned w.core va)
      else if 2 ^ 48 ≤ va then .raise d1 4 (memFault 0x0610 w.core va 0 0 0)
      else
      match d1.unitLoad w.core va (4 * n) with
      | .fault d2 f => .raise d2 (causeOf false f.code) f
      | .stall d2 => .stall d2 (.operand sl va)
      | .ok d2 bs =>
        let d3 := d2.setSupply rt (leWords 4 n bs)
        let waits := (d3.closing sl rt).any (fun b => b.waitCounts.isSome)
        doneRd (if waits then d3.routeCloseRun sl rt else d3) w 0))) s

/-- RSTAT reload (R143). -/
def execRstatReload (w : IW) (s : State) : Host.Outcome State Fault Refusal :=
  run (.rstatReload w) (fun d => d.instr (cOp 0x29 false) (rstatLegal w) w (fun d1 x =>
    let rt := fld (x.r1 w) 7 0
    rstat d1 x (some rt) (fun _ =>
      doneRd { d1 with rte := { d1.rte with reload := tput (fun _ => false) d1.rte.reload rt true } } w 0))) s

end Sys2Proof.Machine
end

