-- ==== Sys2Proof/Machine/Marver.lean ====
section
/-! DEFINITION. Marver: scattering bins, arrival buffers, restaging, answers to the combine unit, and the completion of
routing operations (R174, R185, R187, R209 to R215, R394, R395, R517, R531). -/

namespace Sys2Proof.Machine

/-- Writes ranges of local addresses as a unit does. -/
def Dev.wrRanges (d : Dev) (w : Who) : List (Nat × List Byte) → MemRes
  | [] => .ok d []
  | (va, bs) :: ps =>
    match d.wr w va bs with
    | .ok d1 _ => d1.wrRanges w ps
    | .fault d1 f => .fault d1 f
    | .stall d1 => .stall d1

/-- What the end of a Marver operation's work answers. -/
inductive PackRes where
  | ok (d : Dev)
  | fault (d : Dev) (f : FaultInfo)
  /-- A buffer is under repair: the work ends later. -/
  | stall (d : Dev)

/-- What a write answers, as the end of an operation. -/
def PackRes.of : MemRes → PackRes
  | .ok d _ => .ok d
  | .fault d f => .fault d f
  | .stall d => .stall d

/-- A bin's bytes with the header that Marver gives it: source, epoch, half, stage, direction, table, row length, tag. -/
def Dev.binFor (d : Dev) (s epoch : Nat) (half : Bool) (stage : Nat) (ret : Bool) (rt rowbytes : Nat)
    (cs : List Copy) : List Byte :=
  let n := (rtdOf (d.rtdForce rt)).rowlen64 * 64
  binBytes { src := d.node, epoch := epoch, half := half, stage := stage, ret := ret, nentries := 0, rt := rt, ncopies := 0,
             rowbytes := rowbytes, tag := tagOfBlock (exchangeBlock (d.jobId s) epoch half stage ret n) } cs

/-! ### RPACK pack (R173, R174, R216) -/

/-- The bins of a half with rows, converted for the nodes that refuse them (R792, R393). -/
def Dev.fillBins (d : Dev) (s : Nat) (b : Batch) (k : BinKey) (row : CopyDesc → List Byte) :
    List (Nat × List Copy) → List (List Copy) → Dev × List (List Copy)
  | [], acc => (d, acc.reverse)
  | v :: vs, acc =>
    let r := d.convertBin s b.rt (k.partner d.node v.1) (v.2.map (fun c => { c with row := row c.desc }))
    r.1.fillBins s b k row vs (r.2 :: acc)

/-- The copies of a half that waited have been sent. -/
def Half.sent (h : Half) : Half :=
  { h with toks := h.toks.map (fun t => { t with slots := t.slots.map (fun y =>
      if y.st = .waiting then { y with st := .sent } else y) }) }

/-- Scatters a half into its bins. -/
def Dev.scatter (d : Dev) (y : PackOp) (b : Batch) : PackRes :=
  let o := ropOf y.desc
  let k := d.packBins y.slot b o.half
  let cs := k.2.flatMap Prod.snd
  let len := b.table.rowlen64 * 64
  match d.rdRanges (unitWho y.slot 57) (cs.map (fun c => (o.bufA + (c.desc.token - b.first o.half) * o.pitch, len))) [] with
  | .fault d1 f => .fault d1 f
  | .stall d1 _ => .stall d1
  | .ok d1 rows =>
    let rowOf := fun (c : CopyDesc) =>
      rows.getD (cs.findIdx (fun z => decide (z.desc.token = c.token) && decide (z.desc.slot = c.slot))) []
    let r := d1.fillBins y.slot b k.1 rowOf k.2 []
    let bytes := (List.zip k.2 r.2).map (fun v =>
      r.1.binFor y.slot b.epoch o.half k.1.stage false b.rt (r.1.packRow b (k.1.partner d.node v.1.1)) v.2)
    match r.1.wrRanges (unitWho y.slot 57) (List.zip y.got bytes) with
    | .ok d2 _ => .ok (d2.modHalf y.slot b.epoch o.half Half.sent)
    | .fault d2 f => .fault d2 f
    | .stall d2 => .stall d2

/-! ### The end of a stage (R48) -/

/-- The nodes whose bins, each with its counts, a stage brings here, this device's own among them (R48, R174, R199, R794). -/
def Dev.stageSources (d : Dev) (s stage : Nat) : List Nat :=
  if d.directMode s then d.members s else (d.ring s stage).map (axisNode stage d.node)

/-- A stage is complete: the counts headers of all its partners are held (R48). In direct mode a member without an expert of the
layer has none (R794). -/
def Dev.stageComplete (d : Dev) (s stage : Nat) (bs : List Bin) : Bool :=
  (d.directMode s && decide (bs = [])) || (d.stageSources s stage).all (fun n => bs.any (fun b => decide (b.head.src = n)))

/-- The last dispatch stage of a job's exchange; of a job without stages the X axis, on which this device stands alone. -/
def Dev.lastAxis (d : Dev) (s : Nat) : Nat := ([3, 2, 1, 0].find? (d.axisUsed s)).getD 0

/-! ### RPACK arrive (R394, R395) -/

/-- The copies of held bins, merged in the order of R210. -/
def mergeBins (ret : Bool) (bs : List Bin) : List Copy :=
  sortBy (fun (c : Copy) => c.desc.order ret) (bs.flatMap Bin.copies)

/-- Row length of an arrival buffer: that of the first bin. -/
def arrivalRow (bs : List Bin) : Nat := (bs.head?.map (fun b => b.head.rowbytes)).getD 0

/-- The count of a local expert over the held bins (R215). -/
def arrivalCount (bs : List Bin) (e : Nat) : Nat :=
  (bs.map (fun b => ((b.counts.filter (fun x => decide (x.2.1 = e))).map (fun x => x.2.2)).sum)).sum

/-- Index of the first row of a local expert; of one without copies, the index its rows would take (log 63). -/
def arrivalFirst (cs : List Copy) (e : Nat) : Nat :=
  let i := cs.findIdx (fun c => decide (c.desc.lexp = e))
  if i < cs.length then i else (cs.filter (fun c => decide (c.desc.lexp < e))).length

/-- The arrival table (Table 8-9). -/
def arrivalTable (o : ROp) (epoch nlocal abuf : Nat) (bs : List Bin) (cs : List Copy) : List Byte :=
  leBytes 8 (epoch + b2n o.half * 2 ^ 12 + o.rt * 2 ^ 16 + nlocal * 2 ^ 24) ++ leBytes 8 abuf ++ leBytes 4 cs.length
    ++ List.replicate 44 0#8
    ++ (List.range nlocal).flatMap (fun e =>
        leBytes 4 (arrivalCount bs e) ++ leBytes 4 (arrivalFirst cs e) ++ leBytes 8 e)

/-- Writes the arrival buffer, table and descriptors. -/
def Dev.arrive (d : Dev) (y : PackOp) : PackRes :=
  let o := ropOf y.desc
  match d.readBins (unitWho y.slot 57) y.held [] with
  | .fault d1 f => .fault d1 f
  | .stall d1 _ => .stall d1
  | .ok d1 bs =>
    let cs := mergeBins false bs
    let abuf := y.got.headD 0
    let epoch := (bs.head?.map (fun b => b.head.epoch)).getD 0
    PackRes.of (d1.wrRanges (unitWho y.slot 57)
      [(abuf, cs.flatMap Copy.row), (o.bufB, arrivalTable o epoch (y.desc.getD 8 0).toNat abuf bs cs),
       (o.bufC, cs.flatMap (fun c => c.desc.bytes))])

/-- Reads the held-bin list and the bins, and takes the arrival buffer. It runs at the end of the last dispatch stage (R394): until the
list names the bins of all that stage's partners it waits, and reads the list again each CCLK (R48; log 146). -/
def Dev.runArrive (d : Dev) (s c : Nat) (ws : List Word) : RRes :=
  let o := ropOf ws
  if !d.rctxValid s || !d.rtAllowed s o.rt then .fault d (d.opFault 0x0301 s o)
  else if !d.poolFor o.pool (some s) then .fault d (poolFault 0x0701 (BitVec.ofNat 64 o.pool) o.pool 0 48)
  else
    match d.rdRanges (unitWho s 57) [(o.bufA, 8 * o.nbins)] [] with
    | .fault d1 f => .late d1 f
    | .stall d1 va => .stall d1 va
    | .ok d1 ls =>
      let held := (leWords 8 o.nbins (ls.getD 0 [])).map (fun a => a % 2 ^ 48)
      match d1.readBins (unitWho s 57) held [] with
      | .fault d2 f => .late d2 f
      | .stall d2 va => .stall d2 va
      | .ok d2 bs =>
        if d2.stageComplete s (d2.lastAxis s) bs = false then .wait d2
        else if d2.bufSize o.pool < (mergeBins false bs).length * arrivalRow bs then
          .fault d2 (routeFault 0x0302 s o.rt ((bs.head?.map (fun b => b.head.epoch)).getD 0) o.half 0 0 0 0)
        else
          let y : PackOp := { id := 0, kind := 1, slot := s, core := c, pool := o.pool,
                              desc := ws ++ [BitVec.ofNat 64 (d2.rf (Reg.RT_OBJ o.rt) 27 16)], held := held, stage := 0,
                              need := 1, got := [] }
          .ok (d2.addPack y)

/-- RPACK arrive (R394). -/
def execRpackArrive (w : IW) (s : State) : Host.Outcome State Fault Refusal :=
  run (.rpackArrive w) (fun d => d.instr (cOp 0x29 false) (decide (fld w.fn 10 3 = 0)) w (fun d1 x =>
    if d1.rb Reg.RTE_CTRL 0 then .stall d1 (.room 256)
    else
      match d1.desc w.core (x.r1 w) 8 with
      | .stop r => r
      | .ok d2 ws =>
        if !d2.owns x.slotN (nfld (ws.getD 0 0) 47 32) then unitRaise d2 (d2.objFault w.core (nfld (ws.getD 0 0) 47 32) 1)
        else
        match d2.runArrive x.slotN w.core (ws.map (BitVec.ofNat 64)) with
        | .ok d3 => .done (d3.unitDone x.slotN 57)
        | .fault d3 f => unitRaise (d3.unitDone x.slotN 57) f
        | .late d3 f => .done ((d3.unitDone x.slotN 57).asyncFault w.core x.slotN f)
        | .stall d3 va => .stall d3 (.operand x.slotN va)
        | .wait d3 => .stall (d3.unitDone x.slotN 57) (.room 512))) s

/-! ### Restaging (R209 to R212, R517) -/

/-- A local expert's object is in the quarantine list (R517). -/
def Dev.lexpLost (d : Dev) (s rt lexp : Nat) : Bool :=
  decide (lexp < d.rf (Reg.RT_OBJ rt) 27 16) && d.quarantined s (d.rf (Reg.RT_OBJ rt) 15 0 + lexp)

/-- Poison of an answer descriptor that Marver packs at the expert's device (R175, R517). -/
def Dev.packPoison (d : Dev) (s : Nat) (ret : Bool) (c : Copy) : Copy :=
  if ret && decide (c.desc.dest = d.node) && d.lexpLost s c.desc.rt c.desc.lexp then
    { c with desc := { c.desc with poison := true } }
  else c

/-- The bins of a restage: one for each partner on the axis of the next stage and one for the device (R209). Table 8-8 gives no
operation that makes the first return-stage bins: the model lets a restage make them, of a held bin of answers whose header the
program wrote with dir = 1 (R55, R205; DESIGN CHOICE, log 127). -/
def Dev.restageBins (d : Dev) (s stage : Nat) (bs : List Bin) : List (Nat × List Copy) :=
  let ret := (bs.head?.map (fun b => b.head.ret)).getD false
  let k := BinKey.axis stage
  k.bins d.node (d.ring s stage) (if ret then CopyDesc.home else CopyDesc.dest)
    ((mergeBins ret bs).map (d.packPoison s ret))

/-- Writes the restaged bins. -/
def Dev.restage (d : Dev) (y : PackOp) : PackRes :=
  match d.readBins (unitWho y.slot 57) y.held [] with
  | .fault d1 f => .fault d1 f
  | .stall d1 _ => .stall d1
  | .ok d1 bs =>
    match bs.head? with
    | none => .ok d1
    | some b =>
      let h := b.head
      let bytes := (d1.restageBins y.slot y.stage bs).map (fun v =>
        d1.binFor y.slot h.epoch h.half y.stage h.ret h.rt h.rowbytes v.2)
      PackRes.of (d1.wrRanges (unitWho y.slot 57) (List.zip y.got bytes))

/-! ### The end of an operation (R189, R531) -/

/-- Removes a Marver operation. -/
def Dev.dropPack (d : Dev) (id : Nat) : Dev :=
  { d with rte := { d.rte with packs := d.rte.packs.filter (fun y => decide (y.id ≠ id)) } }

/-- The work of a Marver operation that holds its buffers. -/
def Dev.packWork (d : Dev) (y : PackOp) : PackRes :=
  if y.kind = 0 then
    match d.knownBatch y.slot (y.desc.getD 8 0).toNat with
    | some b => d.scatter y b
    | none => .ok d
  else if y.kind = 1 then d.arrive y
  else d.restage y

/-- Ends a Marver operation that holds its buffers: they go to its core, and RPACK posts its object (R137, R531). -/
def Dev.packEnd (d : Dev) (y : PackOp) : Dev :=
  if y.got.length < y.need then d
  else
    match d.packWork y with
    | .stall d1 => d1
    | .fault d1 f => (((d1.dropPack y.id).unitDone y.slot 57).opFails y.core y.slot f y.got).tryClose y.slot (y.desc.getD 8 0).toNat
    | .ok d1 =>
      let d2 := ((d1.dropPack y.id).unitDone y.slot 57).handAll y.slot y.core y.got
      let d3 := if y.kind = 0 then d2.tryClose y.slot (y.desc.getD 8 0).toNat else d2
      if y.kind = 2 then d3 else d3.donePost y.slot 57 (ropOf y.desc).so 1 false

/-- The Marver operation with a number. -/
def Dev.packOf (d : Dev) (id : Nat) : Option PackOp := d.rte.packs.find? (fun y => decide (y.id = id))

/-- Ends the Marver operation with a number, if it holds its buffers. -/
def Dev.packTry (d : Dev) (id : Nat) : Dev :=
  match d.packOf id with
  | some y => d.packEnd y
  | none => d

/-- The stage that follows stage t in a job's exchange: upward in dispatch, downward in return (R201). -/
def Dev.stageAfter (d : Dev) (s : Nat) (ret : Bool) (t : Nat) : Option Nat :=
  if ret then [3, 2, 1, 0].find? (fun a => decide (a < t) && d.axisUsed s a)
  else [0, 1, 2, 3].find? (fun a => decide (t < a) && d.axisUsed s a)

/-- The stages into which held bins may be restaged: the next one of their direction. The first return stage is the last axis
in use; bins whose header has dir = 1 and which the program wrote for it may carry any stage there (R201, R205; log 127). -/
def Dev.stageNext (d : Dev) (s stage : Nat) (bs : List Bin) : Bool :=
  match bs.head? with
  | none => false
  | some b => decide (d.stageAfter s b.head.ret b.head.stage = some stage)
      || (b.head.ret && decide (d.stageAfter s true 4 = some stage))

/-- The held bins are those of a complete stage (R48), or the answers packed for the first return stage (log 127). -/
def Dev.heldAll (d : Dev) (s stage : Nat) (bs : List Bin) : Bool :=
  match bs.head? with
  | none => false
  | some b => (b.head.ret && decide (d.stageAfter s true 4 = some stage)) || d.stageComplete s b.head.stage bs

/-- MARVER_RESTAGE (R209): Marver takes the bins' buffers from a pool, and works once it holds them. -/
def execMarverRestage (c pool stage : Nat) (held : List Nat) (s : State) : Host.Outcome State Fault Refusal :=
  run (.marverRestage c pool stage held) (fun d =>
    match (d.core c).slot with
    | none => d
    | some sl =>
      if d.runs sl = false ∨ held = [] then d
      else if !d.poolFor pool (some sl) then d.asyncFault c sl (poolFault 0x0701 (BitVec.ofNat 64 pool) pool 0 48)
      else
        match d.readBins (unitWho sl 57) held [] with
        | .fault d1 f => (d1.unitDone sl 57).asyncFault c sl f
        | .stall d1 _ => d1
        | .ok d0 bs =>
          let d1 := d0.unitDone sl 57
          if d1.stageNext sl stage bs = false ∨ d1.heldAll sl stage bs = false then d1 else
          let vs := d1.restageBins sl stage bs
          let row := fun (v : List Copy) => (v.map (fun (x : Copy) => x.row.length)).sum
          if vs.any (fun v => decide (d1.bufSize pool < binSize (countList v.2).length v.2.length 0 + row v.2)) then
            match bs.head? with
            | some b => d1.asyncFault c sl (routeFault 0x0302 sl b.head.rt b.head.epoch b.head.half 0 0 0 0)
            | none => d1
          else
            let y : PackOp := { id := 0, kind := 2, slot := sl, core := c, pool := pool, desc := [], held := held,
                                stage := stage, need := vs.length, got := [] }
            (d1.addPack y).packTry d1.rte.nextOp) s

/-- ROUTING_OPERATION_COMPLETE (R189): buffers go to their core, and the operation's object is posted. The operations of one
context complete in the order in which their work ends. A scoring that has posted lets the RPACK of its half begin (R42). -/
def execRoutingOperationComplete (k : Nat) (s : State) : Host.Outcome State Fault Refusal :=
  run (.routingOperationComplete k) (fun d =>
    match d.rte.ops.find? (fun o => decide (o.id = k)) with
    | some o =>
      if d.rte.ops.find? (fun y => decide (y.slot = o.slot)) ≠ some o then d
      else
        let d1 := { d with rte := { d.rte with ops := d.rte.ops.filter (fun y => decide (y.id ≠ k)) } }
        let d2 := (d1.handAll o.slot o.core o.bufs).donePost o.slot 57 o.so 1 o.err
        match o.scores with
        | some h => (d2.modHalf o.slot h.1 h.2 (fun y => { y with scored := true })).resumeOpens o.slot
        | none => d2
    | none => d.packTry k) s

/-- A Marver operation whose turn has come takes a buffer. -/
def Dev.packGot (d : Dev) (p id : Nat) : Dev :=
  match d.packOf id, d.handOut p 48 with
  | some y, some r =>
    let z := { y with got := y.got ++ [r.2.bufAddr p r.1] }
    let d1 := { r.2 with rte := { r.2.rte with packs := r.2.rte.packs.map (fun v => if v.id = id then z else v) } }
    if z.got.length < z.need then d1
    else if z.kind = 2 then (d1.dropWaiter p (1000 + id)).packTry id
    else d1.dropWaiter p (1000 + id)
  | _, _ => d.dropWaiter p (1000 + id)

/-- BALLOC_WAITER_SERVED (R543): the first waiter that the level permits receives a buffer. -/
def execBallocWaiterServed (p : Nat) (s : State) : Host.Outcome State Fault Refusal :=
  run (.ballocWaiterServed p) (fun d =>
    match d.nextWaiter p with
    | none => d
    | some r =>
      if 1000 ≤ r then (d.packGot p (r - 1000)).poolShow p
      else
        match (d.dropWaiter p r).handOut p r with
        | some q => q.2.ballocGot r p q.1
        | none => d) s

/-! ### Answers (R185, R187, R198) -/

/-- FP32 words of an answer row (R187: exact). -/
def answerWords (x : Rtd) (row : List Byte) : List W32 :=
  (List.range (x.hdim128 * 128)).map (fun i =>
    let y := packedElem (fmtBits x.ansfmt) row i
    if x.ansfmt = 0 then BitVec.ofNat 32 y else BitVec.ofNat 32 (convertElem 0 [] Rnd.rne (decodeElem x.ansfmt [] y)).1)

/-- The state of the slot that an answer is for. -/
def Batch.slotAt (b : Batch) (token slot : Nat) : Option (Bool × TokSel × SlotSel) :=
  [false, true].findSome? (fun h1 =>
    (((b.half h1).map Half.toks).getD []).findSome? (fun t =>
      if t.token = token then t.slots[slot]?.map (fun y => (h1, t, y)) else none))

/-- Puts the answer of a slot. -/
def Dev.putAnswer (d : Dev) (s : Nat) (b : Batch) (h1 : Bool) (c : Copy) : Dev :=
  let st := if c.desc.poison then SlotState.poisoned else .answered (answerWords b.table c.row)
  let d1 := d.modHalf s b.epoch h1 (fun h => { h with toks := h.toks.map (fun t =>
    if t.token = c.desc.token then t.setSlot c.desc.slot (fun y => { y with st := st }) else t) })
  if c.desc.poison then d1.modBatch s b.epoch (fun y => { y with nPois := y.nPois + 1 }) else d1

/-- An answer for a slot that it may not be for. -/
def answerFault (code s : Nat) (h1 : Bool) (c : CopyDesc) : FaultInfo :=
  routeFault code s c.rt c.epoch h1 c.token c.slot c.expert c.dest

/-- One answer at the combine unit; `some` with the fault that stops the job. -/
def Dev.takeAnswer (d : Dev) (s : Nat) (c : Copy) : Dev × Option FaultInfo :=
  match d.batchOf s c.desc.epoch with
  | none => (d.satRf (Reg.STALE_DROPS s) 31 0 1, none)
  | some b =>
    if b.cancelled then
      ((d.satRf (Reg.STALE_DROPS s) 31 0 1).modBatch s b.epoch (fun y => { y with nStale := y.nStale + 1 }), none)
    else
      match b.slotAt c.desc.token c.desc.slot with
      | none => (d, some (answerFault 0x0305 s false c.desc))
      | some r =>
        if r.2.1.out then
          (d, some (answerFault (if r.2.2.st = .void ∨ r.2.2.st = .dropped then 0x0305 else 0x0304) s r.1 c.desc))
        else
          match r.2.2.st with
          | .sent => (d.putAnswer s b r.1 c, none)
          | .answered _ => (d, some (answerFault 0x0304 s r.1 c.desc))
          | .poisoned => (d, some (answerFault 0x0304 s r.1 c.desc))
          | _ => (d, some (answerFault 0x0305 s r.1 c.desc))

/-- The answers of a bin in order, up to the first that faults, with its fault. -/
def Dev.takeAnswers (d : Dev) (s : Nat) : List Copy → Dev × Option FaultInfo
  | [] => (d, none)
  | x :: xs =>
    match d.takeAnswer s x with
    | (d1, none) => d1.takeAnswers s xs
    | (d1, some f) => (d1, some f)

/-- Combines and closes what the answers have settled. -/
def Dev.settleBatches (d : Dev) (s : Nat) : Dev :=
  ((d.rctx s).batches.map Batch.epoch).foldl (fun a e =>
    ((a.combineHalf s e false).combineHalf s e true).tryClose s e) d

/-- RETURN_BIN_HANDOFF (R205, R531): the combine unit takes a bin that the core holds, and returns its buffer. -/
def execReturnBinHandoff (c : Nat) (bin : Nat) (s : State) : Host.Outcome State Fault Refusal :=
  run (.returnBinHandoff c bin) (fun d =>
    match (d.core c).slot with
    | none => d
    | some sl =>
      match d.findBuf (some sl) bin with
      | none => d
      | some pi =>
        if d.runs sl = false ∨ ((d.pool pi.1).recOf pi.2).releasedBy c = false then d
        else
          match d.readBins (unitWho sl 57) [bin] [] with
          | .fault d1 f => (d1.unitDone sl 57).asyncFault c sl f
          | .stall d1 _ => d1
          | .ok d1 bs =>
            match ((d1.unitDone sl 57).bufHand pi.1 pi.2 49).takeAnswers sl (bs.flatMap Bin.copies) with
            | (d2, some f) => d2.opFails c sl f [bin]
            | (d2, none) => (d2.bufReturn pi.1 pi.2).settleBatches sl) s

end Sys2Proof.Machine
end

