-- ==== Sys2Proof/Machine/Exchange.lean ====
section
/-! DEFINITION. The exchange: XSEND, XRECV, tags, receipts and aborts (file 04, R397 to R401). -/

namespace Sys2Proof.Machine

/-! ### Faults of the exchange (R229, R247, R248) -/

/-- Bins (kind 0) or chunks (kind 1) of a tag that a slot has taken. -/
def Dev.takenOf (d : Dev) (s tag kind : Nat) : Nat :=
  ((if kind = 0 then d.xch.bins else d.xch.chunks).filter (fun b => decide (b.1 = s) && decide (b.2.1 = tag))).length

/-- The unit kind of a receive kind (Table 13-3): bins 4, chunks 3, other messages 5. -/
def unitKind (kind : Nat) : Nat := if kind = 0 then 4 else if kind = 1 then 3 else 5

/-! ### XSEND (R397) -/

/-- A send descriptor (Table 8-11). -/
structure SendDesc where
  src : Nat
  dest : Nat
  bytes : Nat
  queue : Nat
  chan : Nat
  vc : Nat
  so : Nat
  deriving DecidableEq, Repr

/-- The send descriptor that words spell. -/
def sendDescOf (ws : List Nat) : SendDesc :=
  let a := ws.getD 0 0
  let b := ws.getD 1 0
  { src := nfld a 47 0, dest := nfld a 63 48, bytes := nfld b 31 0, queue := nfld b 35 32, chan := nfld b 39 36,
    vc := nfld b 42 40, so := nfld b 63 48 }

/-- The checks of R427 and R786. -/
def Dev.sendOk (d : Dev) (s : Nat) (x : SendDesc) : Bool :=
  decide (x.src % 64 = 0) && decide (64 ≤ x.bytes) && decide (x.bytes ≤ 2 ^ 28) && decide (x.bytes % 64 = 0)
    && (decide (x.vc = 2) || decide (x.vc = 3)) && d.member s x.dest && decide (d.genOf x.dest ≠ 1)

/-- The RTS of a message (R608); its rid names the message within the device and leaves as 0. -/
def Dev.rtsOf (d : Dev) (m : SendMsg) : Tx :=
  { d.tx 0x08 0 m.dest (d.jobId m.slot) m.core with chan := m.chan, queue := m.queue, offset := m.bytes, rid := m.id }

/-- Starts a message of the bytes of its source, or of given ones: its RTS is issued in the space of its channel. -/
def Dev.startMessage (d : Dev) (s c : Nat) (x : SendDesc) (body : Option (List Byte)) : Dev :=
  let m : SendMsg :=
    { id := d.xch.nextSend, slot := s, core := c, src := x.src, dest := x.dest, bytes := x.bytes, queue := x.queue,
      chan := x.chan, vc := x.vc, so := x.so, seq := 0, phase := 0, since := d.now, sent := 0, acked := 0, body := body }
  let d1 := { d with xch := { d.xch with nextSend := d.xch.nextSend + 1, sends := d.xch.sends ++ [m] } }
  d1.issue (d1.rtsOf m) []

/-- XSEND (R397, R427, R550). -/
def execXsend (w : IW) (s : State) : Host.Outcome State Fault Refusal :=
  run (.xsend w) (fun d => d.instr (cOp 0x2A false) (decide (fld w.fn 10 2 = 0)) w (fun d1 x =>
    match d1.desc w.core (x.r1 w) 4 with
    | .stop r => r
    | .ok d2 ws =>
      let sl := x.slotN
      let y := sendDescOf ws
      if d2.sendOk sl y = false then
        unitRaise (d2.xchShow sl 0x0409 0) (xchFault 0x0409 (x.r1 w) w.core 0 0 0 0)
      else if !d2.owns sl y.so then unitRaise d2 (d2.objFault w.core y.so 1)
      else if d2.spaceFailed { d2.tx 0x08 0 y.dest (d2.jobId sl) w.core with chan := y.chan } then
        unitRaise d2 (fabFault 0x0504 (x.r1 w) y.dest w.core y.chan false 0 0 0)
      else .done (d2.startMessage sl w.core y none))) s

/-! ### Messages of the shipped programs (R229, R234, R243, R244) -/

/-! #### Landing zones of Mionak 1 members (R795; log 130) -/

/-- A landing zone: its window at the receiver, log2 of the bytes of a message slot, the receiver's object, the sender's credit
object. -/
structure Zone where
  win : Nat
  lb : Nat
  lso : Nat
  cso : Nat
  deriving DecidableEq, Repr

/-- The zone of a receiver for a sender, as the set-up names it. -/
def Dev.zoneOf (d : Dev) (s recv send zone : Nat) : Zone :=
  let z := Config.landing (d.jobId s) recv send zone
  { win := z.1 % 256, lb := z.2.1 % 40, lso := z.2.2.1 % 65536, cso := z.2.2.2 % 65536 }

/-- The key of a zone in the counts. -/
def zoneKey (s node zone : Nat) : Nat := (s * 2 + zone) * 65536 + node

/-- Messages sent to a zone since set-up. -/
def Dev.zoneSent (d : Dev) (x : ZoneMsg) : Nat := tget (fun _ => 0) d.xch.zoneOut (zoneKey x.slot x.dest x.zone)

/-- Sets them. -/
def Dev.setZoneSent (d : Dev) (x : ZoneMsg) (m : Nat) : Dev :=
  { d with xch := { d.xch with zoneOut := tput (fun _ => 0) d.xch.zoneOut (zoneKey x.slot x.dest x.zone) m } }

/-- Message m may go: fewer than two have been sent, or message m - 2 has been consumed. -/
def Dev.zoneFree (d : Dev) (x : ZoneMsg) : Bool :=
  let m := d.zoneSent x
  decide (m < 2) || decide (m - 1 ≤ d.synCount (d.zoneOf x.slot x.dest d.node x.zone).cso)

/-- A post by a shipped program to an object of another node, as SOPOST makes it (R105, R556). -/
def Dev.programPost (d : Dev) (s c node obj n : Nat) (g : Gate) : Dev :=
  let d1 := d.notePost s n
  Dev.remoteLedgerCheck (d1.issue { d1.tx 0x07 4 node (d1.jobId s) c with offset := obj + n * 2 ^ 16 } g) s

/-- The set-up again, before the credit object would pass 2^32 - 1: with every message consumed, it and the count restart. -/
def Dev.zoneRenew (d : Dev) (x : ZoneMsg) : Dev :=
  let cso := (d.zoneOf x.slot x.dest d.node x.zone).cso
  if d.zoneSent x = 2 ^ 32 - 2 ∧ d.synCount cso = d.zoneSent x then (d.synReset cso).setZoneSent x 0 else d

/-- Message m goes: BLK writes to slot m mod 2 of the zone, on VC2, then a post of its units, released after them. -/
def Dev.zonePut (d0 : Dev) (x : ZoneMsg) : Dev :=
  let d := d0.zoneRenew x
  let z := d.zoneOf x.slot x.dest d.node x.zone
  let m := d.zoneSent x
  let d1 := (List.range ((x.body.length + 4095) / 4096)).foldl (fun (a : Dev) (i : Nat) =>
    let bs := (x.body.drop (4096 * i)).take 4096
    let t : Tx := { a.tx 0x04 2 x.dest (a.jobId x.slot) x.core with
      chan := x.chan, offset := z.win * 2 ^ 40 + m % 2 * 2 ^ z.lb + 4096 * i, lenM1 := bs.length - 1, payload := bs }
    a.issue t []) d
  ((d1.programPost x.slot x.core x.dest z.lso (x.body.length / 64) (d1.gateOf x.core (some x.dest))).setZoneSent x (m + 1)).setRb
    (Reg.XGEN_STAT x.slot) 2 true

/-- Messages that wait for the same zone as one does. -/
def ZoneMsg.same (x y : ZoneMsg) : Bool := decide (x.slot = y.slot) && decide (x.dest = y.dest) && decide (x.zone = y.zone)

/-- The waiting messages that may go, go: those of one zone in order. -/
def Dev.zoneTick (d : Dev) : Dev :=
  let r := d.xch.zoneWait.foldl (fun (a : Dev × List ZoneMsg) x =>
    if a.2.any x.same || !a.1.zoneFree x then (a.1, a.2 ++ [x]) else (a.1.zonePut x, a.2)) (d, [])
  { r.1 with xch := { r.1.xch with zoneWait := r.2 } }

/-- Of a sender: messages taken, and units of them since the receiver's object was reset. -/
def Dev.zoneTaken (d : Dev) (s src zone : Nat) : Nat × Nat := tget (fun _ => (0, 0)) d.xch.zoneIn (zoneKey s src zone)

/-- The next message in the landing zone of a sender: its bytes, of which `len` gives the number from the first 64; none where none
stands there, or memory does not give it yet. -/
def Dev.zoneNext (d : Dev) (s src zone : Nat) (len : List Byte → Nat) : Dev × Option (List Byte) :=
  let z := d.zoneOf s d.node src zone
  let t := d.zoneTaken s src zone
  let units := d.synCount z.lso - t.2
  if units = 0 then (d, none)
  else
    match d.receiverCheck (d.jobId s) (z.win * 2 ^ 40 + t.1 % 2 * 2 ^ z.lb) 64 false with
    | .error _ => (d, none)
    | .ok sa =>
      match d.rd (unitWho s 60) sa.2 64 with
      | .ok d1 head =>
        (match d1.unitRead s 60 sa.2 (min (64 * units) (len head)) with
         | .ok d2 bs => (d2, some bs)
         | r => (r.dev, none))
      | r => (r.dev, none)

/-- A message of n bytes has been copied out of its slot: the sender's credit object is posted, as a release; the receiver's
object restarts when nothing more stands in the zone. -/
def Dev.zoneTake (d : Dev) (s c src zone n : Nat) : Dev :=
  let z := d.zoneOf s d.node src zone
  let t := d.zoneTaken s src zone
  let u := t.2 + (n + 63) / 64
  let all := decide (d.synCount z.lso ≤ u)
  let d1 := { d with xch := { d.xch with
    zoneIn := tput (fun _ => (0, 0)) d.xch.zoneIn (zoneKey s src zone) (t.1 + 1, if all then 0 else u) } }
  (if all then d1.synReset z.lso else d1).programPost s c src z.cso 1 (d1.gateOf c none)

/-- A message whose bytes the shipped programs hold: VC3, in a receive queue of their choice (log 129). One to a Mionak 1, which
grants no messages, waits for its landing zone (R795). -/
def Dev.sendBody (d : Dev) (s c dest chan queue zone : Nat) (bs : List Byte) : Dev :=
  if d.genOf dest = 1 then
    { d with xch := { d.xch with
      zoneWait := d.xch.zoneWait ++ [({ slot := s, core := c, dest := dest, chan := chan, zone := zone, body := bs } : ZoneMsg)] } : Dev }.zoneTick
  else d.startMessage s c { src := 0, dest := dest, bytes := bs.length, queue := queue % 16, chan := chan, vc := 3, so := 0 } (some bs)

/-- A message of 64 bytes about a chunk: an anchor proposal, a request for the chunk, a receipt or an abort message. The spec
gives these no layout but the tag's place; the model puts the fields where a chunk header has theirs (DESIGN CHOICE, log 129). -/
structure Note where
  tag : Nat
  idx : Nat
  p : Int
  amode : Nat
  /-- 0 proposal, 1 request, 2 receipt, 3 abort, 4 the answer of a member that holds no copy of a chunk it is asked for. -/
  kind : Nat
  src : Nat
  shards : Nat
  deriving DecidableEq, Repr

/-- The bytes of a note. -/
def Note.bytes (n : Note) : List Byte :=
  leBytes 8 n.tag ++ leBytes 4 n.idx ++ leBytes 2 (ofSval 16 n.p) ++ leBytes 1 n.amode ++ leBytes 1 n.kind ++ leBytes 2 n.src
    ++ leBytes 2 0 ++ leBytes 2 n.shards ++ List.replicate 42 0#8

/-- The note that bytes spell. -/
def noteOf (bs : List Byte) : Note :=
  let at_ := fun (i n : Nat) => leNat ((bs.drop i).take n)
  { tag := at_ 0 8, idx := at_ 8 4, p := sval 16 (at_ 12 2), amode := at_ 14 1, kind := at_ 15 1, src := at_ 16 2, shards := at_ 20 2 }

/-- Sends a note to the queue of notes of a collective, on ordering channel 15 (R234). -/
def Dev.sendNote (d : Dev) (s c dest seq : Nat) (n : Note) : Dev := d.sendBody s c dest 15 (Config.xchQueue 1 seq) 1 n.bytes

/-- The message of a number. -/
def Dev.sendMsg (d : Dev) (m : Nat) : Option SendMsg := d.xch.sends.find? (fun x => decide (x.id = m))

/-- Replaces a message. -/
def Dev.putMsg (d : Dev) (m : SendMsg) : Dev :=
  { d with xch := { d.xch with sends := d.xch.sends.map (fun x => if x.id = m.id then m else x) } }

/-- Ends a message. -/
def Dev.dropMsg (d : Dev) (m : Nat) : Dev :=
  { d with xch := { d.xch with sends := d.xch.sends.filter (fun x => decide (x.id ≠ m)) } }

/-- Key of the space in which a message travels. -/
def Dev.msgKey (d : Dev) (m : SendMsg) : SpaceKey :=
  { job := d.jobId m.slot, src := d.node, core := m.core, dst := m.dest, chan := m.chan, post := false }

/-- What reading the source of a message gave: fragments read, and what ended the reading. -/
inductive SrcRes where
  | all (d : Dev) (fs : List (List Byte))
  | poisoned (d : Dev)
  | fault (d : Dev) (fs : List (List Byte)) (f : FaultInfo)
  | stall (d : Dev)

/-- Reads the fragments of a message of core c in offset order. -/
def Dev.readFragments (d : Dev) (s c : Nat) : List (Nat × Nat) → List (List Byte) → SrcRes
  | [], acc => .all d acc.reverse
  | (va, n) :: ps, acc =>
    match d.rd (unitWho s c) va n with
    | .ok d1 bs => d1.readFragments s c ps (bs :: acc)
    | .fault d1 f => if f.code = 0x0601 then .poisoned d1 else .fault d1 acc.reverse f
    | .stall d1 => .stall d1

/-- Addresses and lengths of the fragments of a message (R608). -/
def fragmentsOf (m : SendMsg) : List (Nat × Nat) :=
  (List.range ((m.bytes + 4095) / 4096)).map (fun i => (m.src + 4096 * i, min 4096 (m.bytes - 4096 * i)))

/-- Puts fragments at the front of what waits in the message's space; they are its next transactions (R608). -/
def Dev.queueFragments (d : Dev) (m : SendMsg) (fs : List (List Byte)) : Dev :=
  let k := d.msgKey m
  let x := d.space k
  let ts := (List.range fs.length).map (fun i =>
    let bs := fs.getD i []
    (({ d.tx 0x05 m.vc m.dest (d.jobId m.slot) m.core with
        chan := m.chan, queue := m.queue, offset := 4096 * i, lenM1 := bs.length - 1, payload := bs,
        first := decide (i = 0), last := decide (4096 * i + bs.length = m.bytes) }, []) : Tx × Gate))
  let y : SendSpace := { x with waiting := ts ++ x.waiting, msg := none }
  Dev.pump y.waiting.length k ((d.setSpace y).putMsg { m with phase := 2, sent := (fs.map List.length).sum })

/-- Frees a space from a message that sends nothing more. -/
def Dev.freeSpace (d : Dev) (m : SendMsg) : Dev :=
  let k := d.msgKey m
  let x := d.space k
  let y : SendSpace := { x with msg := none }
  Dev.pump y.waiting.length k (d.setSpace y)

/-- A message posts its object; one of a shipped program has none. -/
def Dev.sendPost (d : Dev) (m : SendMsg) (err : Bool) : Dev := if m.body.isSome then d else d.unitPost m.slot m.so 1 err

/-- A granted message reads its source and sends its fragments (R397, R512, R513). -/
def Dev.sendGranted (d : Dev) (m : SendMsg) : Dev :=
  match m.body with
  | some bs => d.queueFragments m ((fragmentsOf m).map (fun f => (bs.drop (f.1 - m.src)).take f.2))
  | none =>
  match d.readFragments m.slot m.core (fragmentsOf m) [] with
  | .all d1 fs => (d1.unitDone m.slot m.core).queueFragments m fs
  | .poisoned d1 => (((d1.unitDone m.slot m.core).dropMsg m.id).freeSpace m).sendPost m true
  | .fault d1 fs f => ((d1.unitDone m.slot m.core).queueFragments m fs).asyncFault m.core m.slot f
  | .stall d1 => d1.putMsg { m with phase := 5 }

/-- A buffer whose releaser is the destination of a message that starts at it is released (R535). -/
def Dev.releaseSource (d : Dev) (m : SendMsg) : Dev :=
  if m.body.isSome then d else
  match d.findBuf (some m.slot) m.src with
  | none => d
  | some pi =>
    let r := (d.pool pi.1).recOf pi.2
    if r.held && r.relNode && decide (r.releaser = nodeCode m.dest) && !r.released then d.bufRelease pi.1 pi.2 else d

/-- XSEND_COMPLETE (R397): every byte has been acknowledged. A message whose source was under repair reads it again. -/
def execXsendComplete (m : Nat) (s : State) : Host.Outcome State Fault Refusal :=
  run (.xsendComplete m) (fun d =>
    match d.sendMsg m with
    | none => d
    | some y =>
      if y.phase = 5 then d.sendGranted y
      else if (y.phase = 2 ∨ y.phase = 6) ∧ y.acked = y.bytes then
        let d1 := d.sendPost y false
        if y.vc = 2 then (d1.dropMsg m).releaseSource y
        else if y.body.isSome ∧ y.chan = 15 then d1.dropMsg m
        else if y.phase = 6 then d1.dropMsg m
        else d1.putMsg { y with phase := 4 }
      else d) s

/-! ### XRECV (R229, R242 to R244, R398 to R400) -/

/-- Removes a message from its queue. -/
def Dev.dropRecv (d : Dev) (s q : Nat) (m : RecvMsg) : Dev :=
  let x := d.rqueue s q
  d.setRqueue s q { x with msgs := x.msgs.filter (fun y => decide (y ≠ m)) }

/-- A message that is not committed: its buffer returns at once (R400). -/
def Dev.discardRecv (d : Dev) (s q : Nat) (m : RecvMsg) : Dev := (d.dropRecv s q m).bufReturn m.pool m.buf

/-- Local address of a message. -/
def Dev.recvAddr (d : Dev) (m : RecvMsg) : Nat := d.bufAddr m.pool m.buf

/-- The first n bytes of a message whose lines stand here; zeros where a fault keeps them back. -/
def Dev.recvBytes (d : Dev) (s : Nat) (m : RecvMsg) (n : Nat) : List Byte :=
  match d.rd (unitWho s 60) (d.recvAddr m) n with
  | .ok _ bs => bs
  | _ => List.replicate n 0#8

/-- Reads the whole of a message, so that what looks at it has its bytes: the device, and whether they stand here. -/
def Dev.recvWhole (d : Dev) (s : Nat) (m : RecvMsg) : Dev × Bool :=
  match d.rd (unitWho s 60) (d.recvAddr m) m.bytes with
  | .stall d1 => (d1, false)
  | r => (r.dev, true)

/-- Bytes of a bin before its rows. -/
def BinHead.front (h : BinHead) : Nat := 64 + pad64 (8 * h.nentries) + pad64 (16 * h.ncopies)

/-- A bin passes the checks of R214 on an axis. -/
def Dev.binChecks (d : Dev) (h : BinHead) (axis : Nat) (es : List CountEntry) (cs : List CopyDesc) : Bool :=
  let here := axisCoord axis d.node
  let at_ := fun (n : Nat) => decide (axisCoord axis n = here)
  decide ((es.map (fun e => e.2.2)).sum = h.ncopies)
    && (h.ret || es.all (fun e => at_ e.1))
    && cs.all (fun c => at_ (if h.ret then c.home else c.dest) && decide (c.rt = h.rt)
        && (h.ret || decide (c.dest ≠ d.node) || decide (c.lexp < d.rf (Reg.RT_OBJ c.rt) 27 16)))

/-- The fault code of a bin, 0 for none: its source is a partner of the stage that has sent no bin before (R205), and its
contents pass R214. -/
def Dev.binCode (d : Dev) (s axis tag : Nat) (m : RecvMsg) : Nat :=
  let h := binHeadOf (d.recvBytes s m 64)
  let partners := ((d.ring s axis).map (axisNode axis d.node)).filter (fun n => decide (n ≠ d.node))
  if !partners.contains m.src || d.xch.bins.contains (s, tag, m.src) then 0x0406
  else if m.bytes < h.front then 0x0405
  else
    let bs := d.recvBytes s m h.front
    let es := (leWords 8 h.nentries (bs.drop 64)).map countOf
    let ds := bs.drop (64 + pad64 (8 * h.nentries))
    let cs := (List.range h.ncopies).map (fun i => copyDescOf ((ds.drop (16 * i)).take 16))
    if d.binChecks h axis es cs then 0 else 0x0405

/-- A bin is taken; once every partner's has been, the stage is over. -/
def Dev.binTaken (d : Dev) (s axis tag src : Nat) : Dev :=
  let others := (d.ring s axis).length - 1
  let bins := (s, tag, src) :: d.xch.bins
  let mine := fun (b : Nat × Nat × Nat) => decide (b.1 = s) && decide (b.2.1 = tag)
  { d with xch := { d.xch with bins := if others ≤ (bins.filter mine).length then bins.filter (fun b => !mine b) else bins } }

/-- The crc of a chunk holds (Table 4-9). -/
def chunkOk (bs : List Byte) : Bool :=
  decide (leNat ((bs.drop 24).take 8) = crc64xz (bs.take 24 ++ bs.drop 64))

/-- The failed attempts on a chunk that an entry names. -/
def ofChunk (s tag idx : Nat) (r : Nat × Nat × Nat × Nat) : Bool := decide (r.1 = s + 16 * idx) && decide (r.2.1 = tag)

/-- Failed attempts on a chunk so far. -/
def Dev.attempts (d : Dev) (s tag idx : Nat) : Nat := ((d.xch.refetch.find? (ofChunk s tag idx)).map (fun r => r.2.2.1)).getD 0

/-- The member that sent a chunk first: that of the first failed attempt, else of the copy in hand (R244). -/
def Dev.firstSender (d : Dev) (s tag idx src : Nat) : Nat := ((d.xch.refetch.find? (ofChunk s tag idx)).map (fun r => r.2.2.2)).getD src

/-- Sets the failed attempts, with the first sender. -/
def Dev.setAttempts (d : Dev) (s tag idx n src : Nat) : Dev :=
  let rest := d.xch.refetch.filter (fun r => !ofChunk s tag idx r)
  { d with xch := { d.xch with refetch := if n = 0 then rest else (s + 16 * idx, tag, n, src) :: rest } }

/-- The refetch limit of a slot (XCH_CFG.refetch_max). -/
def Dev.refetchMax (d : Dev) (s : Nat) : Nat := max 1 (d.rf (Reg.XCH_CFG s) 19 16)

/-- A descriptor of XRECV in the form in which the core waits on it. -/
structure RecvWait where
  rd : Nat
  queue : Nat
  tag : Nat
  kind : Nat
  axis : Nat
  limit : Nat
  deriving DecidableEq, Repr

/-- The wait of a core. -/
def RecvWait.wait (y : RecvWait) : Wait := .recv y.rd y.queue (BitVec.ofNat 64 y.tag) y.kind y.axis y.limit

/-- A message is committed: its buffer passes to the core, its address to g[rd] (R399, R531). XCH_BINS counts a bin here; a
chunk is counted when its sum or copy is written to out (R246). -/
def Dev.takeMessage (d : Dev) (c s : Nat) (y : RecvWait) (m : RecvMsg) : IRes :=
  let d1 := (d.dropRecv s y.queue m).bufHand m.pool m.buf c
  let d2 := if y.kind = 0 then d1.addRf (Reg.XCH_BINS s) 63 0 1 else d1
  .done (d2.modCore c (fun x => x.setG y.rd (BitVec.ofNat 64 (d.recvAddr m))))

/-- The epoch, half, stage and direction of a bin (Table 13-4). -/
def BinHead.word (h : BinHead) : Nat := h.epoch + b2n h.half * 2 ^ 12 + h.stage * 2 ^ 13 + b2n h.ret * 2 ^ 15

/-- The receive sync object of a queue is posted (R242): the one, if any, that the job's program has named for it (log 97). -/
def Dev.recvPost (d : Dev) (s q : Nat) : Dev :=
  match Config.recvObj (d.jobId s) q with
  | some o => d.unitPost s (o % 65536) 1 false
  | none => d

/-- Holders of a chunk in the order in which its receiver asks them: the sender, the owner, then other members in ring order
from the receiver (R244). Which ring that is the spec does not say: an XRECV takes the job's nodes by number, a collective its
members by rank, in a box group too (DESIGN CHOICE, log 129). -/
def Dev.holders (d : Dev) (s src owner : Nat) (others : List Nat) : List Nat :=
  let ring := owner :: others
  src :: (ring.filter (fun n => decide (n ≠ src) && decide (n ≠ d.node) && d.member s n)).eraseDups

/-- The members of a job in ring order from this device: by node number, cyclically (DESIGN CHOICE, log 129). -/
def Dev.ringFrom (d : Dev) (s : Nat) : List Nat :=
  let ms := d.members s
  ms.filter (fun n => decide (d.node < n)) ++ ms.filter (fun n => decide (n < d.node))

/-- A request for a chunk to a node. XCH_REFETCHES counts every request that is sent, whether or not a verified copy comes: the spec
says only that it counts chunk refetches (R247; DESIGN CHOICE, log 129). -/
def Dev.askNode (d : Dev) (s c tag seq idx node : Nat) : Dev :=
  (d.satRf (Reg.XCH_REFETCHES s) 31 0 1).sendNote s c node seq
    { tag := tag, idx := idx, p := 0, amode := 0, kind := 1, src := d.node, shards := 0 }

/-- Asks for a chunk again after k failed attempts, the first of them on a copy from src: the next holder in their order (R244). -/
def Dev.askAgain (d : Dev) (s c tag seq idx k src : Nat) (hs : List Nat) : Dev :=
  (d.setAttempts s tag idx (k + 1) src).askNode s c tag seq idx (hs.getD (k % hs.length) 0)

/-- The receipt of a verified chunk goes to its sender (R243). -/
def Dev.sendReceipt (d : Dev) (s c tag seq idx dest : Nat) : Dev :=
  d.sendNote s c dest seq { tag := tag, idx := idx, p := 0, amode := 0, kind := 2, src := d.node, shards := 0 }

/-- XRECV with the messages of its queue that have arrived whole (fuel: their number). It waits for the lines of a message whose
buffer has a far home. -/
def Dev.recvGo (c s : Nat) (y : RecvWait) : Nat → Dev → IRes
  | 0, d => .stall d y.wait
  | n + 1, e =>
    match (e.rqueue s y.queue).msgs.find? (fun m => m.complete) with
    | none => .stall e y.wait
    | some m =>
      let r := e.recvWhole s m
      if r.2 = false then .stall r.1 y.wait else
      let d := r.1.unitDone s 60
      let info := BitVec.ofNat 64 (d.recvAddr m)
      let head := r.1.recvBytes s m 64
      let got := leNat ((head.drop (if y.kind = 0 then 16 else 0)).take 8)
      let d1 := if y.kind = 0 then (binHeadOf head).word else 0
      let idx := if y.kind = 1 then leNat ((head.drop 8).take 4) else 0
      if got ≠ y.tag then
        let a := (((d.discardRecv s y.queue m).xchShow s 0x0401 m.src).setReg (Reg.XCH_LAST_EXP s) (BitVec.ofNat 64 y.tag)).setReg
          (Reg.XCH_LAST_GOT s) (BitVec.ofNat 64 got)
        .raise (a.satRf (Reg.XCH_BAD_TAGS s) 31 0 1) 8
          ((xchFault 0x0401 info c y.tag d1 m.src idx).inFlight (unitKind y.kind) (d.takenOf s y.tag y.kind))
      else if y.kind = 0 then
        let code := r.1.binCode s y.axis y.tag m
        if code = 0 then (d.binTaken s y.axis y.tag m.src).takeMessage c s y m
        else .raise ((d.discardRecv s y.queue m).xchShow s code m.src) 8
          ((xchFault code info c y.tag d1 m.src 0).inFlight 4 (d.takenOf s y.tag 0))
      else if y.kind = 1 then
        if d.xch.chunks.contains (s, y.tag, idx) then Dev.recvGo c s y n (d.discardRecv s y.queue m)
        else if chunkOk (r.1.recvBytes s m m.bytes) then
          let a := { d with xch := { d.xch with chunks := (s, y.tag, idx) :: d.xch.chunks } }
          let b := if (head.getD 15 0).toNat.testBit 1 then a.setRb (Reg.XCH_STATUS s) 2 true else a
          (((b.setAttempts s y.tag idx 0 0).recvPost s y.queue).sendReceipt s c y.tag 0 idx m.src).takeMessage c s y m
        else
          let k := d.attempts s y.tag idx
          let src := d.firstSender s y.tag idx m.src
          let a := d.discardRecv s y.queue m
          if d.refetchMax s ≤ k then
            .raise ((a.setAttempts s y.tag idx 0 0).xchShow s 0x0403 m.src) 8
              ((xchFault 0x0403 info c y.tag 0 m.src idx).inFlight 3 (d.takenOf s y.tag 1))
          else Dev.recvGo c s y n (a.askAgain s c y.tag 0 idx k src (d.holders s src (leNat ((head.drop 18).take 2)) (d.ringFrom s)))
      else d.takeMessage c s y m

/-- The wait limit in ms: of the descriptor, else of XCH_CFG (0 is taken as 100). -/
def Dev.recvLimit (d : Dev) (s tmo : Nat) : Nat :=
  let t := if tmo = 0 then d.rf (Reg.XCH_CFG s) 15 0 else tmo
  d.now + (if t = 0 then 100 else t) * 1000000

/-- XRECV receive (R399, R400). -/
def execXrecvReceive (w : IW) (s : State) : Host.Outcome State Fault Refusal :=
  run (.xrecvReceive w) (fun d => d.instr (cOp 0x2A false) (decide (fld w.fn 10 2 = 0)) w (fun d1 x =>
    match d1.desc w.core (x.r1 w) 4 with
    | .stop r => r
    | .ok d2 ws =>
      let sl := x.slotN
      let b := ws.getD 1 0
      if nfld b 5 4 = 3 then unitRaise (d2.xchShow sl 0x0409 0) (xchFault 0x0409 (x.r1 w) w.core (ws.getD 0 0) 0 0 0)
      else
        let y : RecvWait := { rd := w.rd.toNat, queue := nfld b 3 0, tag := ws.getD 0 0, kind := nfld b 5 4,
                              axis := nfld b 7 6, limit := d2.recvLimit sl (nfld b 47 32) }
        Dev.recvGo w.core sl y ((d2.rqueue sl y.queue).msgs.length + 1) d2)) s

/-- A waiting XRECV of a core looks at its queue again. -/
def Dev.recvRetry (d : Dev) (c : Nat) : Dev :=
  let x := d.core c
  match x.wait with
  | some (.recv rd q tag kind axis limit) =>
    let y : RecvWait := { rd := rd, queue := q, tag := tag.toNat, kind := kind, axis := axis, limit := limit }
    Dev.finish c x.ilen (Dev.recvGo c x.slotN y ((d.rqueue x.slotN q).msgs.length + 1) d)
  | _ => d

/-- Each CCLK a core that waits in XRECV looks whether a message, or lines of one, have come. -/
def Dev.recvTick (d : Dev) : Dev :=
  cores41.foldl (fun a c =>
    match (a.core c).wait with
    | some (.recv _ q _ _ _ _) => if (a.rqueue (a.core c).slotN q).msgs.any RecvMsg.complete then a.recvRetry c else a
    | _ => a) d

/-- A message has arrived whole in a queue: the cores that wait on it look, by number. -/
def Dev.recvArrived (d : Dev) (s q : Nat) : Dev :=
  cores41.foldl (fun a c =>
    match (a.core c).wait with
    | some (.recv _ q' _ _ _ _) => if q' = q ∧ (a.core c).slotN = s then a.recvRetry c else a
    | _ => a) d

/-- XRECV bind (R398): a queue that leaves a pool gives its reservations back. -/
def Dev.bindQueue (d : Dev) (s q p : Nat) : Dev :=
  let x := d.rqueue s q
  match x.pool with
  | none => d.setRqueue s q { x with pool := some p }
  | some o =>
    if o = p then d
    else x.reserved.foldl (fun a i => a.bufReturn o i) (d.setRqueue s q { x with pool := some p, reserved := [] })

/-- XRECV bind (R398): fault 0x0701 for a pool that is not the caller's. -/
def execXrecvBind (w : IW) (s : State) : Host.Outcome State Fault Refusal :=
  run (.xrecvBind w) (fun d => d.instr (cOp 0x2A false) (decide (fld w.fn 10 2 = 0)) w (fun d1 x =>
    let p := fld (x.r2 w) 15 0
    if d1.poolNamed w.core p = false then unitRaise d1 (poolFault 0x0701 (x.r2 w) p 0 w.core)
    else .done (d1.bindQueue x.slotN (fld (x.r1 w) 3 0) p))) s

/-! ### Tags and aborts -/

/-- XTAG (R401): the tag of the 32 bytes at g[rs1]. -/
def execXtag (w : IW) (s : State) : Host.Outcome State Fault Refusal :=
  run (.xtag w) (fun d => d.instr (cOp 0x2B false) (decide (w.fn = 0)) w (fun d1 x =>
    if 2 ^ 48 ≤ (x.r1 w).toNat then .raise d1 4 (memFault 0x0610 w.core (x.r1 w).toNat 0 0 0)
    else
      match d1.unitLoad w.core (x.r1 w).toNat 32 with
      | .ok d2 bs => doneRd d2 w (BitVec.ofNat 64 (tagOfBlock bs))
      | .fault d2 f => .raise d2 (causeOf false f.code) f
      | .stall d2 => .stall d2 (.operand x.slotN (x.r1 w).toNat))) s

end Sys2Proof.Machine
end

