-- ==== Sys2Proof/Machine/Collective.lean ====
section
/-! DEFINITION. Collectives: the shipped collective program as its rules state it (file 04, R220 to R246, R653), and what ends
one: receipts, timeouts and abort messages. The program is started by a call of its address, and goes on at each CCLK (log 129). -/

namespace Sys2Proof.Machine

/-! ### The descriptor and its checks (R220, R221, R796) -/

/-- The collective descriptor that words spell (Table 4-4). -/
def collDescOf (ws : List Nat) : CollDesc :=
  let w := fun i => ws.getD i 0
  { op := nfld (w 0) 7 0, rop := nfld (w 0) 11 8, xfer := nfld (w 0) 15 12, etype := nfld (w 0) 23 16,
    outfmt := nfld (w 0) 27 24, amode := nfld (w 0) 29 28, repro := (w 0).testBit 30, seq := nfld (w 0) 63 32,
    group := nfld (w 1) 31 0, n := nfld (w 1) 47 32 + 1, shards := nfld (w 1) 63 48 + 1, count := w 2,
    inp := nfld (w 3) 47 0, out := nfld (w 4) 47 0, gtab := nfld (w 5) 47 0, so := nfld (w 6) 15 0,
    rank := nfld (w 6) 31 16, tmo := nfld (w 6) 47 32, fanchor := sval 16 (nfld (w 6) 63 48),
    dist := sval 32 (nfld (w 7) 31 0), ptab := nfld (w 8) 47 0 }

/-- All-reduce or reduce-scatter. -/
def CollDesc.reduces (x : CollDesc) : Bool := decide (x.op = 1) || decide (x.op = 2)

/-- A sum. -/
def CollDesc.sums (x : CollDesc) : Bool := x.reduces && decide (x.rop = 0)

/-- A reduction of FP32, BF16 or FP16 elements. -/
def CollDesc.floats (x : CollDesc) : Bool := decide (x.etype ≤ 2)

/-- A sum in an anchored transfer form (R233). -/
def CollDesc.anchored (x : CollDesc) : Bool := x.sums && x.floats && decide (x.xfer ≠ 0)

/-- Bits of an element of the input (R220). -/
def CollDesc.ebits (x : CollDesc) : Nat := if x.etype = 0x10 then 32 else if x.etype = 0x11 then 64 else fmtBits x.etype

/-- Bits of an element of the result (Table 4-6). -/
def CollDesc.obits (x : CollDesc) : Nat := if x.sums && x.floats then fmtBits x.outfmt else x.ebits

/-- Bits of an element as it travels: integers of the anchored form; FP32 partial results; u32 and u64; bytes of a move. -/
def CollDesc.tbits (x : CollDesc) : Nat :=
  if !x.reduces then 8
  else if x.anchored then (if x.xfer = 0xB then 96 else 64)
  else if x.floats then 32 else x.ebits

/-- The codes of a descriptor are assigned and allowed by Table 4-6 (R221). -/
def CollDesc.codesOk (x : CollDesc) : Bool :=
  let elem := decide (x.etype ≤ 0xA) || decide (x.etype = 0x10) || decide (x.etype = 0x11)
  decide (1 ≤ x.op) && decide (x.op ≤ 5) && decide (x.amode ≤ 1) && elem
    && (!x.reduces ||
      (decide (x.rop ≤ 2) && (x.floats || decide (0x10 ≤ x.etype))
        && (decide (x.rop ≠ 0) || !x.floats || ([0, 0xB, 0xC].contains x.xfer && decide (x.outfmt ≤ 2)))))

/-- A descriptor with its group and permutation passes the checks of R221, and of R796 for older members. -/
def Dev.collOk (d : Dev) (s : Nat) (x : CollDesc) (nodes perm : List Nat) : Bool :=
  x.codesOk && decide (x.rank < x.n) && decide nodes.Nodup && nodes.all (d.member s)
    && (decide (x.op ≠ 5) || (List.range x.n).all perm.contains)
    && decide (x.count * x.ebits % 8 = 0)
    && (!x.repro || decide (x.xfer = 0xB) || decide (x.xfer = 0xC))
    && (!nodes.any (fun m => decide (d.genOf m = 2)) || decide (x.xfer = 0) || decide (x.xfer = 0xC))
    && (!nodes.any (fun m => decide (d.genOf m = 1)) || (decide (x.xfer = 0) && !x.repro))

/-- The tag block of a collective (Table 4-7): rop and xfer are 0 where they are not used. -/
def CollDesc.block (x : CollDesc) (job : Nat) : List Byte :=
  leBytes 4 job ++ leBytes 4 x.group ++ leBytes 8 x.seq ++ leBytes 1 x.etype ++ leBytes 1 x.op
    ++ leBytes 1 (if x.reduces then x.rop else 0) ++ leBytes 1 (if x.sums && x.floats then x.xfer else 0)
    ++ leBytes 8 x.count ++ leBytes 4 0

/-! ### Rings and chunks (R222, R227) -/

/-- The coordinates that nodes use on an axis, ascending. -/
def coordsOf (ns : List Nat) (axis : Nat) : List Nat := sortBy id (ns.map (fun n => coord n axis)).eraseDups

/-- The axis rings of a group: of a box group in the order of R222 the three sizes of its box; else, and where a Mionak 1 is a
member (Table 17-5), the one ring in rank order. -/
def Dev.ringsOf (d : Dev) (nodes : List Nat) : List Nat :=
  let xs := coordsOf nodes 0
  let ys := coordsOf nodes 1
  let zs := coordsOf nodes 2
  let boxed := (xs.flatMap (fun a => ys.flatMap (fun b => zs.map (fun c => a + 16 * b + 256 * c)))).map
    (fun v => nodes.headD 0 / 4096 * 4096 + v)
  if nodes = boxed ∧ nodes.all (fun m => decide (d.genOf m ≠ 1)) then [xs.length, ys.length, zs.length] else [nodes.length]

/-- Stages of the reduce-scatter, and as many of the all-gather. -/
def Coll.rounds (x : Coll) : Nat := x.dims.length

/-- The axis of a stage: upward in the reduce-scatter, downward in the all-gather (R222). -/
def Coll.axis (x : Coll) (t : Nat) : Nat := if t < x.rounds then t else 2 * x.rounds - 1 - t

/-- Size of the ring of an axis. -/
def Coll.size (x : Coll) (a : Nat) : Nat := x.dims.getD a 1

/-- Ranks between neighbours of an axis ring. -/
def Coll.stride (x : Coll) (a : Nat) : Nat := (x.dims.drop (a + 1)).prod

/-- Index of a rank in its ring along an axis. -/
def Coll.at (x : Coll) (a r : Nat) : Nat := r / x.stride a % x.size a

/-- The own index there. -/
def Coll.me (x : Coll) (a : Nat) : Nat := x.at a x.desc.rank

/-- The rank at another index of the own ring along an axis. -/
def Coll.rankAt (x : Coll) (a i : Nat) : Nat := x.desc.rank - x.me a * x.stride a + i * x.stride a

/-- Chunks of 256 elements of one member's input. -/
def Coll.chunks1 (x : Coll) : Nat := (x.desc.count + 255) / 256

/-- Chunks of the collective: those of every member for an all-gather. -/
def Coll.chunks (x : Coll) : Nat := if x.desc.op = 3 then x.desc.n * x.chunks1 else x.chunks1

/-- The rank that owns a chunk: the one whose part of a reduce-scatter holds it (Table 4-5), or whose input it is. -/
def Coll.owner (x : Coll) (k : Nat) : Nat :=
  if x.desc.op = 3 then k / x.chunks1
  else if x.desc.reduces then k / ((x.chunks1 + x.desc.n - 1) / x.desc.n)
  else x.desc.rank

/-- Place of a chunk among those of its member. -/
def Coll.place (x : Coll) (k : Nat) : Nat := if x.desc.op = 3 then k % x.chunks1 else k

/-- Elements of a chunk. -/
def Coll.elems (x : Coll) (k : Nat) : Nat := min 256 (x.desc.count - 256 * x.place k)

/-- The chunks that a stage along an axis holds at this member: those whose owner has this member's index on every axis
before it. -/
def Coll.holds (x : Coll) (a k : Nat) : Bool := (List.range a).all (fun b => decide (x.at b (x.owner k) = x.me b))

/-- They, ascending. -/
def Coll.heldBy (x : Coll) (a : Nat) : List Nat := (List.range x.chunks).filter (x.holds a)

/-- A chunk circulates in the positive direction: it is among the first half, rounded up, of the chunks of its stage (R227). -/
def Coll.up (x : Coll) (a k : Nat) : Bool :=
  let hs := x.heldBy a
  decide ((hs.takeWhile (fun h => decide (h ≠ k))).length < (hs.length + 1) / 2)

/-- The next index in a ring. -/
def ringStep (r i : Nat) (up : Bool) : Nat := if up then (i + 1) % r else (i + r - 1) % r

/-- The index of a chunk on the wire. Each stage numbers its chunks apart, since a chunk whose index a member holds is discarded
(R242; DESIGN CHOICE, log 129). -/
def Coll.wire (x : Coll) (t k : Nat) : Nat := t * x.chunks + k

/-- Destination rank of the own input in a shift or a permutation (Table 4-5). -/
def Coll.target (x : Coll) : Nat :=
  if x.desc.op = 4 then ((x.desc.rank : Int) + x.desc.dist).emod x.desc.n |>.toNat else x.perm.getD x.desc.rank 0

/-- Source rank of the own output there. -/
def Coll.source (x : Coll) : Nat :=
  if x.desc.op = 4 then ((x.desc.rank : Int) - x.desc.dist).emod x.desc.n |>.toNat
  else (x.perm.takeWhile (fun r => decide (r ≠ x.desc.rank))).length

/-! ### Anchors (R234, R238) -/

/-- The value p of a shard's chunk: 0x7FFF with a NaN or an infinity, -32768 where every element is 0, else the exact
floor(log2) of the largest magnitude. -/
def proposalOf (vs : List Val) : Int :=
  vs.foldl (fun p v =>
    match v with
    | .fin _ m e => if m = 0 then p else max p (flog2 m e)
    | _ => 32767) (-32768)

/-- A member's input is of shards: of an anchored sum, and of an integer sum with repro = 1 (R235, R239). -/
def CollDesc.sharded (x : CollDesc) : Bool := x.anchored || (x.sums && x.repro)

/-- Shards that this member holds: those whose number is its rank modulo n. -/
def CollDesc.myShards (x : CollDesc) : Nat := if x.sharded then (x.shards + x.n - 1 - x.rank) / x.n else 1

/-- The values of a chunk's shards. -/
def Coll.values (x : Coll) (k : Nat) : Option (List (List Val)) :=
  x.own[x.place k]?.map (fun shards => shards.map (fun bs =>
    (List.range (x.elems k)).map (fun i => decodeElem x.desc.etype [] (packedElem x.desc.ebits bs i))))

/-- This member's proposal for a chunk: the largest p of its shards, once they are read. -/
def Coll.proposal (x : Coll) (k : Nat) : Option Int := (x.values k).map (fun vs => proposalOf vs.flatten)

/-- ceil(log2 n). -/
def clog2 (n : Nat) : Nat := if n ≤ 1 then 0 else Nat.log2 (n - 1) + 1

/-- The anchor of a chunk. -/
inductive Anchor where
  /-- Not agreed yet. -/
  | open_
  /-- Some shard holds a NaN or an infinity. -/
  | nonfinite
  /-- Every shard's elements are 0. -/
  | zero
  | at (a : Int)
  deriving DecidableEq, Repr

/-- The anchor of a chunk, as far as the members have agreed it (R234). A sum in another form needs none. -/
def Coll.anchor (x : Coll) (k : Nat) : Anchor :=
  if !x.desc.anchored then .at 0
  else if x.desc.amode = 1 then .at x.desc.fanchor
  else
    let ps := x.props.filter (fun p => decide (p.1 = k))
    match x.proposal k with
    | none => .open_
    | some mine =>
      if ps.length + 1 < x.desc.n then .open_
      else
        let p := ps.foldl (fun a q => max a q.2.2) mine
        if p = 32767 then .nonfinite else if p = -32768 then .zero else .at (p + clog2 x.desc.shards + 1)

/-! ### Contributions and sums (R226, R227, R233, R235 to R237) -/

/-- Elements of a chunk as they travel, and whether one of them saturated. -/
abbrev Piece := List Nat × Bool

/-- The limit of an anchored form: 2^95 - 1 or 2^63 - 1 (R237). -/
def CollDesc.limit (x : CollDesc) : Int := 2 ^ (x.tbits - 1) - 1

/-- An integer of an anchored form: saturated under a fixed anchor (R237), else as it is. A partial sum saturates as a sum does, so that
with amode = 1 the bits of a sum that saturates on its way may depend on the order (R239; DESIGN CHOICE, log 147). -/
def CollDesc.fit (x : CollDesc) (m : Int) : Nat × Bool :=
  if x.amode = 1 ∧ x.limit < m then (ofSval x.tbits x.limit, true)
  else if x.amode = 1 ∧ m < -x.limit then (ofSval x.tbits (-x.limit), true)
  else (ofSval x.tbits m, false)

/-- The integer of a value at an anchor: v × 2^(94 − a) or v × 2^(62 − a), rounded with RNE (R235). An infinity at a fixed anchor
lies beyond every limit; for a NaN the spec states no integer (log 132). -/
def CollDesc.integer (x : CollDesc) (a : Int) (v : Val) : Int :=
  match v with
  | .fin neg m e =>
    let q := scaleRat m 1 (-(e + (x.tbits - 2 : Int) - a))
    let r : Int := (roundQuot Rnd.rne q.1 q.2).1
    if neg then -r else r
  | .inf neg => if neg then -(2 ^ 96) else 2 ^ 96
  | .nan => Config.nanInteger 0

/-- The sum of two elements as they travel. FP32 adds with RNE, the arriving partial sum first (R227); max and min as R226
states; integers exactly, u32 and u64 modulo their width. -/
def CollDesc.joinElem (x : CollDesc) (p q : Nat) : Nat × Bool :=
  if x.anchored then x.fit (sval x.tbits p + sval x.tbits q)
  else if x.floats then
    let a := BitVec.ofNat 32 p
    let b := BitVec.ofNat 32 q
    ((if x.rop = 0 then add32 Rnd.rne a b else if x.rop = 1 then max32 a b else min32 a b).1.toNat, false)
  else if x.rop = 0 then ((p + q) % 2 ^ x.ebits, false)
  else (if x.rop = 1 then max p q else min p q, false)

/-- The same of a chunk. -/
def CollDesc.join (x : CollDesc) (p q : Piece) : Piece :=
  let es := List.zipWith x.joinElem p.1 q.1
  (es.map Prod.fst, p.2 || q.2 || es.any Prod.snd)

/-- An element of the input as it travels, in a form without an anchor: FP32 of a float, exactly; NaNs of a maximum or minimum
as the canonical one (R226). -/
def CollDesc.travel (x : CollDesc) (e : Nat) : Nat :=
  if x.floats then
    let v := decodeElem x.etype [] e
    if x.etype = 0 ∧ x.rop = 0 then e else (convertElem 0 [] Rnd.rne v).1
  else e

/-- This member's contribution to a chunk, once it is read and the chunk's anchor is agreed; none of a chunk that needs no
element. Of several shards the integers are added (R235). -/
def Coll.mine (x : Coll) (k : Nat) : Option Piece :=
  if x.desc.op = 3 ∧ x.owner k ≠ x.desc.rank then none
  else
    match x.own[x.place k]?, x.anchor k with
    | some shards, .at a =>
      if x.desc.anchored then
        let zero : Piece := (List.replicate (x.elems k) 0, false)
        (x.values k).map (fun vs => vs.foldl (fun acc es =>
          let ms := es.map (fun v => x.desc.fit (x.desc.integer a v))
          x.desc.join acc (ms.map Prod.fst, ms.any Prod.snd)) zero)
      else if x.desc.sharded then
        some (shards.foldl (fun acc bs => x.desc.join acc ((List.range (x.elems k)).map (packedElem x.desc.ebits bs), false))
          (List.replicate (x.elems k) 0, false))
      else if x.desc.reduces then
        some ((List.range (x.elems k)).map (fun i => x.desc.travel (packedElem x.desc.ebits (shards.headD []) i)), false)
      else some ((shards.headD []).map BitVec.toNat, false)
    | _, _ => none

/-- What another member has sent of a chunk in a stage. -/
def Coll.came (x : Coll) (t k : Nat) : Option Piece :=
  (x.got.find? (fun c => decide (c.idx = x.wire t k))).map (fun c => (c.elems, c.sat))

/-- What a member has of a chunk after a stage, given what it had before: in the reduce-scatter the owner's sum, in the
all-gather the owner's chunk. -/
def Coll.after (x : Coll) (t k : Nat) (v : Option Piece) : Option Piece :=
  let a := x.axis t
  let own := decide (x.at a (x.owner k) = x.me a)
  if x.size a ≤ 1 then v
  else if t < x.rounds then
    if own then
      match x.came t k, v with
      | some p, some q => some (x.desc.join p q)
      | _, _ => none
    else none
  else if own then v else x.came t k

/-- What a member has of a chunk at the start of a stage. -/
def Coll.before (x : Coll) (k : Nat) : Nat → Option Piece
  | 0 => x.mine k
  | t + 1 => if x.desc.op = 3 ∧ t < x.rounds then x.mine k else x.after t k (x.before k t)

/-- What a member sends of a chunk in a stage, and to which rank. In the reduce-scatter the member after the owner begins, and
each adds its own part to the partial sum that comes, ending at the owner (R227). In the all-gather the owner begins. -/
def Coll.sends (x : Coll) (t k : Nat) : Option (Nat × Piece) :=
  let a := x.axis t
  let r := x.size a
  let o := x.at a (x.owner k)
  let up := x.up a k
  let nx := ringStep r (x.me a) up
  let v := x.before k t
  if r ≤ 1 then none
  else if t < x.rounds then
    if x.me a = o then none
    else if x.me a = ringStep r o up then v.map (fun p => (x.rankAt a nx, p))
    else
      match x.came t k, v with
      | some p, some q => some (x.rankAt a nx, x.desc.join p q)
      | _, _ => none
  else if nx = o then none
  else if x.me a = o then v.map (fun p => (x.rankAt a nx, p))
  else (x.came t k).map (fun p => (x.rankAt a nx, p))

/-- The rank from which a chunk comes in a stage. -/
def Coll.sender (x : Coll) (t k : Nat) : Nat :=
  if x.desc.op = 4 ∨ x.desc.op = 5 then x.source
  else
    let a := x.axis t
    x.rankAt a (ringStep (x.size a) (x.me a) (!x.up a k))

/-- The stages of a collective. -/
def Coll.stages (x : Coll) : List Nat :=
  if x.desc.op = 1 then List.range (2 * x.rounds)
  else if x.desc.op = 2 then List.range x.rounds
  else if x.desc.op = 3 then (List.range x.rounds).map (fun t => t + x.rounds)
  else []

/-- Everything that a member may send now: index on the wire, destination rank, elements. -/
def Coll.offers (x : Coll) : List (Nat × Nat × Piece) :=
  if x.desc.op = 4 ∨ x.desc.op = 5 then
    if x.target = x.desc.rank then []
    else (List.range x.chunks).filterMap (fun k => (x.mine k).map (fun p => (x.wire 0 k, x.target, p)))
  else x.stages.flatMap (fun t => (x.heldBy (x.axis t)).filterMap (fun k =>
    (x.sends t k).map (fun v => (x.wire t k, v.1, v.2))))

/-- The next chunk to send. -/
def Coll.toSend (x : Coll) : Option (Nat × Nat × Piece) := x.offers.find? (fun v => !x.sent.contains v.1)

/-! ### The output (R224, R236, R246, R653) -/

/-- The chunks of this member's output, ascending (Table 4-5). -/
def Coll.outputs (x : Coll) : List Nat :=
  if x.desc.op = 2 then (List.range x.chunks).filter (fun k => decide (x.owner k = x.desc.rank)) else List.range x.chunks

/-- A chunk of the output as it travels, once it is verified or summed. -/
def Coll.final (x : Coll) (k : Nat) : Option Piece :=
  if x.desc.op = 4 ∨ x.desc.op = 5 then (if x.source = x.desc.rank then x.mine k else x.came 0 k)
  else if x.desc.op = 2 then x.before k x.rounds
  else x.before k (2 * x.rounds)

/-- An element of the result: an anchored sum is converted once from its exact value, an FP32 one from FP32 (R227, R236). -/
def CollDesc.result (x : CollDesc) (a : Int) (e : Nat) : Nat :=
  if x.anchored then
    let m := sval x.tbits e
    (convertElem x.outfmt [] Rnd.rne (Val.fin (decide (m < 0)) m.natAbs (a - (x.tbits - 2 : Int)))).1
  else if x.sums && x.floats then
    if x.outfmt = 0 then e else (convertElem x.outfmt [] Rnd.rne (val32 (BitVec.ofNat 32 e))).1
  else if x.reduces && x.floats then
    if x.etype = 0 then e else (convertElem x.etype [] Rnd.rne (val32 (BitVec.ofNat 32 e))).1
  else e

/-- A chunk of a reduction of floats held a NaN or an infinity: in this member's shards, in what came of it, or in the result
(R220). -/
def Coll.heldNonfinite (x : Coll) (k : Nat) (p : Piece) : Bool :=
  x.desc.reduces && x.desc.floats
    && (((x.values k).getD []).flatten.any Val.nonFinite
      || (!x.desc.anchored && (p.1 ++ (x.got.filter (fun g => decide (g.idx % x.chunks = k))).flatMap ChunkIn.elems).any
        (fun e => (val32 (BitVec.ofNat 32 e)).nonFinite)))

/-- The bytes of a chunk of the output from its elements as they travel, and its sat and nonfinite. -/
def Coll.outOf (x : Coll) (k : Nat) (v : Option Piece) : Option (List Byte × Bool × Bool) :=
  let n := x.elems k
  let w := x.desc.obits
  match x.anchor k with
  | .open_ => none
  | .nonfinite => some (packElems w (List.replicate n (convertElem x.desc.outfmt [] Rnd.rne Val.nan).1), false, true)
  | .zero => some (packElems w (List.replicate n 0), false, false)
  | .at a =>
    v.map (fun p =>
      (if x.desc.reduces then packElems w (p.1.map (x.desc.result a)) else p.1.map (BitVec.ofNat 8), p.2, x.heldNonfinite k p))

/-- The bytes of a chunk of the output, and its sat and nonfinite. -/
def Coll.outBytes (x : Coll) (k : Nat) : Option (List Byte × Bool × Bool) := x.outOf k (x.final k)

/-- Where a chunk of the output stands. -/
def Coll.outAddr (x : Coll) (k : Nat) : Nat :=
  let w := x.desc.obits
  x.desc.out +
    (if x.desc.op = 3 then x.owner k * (x.desc.count * w / 8) + x.place k * 32 * w
     else if x.desc.op = 2 then (k - x.outputs.headD 0) * 32 * w
     else k * 32 * w)

/-! ### The program at a core -/

/-- Does something with the collective in hand at a core that runs the program. -/
def Dev.onColl (d : Dev) (c : Nat) (f : Nat → Coll → Dev) : Dev :=
  match (d.core c).wait, (d.core c).coll, (d.core c).slot with
  | some .coll, some x, some s => f s x
  | _, _, _ => d

/-- Replaces it. -/
def Dev.setColl (d : Dev) (c : Nat) (x : Coll) : Dev := d.modCore c (fun y => { y with coll := some x, lines := [] })

/-- The call returns to the address in g31. -/
def Dev.collReturn (d : Dev) (c : Nat) : Dev :=
  (d.modCore c (fun y => { y with wait := none, coll := none, lines := [] })).jumpTo c ((d.core c).getG 31).toNat

/-- The call returns, and a fault is raised there. -/
def Dev.collRaise (d : Dev) (c cause : Nat) (f : FaultInfo) : Dev := (d.collReturn c).raiseCore c cause f

/-- The status word of a descriptor (Table 4-4). -/
def statusWord (done valid sat nonfinite : Bool) (fault chunks : Nat) : Nat :=
  b2n done + b2n valid * 2 + b2n sat * 4 + b2n nonfinite * 8 + fault * 2 ^ 16 + chunks % 2 ^ 32 * 2 ^ 32

/-- Writes the status word of a collective. -/
def Dev.collStatus (d : Dev) (s : Nat) (x : Coll) (done valid : Bool) (fault : Nat) : Dev :=
  d.unitWrite s 60 (x.at_ + 72) (leBytes 8 (statusWord done valid x.sat x.nonfinite fault x.committed))

/-- The fault of a collective: tag, sequence number, sender, the chunk in flight and the chunks committed (R248, Tables 13-3 and
13-4). -/
def Coll.fault (x : Coll) (code c sender idx : Nat) : FaultInfo :=
  (xchFault code (BitVec.ofNat 64 x.tag) c x.tag x.desc.seq sender idx).after 3 x.committed

/-- The nodes of the other members. -/
def Coll.others (x : Coll) : List Nat :=
  (List.range x.desc.n).filterMap (fun r => if r = x.desc.rank then none else x.nodes[r]?)

/-- Drops what stands in a queue. -/
def Dev.clearQueue (d : Dev) (s q : Nat) : Dev :=
  ((d.rqueue s q).msgs.filter RecvMsg.complete).foldl (fun a m => a.discardRecv s q m) d

/-- The collective of a core ends in an abort (R230, R231): abort messages to the other members where this member found the
fault, the status word, the post with the error epoch marked; then the fault. -/
def Dev.collAbort (d : Dev) (c s : Nat) (x : Coll) (code sender idx : Nat) : Dev :=
  let note : Note := { tag := x.tag, idx := 0, p := 0, amode := 0, kind := 3, src := d.node, shards := 0 }
  let d1 := if code = 0x0407 then d else x.others.foldl (fun a n => a.sendNote s c n x.desc.seq note) d
  let d2 := { d1 with xch := { d1.xch with aborted := (s, x.tag) :: d1.xch.aborted } }
  let d3 := ((d2.xchShow s code sender).setRb (Reg.XCH_STATUS s) 4 true).collStatus s x true false code
  let d4 := (d3.clearQueue s (Config.xchQueue 0 x.desc.seq % 16)).clearQueue s (Config.xchQueue 1 x.desc.seq % 16)
  (d4.donePost s 60 x.desc.so 1 true).collRaise c 8 (x.fault code c sender idx)

/-- A tag that is not the collective's (R229). -/
def Dev.collMismatch (d : Dev) (c s : Nat) (x : Coll) (got sender idx : Nat) : Dev :=
  (((d.setReg (Reg.XCH_LAST_EXP s) (BitVec.ofNat 64 x.tag)).setReg (Reg.XCH_LAST_GOT s) (BitVec.ofNat 64 got)).satRf
    (Reg.XCH_BAD_TAGS s) 31 0 1).collAbort c s x 0x0401 sender idx

/-! #### The start (R221, R228) -/

/-- A read by the program: what a load of its core reads, what its fault is, or that it waits. -/
def Dev.collRead (d : Dev) (c va n : Nat) (k : Dev → List Byte → Dev) : Dev :=
  match d.unitLoad c va n with
  | .ok d1 bs => k (d1.modCore c (fun y => { y with lines := [] })) bs
  | .fault d1 f => d1.collRaise c (causeOf false f.code) f
  | .stall d1 => d1

/-- A collective as it begins. -/
def Dev.newColl (d : Dev) (c s : Nat) (x : CollDesc) (nodes perm : List Nat) : Coll :=
  let y := d.core c
  { pc := y.pc, at_ := (y.getG 1).toNat, desc := x, tag := tagOfBlock (x.block (d.jobId s)), nodes := nodes, perm := perm,
    dims := d.ringsOf nodes, own := [], props := [], told := 0, got := [], sent := [], receipts := [], lost := [], asks := [],
    committed := 0, sat := false, nonfinite := false, since := d.now }

/-- The descriptor, the group and the permutation have been read: the checks, then the start. A descriptor that fails them is
answered in its status word, by its object and by fault 0x0408 (R221); a sum with repro = 0 in a job that declares the
reproducible profile takes 0x0112 and has no effect (R661). -/
def Dev.collBegin (d : Dev) (c s : Nat) (x : CollDesc) (nodes perm : List Nat) : Dev :=
  let y := d.newColl c s x nodes perm
  if d.rb (Reg.JOB_PROFILE s) 0 && x.sums && !x.repro then
    d.collRaise c 8 (mkFault 0x0112 2 c (d.core c).pc.toNat 2 0)
  else if d.collOk s x nodes perm then
    if d.owns s x.so then d.setColl c y else d.collRaise c 8 (d.objFault c x.so 1)
  else
    ((((d.xchShow s 0x0408 0).collStatus s y true false 0x0408).donePost s 60 x.so 1 true).collRaise c 8 (y.fault 0x0408 c 0 0))

/-- The start of a call: the descriptor at g1, the group table, and for a permutation its table. -/
def Dev.collOpen (d : Dev) (c s : Nat) : Dev :=
  let words := fun (n : Nat) (bs : List Byte) => leWords 2 n bs
  d.collRead c ((d.core c).getG 1).toNat 128 (fun d1 bs =>
    let x := collDescOf (leWords 8 16 bs)
    d1.collRead c x.gtab (2 * x.n) (fun d2 gs =>
      if x.op = 5 then d2.collRead c x.ptab (2 * x.n) (fun d3 ps => d3.collBegin c s x (words x.n gs) (words x.n ps))
      else d2.collBegin c s x (words x.n gs) []))

/-! #### The input and the anchors (R234, R235, R245) -/

/-- Chunks of the own input. -/
def Coll.inputs (x : Coll) : Nat := x.chunks1

/-- Where the shards of a chunk of the own input stand: one after another for a member that holds several (log 129). -/
def Coll.inputAt (x : Coll) (j : Nat) : List (Nat × Nat) :=
  let w := x.desc.ebits
  let n := min 256 (x.desc.count - 256 * j) * w / 8
  (List.range x.desc.myShards).map (fun t =>
    (x.desc.inp + t * (x.desc.count * w / 8) + j * 32 * w, n))

/-- Reads ranges as loads of the core: their bytes, whether one is poisoned, a fault, or a wait. -/
def Dev.collRanges (d : Dev) (c : Nat) : List (Nat × Nat) → List (List Byte) → SrcRes
  | [], acc => .all d acc.reverse
  | (va, n) :: ps, acc =>
    match d.unitLoad c va n with
    | .ok d1 bs => d1.collRanges c ps (bs :: acc)
    | .fault d1 f => if f.code = 0x0601 then .poisoned d1 else .fault d1 acc.reverse f
    | .stall d1 => .stall d1

/-- Reads the next chunk of the input. A poisoned one raises 0x0403, since no other member holds that contribution (R245). -/
def Dev.collInput (d : Dev) (c : Nat) : Dev :=
  d.onColl c (fun s x =>
    let j := x.own.length
    if x.inputs ≤ j then d
    else
      match d.collRanges c (x.inputAt j) [] with
      | .all d1 bs => d1.setColl c { x with own := x.own ++ [bs] }
      | .poisoned d1 => d1.collAbort c s x 0x0403 d1.node j
      | .fault d1 _ f => d1.collRaise c (causeOf false f.code) f
      | .stall d1 => d1)

/-- Sends the next chunk's anchor proposal to every other member (R234, R238). -/
def Dev.collTell (d : Dev) (c : Nat) : Dev :=
  d.onColl c (fun s x =>
    if !x.desc.anchored || decide (x.desc.amode = 1) || decide (x.inputs ≤ x.told) then d
    else
      match x.proposal x.told with
      | none => d
      | some p =>
        let note : Note := { tag := x.tag, idx := x.told, p := p, amode := x.desc.amode, kind := 0, src := d.node,
                             shards := x.desc.shards - 1 }
        (x.others.foldl (fun a n => a.sendNote s c n x.desc.seq note) d).setColl c { x with told := x.told + 1 })

/-! #### Chunks (R241 to R245) -/

/-- A chunk's message (Table 4-9): header, crc over bytes 0 to 23 and from 64, elements padded to 64 bytes. -/
def chunkBytes (tag idx : Nat) (anchor : Int) (n : Nat) (sat resend : Bool) (src owner w : Nat) (es : List Nat) : List Byte :=
  let front := leBytes 8 tag ++ leBytes 4 idx ++ leBytes 2 (ofSval 16 anchor) ++ leBytes 1 (n - 1)
    ++ leBytes 1 (b2n sat + b2n resend * 2) ++ leBytes 2 src ++ leBytes 2 owner ++ leBytes 4 0
  let body := packElems w es
  let rest := body ++ List.replicate (pad64 body.length - body.length) 0#8
  front ++ leBytes 8 (crc64xz (front ++ rest)) ++ List.replicate 32 0#8 ++ rest

/-- The chunk of a collective that an index on the wire names: stage and chunk. -/
def Coll.chunkOf (x : Coll) (idx : Nat) : Nat × Nat := (idx / x.chunks, idx % x.chunks)

/-- The message of a chunk. -/
def Coll.message (x : Coll) (node idx : Nat) (p : Piece) (resend : Bool) : List Byte :=
  let k := (x.chunkOf idx).2
  let a := match x.anchor k with
    | .at a => if x.desc.anchored then a else 0
    | _ => 0
  chunkBytes x.tag idx a (x.elems k) p.2 resend node (x.nodes.getD (x.owner k) 0) x.desc.tbits p.1

/-- The format in which the elements of a move travel to or from a node: the type's, or the one that replaces it for a node that
refuses it (R790). -/
def Dev.moveFmt (d : Dev) (x : CollDesc) (node : Nat) : Nat :=
  if !x.reduces && decide (x.etype ≤ 0xA) && d.refusesFmt node x.etype then
    ((chainOf x.etype).find? (fun f => !d.refusesFmt node f)).getD 0
  else x.etype

/-- Elements of a move in one format, as bytes of another (R790, R793). The codebook of CB4 elements is free (log 59). -/
def Dev.reform (d : Dev) (from_ into n : Nat) (bs : List Byte) : List Byte :=
  let book := freeBook d.free
  packElems (fmtBits into) ((List.range n).map (fun i =>
    (convertElem into book Rnd.rne (decodeElem from_ book (packedElem (fmtBits from_) bs i))).1))

/-- A chunk's elements as they go to a node, and a count in XGEN_CONV where they were converted. -/
def Dev.collForm (d : Dev) (s : Nat) (x : Coll) (idx node : Nat) (p : Piece) : Dev × Piece :=
  let f := d.moveFmt x.desc node
  if f = x.desc.etype then (d, p)
  else
    (d.satRf (Reg.XGEN_CONV s) 31 0 1,
      (d.reform x.desc.etype f (x.elems (x.chunkOf idx).2) (p.1.map (BitVec.ofNat 8))).map BitVec.toNat, p.2)

/-- Sends a chunk: VC3, ordering channel 14 (R241). -/
def Dev.sendChunk (d : Dev) (s c : Nat) (x : Coll) (node idx : Nat) (p : Piece) (resend : Bool) : Dev :=
  let r := d.collForm s x idx node p
  r.1.sendBody s c node 14 (Config.xchQueue 0 x.desc.seq) 0 (x.message d.node idx r.2 resend)

/-- Sends the next chunk that is due. -/
def Dev.collSend (d : Dev) (c : Nat) : Dev :=
  d.onColl c (fun s x =>
    match x.toSend with
    | none => d
    | some v => (d.sendChunk s c x (x.nodes.getD v.2.1 0) v.1 v.2.2 false).setColl c { x with sent := v.1 :: x.sent })

/-- Elements of a chunk's message from a node, as they travel. -/
def Dev.collElems (d : Dev) (x : Coll) (idx node : Nat) (bs : List Byte) : List Nat :=
  let n := x.elems (x.chunkOf idx).2
  let f := d.moveFmt x.desc node
  if x.desc.reduces then (List.range n).map (packedElem x.desc.tbits (bs.drop 64))
  else if f = x.desc.etype then ((bs.drop 64).take (n * x.desc.ebits / 8)).map BitVec.toNat
  else (d.reform f x.desc.etype n (bs.drop 64)).map BitVec.toNat

/-- Holders of a chunk in the order in which they are asked (R244): of a partial sum its sender alone has a copy. -/
def Dev.collHolders (d : Dev) (s : Nat) (x : Coll) (idx : Nat) : List Nat :=
  let tk := x.chunkOf idx
  let src := x.nodes.getD (x.sender tk.1 tk.2) 0
  if x.desc.reduces && decide (tk.1 < x.rounds) then [src]
  else
    let ring := (List.range x.desc.n).map (fun i => x.nodes.getD ((x.desc.rank + i) % x.desc.n) 0)
    d.holders s src (x.nodes.getD (x.owner tk.2) 0) ring

/-- The other members that hold a chunk of out which this member has lost, each with the index under which it holds it, in ring order from
here: those whose receipts for the finished chunk have come; of a move the member that sent it (R245). -/
def Coll.keepers (x : Coll) (k : Nat) : List (Nat × Nat) :=
  if x.desc.op = 4 ∨ x.desc.op = 5 then
    if x.source = x.desc.rank then [] else [(x.wire 0 k, x.nodes.getD x.source 0)]
  else
    ((List.range x.desc.n).map (fun i => x.nodes.getD ((x.desc.rank + i) % x.desc.n) 0)).filterMap (fun n =>
      (x.receipts.find? (fun r => decide (r.2 = n) && decide ((x.chunkOf r.1).2 = k) && decide (x.rounds ≤ (x.chunkOf r.1).1))).map
        (fun r => (r.1, n)))

/-- A chunk of out that is lost here and asked for under an index. -/
def Coll.lostAs (x : Coll) (idx : Nat) : Option LostChunk :=
  x.lost.find? (fun l => decide (l.back = none) && (x.keepers l.chunk).any (fun h => decide (h.1 = idx)))

/-- Replaces what is known of a lost chunk. -/
def Coll.setLost (x : Coll) (l : LostChunk) : Coll := { x with lost := l :: x.lost.filter (fun y => decide (y.chunk ≠ l.chunk)) }

/-- Asks the next holder for a lost chunk; 0x0403 where no other member holds it or the attempts are spent (R244, R245). -/
def Dev.seekLost (d : Dev) (c s : Nat) (x : Coll) (k n : Nat) : Dev :=
  let hs := x.keepers k
  if hs = [] ∨ d.refetchMax s ≤ n then d.collAbort c s x 0x0403 d.node (x.wire 0 k)
  else
    let h := hs.getD (n % hs.length) (0, 0)
    (d.askNode s c x.tag x.desc.seq h.1 h.2).setColl c { x.setLost { chunk := k, tries := n + 1, back := none } with since := d.now }

/-- A lost chunk has come back verified: it is written to out, and the members that asked for it have it sent (R244, R245). -/
def Dev.lostBack (d : Dev) (c s : Nat) (x : Coll) (l : LostChunk) (p : Piece) : Dev :=
  match x.outOf l.chunk (some p) with
  | none => d
  | some o =>
    let due := x.asks.filter (fun a => decide ((x.chunkOf a.1).2 = l.chunk))
    let y : Coll := { x.setLost { l with back := some o.1 } with
      asks := x.asks.filter (fun a => decide ((x.chunkOf a.1).2 ≠ l.chunk)), since := d.now }
    (due.foldl (fun a q => a.sendChunk s c x q.2 q.1 p true) (d.unitWrite s 60 (x.outAddr l.chunk) o.1)).setColl c y

/-- A chunk that has been verified stands in the collective, and its receipt goes to its sender (R242, R243). One that was found
poisoned in out is written there again (R245). -/
def Dev.collTake (d : Dev) (c s : Nat) (x : Coll) (idx src : Nat) (bs : List Byte) : Dev :=
  let flags := (bs.getD 15 0).toNat
  let es := d.collElems x idx src bs
  let d1 := if flags.testBit 1 then d.setRb (Reg.XCH_STATUS s) 2 true else d
  let d2 := (((d1.setAttempts s x.tag idx 0 0).recvPost s (Config.xchQueue 0 x.desc.seq % 16)).sendReceipt s c x.tag x.desc.seq idx src)
  match x.lostAs idx with
  | some l => d2.lostBack c s x l (es, flags.testBit 0)
  | none => d2.setColl c { x with got := { idx := idx, elems := es, sat := flags.testBit 0 } :: x.got, since := d.now }

/-- An attempt on a chunk has failed: the next holder is asked, or the collective aborted (R244). -/
def Dev.collFailed (d : Dev) (c s : Nat) (x : Coll) (src idx : Nat) : Dev :=
  match x.lostAs idx with
  | some l => d.seekLost c s x l.chunk l.tries
  | none =>
    let n := d.attempts s x.tag idx
    if d.refetchMax s ≤ n then (d.setAttempts s x.tag idx 0 0).collAbort c s x 0x0403 src idx
    else (d.askAgain s c x.tag x.desc.seq idx n (d.firstSender s x.tag idx src) (d.collHolders s x idx)).setColl c { x with since := d.now }

/-- A chunk that has come from a node (R229, R242, R244). -/
def Dev.chunkCame (d : Dev) (c s : Nat) (x : Coll) (src : Nat) (bs : List Byte) : Dev :=
  let tag := leNat (bs.take 8)
  let idx := leNat ((bs.drop 8).take 4)
  if tag ≠ x.tag then d.collMismatch c s x tag src idx
  else if x.got.any (fun g => decide (g.idx = idx)) && (x.lostAs idx).isNone then d
  else if chunkOk bs then d.collTake c s x idx src bs
  else d.collFailed c s x src idx

/-- Takes a message out of its queue and looks at its bytes, once they stand here. -/
def Dev.collWhole (d : Dev) (s q : Nat) (m : RecvMsg) (k : Dev → List Byte → Dev) : Dev :=
  let r := d.recvWhole s m
  if r.2 then k ((r.1.unitDone s 60).discardRecv s q m) (r.1.recvBytes s m m.bytes) else r.1

/-- The next chunk in the queue. -/
def Dev.collChunk (d : Dev) (c : Nat) : Dev :=
  d.onColl c (fun s x =>
    let q := Config.xchQueue 0 x.desc.seq % 16
    match (d.rqueue s q).msgs.find? RecvMsg.complete with
    | none => d
    | some m => d.collWhole s q m (fun a bs => a.chunkCame c s x m.src bs))

/-! #### Notes (R231, R234, R238, R243 to R245) -/

/-- A receipt: the sender's copy need not be kept, and the receiver is known to hold the chunk. -/
def Dev.collReceipt (d : Dev) (c idx node : Nat) : Dev :=
  d.onColl c (fun _ x => d.setColl c { x with receipts := (idx, node) :: x.receipts, since := d.now })

/-- The copy of a chunk that a member can send: what came, else what it sent itself. -/
def Coll.copy (x : Coll) (idx : Nat) : Option Piece :=
  match x.got.find? (fun g => decide (g.idx = idx)) with
  | some g => some (g.elems, g.sat)
  | none => (x.offers.find? (fun v => decide (v.1 = idx))).map (fun v => v.2.2)

/-- A chunk of out is poisoned in the memory of its owner (R245). -/
def Dev.outPoisoned (d : Dev) (s : Nat) (x : Coll) (k : Nat) : Bool :=
  decide (x.owner k = x.desc.rank) && (x.outputs.take x.committed).contains k
    && (match d.rd (unitWho s 60) (x.outAddr k) (x.elems k * x.desc.obits / 8) with
      | .fault _ f => decide (f.code = 0x0601)
      | _ => false)

/-- A request for a chunk: a verified copy is sent again, marked resend. An owner whose copy is poisoned sends it once it has obtained it
again; a member with no copy says so, by a note of kind 4 (R244, R245; log 129). -/
def Dev.collAsked (d : Dev) (c s : Nat) (x : Coll) (idx src : Nat) : Dev :=
  let k := (x.chunkOf idx).2
  let lost := x.lost.any (fun l => decide (l.chunk = k) && decide (l.back = none))
  if lost || (d.outPoisoned s x k && !x.lost.any (fun l => decide (l.chunk = k))) then
    d.setColl c { x with asks := (idx, src) :: x.asks }
  else
    match x.copy idx with
    | some p => d.sendChunk s c x src idx p true
    | none => d.sendNote s c src x.desc.seq
        { tag := x.tag, idx := idx, p := 0, amode := x.desc.amode, kind := 4, src := d.node, shards := x.desc.shards - 1 }

/-- An owner whose verified copy of a chunk of out has become poisoned seeks it again; once the gob is no longer poisoned, what came is
written to it again (R245, R512). -/
def Dev.collHeal (d : Dev) (c : Nat) : Dev :=
  d.onColl c (fun s x =>
    match x.lost.find? (fun l => l.back.isSome && !d.outPoisoned s x l.chunk) with
    | some l => (d.unitWrite s 60 (x.outAddr l.chunk) (l.back.getD [])).setColl c
        { x with lost := x.lost.filter (fun y => decide (y.chunk ≠ l.chunk)) }
    | none =>
      match (x.outputs.take x.committed).find? (fun k => d.outPoisoned s x k && !x.lost.any (fun l => decide (l.chunk = k))) with
      | some k => d.seekLost c s x k 0
      | none => d)

/-- A proposal: 0x0404 where it differs in shards_m1 or amode (R238). -/
def Dev.collProposal (d : Dev) (c s : Nat) (x : Coll) (src : Nat) (n : Note) : Dev :=
  if n.shards ≠ x.desc.shards - 1 ∨ n.amode ≠ x.desc.amode then d.collAbort c s x 0x0404 src n.idx
  else
    let r := (x.nodes.takeWhile (fun m => decide (m ≠ src))).length
    if x.props.any (fun p => decide (p.1 = n.idx) && decide (p.2.1 = r)) then d
    else d.setColl c { x with props := (n.idx, r, n.p) :: x.props, since := d.now }

/-- A note that has come from a node. Later abort messages for a tag, and what concerns another collective's chunks, are
discarded (R229, R231). -/
def Dev.noteCame (d : Dev) (c s : Nat) (x : Coll) (src : Nat) (n : Note) : Dev :=
  if n.tag ≠ x.tag then
    if n.kind = 1 ∨ n.kind = 2 ∨ n.kind = 4 ∨ (n.kind = 3 ∧ d.xch.aborted.contains (s, n.tag)) then d
    else d.collMismatch c s x n.tag src n.idx
  else
    match n.kind with
    | 0 => d.collProposal c s x src n
    | 1 => d.collAsked c s x n.idx src
    | 2 => d.collReceipt c n.idx src
    | 4 => d.collFailed c s x src n.idx
    | _ => d.collAbort c s x 0x0407 src 0

/-- The next note in the queue. -/
def Dev.collNote (d : Dev) (c : Nat) : Dev :=
  d.onColl c (fun s x =>
    let q := Config.xchQueue 1 x.desc.seq % 16
    match (d.rqueue s q).msgs.find? RecvMsg.complete with
    | none => d
    | some m => d.collWhole s q m (fun a bs => a.noteCame c s x m.src (noteOf (bs.take 64))))

/-- Bytes of a chunk's message from a node: header, and elements padded to 64 bytes. -/
def Dev.chunkLen (d : Dev) (x : Coll) (src : Nat) (head : List Byte) : Nat :=
  let n := x.elems (x.chunkOf (leNat ((head.drop 8).take 4))).2
  let f := d.moveFmt x.desc src
  64 + pad64 ((n * (if x.desc.reduces then x.desc.tbits else if f = x.desc.etype then x.desc.ebits else fmtBits f) + 7) / 8)

/-- The members that are of the first generation. -/
def Dev.zoneNodes (d : Dev) (x : Coll) : List Nat := x.others.filter (fun n => decide (d.genOf n = 1))

/-- The next note, then the next chunk, in the landing zones of a Mionak 1 member (R795). -/
def Dev.collZone (d : Dev) (c src : Nat) : Dev :=
  let d1 := d.onColl c (fun s x =>
    match d.zoneNext s src 1 (fun _ => 64) with
    | (a, none) => a
    | (a, some bs) => (a.zoneTake s c src 1 bs.length).noteCame c s x src (noteOf bs))
  d1.onColl c (fun s x =>
    match d1.zoneNext s src 0 (d1.chunkLen x src) with
    | (a, none) => a
    | (a, some bs) => (a.zoneTake s c src 0 bs.length).chunkCame c s x src bs)

/-- What stands in the landing zones. -/
def Dev.collZones (d : Dev) (c : Nat) : Dev :=
  d.onColl c (fun _ x => (d.zoneNodes x).foldl (fun a n => a.collZone c n) d)

/-! #### The output and the end (R224, R246, R653) -/

/-- Commits the next chunk in ascending order, once it is verified or summed: its bytes are written to out and folded into the
entry's digest (R665), status chunks and XCH_BINS count it. -/
def Dev.collCommit (d : Dev) (c : Nat) : Dev :=
  d.onColl c (fun s x =>
    match x.outputs[x.committed]? with
    | none => d
    | some k =>
      match x.outBytes k with
      | none => d
      | some o =>
        match d.unitStore c (x.outAddr k) o.1 with
        | .ok d1 _ =>
          let y := { x with committed := x.committed + 1, sat := x.sat || o.2.1, nonfinite := x.nonfinite || o.2.2 }
          let d2 := (d1.addRf (Reg.XCH_BINS s) 63 0 1).setColl c y
          let d3 := if d2.twinOn s then d2.commitUnit c 2 4096 o.1 else d2
          d3.collStatus s y false false 0
        | .fault d1 f => d1.collRaise c (causeOf true f.code) f
        | .stall d1 => d1)

/-- The collective is complete: every chunk is committed, and every chunk and proposal sent, with its receipt (R243). -/
def Coll.complete (x : Coll) : Bool :=
  decide (x.outputs.length ≤ x.committed) && x.toSend.isNone && decide (x.inputs ≤ x.own.length)
    && (!x.desc.anchored || decide (x.desc.amode = 1) || decide (x.inputs ≤ x.told))
    && x.sent.all (fun i => x.receipts.any (fun r => decide (r.1 = i))) && x.lost.all (fun l => l.back.isSome) && decide (x.asks = [])

/-- Completion: status with done = 1 and valid = 1, then the post of so with count 1 as a release, and the return (R224, R132). -/
def Dev.collEnd (d : Dev) (c : Nat) : Dev :=
  d.onColl c (fun s x =>
    if x.complete && d.settled c then
      ((d.collStatus s x true true 0).donePost s 60 x.desc.so 1 false).collReturn c
    else d)

/-- One CCLK of the program at a core. -/
def Dev.collStep (d : Dev) (c : Nat) : Dev :=
  match (d.core c).wait, (d.core c).coll, (d.core c).slot with
  | some .coll, none, some s => d.collOpen c s
  | some .coll, some x, some s =>
    if d.xch.aborted.contains (s, x.tag) then d.collReturn c
    else ((((((((d.collNote c).collChunk c).collZones c).collInput c).collTell c).collSend c).collCommit c).collHeal c).collEnd c
  | _, _, _ => d

/-- One CCLK of the collectives in hand, of the cores that wait in XRECV, and of the messages that wait for landing zones. -/
def Dev.collTick (d : Dev) : Dev := (cores41.foldl Dev.collStep d).recvTick.zoneTick

/-! ### Receipts, timeouts and aborts as events -/

/-- CHUNK_RECEIPT_ARRIVAL (R243, R535): the chunk's buffer is released. -/
def execChunkReceiptArrival (m : Nat) (s : State) : Host.Outcome State Fault Refusal :=
  run (.chunkReceiptArrival m) (fun d =>
    match d.sendMsg m with
    | none => d
    | some y =>
      let a :=
        match y.body with
        | some bs => d.collReceipt y.core (leNat ((bs.drop 8).take 4)) y.dest
        | none => d
      if y.vc = 3 ∧ y.sent = y.bytes ∧ y.phase = 4 then (a.dropMsg m).releaseSource y
      else if y.vc = 3 ∧ y.sent = y.bytes ∧ y.phase = 2 then (a.putMsg { y with phase := 6 }).releaseSource y
      else d) s

/-- The wait limit of a collective in CCLK: tmo ms, 1,000 where it is 0 (Table 4-4). -/
def CollDesc.limitTime (x : CollDesc) : Nat := (if x.tmo = 0 then 1000 else x.tmo) * 1000000

/-- XRECV_TIMEOUT (R232, R400): a wait beyond its limit raises 0x0402; of a collective it aborts it (R230). -/
def execXrecvTimeout (c : Nat) (s : State) : Host.Outcome State Fault Refusal :=
  run (.xrecvTimeout c) (fun d =>
    let x := d.core c
    match x.wait with
    | some (.recv _ _ tag kind _ limit) =>
      if limit ≤ d.now then
        Dev.finish c x.ilen (.raise (d.xchShow x.slotN 0x0402 0) 8
          ((xchFault 0x0402 tag c tag.toNat 0 0 0).after (unitKind kind) (d.takenOf x.slotN tag.toNat kind)))
      else d
    | some .coll =>
      d.onColl c (fun sl y => if y.since + y.desc.limitTime ≤ d.now then d.collAbort c sl y 0x0402 0 0 else d)
    | _ => d) s

/-- ABORT_MESSAGE_ARRIVAL (R230, R231): the first abort of a collective is acted on, later ones are discarded. -/
def execAbortMessageArrival (c desc : Nat) (tag : BitVec 64) (sender : Nat) (s : State) : Host.Outcome State Fault Refusal :=
  run (.abortMessageArrival c desc tag sender) (fun d =>
    match (d.core c).slot with
    | none => d
    | some sl =>
      if d.runs sl = false ∨ d.xch.aborted.contains (sl, tag.toNat) then d
      else
        let mine := ((d.core c).coll.map (fun (y : Coll) => decide (y.tag = tag.toNat))).getD false
        if mine ∧ (d.core c).wait = some .coll then d.onColl c (fun s y => d.collAbort c s y 0x0407 sender 0)
        else
          let d1 := { d with xch := { d.xch with aborted := (sl, tag.toNat) :: d.xch.aborted } }
          ((d1.xchShow sl 0x0407 sender).setRb (Reg.XCH_STATUS sl) 4 true).doStep (.abort sl c desc tag.toNat sender)) s

end Sys2Proof.Machine
end

