-- ==== Sys2Proof/Machine/Power.lean ====
section
/-! DEFINITION. Lehr: pace epochs and the agreement, the cap and its shares, estimate against measurement, thermal limits,
hints and ageing (R674 to R715). -/

namespace Sys2Proof.Machine

/-! ### Limits and voltages -/

/-- The cap in force (R689). -/
def Dev.capW (d : Dev) : Nat := max 800 (min 1800 (d.inf Reg.PWR_CAP 10 0))

/-- The fastest bin allowed (PWR_LIMIT.dmin in force). -/
def Dev.dmin (d : Dev) : Nat := max 32 (min 64 (d.inf Reg.PWR_LIMIT 6 0))

/-- Percentages of the shares A0, A1, X, memory, other (Table 14-3). -/
def sharePct (profile : Nat) : List Nat :=
  match profile with
  | 1 => [24, 24, 24, 18, 10]
  | 2 => [31, 31, 12, 17, 9]
  | 3 => [23, 23, 14, 30, 10]
  | _ => [27, 27, 16, 20, 10]

/-- frac_h in percent. -/
def Dev.frac (d : Dev) (h : Nat) : Nat := (sharePct (d.rf Reg.PWR_CAP 13 12)).getD h 0

/-- The limit of a share in W, as PWR_DOM shows it (R691). -/
def Dev.shareLimit (d : Dev) (h : Nat) : Nat := d.frac h * d.capW / 100

/-- The divider in force (PWR_STATUS.d_cur). -/
def Dev.dcur (d : Dev) : Nat := d.rf Reg.PWR_STATUS 6 0

/-- The supply voltage at a bin in mV: table, ageing offset, guard (R695). -/
def Dev.voltAt (d : Dev) (k : Nat) : Nat :=
  d.rf (Reg.PWR_VF (k - 32)) 11 0 + d.rf Reg.PWR_AGE 6 0 + d.rf Reg.PWR_GUARD 7 0

/-- A power record (Table 13-4). -/
def Dev.powerFault (d : Dev) (code rail : Nat) : FaultInfo :=
  mkFault code 0 61 (d.rf Reg.PWR_MEAS 15 0 + d.rf Reg.PWR_MEAS 31 16 * 2 ^ 16 + d.dcur % 64 * 2 ^ 32)
    (d.rf Reg.PWR_THERM 15 0) rail

/-- Changes Lehr's state. -/
def Dev.modPwr (d : Dev) (f : Pwr → Pwr) : Dev := { d with pwr := f d.pwr }

/-! ### Windows (R690 to R694, R701 to R703) -/

/-- Puts a value at the head of a history of at most n. -/
def histPut (n : Nat) (x : Nat) (xs : List Nat) : List Nat := (x :: xs).take n

/-- The mean of a history. -/
def mean (xs : List Nat) : Nat := xs.sum / max 1 xs.length

/-- An estimate times 1.10, rounded up (R704). -/
def tenth (x : Nat) : Nat := (x * 110 + 99) / 100

/-- A sense wire covers share h and has failed. -/
def Pwr.shareBlind (x : Pwr) (h : Nat) : Bool := x.senseBad || x.shareBad.getD h false

/-- Some sense wire has failed. -/
def Pwr.blind (x : Pwr) : Bool := x.senseBad || x.shareBad.any id

/-- Module power by which Lehr holds R690: the window, or the estimate times 1.10 (R701, R704). -/
def Pwr.moduleUsed (x : Pwr) (r : PowerReading) : Nat := if x.senseBad then tenth r.moduleEst else r.moduleMeas

/-- The same for a share. -/
def Pwr.shareUsed (x : Pwr) (r : PowerReading) (h : Nat) : Nat :=
  if x.shareBlind h then tenth (r.est.getD h 0) else r.meas.getD h 0

/-- The windows with one more. -/
def Pwr.window (x : Pwr) (r : PowerReading) : Pwr :=
  { x with windows := histPut 100 (x.moduleUsed r) x.windows,
           shares := (List.range 5).map (fun h => histPut 100 (x.shareUsed r h) (x.shares.getD h [])),
           leak := r.leak, estLast := r.est }

/-- A share's issue gating must be below 64: it or the module is over its limit (R690, R691, R693). -/
def Dev.overLimit (d : Dev) (h : Nat) : Bool :=
  decide (d.shareLimit h < mean (d.pwr.shares.getD h [])) || decide (d.capW < mean d.pwr.windows)
    || decide (2000 < d.pwr.windows.headD 0)

/-- The gating of a share: 64 when nothing calls for less, else the value Lehr chooses (log 36). -/
def Dev.gateFor (d : Dev) (h : Nat) (hot : Bool) : Nat :=
  if hot then Config.gate h (mean (d.pwr.shares.getD h [])) (d.shareLimit h) % 63 + 1 else 64

/-- Sets g of a share. -/
def Dev.setGate (d : Dev) (h g : Nat) : Dev := d.setRf Reg.PWR_GATE (8 * h + 6) (8 * h) g

/-- The share of the hottest die: A0, A1 or X. -/
def dieOf (sensor : Nat) : Nat := if sensor < 12 then 0 else if sensor < 24 then 1 else 2

/-- CCLK of a number of ACLK at the divider in force. -/
def Dev.aclk (d : Dev) (n : Nat) : Nat := n * d.dcur / 64

/-- g of a share. -/
def Dev.gateNow (d : Dev) (h : Nat) : Nat := d.rf Reg.PWR_GATE (8 * h + 6) (8 * h)

/-- The share to which a hint for a unit counts: arrays and vector units to the die of the engine that issued it, score unit and
fabric to X, memory to the memory share (R699). -/
def Dev.hintShare (d : Dev) (u : Nat) : Nat :=
  if u ≤ 1 then tget (fun _ => 4) d.pwr.dies u else if u = 3 then 3 else 2

/-- The level up to which running hints lift the limit of a share's rise, in 64ths (R699). -/
def Dev.hintLift (d : Dev) (h : Nat) : Nat :=
  (d.pwr.hints.filter (fun y => y.2.2.2 && decide (d.hintShare y.1 = h))).foldl (fun a y => max a (y.2.1 * 64 / 63)) 0

/-- A rise may be taken now: 256 ACLK after the last one (R698). -/
def Dev.rampDue (d : Dev) : Bool := decide (d.pwr.rampAt + d.aclk 256 ≤ d.now)

/-- g of a share on its way to a goal. It falls at once. The issue rate of arrays, vector units and score unit rises by at most
8/64 in 256 ACLK, or at once to a hinted level (R698, R699; log 134); the memory share, and a share whose rise is not limited,
rises at once. A throttled die's share does not rise (R707). -/
def Dev.approach (d : Dev) (h goal : Nat) : Nat :=
  let g := d.gateNow h
  let hot := d.rb Reg.PWR_STATUS 26 && decide (dieOf (d.rf Reg.PWR_THERM 21 16) = h)
  if goal ≤ g then goal
  else if hot then g
  else if h = 3 then goal
  else min goal (max (g + if d.rampDue then 8 else 0) (d.hintLift h))

/-- Moves each share's g toward the goals. -/
def Dev.rampAll (d : Dev) : Dev :=
  let d1 := (List.range 4).foldl (fun a h => a.setGate h (d.approach h (d.pwr.goals.getD h 64))) d
  if d.rampDue then d1.modPwr (fun x => { x with rampAt := d.now }) else d1

/-- Sets the goals of the four shares after a window, and g toward them (R693, R698). -/
def Dev.regate (d : Dev) : Dev :=
  (d.modPwr (fun x => { x with goals := (List.range 4).map (fun h => d.gateFor h (d.overLimit h)) })).rampAll

/-- Shows a window in PWR_MEAS and PWR_DOM. -/
def Dev.showWindow (d : Dev) (r : PowerReading) : Dev :=
  let d1 := ((d.setRf Reg.PWR_MEAS 15 0 r.moduleMeas).setRf Reg.PWR_MEAS 31 16 r.moduleEst).setRf Reg.PWR_MEAS 47 32
    (mean d.pwr.windows)
  let d2 := d1.setRf Reg.PWR_MEAS 63 48 (max (d1.rf Reg.PWR_MEAS 63 48) (r.moduleMeas % 65536))
  (List.range 5).foldl (fun a h =>
    a.setReg (Reg.PWR_DOM h) (BitVec.ofNat 64 (r.meas.getD h 0 % 65536 + r.est.getD h 0 % 65536 * 2 ^ 16
      + a.shareLimit h % 65536 * 2 ^ 32 + b2n (!a.pwr.shareBlind h) * 2 ^ 48))) d2

/-- Raises the guard by one step, to at most 80 mV (R695, R702). -/
def Dev.guardStep (d : Dev) : Dev :=
  if 80 ≤ d.rf Reg.PWR_GUARD 7 0 then d
  else (d.addRf Reg.PWR_GUARD 7 0 10).addRf Reg.PWR_GUARD 9 8 1

/-- The comparison of estimate and measurement of a window (R702, R703, R705). -/
def Dev.compareWindow (d : Dev) (r : PowerReading) : Dev :=
  if d.pwr.senseBad then d
  else
    let gap := max r.moduleMeas r.moduleEst - min r.moduleMeas r.moduleEst
    let far := decide (15 * r.moduleMeas < 100 * gap)
    let near := decide (100 * gap ≤ 5 * r.moduleMeas)
    let flag := d.rb Reg.PWR_STATUS 24
    let run := if far then d.pwr.divRun + 1 else 0
    let quiet := if near then d.pwr.quiet + 1 else 0
    let d0 := d.modPwr (fun x => { x with divRun := run, quiet := quiet, recal := x.recal - 1 })
    if run = 8 then
      let d1 := ((d0.guardStep).satRf Reg.PWR_EVENTS 15 0 1).modPwr (fun x => { x with divRun := 0, quiet := 0, recal := 16 })
      if flag then d1 else (d1.setRb Reg.PWR_STATUS 24 true).recordAll (d1.powerFault 0x0903 0)
    else if flag && decide (64 ≤ quiet) then
      (d0.setRb Reg.PWR_STATUS 24 false).setReg Reg.PWR_GUARD 50#64
    else d0

/-- POWER_WINDOW_END (R690 to R693, R702). -/
def execPowerWindowEnd (r : PowerReading) (s : State) : Host.Outcome State Fault Refusal :=
  run (.powerWindowEnd r) (fun d =>
    (((d.modPwr (fun x => x.window r)).showWindow r).regate).compareWindow r) s

/-- ESTIMATOR_UPDATE (R697, R698): g falls ahead of a predicted excess; it rises no further than the measured windows allow, and
by the steps of R698. -/
def execEstimatorUpdate (r : PowerReading) (s : State) : Host.Outcome State Fault Refusal :=
  run (.estimatorUpdate r) (fun d =>
    let d1 := d.modPwr (fun x => { x with estLast := r.est, leak := r.leak })
    let hot := fun (h : Nat) => decide (d.shareLimit h < r.est.getD h 0) || decide (d.capW < r.moduleEst)
    let d2 := d1.rampAll
    (List.range 4).foldl (fun a h =>
      if hot h then a.setGate h (min (d1.gateNow h) (d.gateFor h true)) else a) d2) s

/-! ### The sense wires (R704, R705) -/

/-- The input sense reads in range; the current range of the sensor is not stated (log 65). -/
def senseOk (r : SenseReading) : Bool :=
  decide (400 ≤ r.decivolts) && decide (r.decivolts ≤ 850) && Config.senseCurrentOk r.deciamps

/-- Samples of 10 µs in 64 windows. -/
def senseRestore : Nat := 640

/-- One wire: failed before, in range now, run of good samples; answers the new pair and whether it fails now. -/
def wireNext (bad ok : Bool) (quiet : Nat) : Bool × Nat × Bool :=
  if ok then
    (if bad then (if senseRestore ≤ quiet + 1 then (false, 0, false) else (true, quiet + 1, false)) else (false, 0, false))
  else (true, 0, !bad)

/-- SENSE_SAMPLE (R704, R705). -/
def Dev.senseSample (d : Dev) (r : SenseReading) : Dev :=
  let m := wireNext d.pwr.senseBad (senseOk r) d.pwr.senseQuiet
  let hs := (List.range 5).map (fun h =>
    wireNext (d.pwr.shareBad.getD h false) (r.shareOk.getD h true) (d.pwr.shareQuiet.getD h 0))
  let d1 := d.modPwr (fun x => { x with senseBad := m.1, senseQuiet := m.2.1, shareBad := hs.map (fun w => w.1),
                                        shareQuiet := hs.map (fun w => w.2.1) })
  let d2 := d1.setRb Reg.PWR_STATUS 25 d1.pwr.blind
  let fails := (if m.2.2 then [0] else []) ++ (List.range 5).filterMap (fun h =>
    if (hs.getD h (false, 0, false)).2.2 then some (h + 1) else none)
  fails.foldl (fun a k => (a.satRf Reg.PWR_EVENTS 63 48 1).recordAll (a.powerFault 0x0904 k)) d2

/-- SENSE_SAMPLE (R704). -/
def execSenseSample (r : SenseReading) (s : State) : Host.Outcome State Fault Refusal :=
  run (.senseSample r) (fun d => d.senseSample r) s

/-! ### Thermal limits (R706 to R709) -/

/-- A sensor reads within −40 to 150 °C. -/
def tempValid (t : Int) : Bool := decide (-400 ≤ t) && decide (t ≤ 1500)

/-- First sensor and number of sensors of each die. -/
def dieSensors (die : Nat) : Nat × Nat := if die = 0 then (0, 12) else if die = 1 then (12, 12) else (24, 8)

/-- The readings of sensors 0 to 31 that count: of a die with more than two invalid ones, 100 °C for each (R706). -/
def junctions (temps : List Int) : List (Nat × Int) :=
  (List.range 3).flatMap (fun k =>
    let r := dieSensors k
    let ss := (List.range r.2).map (fun i => (r.1 + i, temps.getD (r.1 + i) (-1000)))
    if 2 < (ss.filter (fun x => !tempValid x.2)).length then ss.map (fun x => (x.1, (1000 : Int)))
    else ss.filter (fun x => tempValid x.2))

/-- The hottest junction: the largest reading, the lowest sensor first among equals. -/
def hottest : List (Nat × Int) → Option (Nat × Int)
  | [] => none
  | x :: xs =>
    match hottest xs with
    | none => some x
    | some y => if x.2 < y.2 then some y else some x

/-- Sixteen bits of a signed reading. -/
def temp16 (t : Int) : Nat := ofSval 16 t

/-- The trip at 115 °C (R708): every job stops, and the device answers management only. -/
def Dev.thermalTrip (d : Dev) (sensor : Nat) : Dev :=
  if d.rb Reg.PWR_STATUS 31 then d
  else (d.setRb Reg.PWR_STATUS 31 true).deviceStop (d.powerFault 0x0902 sensor)

/-- Throttling at 100 °C (R707): g of the hottest die's share falls. -/
def Dev.throttle (d : Dev) (sensor : Nat) : Dev :=
  let h := dieOf sensor
  let g := d.rf Reg.PWR_GATE (8 * h + 6) (8 * h)
  let d1 := if d.rb Reg.PWR_STATUS 26 then d else (d.setRb Reg.PWR_STATUS 26 true).satRf Reg.PWR_EVENTS 31 16 1
  let d2 := d1.setGate h (if g ≤ 1 then 1 else Config.gate h g 64 % (g - 1) + 1)
  if d2.pwr.hotRecorded then d2
  else (d2.modPwr (fun x => { x with hotRecorded := true })).recordAll (d2.powerFault 0x0901 sensor)

/-- THERMAL_SAMPLE (R706 to R709). -/
def Dev.thermal (d : Dev) (temps : List Int) : Dev :=
  let d1 := (List.range 40).foldl (fun a i =>
    let t := temps.getD i (-1000)
    a.setReg (Reg.PWR_TSENS i) (BitVec.ofNat 64 (temp16 t + b2n (tempValid t) * 2 ^ 16))) d
  let inlet := temps.getD 38 0
  let d2 := (d1.setRf Reg.PWR_THERM 47 32 (temp16 inlet)).setRb Reg.PWR_STATUS 29 (tempValid inlet && decide (400 < inlet))
  match hottest (junctions temps) with
  | none => d2
  | some h =>
    let d3 := (d2.setRf Reg.PWR_THERM 15 0 (temp16 h.2)).setRf Reg.PWR_THERM 21 16 h.1
    let d4 := if 1000 ≤ h.2 then d3.throttle h.1 else d3.setRb Reg.PWR_STATUS 26 false
    let d5 := if h.2 < 950 then d4.modPwr (fun x => { x with hotRecorded := false }) else d4
    if 1150 ≤ h.2 then d5.thermalTrip h.1 else d5

/-- THERMAL_SAMPLE (R706). -/
def execThermalSample (temps : List Int) (s : State) : Host.Outcome State Fault Refusal :=
  run (.thermalSample temps) (fun d => d.thermal temps) s

/-- The hottest junction in 0.1 °C as last sampled. -/
def Dev.hotNow (d : Dev) : Int := sval 16 (d.rf Reg.PWR_THERM 15 0)

/-! ### The local proposal (R687, R688, R704) -/

/-- M_h: the largest of the last eight windows of a share; with the estimate where R688 says so. -/
def Dev.peakOf (d : Dev) (h : Nat) : Nat :=
  let m := ((d.pwr.shares.getD h []).take 8).foldl max 0
  let e := d.pwr.estLast.getD h 0
  if d.pwr.shareBlind h then tenth e else if d.rb Reg.PWR_STATUS 24 then max m e else m

/-- P_h(k) times k × V(Dc)², an exact integer (R687). -/
def Dev.scaledPower (d : Dev) (h k : Nat) : Int :=
  let m : Int := d.peakOf h
  let l : Int := d.pwr.leak.getD h 0
  let v : Int := d.voltAt k
  let vc : Int := d.voltAt d.dcur
  (m - l) * d.dcur * v * v + l * v * vc * k

/-- Bin k meets every share, the cap and 950 mV (R687, R696). -/
def Dev.binFits (d : Dev) (k : Nat) : Bool :=
  let vc : Int := d.voltAt d.dcur
  let unit : Int := k * vc * vc
  (List.range 5).all (fun h => decide (10000 * d.scaledPower h k ≤ 97 * d.frac h * d.capW * unit))
    && decide (100 * ((List.range 5).map (fun h => d.scaledPower h k)).sum ≤ 97 * d.capW * unit)
    && decide (d.voltAt k ≤ 950)

/-- The first bin from k on that fits, at most 64. -/
def Dev.firstBin (d : Dev) : Nat → Nat → Nat
  | 0, k => k
  | n + 1, k => if 64 ≤ k ∨ d.binFits k then k else d.firstBin n (k + 1)

/-- The local proposal (R687, R704). -/
def Dev.proposal (d : Dev) : Nat :=
  let k0 := max (d.rf Reg.PWR_AGE 14 8) (max d.dmin (d.dcur - 2))
  let k1 := d.firstBin 33 (if d.pwr.blind then max k0 d.dcur else k0)
  min 64 (if 970 ≤ d.hotNow then max k1 (d.dcur + 1) else k1)

/-! ### The pace tree (R679 to R686) -/

/-- The place of the device: 0 off, 1 member, 2 leader. -/
def Dev.paceRole (d : Dev) : Nat := d.rf Reg.PWR_PACE 1 0 % 3

/-- Children, at most 16. -/
def Dev.paceKids (d : Dev) : Nat := min 16 (d.rf Reg.PWR_PACE 10 6)

/-- The device holds a job. -/
def Dev.anyJob (d : Dev) : Bool := decide (d.jobSlots ≠ [])

/-- The device runs at the agreement (R685). -/
def Dev.paceBound (d : Dev) : Bool := decide (d.paceRole ≠ 0) && d.anyJob

/-- CCLK since the boundary of the epoch. -/
def Dev.epochTime (d : Dev) : Nat := d.now - d.pwr.start

/-- LOCAL_PROPOSAL (R687): at 250 µs. -/
def execLocalProposal (s : State) : Host.Outcome State Fault Refusal :=
  run .localProposal (fun d =>
    if d.epochTime < 250000 ∨ d.pwr.own.isSome then d
    else
      let k := d.proposal
      let d1 := (d.modPwr (fun x => { x with own := some k })).setRf Reg.PWR_STATUS 22 16 k
      if d1.paceBound then d1 else (d1.modPwr (fun x => { x with agreed := some k })).setRf Reg.PWR_STATUS 14 8 k) s

/-- The count of a pace post (Table 14-2). -/
def paceCount (k : Nat) (late : Bool) (epoch : Nat) : Nat := k % 128 + b2n late * 2 ^ 7 + epoch % 65536 * 2 ^ 8

/-- The number of the epoch in the leader's count. -/
def Dev.treeEpoch (d : Dev) : Nat := if d.paceRole = 2 then d.rf Reg.PWR_STATUS 63 32 else d.pwr.leaderEpoch

/-- Posts to an object of another member of the tree (R679): VC4, core 61, job 0. -/
def Dev.pacePost (d : Dev) (node obj count : Nat) : Dev :=
  d.issue { d.tx 0x07 4 node 0 61 with offset := obj + count * 2 ^ 16 } []

/-- Posts to every child heard from (log 66). -/
def Dev.postDown (d : Dev) (k epoch : Nat) : Dev :=
  (List.range d.paceKids).foldl (fun a j =>
    let n := tget (fun _ => 0) a.pwr.kids j
    if n = 0 then a else a.pacePost (n - 1) 0xFF10 (paceCount k false epoch)) d

/-- The flags and record of an incomplete agreement (R682, R684). -/
def Dev.paceLate (d : Dev) : Dev :=
  ((d.setRb Reg.PWR_STATUS 28 true).satRf Reg.PWR_EVENTS 47 32 1).recordAll (d.powerFault 0x0905 0)

/-- Largest proposal of the subtree, and whether one is missing or late. -/
def Dev.subtree (d : Dev) (own : Nat) : Nat × Bool :=
  let ups := (List.range d.paceKids).map (fun j => tfind d.pwr.ups j)
  (ups.foldl (fun a u => match u with
    | some x => max a x.1
    | none => a) own,
   ups.any (fun u => match u with
    | some x => x.2
    | none => true))

/-- PACE_UP_POST (R682): with every up post, or at the wait limit. -/
def execPaceUpPost (s : State) : Host.Outcome State Fault Refusal :=
  run .paceUpPost (fun d =>
    match d.pwr.own with
    | none => d
    | some own =>
      let all := (List.range d.paceKids).all (fun j => (tfind d.pwr.ups j).isSome)
      let limit := if d.paceRole = 2 then 480000 else 400000
      if d.paceRole = 0 ∨ d.pwr.upDone ∨ (all = false ∧ d.epochTime < limit) then d
      else
        let r := d.subtree own
        let d1 := d.modPwr (fun x => { x with upDone := true })
        if d.paceRole = 1 then
          d1.pacePost (d.rf Reg.PWR_PACE 31 16) (0xFF00 + d.rf Reg.PWR_PACE 5 2) (paceCount r.1 r.2 d.treeEpoch)
        else
          let k := if r.2 then 64 else r.1
          let d2 := if r.2 then d1.paceLate else d1
          let d3 := d2.modPwr (fun x => { x with agreed := if d.paceBound then some k else x.agreed, own := some k })
          if d.paceBound then d3.setRf Reg.PWR_STATUS 14 8 k else d3) s

/-- PACE_DOWN_POST (R682): the leader at 500 µs. -/
def execPaceDownPost (s : State) : Host.Outcome State Fault Refusal :=
  run .paceDownPost (fun d =>
    match d.pwr.own with
    | none => d
    | some k =>
      if d.paceRole ≠ 2 ∨ d.pwr.upDone = false ∨ d.pwr.downDone ∨ d.epochTime < 500000 then d
      else (d.modPwr (fun x => { x with downDone := true })).postDown k d.treeEpoch) s

/-- PACE_DOWN_MISSING (R684). -/
def execPaceDownMissing (s : State) : Host.Outcome State Fault Refusal :=
  run .paceDownMissing (fun d =>
    if d.paceRole ≠ 1 ∨ d.anyJob = false ∨ d.pwr.downDone ∨ d.epochTime < 950000 then d
    else
      ((d.modPwr (fun x => { x with agreed := some 64, downDone := true, boundary := x.start + 1000000 })).setRf
        Reg.PWR_STATUS 14 8 64).paceLate) s

/-- What Lehr does on a post to one of its objects (R681, R682): it reads the object and resets it. -/
def Dev.paceArrives (d0 : Dev) (obj src : Nat) : Dev :=
  let c := d0.synCount obj
  let d := d0.synReset obj
  let k := c % 128
  let epoch := c / 256 % 65536
  if obj < 0xFF10 then
    let j := obj - 0xFF00
    let d1 := d.modPwr (fun x => { x with kids := tput (fun _ => 0) x.kids j (src + 1) })
    if d1.paceRole ≠ 0 ∧ j < d1.paceKids ∧ epoch = d1.treeEpoch % 65536 then
      d1.modPwr (fun x => { x with ups := (x.ups.filter (fun u => decide (u.1 < j))) ++ [(j, (k, decide (c / 128 % 2 = 1)))]
                                          ++ x.ups.filter (fun u => decide (j < u.1)) })
    else d1
  else if d.paceRole ≠ 1 ∨ d.pwr.downDone then d
  else
    let d1 := d.modPwr (fun x => { x with leaderEpoch := epoch, downDone := true, boundary := d.now + 500000,
                                          agreed := if d.anyJob then some k else x.agreed })
    let d2 := if d.anyJob then d1.setRf Reg.PWR_STATUS 14 8 k else d1
    d2.postDown k epoch

/-! ### The boundary (R485, R676, R677, R710) -/

/-- Halves the access counts of a slot's leaves (R485). -/
def Dev.halveCounts (d : Dev) (s : Nat) : Dev :=
  (d.leaves s).foldl (fun a l =>
    let w0 := a.t1w l.2
    a.setLeaf0 l.2 (nset w0 63 48 (nfld w0 63 48 / 2))) d

/-- Reads the path monitors of a die (R710). -/
def Dev.readMonitors (d : Dev) : Dev :=
  (List.range 3).foldl (fun a k =>
    let r := Config.slack k a.dcur (a.rf Reg.PWR_STATUS 63 32)
    let n := if k = 2 then 16 else 32
    let d1 := a.setReg (Reg.PWR_PMON k) (BitVec.ofNat 64 (r.1 % 256 + r.2 % n * 2 ^ 8))
    if a.dcur = a.rf Reg.PWR_AGE 14 8 then d1.modPwr (fun x => { x with minSlack := min x.minSlack (r.1 % 256) }) else d1) d

/-- PACE_EPOCH_BOUNDARY (R676, R677, R683): the agreed divider and the S fields take force. -/
def Dev.epochBoundary (d : Dev) : Dev :=
  if d.now < d.pwr.boundary then d
  else
    let k := (if d.paceBound then d.pwr.agreed else none).getD (d.rf Reg.PWR_STATUS 22 16)
    let d1 := d.commitAll [Reg.PWR_CAP, Reg.PWR_LIMIT, Reg.PWR_AGE]
    let d2 := ((d1.setRf Reg.PWR_STATUS 6 0 k).setRf Reg.PWR_STATUS 14 8 k).setRf Reg.PWR_STATUS 63 32
      (d.rf Reg.PWR_STATUS 63 32 + 1)
    let d3 := d2.setRf Reg.PWR_AGE 6 0 d2.pwr.offset
    let d4 := d3.modPwr (fun x =>
      { x with agreed := none, start := d.pwr.boundary, boundary := d.pwr.boundary + 1000000, own := none, upDone := false,
               downDone := false, ups := [], leaderEpoch := (x.leaderEpoch + 1) % 65536, divider := k,
               voltage := d3.voltAt k })
    let d5 := d4.readMonitors
    let d6 := (List.range 32).foldl (fun a e => a.modEngine e (fun x => { x with servedLast := x.served, served := [] })) d5
    (slots16.filter d6.hasJob).foldl Dev.halveCounts d6

/-- PACE_EPOCH_BOUNDARY (R676). -/
def execPaceEpochBoundary (s : State) : Host.Outcome State Fault Refusal :=
  run .paceEpochBoundary (fun d => d.epochBoundary) s

/-! ### Ageing (R711 to R713) -/

/-- CCLK in an hour. -/
def hourCclk : Nat := 3600 * 10 ^ 9

/-- CCLK in 168 hours. -/
def ageingPeriod : Nat := 168 * hourCclk

/-- What an evaluation changes: the journal's offset and dtop, and the device (R711, R712). -/
def ageingStep (nv : NonVol) (d : Dev) : NonVol × Dev :=
  if d.inf Reg.PWR_AGE 23 16 ≤ d.pwr.minSlack then (nv, d)
  else if nv.jOffset < 60 then
    ({ nv with jOffset := nv.jOffset + 5 }, d.modPwr (fun x => { x with offset := nv.jOffset + 5 }))
  else
    let k := min 64 (nv.jDtop + 1)
    ({ nv with jDtop := k },
      ((d.setRf Reg.PWR_AGE 14 8 k).setRb Reg.PWR_STATUS 27 true).recordAll (d.powerFault 0x0906 0))

/-- AGEING_EVALUATION (R711): every 168 hours of powered time. -/
def execAgeingEvaluation (s : State) : Host.Outcome State Fault Refusal :=
  if s.dev.now < s.dev.pwr.hours168 + ageingPeriod then .next s
  else
    let r := ageingStep { s.nv with jHours := s.nv.jHours + 168, jHist := Config.histogram s.nv.jHist s.dev.hotNow } s.dev
    .next { s with nv := r.1, dev := (r.2.setRf Reg.PWR_AGE 63 24 r.1.jHours).modPwr (fun x =>
      { x with hours168 := x.hours168 + ageingPeriod, minSlack := 255 }) }

/-! ### Hints (R411, R699) -/

/-- Puts a hint for a unit. -/
def Dev.setHint (d : Dev) (u : Nat) (h : Option (Nat × Nat × Bool)) : Dev :=
  d.modPwr (fun x => { x with hints :=
    let rest := x.hints.filter (fun y => decide (y.1 ≠ u))
    match h with
    | none => rest
    | some v => rest.filter (fun y => decide (y.1 < u)) ++ [((u, v) : Nat × Nat × Nat × Bool)]
        ++ rest.filter (fun y => decide (u < y.1)) })

/-- The die of an engine core: 0 A0, 1 A1; none of a control core, 4 (R34). -/
def dieOfCore (c : Nat) : Nat := if c < 16 then 0 else if c < 32 then 1 else 4

/-- PHINT (R411): the units in rs2, level imm[5:0], start 64 × 2^imm[9:6] ACLK from issue. -/
def execPhint (w : IW) (s : State) : Host.Outcome State Fault Refusal :=
  run (.phint w) (fun d =>
    d.instr { major := 0x2E, takesImm := false, branch := false, eOnly := false }
      (!bitAt w.fn 10 && decide (w.rd = 0) && decide (w.rs1 = 0)) w (fun d1 _ =>
      .done ((List.range 5).foldl (fun a u =>
        if bitAt w.rs2 u then
          (a.setHint u (some ((fld w.fn 5 0, a.pwr.aclks + 64 * 2 ^ fld w.fn 9 6, false) : Nat × Nat × Bool))).modPwr
            (fun x => { x with dies := tput (fun _ => 4) x.dies u (dieOfCore w.core) })
        else a) d1))) s

/-- PHINT_BOOST_START (R699). -/
def execPhintBoostStart (u : Nat) (s : State) : Host.Outcome State Fault Refusal :=
  run (.phintBoostStart u) (fun d =>
    match tfind d.pwr.hints u with
    | some (lv, t, false) => if t ≤ d.pwr.aclks then d.setHint u (some (lv, t, true)) else d
    | _ => d) s

/-- PHINT_BOOST_END (R699): 4,096 ACLK after the hinted start. -/
def execPhintBoostEnd (u : Nat) (s : State) : Host.Outcome State Fault Refusal :=
  run (.phintBoostEnd u) (fun d =>
    match tfind d.pwr.hints u with
    | some (_, t, true) => if t + 4096 ≤ d.pwr.aclks then d.setHint u none else d
    | _ => d) s

end Sys2Proof.Machine
end

