-- ==== Sys2Proof/Machine/Sched.lean ====
section
/-! DEFINITION. LOOPN and DIGEST, the scheduler, command-list entries, twin mode, job admission and cadences (files 08, 09
and 13). -/

namespace Sys2Proof.Machine

/-! ### LOOPN (R406 to R409) -/

/-- The fault of R409: no state is changed. -/
def loopFault (c : Nat) (x : Core) (w : IW) : FaultInfo :=
  { illegalFault c x.pc (wordOf 0x2D w) with code := 0x0A13, info := x.r1 w }

/-- The stack takes a body of `len` instructions after LOOPN with a count, or the loop is passed over at count 0. -/
def loopPush (w : IW) (len count : Nat) (d : Dev) (x : Core) : IRes :=
  let first := x.pc.toNat + ilenOf w
  let last := first + 4 * len - 4
  if x.frozen || decide (4 ≤ x.loops.length) || (match x.loops with
      | l :: _ => decide (l.last < last)
      | [] => false) then unitRaise d (loopFault w.core x w)
  else if count = 0 then .go d (last + 4)
  else .done (d.modCore w.core (fun y => { y with loops := { first := first, last := last, count := count } :: y.loops }))

/-- LOOPN (R406 to R409): rd and rs2[15:12] are 0; imm is a length from 1. -/
def execLoopn (w : IW) (s : State) : Host.Outcome State Fault Refusal :=
  run (.loopn w) (fun d => d.instr (cOp 0x2D false) (decide (w.rd = 0) && decide (fld w.rs2 4 1 = 0)) w (fun d1 x =>
    let len := w.fn.toNat
    let wrong := decide (len = 0) || decide (1024 ≤ len)
    if bitAt w.rs2 0 then
      addrCheck d1 w.core false (x.r1 w) 4 (fun va =>
        match d1.unitLoad w.core va 4 with
        | .ok d2 bs => if wrong then unitRaise d2 (loopFault w.core x w) else loopPush w len (leNat bs) d2 x
        | .fault d2 f => .raise d2 (causeOf false f.code) f
        | .stall d2 => .stall d2 (.operand x.slotN va))
    else if wrong then unitRaise d1 (loopFault w.core x w)
    else if fld (x.r1 w) 63 32 ≠ 0 then unitRaise d1 (loopFault w.core x w)
    else loopPush w len (fld (x.r1 w) 31 0) d1 x)) s

/-! ### DIGEST (R412) -/

/-- The core serves a slot in twin mode. -/
def Dev.twinCore (d : Dev) (x : Core) : Bool :=
  match x.slot with
  | some s => d.twinOn s
  | none => false

/-- DIGEST fold (R412, R665). -/
def execDigestFold (w : IW) (s : State) : Host.Outcome State Fault Refusal :=
  run (.digestFold w) (fun d => d.instr (cOp 0x2F false) (decide (fld w.fn 10 2 = 0)) w (fun d1 x =>
    if !d1.twinCore x then .done d1
    else if 2 ^ 48 ≤ (x.r1 w).toNat then .raise d1 4 (memFault 0x0610 w.core (x.r1 w).toNat 0 0 0)
    else
      match d1.unitLoad w.core (x.r1 w).toNat (x.r2 w).toNat with
      | .ok d2 bs => .done (d2.commitUnit w.core 2 4096 bs)
      | .fault d2 f => .raise d2 (causeOf false f.code) f
      | .stall d2 => .stall d2 (.operand x.slotN (x.r1 w).toNat))) s

/-- DIGEST read (R412): a half of the digest of the last committed entry, 0 outside twin mode. -/
def execDigestRead (w : IW) (s : State) : Host.Outcome State Fault Refusal :=
  run (.digestRead w) (fun d => d.instr (cOp 0x2F false) (decide (fld w.fn 10 3 = 0)) w (fun d1 x =>
    let v := (d1.twinOf x.slotN).last
    doneRd d1 w (if d1.twinCore x then
      BitVec.ofNat 64 (if bitAt w.fn 2 then fld v 127 64 else fld v 63 0) else 0))) s

/-- DIGEST level (R412): for entries that start later. -/
def execDigestLevel (w : IW) (s : State) : Host.Outcome State Fault Refusal :=
  run (.digestLevel w) (fun d => d.instr (cOp 0x2F false) (decide (fld w.fn 10 2 = 0)) w (fun d1 x =>
    .done (if d1.twinCore x then
      d1.setTwin x.slotN { d1.twinOf x.slotN with level := fld (x.r1 w) 1 0 } else d1))) s

/-! ### Shares and control cores (R446 to R451) -/

/-- The slot that a control core serves by the masks in force: the lowest that names it (R451). -/
def Dev.ccSlot (d : Dev) (i : Nat) : Option Nat := slots16.find? (fun s => (d.inf (Reg.SCH_CCORES s) 7 0).testBit i)

/-- A core is given to a slot (R69): registers, predicates, vectors and loop stack read 0; CSRs keep their values but JOBSLOT: a core at
M stays there until its next entry starts (R117, log 13). -/
def Core.assign (x : Core) (s : Nat) : Core :=
  { x.setCsr 0x810 (BitVec.ofNat 64 (s + 2 ^ 31)) with
    g := [], p := 0, v := [], loops := [], frozen := false, wait := none, lines := [], arrived := [], ilen := 4, run := .running,
    async := [], owed := [], posts := [], entry := none, coll := none }

/-- Idle control cores take the slot of the masks in force (R69, R451). -/
def Dev.ccAssign (d : Dev) : Dev :=
  (List.range 8).foldl (fun a i =>
    let n := (slots16.filter (fun s => (a.inf (Reg.SCH_CCORES s) 7 0).testBit i)).length
    let b := if 2 ≤ n then a.setRb Reg.SCH_STATUS 1 true else a
    let x := b.core (32 + i)
    match b.ccSlot i with
    | some s => if x.entry.isNone && decide (x.slot ≠ some s) then b.modCore (32 + i) (fun y => y.assign s) else b
    | none => b) d

/-- Engines not retired. -/
def Dev.enginesUp (d : Dev) : Nat := ((List.range 32).filter (fun e => !d.rb (Reg.ENG_STATUS e) 7)).length

/-- gmin of a slot in force. -/
def Dev.gminOf (d : Dev) (s : Nat) : Nat := min 32 (d.inf (Reg.SCH_SHARE s) 5 0)

/-- gmin as the scheduler honours it: ascending slot order until the engines run out (R450). -/
def Dev.gmin (d : Dev) (s : Nat) : Nat :=
  min (d.gminOf s) (d.enginesUp - ((List.range s).map d.gminOf).sum)

/-- gmax: 0 is taken as 32, and one below gmin as gmin (R450). -/
def Dev.gmax (d : Dev) (s : Nat) : Nat :=
  let m := d.inf (Reg.SCH_SHARE s) 13 8
  max (d.gminOf s) (if m = 0 then 32 else m)

/-- The S fields of the scheduler for a slot take force (Table 0-6); shares that exceed the engines and masks that overlap
are shown. -/
def Dev.schCommit (d : Dev) (s : Nat) : Dev :=
  let d1 := d.commitAll ([Reg.SCH_SHARE s, Reg.SCH_CCORES s]
    ++ (List.range 4).flatMap (fun q => [Reg.SQ_BASE s q, Reg.SQ_CFG s q]))
  let d2 := if d1.enginesUp < (slots16.map d1.gminOf).sum then d1.setRb Reg.SCH_STATUS 0 true else d1
  d2.ccAssign

/-- An entry of a slot executes. -/
def Dev.executes (d : Dev) (s : Nat) : Bool :=
  cores41.any (fun c => match (d.core c).entry with
    | some e => decide (e.slot = s)
    | none => false)

/-! ### Lists and windows (R434 to R443) -/

/-- A list whose window may still hold entries. -/
def CmdList.windowOpen (l : CmdList) : Bool := !(l.lastIn && decide (l.win = []))

/-- Lists with open windows of a slot. -/
def Dev.openLists (d : Dev) (s : Nat) : List CmdList :=
  d.sch.lists.filter (fun l => decide (l.slot = s) && l.windowOpen)

/-- Lists that are over leave the scheduler. -/
def Dev.pruneLists (d : Dev) : Dev :=
  { d with sch := { d.sch with lists := d.sch.lists.filter (fun l => l.windowOpen || decide (l.running ≠ 0)) } }

/-- A queue takes no more lists (R439). -/
def Dev.stopQueue (d : Dev) (s q : Nat) : Dev :=
  { d with sch := { d.sch with queueStopped := tput (fun _ => false) d.sch.queueStopped (s * 4 + q) true } }

/-- The ring fault (R439, R468). -/
def ringFault (addr entry q taken : Nat) : FaultInfo :=
  mkFault 0x0A14 (BitVec.ofNat 64 entry) 59 addr entry (q + taken % 2 ^ 32 * 2 ^ 32)

/-- What the scheduler's read of job memory gives: bytes; a fault, which stops the job (log 67); or nothing yet. -/
def Dev.schRead (d : Dev) (s va n : Nat) (k : Dev → List Byte → Dev) : Dev :=
  match d.unitRead s 59 va n with
  | .ok d1 bs => k d1 bs
  | .fault d1 f => (d1.unitDone s 59).stopWith s f
  | .stall d1 => d1

/-- SUBMIT_LIST_TAKE (R435, R438, R439, R457). -/
def Dev.takeList (d : Dev) (s q : Nat) : Dev :=
  let obj := d.inf (Reg.SQ_CFG s q) 31 16
  if d.runs s = false ∨ d.inf (Reg.SQ_CFG s q) 32 32 = 0 ∨ tget (fun _ => false) d.sch.queueStopped (s * 4 + q) then d
  else if !d.owns s obj then (d.stopQueue s q).stopWith s (d.objFault 59 obj 0)
  else if d.synCount obj = 0 ∨ 8 ≤ (d.openLists s).length ∨ 64 ≤ (slots16.flatMap d.openLists).length then d
  else
    let ls := d.inf (Reg.SQ_CFG s q) 3 0
    let taken := d.rf (Reg.SQ_TAKEN s q) 63 0
    let addr := d.inf (Reg.SQ_BASE s q) 47 0 + 8 * (taken % 2 ^ (if 4 ≤ ls ∧ ls ≤ 12 then ls else 4))
    d.schRead s addr 8 (fun d1 bs =>
      let w := leNat bs
      if nfld w 63 49 ≠ 0 ∨ nfld w 5 0 ≠ 0 then (d1.stopQueue s q).stopWith s (ringFault (nfld w 47 0) w q taken)
      else
        let d2 := ((d1.lapse (ledConsumed (d1.group obj))).takeObj obj).addRf (Reg.SQ_TAKEN s q) 63 0 1
        { d2 with sch := { d2.sch with lists := d2.sch.lists ++
          [({ slot := s, queue := q, taken := taken, serial := w.testBit 48, next := nfld w 47 0, pos := 0, lastIn := false,
              faulted := false, win := [], running := 0 } : CmdList)] } })

/-- SUBMIT_LIST_TAKE (R435). -/
def execSubmitListTake (sl q : Nat) (s : State) : Host.Outcome State Fault Refusal :=
  run (.submitListTake sl q) (fun d => d.takeList sl q) s

/-- The dependencies of an entry: enabled object and count needed (Table 8-15). -/
def depsOf (ws : List Word) : List (Nat × Nat) :=
  let w4 := entWord ws 4
  let w5 := entWord ws 5
  (if w4.testBit 32 then [(nfld w4 15 0, nfld w5 31 0)] else []) ++ (if w4.testBit 33 then [(nfld w4 31 16, nfld w5 63 32)] else [])

/-- Every dependency is met (R414). -/
def Dev.depsMet (d : Dev) (ws : List Word) : Bool := (depsOf ws).all (fun p => decide (p.2 ≤ d.synCount p.1))

/-- A dependency has its error epoch marked (R415). -/
def Dev.depsErr (d : Dev) (ws : List Word) : Bool := (depsOf ws).any (fun p => d.synErr p.1)

/-- The epochs of the objects of an entry's dependencies: a reset of one raises its epoch (R110). -/
def Dev.depEpochs (d : Dev) (ws : List Word) : List Nat := (depsOf ws).map (fun p => d.rf (Reg.SYN_STATE p.1) 47 32)

/-- At the end of a cycle: entries whose dependencies are met take its time, where they show none or an object has been reset since; of
those whose dependencies are not, the time and the end of the wait are forgotten (R452). -/
def Dev.noteMet (d : Dev) : Dev :=
  { d with sch := { d.sch with lists := d.sch.lists.map (fun l =>
      { l with win := l.win.map (fun e =>
          if !d.depsMet e.words then { e with met := none, expired := false }
          else if e.met.isNone || decide (e.epochs ≠ d.depEpochs e.words) then
            { e with met := some d.now, epochs := d.depEpochs e.words, expired := false }
          else e) }) } }

/-- The next entry of a list may enter its window (R440, R442, R443). -/
def Dev.mayEnter (d : Dev) (l : CmdList) : Bool :=
  d.runs l.slot && !l.lastIn && !l.faulted && decide (l.win.length < 16)
    && (decide (l.pos ≠ 0) || d.sch.lists.all (fun m =>
        decide (m.slot ≠ l.slot) || decide (m.queue ≠ l.queue) || decide (l.taken ≤ m.taken) || m.lastIn))
    && (!l.serial || (decide (l.win = []) && decide (l.running = 0)))

/-- ENTRY_ENTER_WINDOW (R440): state 1. -/
def execEntryEnterWindow (sl q taken : Nat) (s : State) : Host.Outcome State Fault Refusal :=
  run (.entryEnterWindow sl q taken) (fun d =>
    match d.listOf sl q taken with
    | none => d
    | some l =>
      if d.mayEnter l = false then d
      else
        d.schRead sl l.next 64 (fun d1 bs =>
          let ws := (leWords 8 8 bs).map (BitVec.ofNat 64)
          let e : WinEntry := { pos := l.pos, addr := l.next, words := ws, expired := false,
                                met := if d1.depsMet ws then some d1.now else none, epochs := d1.depEpochs ws }
          (d1.putProgress sl l.next 0 1 0).modList sl q taken (fun m =>
            { m with next := m.next + 64, pos := m.pos + 1, lastIn := (entWord ws 0).testBit 52, win := m.win ++ [e] }))) s

/-- The entry of a window at a list position. -/
def Dev.winEntry (d : Dev) (s q taken pos : Nat) : Option WinEntry :=
  match d.listOf s q taken with
  | none => none
  | some l => l.win.find? (fun e => decide (e.pos = pos))

/-- An entry leaves its window. -/
def Dev.leaveWindow (d : Dev) (s q taken pos : Nat) : Dev :=
  d.modList s q taken (fun l => { l with win := l.win.filter (fun e => decide (e.pos ≠ pos)) })

/-- ENTRY_SKIP (R415). -/
def execEntrySkip (sl q taken pos : Nat) (s : State) : Host.Outcome State Fault Refusal :=
  run (.entrySkip sl q taken pos) (fun d =>
    match d.winEntry sl q taken pos with
    | none => d
    | some e =>
      if d.runs sl && d.depsErr e.words then ((d.leaveWindow sl q taken pos).skipEntry sl e.addr e.words).pruneLists else d) s

/-! ### Placement (R446 to R456) -/

/-- Entry kind. -/
def kindOf (ws : List Word) : Nat := nfld (entWord ws 0) 51 48

/-- Residency key. -/
def rkeyOf (ws : List Word) : Nat := nfld (entWord ws 3) 63 32

/-- A core with no entry in hand that can take one. -/
def Core.idle (x : Core) : Bool :=
  x.entry.isNone && decide (x.wait = none) && (decide (x.run = .running) || decide (x.run = .ended))

/-- An engine may take an entry: idle, not held, not retired, not suspect, not being reassigned. -/
def Dev.engFree (d : Dev) (e : Nat) : Bool :=
  (d.core e).idle && !d.rb (Reg.ENG_CTRL e) 0 && !d.rb (Reg.ENG_STATUS e) 7 && !d.rb (Reg.ENG_STATUS e) 8
    && (d.engine e).moving.isNone

/-- Position i of an engine's residency record. -/
def Dev.resKey (d : Dev) (e i : Nat) : Option Nat :=
  if d.rb (Reg.SCH_RES e i) 32 then some (d.rf (Reg.SCH_RES e i) 31 0) else none

/-- The record of an engine. -/
def Dev.record4 (d : Dev) (e : Nat) : List Nat := (List.range 4).filterMap (d.resKey e)

/-- The engine whose newest rkey is oldest, and among equals the lowest. -/
def Dev.oldest (d : Dev) : List Nat → Option Nat
  | [] => none
  | e :: es =>
    match d.oldest es with
    | none => some e
    | some f => if (d.engine f).newest < (d.engine e).newest then some f else some e

/-- The procedure of R452 for an entry of a slot. -/
def Dev.placeEngine (d : Dev) (s : Nat) (en : WinEntry) : Option Nat :=
  let cand := (d.enginesOf s).filter d.engFree
  let rk := rkeyOf en.words
  let waits := !en.expired && decide (d.now < en.met.getD d.now + d.inf (Reg.SCH_SHARE s) 47 32 * 64)
  let hit := if rk = 0 then none else
    (List.range 4).findSome? (fun i => cand.find? (fun e => decide (d.resKey e i = some rk)))
  match hit with
  | some e => some e
  | none =>
    if decide (rk ≠ 0) && waits && (d.enginesOf s).any (fun e => (d.core e).entry.isSome && (d.record4 e).contains rk) then none
    else
      match cand.find? (fun e => decide (d.record4 e = [])) with
      | some e => some e
      | none => d.oldest cand

/-- The lowest idle control core that serves a slot and that the slot's mask names (R451, R455). -/
def Dev.placeControl (d : Dev) (s : Nat) : Option Nat :=
  ((List.range 8).map (fun i => 32 + i)).find? (fun c =>
    decide ((d.core c).slot = some s) && decide (d.ccSlot (c - 32) = some s) && (d.core c).idle)

/-- Where an entry would start now. -/
def Dev.place (d : Dev) (s : Nat) (en : WinEntry) : Option Nat :=
  if kindOf en.words = 1 then d.placeEngine s en else d.placeControl s

/-- An entry whose dependencies are met and unmarked. -/
def Dev.readyEntry (d : Dev) (en : WinEntry) : Bool := d.depsMet en.words && !d.depsErr en.words

/-- The entries of a slot in the order in which they are considered (R453): queue, taken value, entry. -/
def Dev.considered (d : Dev) (s : Nat) : List (Nat × Nat × WinEntry) :=
  (d.sch.lists.filter (fun l => decide (l.slot = s) && !l.faulted)).flatMap (fun l => l.win.map (fun e => (l.queue, l.taken, e)))

/-- An entry considered earlier would take a core of the same kind now (R441, R453). -/
def Dev.preceded (d : Dev) (s q taken : Nat) (en : WinEntry) : Bool :=
  ((d.considered s).takeWhile (fun y => !(decide (y.1 = q) && decide (y.2.1 = taken) && decide (y.2.2.pos = en.pos)))).any (fun y =>
    decide (kindOf y.2.2.words = kindOf en.words) && d.readyEntry y.2.2 && (d.place s y.2.2).isSome)

/-- R454: a started entry's rkey becomes position 0. -/
def Dev.noteRkey (d : Dev) (e rk : Nat) : Dev :=
  if rk = 0 then d
  else
    let ks := (rk :: (d.record4 e).filter (fun k => decide (k ≠ rk))).take 4
    let d1 := (List.range 4).foldl (fun a i =>
      a.setReg (Reg.SCH_RES e i) (match ks[i]? with
        | some k => BitVec.ofNat 64 (k + 2 ^ 32)
        | none => 0)) d
    d1.modEngine e (fun x => { x with newest := d.now })

/-! ### Starting and completing entries (R414 to R422) -/

/-- R422: a reserved kind, a pc that is not an instruction address, or a reserved bit. -/
def entryInvalid (ws : List Word) : Bool :=
  decide (2 < kindOf ws) || decide (nfld (entWord ws 0) 1 0 ≠ 0) || decide (nfld (entWord ws 0) 63 53 ≠ 0)
    || decide (nfld (entWord ws 4) 63 34 ≠ 0) || decide (nfld (entWord ws 6) 63 49 ≠ 0)

/-- Objects that an entry names (R550). -/
def entryObjs (ws : List Word) : List Nat :=
  (depsOf ws).map Prod.fst ++ (if (entWord ws 6).testBit 48 then [nfld (entWord ws 6) 15 0] else [])

/-- The fault of an entry that cannot start: its state becomes 4, and the job stops, as no core runs it (log 68). -/
def Dev.entryRefused (d : Dev) (s q taken : Nat) (en : WinEntry) (f : FaultInfo) : Dev :=
  let d1 := ((d.leaveWindow s q taken en.pos).putProgress s en.addr 0 4 0).modList s q taken (fun l => { l with faulted := true })
  d1.stopWith s { f with entry := en.addr }

/-- The identity of an entry (R664). -/
def identOf (q taken pos : Nat) : Word := BitVec.ofNat 64 (q + taken % 2 ^ 32 * 2 ^ 4 + pos % 2 ^ 16 * 2 ^ 36)

/-- An entry as a core runs it. -/
def Dev.runOf (d : Dev) (s q taken : Nat) (en : WinEntry) : EntryRun :=
  let w6 := entWord en.words 6
  { slot := s, queue := q, taken := taken, pos := en.pos, addr := en.addr, doneEn := w6.testBit 48, doneObj := nfld w6 15 0,
    dcount := nfld w6 47 16, units := 0, nextUnit := 0, faulted := false, level := (d.twinOf s).level, passes := 0,
    stream := [] }

/-- A core goes on at J at an address: one at M, whose firmware has ended its service, by MRET (R117). -/
def Core.enterJ (x : Core) (pc : Word) : Core :=
  if bitAt (x.csrOf 0x800) 0 then ((x.setCsr 0x800 (setBit (x.csrOf 0x800) 1 false)).setCsr 0x802 pc).mret else { x with pc := pc }

/-- A core starts an entry (R416). -/
def Core.start (x : Core) (s : Nat) (ws : List Word) (r : EntryRun) : Core :=
  let y := (((x.setG 1 (ws.getD 1 0)).setG 2 (ws.getD 2 0)).setG 3 (ws.getD 3 0)).setG 31 (BitVec.ofNat 64 entryEnd)
  let z := (y.setCsr 0x810 (BitVec.ofNat 64 (s + 2 ^ 31))).enterJ (pcMask (entWord ws 0))
  { z with loops := [], frozen := false, wait := none, lines := [], run := .running, entry := some r, coll := none }

/-- Digests that may await their twins. -/
def Dev.twinLag (d : Dev) (s : Nat) : Nat :=
  let n := d.rf (Reg.TWIN_CFG s) 26 20
  if n = 0 then 16 else min 64 n

/-- The slot may start another entry: no hold, and in twin mode room for its digest (R667). -/
def Dev.mayStart (d : Dev) (s : Nat) : Bool :=
  d.runs s && !d.rb Reg.SCH_CTRL 0 && (!d.twinOn s || decide ((d.twinOf s).waits.length < d.twinLag s))

/-- The end of an entry: its state, its done post as a release, its place in its list (R418, R656). -/
def Dev.entryEnds (d : Dev) (s q taken addr units core : Nat) (faulted doneEn : Bool) (obj n : Nat) : Dev :=
  let d1 := d.putProgress s addr units (if faulted then 4 else 3) core
  let d2 := d1.modList s q taken (fun l => { l with running := l.running - 1 })
  (if doneEn then d2.donePost s 59 obj n faulted else d2).pruneLists

/-- Pieces of a unit's bytes that level 2 digests: rows of a tile, or 4 KiB (R666). -/
def rowsOf (row : Nat) (bs : List Byte) : List (List Byte) :=
  (List.range ((bs.length + row - 1) / row)).map (fun i => (bs.drop (row * i)).take row)

/-- What a device sends its twin of an entry at a level (R664 to R666). -/
def twinMsgOf (ident : Word) (level : Nat) (us : List (Nat × Nat × List Byte × List Byte)) : TwinMsg :=
  let vs := sortBy (fun (u : Nat × Nat × List Byte × List Byte) => u.1) us
  let rows := vs.map (fun u => rowsOf u.2.1 u.2.2.2)
  { ident := ident, digest := digest128 (leBytes 8 ident.toNat ++ vs.flatMap (fun u => u.2.2.1 ++ u.2.2.2)),
    units := if level = 0 then [] else vs.map (fun u => digest128 (u.2.2.1 ++ u.2.2.2)),
    rows := if level ≤ 1 then [] else rows.map (fun r => r.map digest128),
    bytes := if level ≤ 2 then [] else rows }

/-- An entry whose work is over ends, or awaits its twin's digest (R667). -/
def Dev.finishEntry (d : Dev) (r : EntryRun) (core : Nat) : Dev :=
  if d.twinOn r.slot then
    let m := twinMsgOf (identOf r.queue r.taken r.pos) r.level r.stream
    let w : TwinWait :=
      { msg := m, rows := (sortBy (fun (u : Nat × Nat × List Byte × List Byte) => u.1) r.stream).map (fun u => u.2.1),
        level := r.level, core := core, addr := r.addr, queue := r.queue, taken := r.taken, units := r.units,
        faulted := r.faulted, doneEn := r.doneEn, doneObj := r.doneObj, dcount := r.dcount, since := d.now }
    let t := d.twinOf r.slot
    let d1 := d.setTwin r.slot { t with waits := t.waits ++ [w], last := m.digest }
    { d1 with out := { d1.out with twin := (r.slot, m) :: d1.out.twin } }
  else d.entryEnds r.slot r.queue r.taken r.addr r.units core r.faulted r.doneEn r.doneObj r.dcount

/-- An entry starts on a core, or, of kind 0, completes on none (R416, R419, R445). -/
def Dev.startOn (d : Dev) (s q taken : Nat) (en : WinEntry) (core : Option Nat) : Dev :=
  let r := d.runOf s q taken en
  let d1 := (d.leaveWindow s q taken en.pos).modList s q taken (fun l => { l with running := l.running + 1 })
  let d2 := (d1.addRf (Reg.SCH_STARTS s) 63 0 1).setRf (Reg.TWIN_STATUS s) 40 39 r.level
  match core with
  | none => (d2.putProgress s en.addr 0 2 0).finishEntry r 0
  | some c =>
    let d3 := if c < 32 then ((d2.commit (Reg.ENG_CFG c)).noteRkey c (rkeyOf en.words)) else d2
    ((d3.modCore c (fun x => x.start s en.words r)).coreProgress c).enterRings c

/-- ENTRY_START (R414, R416, R422, R452, R453, R550). -/
def Dev.entryStart (d0 : Dev) (s q taken pos : Nat) : Dev :=
  match d0.winEntry s q taken pos with
  | none => d0
  | some en =>
    if d0.mayStart s = false then d0
    else if entryInvalid en.words then
      d0.entryRefused s q taken en (mkFault 0x0A12 (BitVec.ofNat 64 en.addr) 59 en.addr (entWord en.words 0)
        (q + taken % 2 ^ 32 * 2 ^ 32))
    else
      match (entryObjs en.words).find? (fun o => !d0.owns s o) with
      | some o => d0.entryRefused s q taken en (d0.objFault 59 o 0)
      | none =>
        let d := d0.schCommit s
        if !d.readyEntry en then d0
        else if kindOf en.words = 0 then d.startOn s q taken en none
        else if d.preceded s q taken en then d0
        else
          match d.place s en with
          | some c => d.startOn s q taken en (some c)
          | none => d0

/-- ENTRY_START (R414). -/
def execEntryStart (sl q taken pos : Nat) (s : State) : Host.Outcome State Fault Refusal :=
  run (.entryStart sl q taken pos) (fun d => d.entryStart sl q taken pos) s

/-- AFFINITY_WAIT_EXPIRY (R452). -/
def execAffinityWaitExpiry (sl q taken pos : Nat) (s : State) : Host.Outcome State Fault Refusal :=
  run (.affinityWaitExpiry sl q taken pos) (fun d =>
    match d.winEntry sl q taken pos with
    | none => d
    | some en =>
      match en.met with
      | none => d
      | some t =>
        if d.now < t + d.inf (Reg.SCH_SHARE sl) 47 32 * 64 then d
        else d.modList sl q taken (fun l =>
          { l with win := l.win.map (fun e => if e.pos = pos then { e with expired := true } else e) })) s

/-- A core's work for its entry is over (R418). -/
def Dev.coreQuiet (d : Dev) (c : Nat) : Bool :=
  let x := d.core c
  let y := d.engine c
  decide (x.run = .ended) && decide (x.wait = none) && decide (x.async = []) && decide (x.posts = []) && decide (x.arrived = []) && d.settled c
    && d.fab.reads.all (fun r =>
      match r.use with
      | .ldl k _ _ _ _ => decide (k ≠ c)
      | .core k _ => decide (k ≠ c)
      | .unit src _ _ => decide (src ≠ c)
      | .mover _ _ => true
      | .gone _ => true)
    && (decide (32 ≤ c) || (decide (y.work = []) && decide (y.enc = []) && y.fills.all (fun f => !y.fillOpen f)))

/-- Tiles that stand allocated on an engine. -/
def Eng.liveTiles (x : Eng) : List Nat := (List.range 16).filter (fun h => (tget (fun _ => none) x.tiles h).isSome)

/-- ENTRY_COMPLETE (R418, R420, R656). -/
def Dev.entryComplete (d : Dev) (c : Nat) : Dev :=
  let x := d.core c
  match x.entry with
  | none => d
  | some r =>
    if d.coreQuiet c = false then d
    else if decide (c < 32) && decide ((d.engine c).liveTiles ≠ []) then
      (d.modEngine c (fun y => { y with tiles := [] })).raiseCore c 8
        (mkFault 0x0105 x.pc c x.pc.toNat ((d.engine c).liveTiles.headD 0 + r.passes * 2 ^ 32) 0)
    else if x.loops ≠ [] then
      (d.modCore c (fun y => { y with loops := [] })).raiseCore c 8 (mkFault 0x0A13 x.pc c x.pc.toNat 0 0)
    else
      let d1 := (d.modCore c (fun y => { y with entry := none })).finishEntry r c
      (if c < 32 then d1.commit (Reg.ENG_CFG c) else d1).schCommit r.slot

/-- ENTRY_COMPLETE (R418). -/
def execEntryComplete (c : Nat) (s : State) : Host.Outcome State Fault Refusal :=
  run (.entryComplete c) (fun d => d.entryComplete c) s

/-! ### Reassignment of engines (R446 to R450) -/

/-- The slot an engine serves, or will once its reassignment completes. -/
def Dev.engTo (d : Dev) (e : Nat) : Option Nat :=
  match (d.engine e).moving with
  | some m => some m.1
  | none => d.engSlot e

/-- Engines of a slot, those on their way to it among them. -/
def Dev.engCount (d : Dev) (s : Nat) : Nat := ((List.range 32).filter (fun e => decide (d.engTo e = some s))).length

/-- A slot has an entry, of any kind, in a window with its dependencies met (R447, R448). -/
def Dev.slotReady (d : Dev) (s : Nat) : Bool := d.runs s && (d.considered s).any (fun y => d.depsMet y.2.2.words)

/-- R448: the engine may be taken from the slot it serves. -/
def Dev.engReleased (d : Dev) (e : Nat) : Bool :=
  match d.engSlot e with
  | none => true
  | some s => if d.gmin s < d.engCount s then !d.slotReady s else decide (d.openLists s = []) || !d.runs s

/-- Engine time of a slot in the last pace epoch, over all engines. -/
def Dev.servedBy (d : Dev) (s : Nat) : Nat := ((List.range 32).map (fun e => tget (fun _ => 0) (d.engine e).servedLast s)).sum

/-- Weight of a slot: 0 is taken as 1. -/
def Dev.weightOf (d : Dev) (s : Nat) : Nat := max 1 (d.inf (Reg.SCH_SHARE s) 23 16)

/-- The slot of lowest ratio of time served to weight, and then of lowest index. -/
def Dev.leastServed (d : Dev) : List Nat → Option Nat
  | [] => none
  | s :: ss =>
    match d.leastServed ss with
    | none => some s
    | some t => if d.servedBy t * d.weightOf s < d.servedBy s * d.weightOf t then some t else some s

/-- The slot that an idle engine is to serve (R447). -/
def Dev.chooseSlot (d : Dev) : Option Nat :=
  let ready := slots16.filter d.slotReady
  match ready.find? (fun s => decide (d.engCount s < d.gmin s)) with
  | some s => some s
  | none => d.leastServed (ready.filter (fun s =>
      decide (d.engCount s < d.gmax s) && !(List.range 32).any (fun e => decide (d.engTo e = some s) && (d.core e).entry.isNone)))

/-- ENGINE_REASSIGN (R446 to R449): it takes 256 CCLK. -/
def execEngineReassign (e : Nat) (s : State) : Host.Outcome State Fault Refusal :=
  run (.engineReassign e) (fun d =>
    if d.engFree e && d.engReleased e then
      match d.chooseSlot with
      | some sl =>
        if d.engSlot e = some sl then d else d.modEngine e (fun x => { x with moving := some (sl, d.now + 256) })
      | none => d
    else d) s

/-- Counters that an engine clears at assignment to a slot (R332, R449). -/
def engCleared (e : Nat) : List Nat :=
  [Reg.ENG_ROWS e, Reg.ENG_BUBBLES e, Reg.ENG_WSTALL e, Reg.ENG_VFLAGS e, Reg.ENG_SKIPBLK e, Reg.ENG_PFSKIP e, Reg.ENG_PFMISS e,
   Reg.ENG_SPSTAT e] ++ (List.range 4).map (Reg.SCH_RES e)

/-- An engine passes to a slot: its core and tiles are reset, its store reads 0 (R69, R449, R472). -/
def Dev.engAssign (d : Dev) (e s : Nat) : Dev :=
  let y := d.engine e
  let d1 := ((d.dropRing e none).setEngine e { Eng.reset with served := y.served, servedLast := y.servedLast }).modCore e (fun x => x.assign s)
  let d2 := (engCleared e).foldl (fun a o => a.setReg o 0) (d1.setRf (Reg.ENG_STATUS e) 5 1 (s + 16))
  { d2 with mem := { d2.mem with es := zeroRange d2.mem.es (e * 2 ^ 26) (2 ^ 26) } }

/-- Reassignments whose time has come complete. -/
def Dev.engMoves (d : Dev) : Dev :=
  (List.range 32).foldl (fun a e =>
    match (a.engine e).moving with
    | some m => if m.2 ≤ a.now then a.engAssign e m.1 else a
    | none => a) d

/-- One CCLK of engine time for the slot each engine serves. -/
def Dev.countServed (d : Dev) : Dev :=
  (List.range 32).foldl (fun a e =>
    match a.engSlot e with
    | some s => a.modEngine e (fun x =>
        { x with served := tput (fun _ => 0) x.served s (tget (fun _ => 0) x.served s + 1) })
    | none => a) d

/-! ### Twin mode (R663 to R669) -/

/-- First index at which two lists differ. -/
def firstDiff {α : Type} [DecidableEq α] : Nat → List α → List α → Option Nat
  | _, [], [] => none
  | n, x :: xs, y :: ys => if x = y then firstDiff (n + 1) xs ys else some n
  | n, _, _ => some n

/-- Where two messages first differ: unit, row, element (R666, R668). -/
def twinWhere (w : TwinWait) (p : TwinMsg) : Nat × Nat × Nat :=
  let m := w.msg
  if w.level = 0 then (0xFFFFFFFF, 0xFFFF, 0xFFFF)
  else
    let u := (firstDiff 0 m.units p.units).getD 0xFFFFFFFF
    if w.level = 1 then (u, 0xFFFF, 0xFFFF)
    else
      let r := (firstDiff 0 (m.rows.getD u []) (p.rows.getD u [])).getD 0xFFFF
      if w.level = 2 then (u, r, 0xFFFF)
      else
        let a := (m.bytes.getD u []).getD r []
        let b := (p.bytes.getD u []).getD r []
        let o := (firstDiff 0 a b).getD 0xFFFF
        let row := w.rows.getD u 4096
        (u, r, if row = 4096 then o else o * 128 / row)

/-- The digests that TWIN_OWN and TWIN_PEER hold: of the entry, or from level 2 of the row. -/
def twinDigest (level u r : Nat) (m : TwinMsg) : BitVec 128 :=
  if level ≤ 1 then m.digest else (m.rows.getD u []).getD r m.digest

/-- The first difference (R668): registers, then fault 0x0110, which stops the job. -/
def Dev.twinDiffers (d : Dev) (s : Nat) (w : TwinWait) (p : TwinMsg) : Dev :=
  let x := twinWhere w p
  let own := twinDigest w.level x.1 x.2.1 w.msg
  let peer := twinDigest w.level x.1 x.2.1 p
  let put := fun (a : Dev) (o : Nat → Nat) (v : BitVec 128) =>
    (a.setReg (o 0) (BitVec.ofNat 64 (fld v 63 0))).setReg (o 1) (BitVec.ofNat 64 (fld v 127 64))
  let d1 := put (put d (Reg.TWIN_OWN s) own) (Reg.TWIN_PEER s) peer
  let d2 := (d1.setReg (Reg.TWIN_FIRST s) w.msg.ident).setReg (Reg.TWIN_WHERE s)
    (BitVec.ofNat 64 (x.1 % 2 ^ 32 + x.2.1 % 2 ^ 16 * 2 ^ 32 + x.2.2 % 2 ^ 16 * 2 ^ 48))
  let f := mkFault 0x0110 w.msg.ident 63 w.msg.ident.toNat (fld own 63 0) (fld peer 63 0)
  (d2.setRb (Reg.TWIN_STATUS s) 41 true).stopWith s { f with entry := w.addr, units := w.units }

/-- TWIN_DIGEST_COMPARE (R666 to R668): the twin's message for an identity that waits. -/
def execTwinDigestCompare (sl : Nat) (m : TwinMsg) (s : State) : Host.Outcome State Fault Refusal :=
  run (.twinDigestCompare sl m) (fun d =>
    let t := d.twinOf sl
    match t.waits.find? (fun w => decide (w.msg.ident = m.ident)) with
    | none => d
    | some w =>
      if d.runs sl = false ∨ d.twinOn sl = false then d
      else
        let d1 := d.setTwin sl { t with waits := t.waits.filter (fun y => decide (y ≠ w)) }
        if w.msg = m then
          (d1.addRf (Reg.TWIN_STATUS sl) 31 0 1).entryEnds sl w.queue w.taken w.addr w.units w.core w.faulted w.doneEn w.doneObj
            w.dcount
        else d1.twinDiffers sl w m) s

/-- The port to the twin is UP to the node that TWIN_CFG names (R663). -/
def Dev.twinLinked (d : Dev) (s : Nat) : Bool :=
  let p := d.rf (Reg.TWIN_CFG s) 18 16
  d.portUp p && decide (d.rf (Reg.PORT_PARTNER p) 15 0 = d.rf (Reg.TWIN_CFG s) 15 0)

/-- TWIN_TIMEOUT (R669): a digest beyond the limit, or a twin port that has left UP. -/
def execTwinTimeout (sl : Nat) (s : State) : Host.Outcome State Fault Refusal :=
  run (.twinTimeout sl) (fun d =>
    let ms := d.rf (Reg.TWIN_CFG sl) 47 32
    let late := (d.twinOf sl).waits.find? (fun w => decide (w.since + (if ms = 0 then 100 else ms) * 1000000 ≤ d.now))
    let ident := ((match late with
      | some w => some w
      | none => (d.twinOf sl).waits.head?).map (fun (w : TwinWait) => w.msg)).map (fun (m : TwinMsg) => (m.ident, fld m.digest 63 0))
    if d.runs sl && d.twinOn sl && (late.isSome || !d.portUp (d.rf (Reg.TWIN_CFG sl) 18 16)) then
      let i := ident.getD (0, 0)
      (d.setRb (Reg.TWIN_STATUS sl) 42 true).stopWith sl (mkFault 0x0111 i.1 63 i.1.toNat i.2 0)
    else d) s

/-! ### Ranges (R547, R548) -/

/-- The first and the end of each slot's range. -/
def Dev.rangeEnds (d : Dev) : List Nat :=
  slots16.flatMap (fun s =>
    let b := d.rf (Reg.SYN_RANGE s) 15 0
    [b, b + d.rf (Reg.SYN_RANGE s) 32 16])

/-- Objects at which the owner can change between two settings of the ranges: owners are constant between the ends of
ranges, so that these stand for all 65,536. -/
def ownerPoints (d e : Dev) : List Nat := (0 :: (d.rangeEnds ++ e.rangeEnds)).filter (fun i => decide (i < 65536))

/-- A setting of the ranges changes the owner of an object that a slot with a job owns (R548). -/
def takesFromJob (d e : Dev) : Bool :=
  (ownerPoints d e).any (fun i =>
    decide (d.owner i ≠ e.owner i) && (match d.owner i with
      | some s => d.hasJob s
      | none => false))

/-- Objects whose count is not 0, with their counts. -/
def Dev.standing (d : Dev) : List (Nat × Nat) :=
  ((d.regs.filter (fun kw => decide (Reg.SYN_STATE 0 ≤ kw.1) && decide (kw.1 < Reg.SYN_STATE 65536)
      && decide ((kw.1 - Reg.SYN_STATE 0) % 16 = 0))).map (fun kw => ((kw.1 - Reg.SYN_STATE 0) / 16, fld kw.2 31 0))).filter
    (fun ic => decide (ic.2 ≠ 0))

/-- Objects in the ranges of two slots (R547). -/
def Dev.overlapping (d : Dev) : Bool :=
  (d.rangeEnds.filter (fun i => decide (i < 65536))).any (fun i =>
    decide (2 ≤ (slots16.filter (fun s => d.inRange s i)).length))

/-- A setting of SYN_RANGE takes effect: the standing counts move from the old owner's group to the new owner's (R547, R548). -/
def Dev.synRangeSet (d : Dev) (s : Nat) (w : Word) : Dev :=
  let e := d.setReg (Reg.SYN_RANGE s) w
  let e1 := d.standing.foldl (fun (a : Dev) (ic : Nat × Nat) =>
    if d.owner ic.1 = e.owner ic.1 then a
    else
      (((a.lapse (ledConsumed (d.group ic.1))).ledgerAdd (ledConsumed (d.group ic.1)) (BitVec.ofNat 64 ic.2)).lapse
        (ledApplied (e.group ic.1))).ledgerAdd (ledApplied (e.group ic.1)) (BitVec.ofNat 64 ic.2)) e
  if e1.overlapping then e1.setRb Reg.SYN_STATUS 0 true else e1

/-- A write of SYN_RANGE (R26, R547, R548): ignored, and flagged, while the slot has a job or when it would take an object
from one that has. -/
def Dev.synRangeWrite (d : Dev) (s : Nat) (x : Word) : Dev :=
  let w : Word := BitVec.ofNat 64 (fld x 32 0)
  if w = d.reg (Reg.SYN_RANGE s) then d
  else if d.hasJob s || takesFromJob d (d.setReg (Reg.SYN_RANGE s) w) then d.setRb Reg.SYN_STATUS 1 true
  else
    (d.synRangeSet s w).noteL { time := d.now, block := .slot s, off := Reg.SYN_RANGE s, mask := 2 ^ 33 - 1,
                                old := d.reg (Reg.SYN_RANGE s), flag := some (Reg.SYN_STATUS, 1) }

/-- A slot is about to have a job: what the host wrote in this CCLK to registers that are busy while it has one is ignored (R29), SYN_RANGE
with the counts that its setting moved. -/
def Dev.slotBusy (d : Dev) (s : Nat) : Dev :=
  let d1 := d.hst.lwrites.foldl (fun (a : Dev) (l : LWrite) =>
    if l.off = Reg.SYN_RANGE s ∧ l.time = d.now then a.synRangeSet s l.old else a) d
  let d2 := d1.becomesBusy (.slot s)
  if d.jobSlots ≠ [] then d2 else d2.becomesBusy .jobs


/-! ### Admission (R428 to R432) -/

/-- Number of the first check of Table 9-6 that fails, 0 for none. -/
def Dev.admitCheck (d : Dev) (s : Nat) : Nat :=
  let ms := d.members s
  if !d.ready || decide (d.rf Reg.SEC_BOOT 3 0 = 8) then 1
  else if d.hasJob s ∨ d.sec.jreset = some s then 2
  else if d.jobId s = 0 ∨ (slots16.any (fun t => decide (t ≠ s) && d.hasJob t && decide (d.jobId t = d.jobId s))) then 3
  else if !d.member s d.node || !ms.all d.inTopo then 4
  else if d.rb (Reg.JOB_PROFILE s) 0 && ms.any (fun n => decide (d.genOf n = 1)) then 5
  else 0

/-- Clears a slot's fault log, FLT_STATUS and FLT_HEAD (R430, R650); lapsed goes on to show a device that took 0x0B02
(R672). -/
def Dev.clearLog (d : Dev) (s : Nat) : Dev :=
  let lo := Reg.FLOG s 0 0
  let d1 : Dev := { d with regs := d.regs.filter (fun r => decide (r.1 < lo) || decide (lo + 0x4000 ≤ r.1)) }
  (d1.setReg (Reg.FLT_STATUS s) (d.reg (Reg.FLT_STATUS s) &&& 8)).setReg (Reg.FLT_HEAD s) 0

/-- The shipped programs stand in the program image of the job that a slot admits, at addresses that the spec does not give
(free, log 129). -/
def Dev.linkRings (d : Dev) (s : Nat) : Dev :=
  let n := d.takeFree
  { n.2 with xch := { n.2.xch with rings := tput (fun _ => none) n.2.xch.rings s (some (Config.ringsAt n.1)) } }

/-- JOB_ADMIT_GO (R430, R431): a write of 1 to JOB_ADMIT.go. The checks are made on the registers as they are if the slot becomes busy
(R29, log 133). -/
def Dev.admitJob (d0 : Dev) (s : Nat) : Dev :=
  let k := (d0.slotBusy s).admitCheck s
  let d := (if k = 0 then d0.slotBusy s else d0).clearLog s
  let d1 := d.setRf (Reg.JOB_ADMIT s) 7 4 k
  if k = 0 then
    let d2 := (((d1.setRf (Reg.JOB_ADMIT s) 3 2 1).mapSlot s).schCommit s).linkRings s
    if d2.rb (Reg.TWIN_CFG s) 19 && !d2.twinLinked s then d2.setRb (Reg.TWIN_STATUS s) 43 true else d2
  else if k = 5 then
    d1.writeRecord s (mkFault 0x0113 0 59 0 5 (((d.members s).find? (fun n => decide (d.genOf n = 1))).getD 0)) false false false
  else d1

/-- JOB_ADMIT_GO (R430). -/
def execJobAdmitGo (sl : Nat) (s : State) : Host.Outcome State Fault Refusal :=
  host (.jobAdmitGo sl) bar0 false false (fun a => a.admitJob sl) s

/-- The operator stops a job (R432, R642): the stop, then its record. -/
def Dev.operatorStop (d : Dev) (s : Nat) : Dev :=
  if d.runs s then (d.stopJob s).writeRecord s (mkFault 0x0A01 0 59 0 0 0) false true false else d

/-- JOB_ADMIT_STOP (R432). -/
def execJobAdmitStop (sl : Nat) (s : State) : Host.Outcome State Fault Refusal :=
  host (.jobAdmitStop sl) bar0 false false (fun a => a.operatorStop sl) s

/-! ### Cadences (R458 to R465) -/

/-- Owner slot of a cadence. -/
def Dev.cadOwner (d : Dev) (n : Nat) : Option Nat :=
  if d.rb (Reg.CAD_OWN n) 4 then some (d.rf (Reg.CAD_OWN n) 3 0) else none

/-- A cadence stops at once (R463). -/
def Dev.cadStop (d : Dev) (n : Nat) : Dev := (d.setRb (Reg.CAD_CFG n) 22 false).setCadence n { d.cadence n with on := false, open_ := false }

/-- What stood in a cadence's S registers before this CCLK is kept at the first write of one in it (R23, R462). -/
def Dev.cadKeep (d : Dev) (n : Nat) : Dev :=
  let x := d.cadence n
  if x.prior.map (fun p => p.1) = some d.now then d
  else d.setCadence n { x with prior := some (d.now, d.reg (Reg.CAD_CFG n), d.reg (Reg.CAD_QUOTA n)) }

/-- The commit point of a cadence: its S fields take force, without a write of the same CCLK (R23, R462). -/
def Dev.cadCommit (d : Dev) (n : Nat) : Dev :=
  match (d.cadence n).prior with
  | some p =>
    if p.1 = d.now then
      { d with force := tput resetVal (tput resetVal d.force (Reg.CAD_CFG n) p.2.1) (Reg.CAD_QUOTA n) p.2.2 }
    else d.commitAll [Reg.CAD_CFG n, Reg.CAD_QUOTA n]
  | none => d.commitAll [Reg.CAD_CFG n, Reg.CAD_QUOTA n]

/-- CADENCE_PERIOD_START (R458, R462, R464, R550). -/
def Dev.periodStart (d0 : Dev) (n : Nat) : Dev :=
  let x := d0.cadence n
  match d0.cadOwner n with
  | none => d0
  | some s =>
    if x.on = false ∨ x.open_ ∨ d0.now < x.s ∨ (d0.hasJob s ∧ d0.runs s = false) then d0
    else
      let d := d0.cadCommit n
      let tick := d.inf (Reg.CAD_CFG n) 47 32
      let done := d.inf (Reg.CAD_CFG n) 63 48
      match [tick, done].find? (fun o => !d.owns s o) with
      | some o => (d.cadStop n).stopWith s (d.objFault 59 o 0)
      | none =>
        let pn := max 16 (d.inf (Reg.CAD_CFG n) 19 0) * 1000
        let cut := min x.debt (pn * (d.inf (Reg.CAD_CFG n) 21 20 + 1) / 8)
        let len := pn - cut
        let quota := d.inf (Reg.CAD_QUOTA n) 31 0 * len / pn
        let r := d.post tick quota false
        let d1 := if r.2 then r.1 else r.1.setRb (Reg.CAD_STATUS n) 3 true
        ((d1.showPeriod n x.number x.debt).setCadence n
          { x with pn := pn, len := len, tick := tick, done := done, open_ := true }).lapse (ledConsumed (d.group done)) |>.cadenceCheck done

/-- CADENCE_PERIOD_START (R458). -/
def execCadencePeriodStart (n : Nat) (s : State) : Host.Outcome State Fault Refusal :=
  run (.cadencePeriodStart n) (fun d => d.periodStart n) s

/-- A cadence register stands in a view: BAR0, or the window of the slot that CAD_OWN names. -/
def Dev.viaCad (d : Dev) (v : Via) (n : Nat) : Bool :=
  match v.slot with
  | none => true
  | some s => decide (d.cadOwner n = some s)

/-- The fields of CAD_CFG that a write reaches. -/
def cadMask : Nat := 2 ^ 22 - 1 + (2 ^ 32 - 1) * 2 ^ 32

/-- A write of CAD_CFG: its fields, and enable with its effect (R463, R661). -/
def Dev.cadWrite (d0 : Dev) (n : Nat) (x : Word) : Dev :=
  let d := d0.cadKeep n
  let was := d.rb (Reg.CAD_CFG n) 22
  let on := bitAt x 22 && d.rb (Reg.CAD_OWN n) 4
  let d1 := d.setReg (Reg.CAD_CFG n) (BitVec.ofNat 64 ((x.toNat &&& cadMask) + b2n was * 2 ^ 22))
  if was = on then d1
  else if !on then d1.cadStop n
  else
    match d.cadOwner n with
    | none => d1
    | some s =>
      if d.hasJob s && d.rb (Reg.JOB_PROFILE s) 0 then d1.unitFault s (mkFault 0x0112 3 59 0 3 0)
      else
        let y := d.cadence n
        ((d1.setRb (Reg.CAD_CFG n) 22 true).setReg (Reg.CAD_STATE n) 0).setCadence n
          { y with on := true, s := d.now + 1, debt := 0, number := 0, open_ := false, prior := none }

/-- CAD_CFG_ENABLE_SET (R463). -/
def execCadCfgEnableSet (v : Via) (n : Nat) (x : BitVec 64) (s : State) : Host.Outcome State Fault Refusal :=
  host (.cadCfgEnableSet v n x) v false false (fun a =>
    if a.viaCad v n && bitAt x 22 then a.cadWrite n x else a) s

/-- CAD_CFG_ENABLE_CLEAR (R463). -/
def execCadCfgEnableClear (v : Via) (n : Nat) (x : BitVec 64) (s : State) : Host.Outcome State Fault Refusal :=
  host (.cadCfgEnableClear v n x) v false false (fun a =>
    if a.viaCad v n && !bitAt x 22 then a.cadWrite n x else a) s

end Sys2Proof.Machine
end

