-- ==== Sys2Proof/Machine/Ports.lean ====
section
/-! DEFINITION. The fabric ports: states and training, flits and link retry, credits and heartbeats, link-state notices,
discovery (R566 to R596, R615, R618, R809). Transactions that flits carry arrive as commands of their own (log 70). -/

namespace Sys2Proof.Machine

/-! ### States and training (R578 to R590) -/

/-- Port p has a partner: its dimension is above 1 (R566). -/
def Dev.portUsed (d : Dev) (p : Nat) : Bool := decide (1 < d.dim (p / 2))

/-- FAB_CFG.port_hold in CCLK; 0 is taken as 1. -/
def Dev.portHold (d : Dev) : Nat := max 1 (d.rf Reg.FAB_CFG 55 48) * 100000

/-- FAB_CFG.retry_ms in CCLK; 0 is taken as 1,000. -/
def Dev.retryTime (d : Dev) : Nat :=
  let n := d.rf Reg.FAB_CFG 47 36
  (if n = 0 then 1000 else n) * 1000000

/-- Puts a port in a state. -/
def Dev.setPortState (d : Dev) (p st : Nat) : Dev := d.setRf (Reg.PORT_STATE p) 3 0 st

/-- A record of class record that names a port, its partner and its state (Table 13-4). -/
def Dev.portFault (d : Dev) (code p : Nat) : FaultInfo :=
  mkFault code 0 60 (d.neighbour d.node p + p * 2 ^ 27) 0 (d.portState p)

/-- The receive buffers of a port are empty again: what waits in transit occupies none of them. -/
def Dev.clearOrigins (d : Dev) (p : Nat) : Dev :=
  (List.range 8).foldl (fun a q => a.modPort q (fun x => { x with held := x.held.map (fun h =>
    match h.origin with
    | some o => if o.1 = p then { h with origin := none } else h
    | none => h) })) d

/-- Notes that a port that was UP is not. -/
def Port.leaveUp (x : Port) (now : Nat) : Port := { x with downSince := some (x.downSince.getD now) }

/-- A full training begins (R583, R590): the replay buffer is discarded and counted, fseq and credits restart at 0, S
fields take effect. -/
def Dev.portFull (d : Dev) (p : Nat) : Dev :=
  let x := d.port p
  let d1 := (d.satRf Reg.FAB_DROPS 31 0 x.replay.length).satRf (Reg.PORT_RETRY p) 63 48 1
  let d2 := (d1.setReg (Reg.PORT_STATE p) 1).commit (Reg.PORT_CTRL p)
  (d2.setPort p { x.leaveUp d.now with
    rxExpect := 0, nakSent := false, txNext := 0, replay := [], nakFor := 0, nakCount := 0, ackTime := d.now,
    since := d.now, credits := [], due := [], tail := [], part := [], fresh := true }).clearOrigins p

/-- PORT_TRAIN_START (R579): 2 × p ms after fabric-ready. -/
def execPortTrainStart (p : Nat) (s : State) : Host.Outcome State Fault Refusal :=
  run (.portTrainStart p) (fun d =>
    if d.portState p = 0 ∧ d.rb Reg.FAB_STATUS 0 ∧ d.rb Reg.FAB_NODE 16 ∧ d.portUsed p ∧ d.rb (Reg.PORT_CTRL p) 0
        ∧ (d.port p).since + 2 * p * 1000000 ≤ d.now then (d.becomesBusy .ports).portFull p
    else d) s

/-- The width code of a lane group's size, by the lanes that pass (R580): 3 eight, 2 four, 1 two, 0 none. -/
def widthOf (failed : BitVec 8) : Nat :=
  let group := fun (n i : Nat) => (List.range n).all (fun k => !bitAt failed (n * i + k))
  if group 8 0 then 3
  else if group 4 0 || group 4 1 then 2
  else if group 2 0 || group 2 1 || group 2 2 || group 2 3 then 1
  else 0

/-- The least width code that PORT_CTRL.minw in force permits. -/
def Dev.minWidth (d : Dev) (p : Nat) : Nat := min 2 (d.inf (Reg.PORT_CTRL p) 3 2) + 1

/-- PORT_TRAINING_DONE (R580, R581): the lanes are shown; with a width that passes, ident flits follow. A fast retrain that
fails goes over to full training; a full training goes on. -/
def execPortTrainingDone (p : Nat) (r : TrainResult) (s : State) : Host.Outcome State Fault Refusal :=
  run (.portTrainingDone p r) (fun d =>
    if d.portState p = 1 then
      let d1 := d.setReg (Reg.PORT_LANES p)
        (BitVec.ofNat 64 (r.failed.toNat + r.inverted.toNat * 2 ^ 8 + b2n r.reversed * 2 ^ 16))
      let w := widthOf r.failed
      if d.minWidth p ≤ w then
        let d2 := (d1.setPortState p 2).setRf (Reg.PORT_STATE p) 5 4 w
        { d2 with out := { d2.out with idents := (p, (d.port p).rxExpect) :: d2.out.idents } }
      else if d.rb (Reg.PORT_STATE p) 8 then d1.portFull p
      else d1
    else d) s

/-- PORT_TRAINING_TIMEOUT (R589): full training not done within 50 ms. -/
def execPortTrainingTimeout (p : Nat) (s : State) : Host.Outcome State Fault Refusal :=
  run (.portTrainingTimeout p) (fun d =>
    if (d.portState p = 1 ∨ d.portState p = 2) ∧ d.rb (Reg.PORT_STATE p) 8 = false
        ∧ (d.port p).since + 50000000 ≤ d.now then
      let d1 := (d.setReg (Reg.PORT_STATE p) 7).modPort p (fun x => { x with since := d.now })
      d1.recordAll (d1.portFault 0x0507 p)
    else d) s

/-- PORT_DOWN_RETRY (R589). -/
def execPortDownRetry (p : Nat) (s : State) : Host.Outcome State Fault Refusal :=
  run (.portDownRetry p) (fun d =>
    if d.portState p = 7 ∧ (d.port p).since + d.retryTime ≤ d.now then (d.becomesBusy .ports).portFull p else d) s

/-- FAST_RETRAIN_START (R577, R582): eight NAKs of one fseq in a row, or 10 µs without ack progress. -/
def execFastRetrainStart (p : Nat) (s : State) : Host.Outcome State Fault Refusal :=
  run (.fastRetrainStart p) (fun d =>
    let x := d.port p
    if d.portLinked p && (decide (8 ≤ x.nakCount) || (decide (x.replay ≠ []) && decide (x.ackTime + 10000 ≤ d.now))) then
      (((d.satRf (Reg.PORT_RETRY p) 47 32 1).setRb (Reg.PORT_STATE p) 8 true).setPortState p 1).commit (Reg.PORT_CTRL p) |>.setPort
        p { x.leaveUp d.now with nakSent := false, nakFor := 0, nakCount := 0, since := d.now }
    else d) s

/-- FAST_RETRAIN_TIMEOUT (R581): not done within 200 µs. -/
def execFastRetrainTimeout (p : Nat) (s : State) : Host.Outcome State Fault Refusal :=
  run (.fastRetrainTimeout p) (fun d =>
    if d.rb (Reg.PORT_STATE p) 8 ∧ (d.port p).since + 200000 ≤ d.now then d.portFull p else d) s

/-- PORT_CTRL.retrain (R585, R590): a full training, once the device is fabric-ready and the port enabled. -/
def Dev.portRetrain (d : Dev) (p : Nat) : Dev :=
  if d.portState p ≠ 0 ∧ d.portState p ≠ 8 ∧ d.rb (Reg.PORT_CTRL p) 0 then d.portFull p else d

/-- PORT_CTRL_RETRAIN (R590). -/
def execPortCtrlRetrain (p : Nat) (s : State) : Host.Outcome State Fault Refusal :=
  host (.portCtrlRetrain p) bar0 false false (fun a => a.portRetrain p) s

/-! ### Link-state notices (R615, R809) -/

/-- The payload of a notice (Table 12-13). -/
def noticeBytes (node port : Nat) (marked : Bool) : List Byte :=
  leBytes 2 node ++ leBytes 1 port ++ leBytes 1 (b2n marked) ++ List.replicate 28 0#8

/-- A notice goes on by a port (R615): by torus ports in the reporting node's block, and for a span link by span ports at
its span-ring partners. -/
def Dev.noticeGoes (d : Dev) (node : Nat) (span : Bool) (q : Nat) : Bool :=
  if q < 6 then decide (coord node 3 = coord d.node 3) else span && decide (node % 4096 = d.node % 4096)

/-- Sends a notice by every linked port of its reach but one. -/
def Dev.floodNotice (d : Dev) (t : Tx) (span : Bool) (but : Nat) : Dev :=
  ((List.range 8).filter (fun q => decide (q ≠ but) && d.noticeGoes (leNat (t.payload.take 2)) span q && d.portUsed q
      && d.portLinked q)).foldl
    (fun a q => a.toPort q (withCrc { t with dst := a.neighbour a.node q }) none) d

/-- LINK_STATE_NOTICE_SEND (R615): numbered from 0 upward. -/
def Dev.sendNotice (d : Dev) (p : Nat) (marked : Bool) : Dev :=
  let n := d.fab.noticeNo
  let t := { d.tx 0x11 5 d.node 0 0 with offset := n, lenM1 := 31, payload := noticeBytes d.node p marked }
  ({ d with fab := { d.fab with noticeNo := (n + 1) % 65536, seen := (d.node, n) :: d.fab.seen } }).floodNotice t (decide (6 ≤ p)) 8

/-- A port that is UP again after a notice (R615). -/
def Dev.portReturns (d : Dev) (p : Nat) : Dev :=
  let x := d.port p
  let d1 := d.setPort p { x with downSince := none, noticed := false }
  if x.noticed then d1.sendNotice p false else d1

/-- PORT_HOLD_EXPIRY (R615, R618): what has waited for a port not UP for port_hold is discarded, and a notice sent once. -/
def execPortHoldExpiry (p : Nat) (s : State) : Host.Outcome State Fault Refusal :=
  run (.portHoldExpiry p) (fun d =>
    if d.portUp p then d
    else
      let x := d.port p
      let gone := x.held.filter (fun h => decide (h.since + d.portHold ≤ d.now))
      let d1 := (d.setPort p { x with held := x.held.filter (fun h => decide (d.now < h.since + d.portHold)) }).satRf
        Reg.FAB_DROPS 31 0 gone.length
      let d2 := gone.foldl (fun (a : Dev) (h : HeldTx) => a.freeOrigin h.origin) d1
      match x.downSince with
      | some t =>
        if t + d.portHold ≤ d.now ∧ x.noticed = false then
          (d2.modPort p (fun y => { y with noticed := true })).sendNotice p true
        else d2
      | none => d2) s

/-! ### Identities (R583 to R586, R782) -/

/-- VCs whose credits a link carries: an SL1 link has no VC3 and VC4 (Table 17-1). -/
def Dev.linkVcs (d : Dev) (p : Nat) : List Nat :=
  if d.rf (Reg.PORT_STATE p) 7 6 = 1 then [0, 1, 2] else [0, 1, 2, 3, 4]

/-- Grants the whole receive buffer of a VC, a quarter to each class (R586, R591). -/
def Dev.grantVc (d : Dev) (p vc : Nat) : Dev :=
  (List.range 4).foldl (fun a c => a.grantCredits p (vc * 4 + c) (vcBuffer (decide (6 ≤ p)) vc / 4)) d

/-- DEVICE_READY_CREDITS_OPEN (R586) at a LINKED port: VC0 to VC4 are granted, and the port is UP. -/
def Dev.openPort (d : Dev) (p : Nat) : Dev :=
  if d.portState p = 3 then
    ((((d.linkVcs p).foldl (fun a v => a.grantVc p v) d).setPortState p 4).portReturns p).flushPort p
  else d

/-- A fast retrain succeeds (R582, R583): what the partner has not taken is sent again. A port that was LINKED when it began
has VC0 to VC4 still to grant once the device is ready (R586). -/
def Dev.fastDone (d : Dev) (p fseq : Nat) : Dev :=
  let x := d.port p
  let keep := x.replay.filter (fun f => decide ((f.fseq + 8192 - fseq % 8192) % 8192 < 4096))
  let d1 := (d.setRb (Reg.PORT_STATE p) 8 false).setPort p { x with replay := keep, ackTime := d.now, since := d.now, fresh := true }
  let d2 := { d1 with out := { d1.out with flits := (keep.map (fun f => (p, f))).reverse ++ d1.out.flits } }
  if !d.ready then ((d2.setPortState p 3).sendCredits p).flushPort p
  else if x.credit 0 = Credit.reset then ((d2.setPortState p 3).sendCredits p).openPort p
  else (((d2.setPortState p 4).portReturns p).sendCredits p).flushPort p

/-- IDENT_FLIT_RECEIVE (R584 to R587, R782). -/
def execIdentFlitReceive (p : Nat) (x : Ident) (s : State) : Host.Outcome State Fault Refusal :=
  run (.identFlitReceive p x) (fun d =>
    let st := d.portState p
    if st = 0 ∨ st = 1 ∨ st = 7 ∨ st = 8 then d.satRf Reg.FAB_DROPS 31 0 1
    else if st = 2 ∨ st = 5 then
      let d1 := (d.setReg (Reg.PORT_PARTNER p) (BitVec.ofNat 64 (x.node % 65536 + x.port % 8 * 2 ^ 16 + 2 ^ 19))).setRf
        (Reg.PORT_STATE p) 7 6 (min 3 x.level)
      if st = 5 then d1
      else if x.node = d.node ∧ x.port = p then (d1.setPortState p 6).setRb (Reg.PORT_STATE p) 8 false
      else if x.topo ≠ d.rf Reg.FAB_TOPO 15 0 ∨ x.node ≠ d.neighbour d.node p ∨ x.port ≠ farPort p then
        let d2 := ((d1.setPortState p 5).setRb (Reg.PORT_STATE p) 8 false).modPort p (fun y => { y with since := d.now })
        d2.recordAll (d2.portFault 0x0508 p)
      else if d.rb (Reg.PORT_STATE p) 8 then d1.fastDone p x.fseq
      else
        let d2 := ((d1.setPortState p 3).modPort p (fun y => { y with since := d.now })).grantVc p 5
        if d.ready then d2.openPort p else d2.flushPort p
    else d) s

/-- MISWIRED_IDENT_SEND (R585): every 1 ms. -/
def execMiswiredIdentSend (p : Nat) (s : State) : Host.Outcome State Fault Refusal :=
  run (.miswiredIdentSend p) (fun d =>
    if d.portState p = 5 ∧ (d.port p).since + 1000000 ≤ d.now then
      let d1 := d.modPort p (fun y => { y with since := d.now })
      { d1 with out := { d1.out with idents := (p, (d.port p).rxExpect) :: d1.out.idents } }
    else d) s

/-! ### Flits (R569 to R576, R587, R593, R596) -/

/-- A flit is bad (R571): not correctable, its crc fails, credits in an unsequenced kind, or a reserved kind. -/
def flitBad (x : Flit) : Bool :=
  decide (8 < x.errs) || decide (x.crc ≠ flitCrc x)
    || ((decide (x.kind = 1) || decide (x.kind = 2) || decide (x.kind = 4)) && decide (x.ccnt ≠ 0)) || decide (5 ≤ x.kind)

/-- A sequenced flit; a flit of reserved kind counts as one (R571). -/
def flitSequenced (x : Flit) : Bool := decide (x.kind = 0) || decide (x.kind = 3) || decide (5 ≤ x.kind)

/-- The partner's ack leaves the replay buffer (R575). -/
def Dev.ackFlits (d : Dev) (p ack : Nat) : Dev :=
  let x := d.port p
  if x.replay.any (fun f => decide (f.fseq = ack)) then
    (d.setPort p { x with replay := (x.replay.dropWhile (fun f => decide (f.fseq ≠ ack))).drop 1, ackTime := d.now }
      |>.sendCredits p).flushPort p
  else d

/-- A NAK (R575, R577): every kept flit from the one it names is sent again, in order. -/
def Dev.nakArrives (d : Dev) (p fseq : Nat) : Dev :=
  let x := d.port p
  let keep := x.replay.dropWhile (fun f => decide (f.fseq ≠ fseq))
  if keep = [] then d
  else
    let d1 := d.setPort p { x with nakFor := fseq, nakCount := if x.nakFor = fseq then x.nakCount + 1 else 1 }
    { d1 with out := { d1.out with flits := (keep.map (fun f => (p, f))).reverse ++ d1.out.flits } }

/-- A flit at a port in OFF, TRAIN, DOWN or DISABLED is discarded and counted (R587). -/
def Dev.noFlits (d : Dev) (p : Nat) : Bool :=
  decide (d.portState p = 0) || decide (d.portState p = 1) || decide (d.portState p = 7) || decide (d.portState p = 8)

/-- NAK_RECEIVE (R575, R587). -/
def execNakReceive (p fseq : Nat) (s : State) : Host.Outcome State Fault Refusal :=
  run (.nakReceive p fseq) (fun d =>
    if d.portLinked p then d.nakArrives p fseq
    else if d.noFlits p then d.satRf Reg.FAB_DROPS 31 0 1
    else d) s

/-- A credit ledger mismatch (R558, R587, R596): 0x0B01, every job stops, the port trains anew. -/
def Dev.creditFault (d : Dev) (p vc l r : Nat) : Dev :=
  (d.ledgerStop 0x0B01 0 (p * 8 + vc) (BitVec.ofNat 64 l) (BitVec.ofNat 64 r) d.jobSlots).portFull p

/-- What a heartbeat entry shows that the ledger does not hold, with the two sides: the sender's C against the credits received here, at
every heartbeat; its Gs against what was granted here, at the first after a retrain with the port quiet, so that every grant of this
end has been seen (R595, R596). -/
def Dev.hbFails (d : Dev) (p : Nat) (h : HbEntry) : Option (Nat × Nat × Nat) :=
  let x := d.port p
  let c := x.credit (h.vc * 4 + h.cls)
  if h.c ≠ c.r then some (h.vc, h.c, c.r)
  else if x.fresh && decide (x.replay = []) && decide (h.gs ≠ c.g) then some (h.vc, h.gs, c.g)
  else if 2 ^ 47 ≤ (c.g + 2 ^ 48 - h.gs % 2 ^ 48) % 2 ^ 48 then some (h.vc, h.gs, c.g)
  else none

/-- HEARTBEAT_COMPARE (R596). -/
def Dev.hbCompare (d : Dev) (p : Nat) (hs : List HbEntry) : Dev :=
  let d0 := ((hs.map (fun h => h.vc)).eraseDups).foldl (fun (a : Dev) v => a.readLedger 0 (p * 8 + v) a.jobSlots) d
  let d1 := d0.addRf (Reg.PORT_LEDG p) 63 32 1
  match hs.findSome? (d.hbFails p) with
  | none => (d1.setRb (Reg.PORT_LEDG p) 0 true).modPort p (fun x => { x with fresh := x.fresh && decide (x.replay ≠ []) })
  | some f => ((d1.setRb (Reg.PORT_LEDG p) 0 false).setRf (Reg.PORT_LEDG p) 3 1 f.1).creditFault p f.1 f.2.1 f.2.2

/-- A sequenced flit that is not taken: one NAK names the expected fseq (R574). -/
def Dev.refuseFlit (d : Dev) (p : Nat) : Dev :=
  let y := d.port p
  if y.nakSent then d
  else
    let d1 := (d.setPort p { y with nakSent := true }).satRf (Reg.PORT_RETRY p) 31 0 1
    { d1 with out := { d1.out with naks := (p, y.rxExpect) :: d1.out.naks } }

/-- FEC counters (R570). -/
def Dev.fecCount (d : Dev) (p errs : Nat) : Dev :=
  if 8 < errs then d.satRf (Reg.PORT_FEC p) 63 32 1 else d.satRf (Reg.PORT_FEC p) 31 0 errs

/-- HEARTBEAT_SEND (R596): a control flit with C and Gs of every VC and class. -/
def execHeartbeatSend (p : Nat) (s : State) : Host.Outcome State Fault Refusal :=
  run (.heartbeatSend p) (fun d =>
    let x := d.port p
    if d.portLinked p && decide (x.replay.length < replaySize p) then
      d.sendFlit p 3 (List.replicate 248 0#8)
        ((List.range 24).map (fun k =>
          let c := x.credit k
          ({ vc := k / 4, cls := k % 4, c := c.c, gs := c.gs } : HbEntry)))
    else d) s

/-! ### Arrival of a transaction (R587, R591 to R593, R599) -/

/-- Counts a discarded overrun (R587). -/
def Dev.overrun (d : Dev) (p vc g r : Nat) : Dev :=
  ((if vc < 6 then d.satRf (Reg.PORT_CRED p vc) 47 32 1 else d).satRf Reg.FAB_DROPS 31 0 1).creditFault p vc g r

/-- A transaction arrives at a port within the credits granted and is handed on with the credits that it occupies; one beyond
them is discarded, as is one at a port that takes none. -/
def Dev.receive (d : Dev) (p : Nat) (x : Tx) (k : Dev → Nat → Dev) : Dev :=
  if !d.portLinked p then d.satRf Reg.FAB_DROPS 31 0 1
  else
    let key := d.inKey p x
    let d0 := d.readLedger 0 (p * 8 + key / 4) d.jobSlots
    let y := d0.port p
    let c := y.credit key
    let n := txUnits x
    if (c.g + 2 ^ 48 - c.r % 2 ^ 48) % 2 ^ 48 < n then d0.overrun p (key / 4) c.g ((c.r + n) % 2 ^ 48)
    else k (d0.setPort p (y.setCredit key { c with r := (c.r + n) % 2 ^ 48 })) key

/-- A transaction is at its destination here (R614). -/
def Dev.isHere (d : Dev) (x : Tx) : Bool := decide (x.dst = d.node) && (!x.detour || x.phase)

/-- A transaction whose crc fails at its destination is discarded and counted (R599). -/
def Dev.crcChecked (d : Dev) (x : Tx) (k : Dev → Dev) : Dev :=
  if x.crc = txCrc x then k d else d.satRf Reg.FAB_OOS 31 0 1

/-- A transaction for this device: checked, consumed, its credits returned. One for another node is TRANSIT_FORWARD's. -/
def Dev.arriveAt (d : Dev) (p : Nat) (x : Tx) (k : Dev → Dev) : Dev :=
  if d.isHere x then d.receive p x (fun a key => (a.crcChecked x k).freeCredits p key (txUnits x)) else d

/-- A transaction in transit goes on, by dst, vc and length alone (R614, R618, R785). -/
def Dev.transit (d : Dev) (p : Nat) (x : Tx) : Dev :=
  if d.isHere x then d else d.receive p x (fun a key => a.forward x (some (p, key, txUnits x)))

/-- TRANSIT_FORWARD (R614, R618, R785). -/
def execTransitForward (p : Nat) (x : Tx) (s : State) : Host.Outcome State Fault Refusal :=
  run (.transitForward p x) (fun d => d.transit p x) s

/-- RESERVED_OP_RECEIVE (R600). -/
def execReservedOpReceive (p : Nat) (x : Tx) (s : State) : Host.Outcome State Fault Refusal :=
  run (.reservedOpReceive p x) (fun d => d.arriveAt p x (fun a => a.satRf Reg.FAB_DROPS 31 0 1)) s

/-- A discovery request, which has no payload, is answered at most once per 100 µs (R588). -/
def Dev.takeDisc (d : Dev) (p : Nat) (x : Tx) : Dev :=
  let y := d.port p
  let due := match y.discTime with
    | some t => decide (t + 100000 ≤ d.now)
    | none => true
  if x.payload = [] && due then
    let body := (Config.discBody (b2n d.ready)).take 448
    (d.setPort p { y with discTime := some d.now }).launch
      { d.tx 0x10 5 x.src x.job 0 with lenM1 := body.length - 1, payload := body }
  else d

/-- DISC_RECEIVE (R588). -/
def execDiscReceive (p : Nat) (x : Tx) (s : State) : Host.Outcome State Fault Refusal :=
  run (.discReceive p x) (fun d => d.arriveAt p x (fun a => a.takeDisc p x)) s

/-- A link-state notice marks or clears a link, and is forwarded once (R614, R615, R809). -/
def Dev.takeLsn (d : Dev) (p : Nat) (x : Tx) : Dev :=
  let node := leNat (x.payload.take 2)
  let port := leNat ((x.payload.drop 2).take 1) % 8
  let marked := decide (leNat ((x.payload.drop 3).take 1) % 2 = 1)
  let n := x.offset % 65536
  if d.fab.seen.contains (node, n) then d
  else
    let k := node * 8 + port
    let old := tget (fun _ => none) d.fab.marks k
    let later := match old with
      | none => true
      | some m => decide (1 ≤ (n + 65536 - m) % 65536) && decide ((n + 65536 - m) % 65536 < 32768)
    let new := if marked then (if later then some n else old) else (if later then none else old)
    let d1 := { d with fab := { d.fab with seen := (node, n) :: d.fab.seen,
                                           marks := tput (fun _ => none) d.fab.marks k new } }
    d1.floodNotice x (decide (6 ≤ port)) p

/-- LSN_RECEIVE (R614, R615, R809). -/
def execLsnReceive (p : Nat) (x : Tx) (s : State) : Host.Outcome State Fault Refusal :=
  run (.lsnReceive p x) (fun d => d.arriveAt p x (fun a => a.takeLsn p x)) s

/-- BUNDLE_CLOSE (R630, R631): a bundle of 4,096 bytes, or one open for span_hold. -/
def execBundleClose (p i : Nat) (s : State) : Host.Outcome State Fault Refusal :=
  run (.bundleClose p i) (fun d =>
    match (d.bundles p)[i]? with
    | none => d
    | some b =>
      if 4096 ≤ (bundleBytes b).length ∨ b.since + d.rf Reg.FAB_CFG 35 24 ≤ d.now then
        (d.setBundles p ((d.bundles p).eraseIdx i)).sendBundle p b
      else d) s

end Sys2Proof.Machine
end

