-- ==== Sys2Proof/Machine/Matrix.lean ====
section
/-! DEFINITION. Matrix instructions and the engine's own happenings: fills, passes, tiles, drains (files 06 to 08). The
matrix work of an engine completes in issue order. -/

namespace Sys2Proof.Machine

/-! ### Descriptors (Tables 8-2 to 8-4) -/

/-- Word i of a descriptor. -/
def dw (ws : List Nat) (i : Nat) : Nat := ws.getD i 0

/-- Table 8-2. -/
def adescOf (ws : List Nat) : ADesc :=
  { abase := nfld (dw ws 0) 19 0, efmt := nfld (dw ws 0) 23 20, smode := nfld (dw ws 0) 25 24,
    m := nfld (dw ws 0) 47 32, pitch := nfld (dw ws 0) 63 48, tscale := BitVec.ofNat 32 (nfld (dw ws 1) 31 0),
    cbook := nfld (dw ws 1) 51 32, kb := nfld (dw ws 2) 15 0, nkb := nfld (dw ws 2) 31 16,
    mask := nfld (dw ws 2) 51 32, maskEn := (dw ws 2).testBit 52, amap := nfld (dw ws 3) 47 0,
    wdesc := nfld (dw ws 4) 47 0, kall := nfld (dw ws 5) 15 0 }

/-- Table 8-3. -/
def wdescOf (ws : List Nat) : WDesc :=
  { gslot0 := nfld (dw ws 0) 9 0, viaStream := (dw ws 0).testBit 10, stream := nfld (dw ws 0) 13 11,
    efmt := nfld (dw ws 0) 19 16, smode := nfld (dw ws 0) 21 20, nkb := nfld (dw ws 0) 47 32,
    nb := nfld (dw ws 0) 55 48, tscale := BitVec.ofNat 32 (nfld (dw ws 1) 31 0), cbook := nfld (dw ws 1) 51 32,
    ended := false }

/-- Elements of the whole K of an activation row (R803). -/
def ADesc.n (a : ADesc) : Nat := 32 * (if a.kall = 0 then a.kb + a.nkb else a.kall)

/-- Bytes of the engine store (R326). -/
def storeBytes : Nat := 0x3000000

/-- The operand range of an activation descriptor lies in the engine store and its K range in its rows (R328, R803). -/
def ADesc.inStore (a : ADesc) : Bool :=
  (decide (a.kall = 0) || decide (a.kb + a.nkb ≤ a.kall))
    && decide (a.m = 0 ∨ a.abase * 64 + (a.m - 1) * a.pitch * 64 + rowBytes a.efmt a.smode a.n ≤ storeBytes)
    && (!a.maskEn || decide (a.mask * 64 + (a.m + 7) / 8 ≤ storeBytes))
    && (decide (a.efmt ≠ 0xA) || decide (a.cbook * 64 + 16 ≤ storeBytes))

/-- The formats of an activation descriptor are allowed (R252, R257). -/
def ADesc.fmtOk (a : ADesc) : Bool := operandFmt a.efmt && smodeOk a.efmt a.smode

/-- The formats of a weight descriptor are allowed. -/
def WDesc.fmtOk (x : WDesc) : Bool := operandFmt x.efmt && smodeOk x.efmt x.smode

/-- The per-tensor scale of an operand (smode 1). -/
def tensorScale (smode : Nat) (t : W32) : Option W32 := if smode = 1 then some t else none

/-- A codebook from the engine store; none but for CB4. -/
def Dev.book (d : Dev) (e fmt cbook : Nat) : List Byte := if fmt = 0xA then d.esRead e (cbook * 64) 16 else []

/-- A fault of the 0x01 and 0x02 areas: pc, tile handle, K block, pass, operand address (Table 13-4). -/
def matrixFault (code e : Nat) (info : Word) (pc tile kb pass va : Nat) : FaultInfo :=
  mkFault code info e (pc % 2 ^ 48) (tile + kb % 2 ^ 16 * 2 ^ 16 + pass % 2 ^ 32 * 2 ^ 32) va

/-- A matrix instruction: engine cores only. -/
def mOp (major : Nat) : Op := { major := major, takesImm := false, branch := false, eOnly := true }

/-- Faults 0x0201 to 0x0203 show in ENG_SPSTAT.meta_fault (Table 7-7). -/
def Dev.metaFault (d : Dev) (e code : Nat) : Dev :=
  if 0x0201 ≤ code ∧ code ≤ 0x0203 then d.setRb (Reg.ENG_SPSTAT e) 1 true else d

/-! ### The engine's work in hand -/

/-- A tile handle. -/
def Eng.tile (x : Eng) (h : Nat) : Option Tile := tget (fun _ => none) x.tiles h

/-- Replaces a tile. -/
def Eng.setTile (x : Eng) (h : Nat) (t : Option Tile) : Eng := { x with tiles := tput (fun _ => none) x.tiles h t }

/-- The handle that a piece of work names. -/
def MWork.handle : MWork → Nat
  | .pass p => p.handle
  | .drain y => y.handle
  | .alloc _ h _ _ _ => h

/-- The engine has unfinished work that names a handle. -/
def Eng.busyHandle (x : Eng) (h : Nat) : Bool := x.work.any (fun m => decide (m.handle = h))

/-- Fills that no issued pass has taken yet. -/
def Eng.unclaimed (x : Eng) : List Fill := x.fills.drop (x.passes.filter Pass.takesFill).length

/-- An MDRAIN with the free option on a handle has been issued and not committed (R325). -/
def Eng.freeIssued (x : Eng) (h : Nat) : Bool := x.drains.any (fun y => decide (y.handle = h) && y.free)

/-- Format and rows of a live handle: a tile, or an allocation that waits. -/
def Eng.liveInfo (x : Eng) (h : Nat) : Option (AccFmt × Nat) :=
  match x.tile h with
  | some t => some (t.fmt, t.rows)
  | none => x.work.findSome? (fun m =>
      match m with
      | .alloc _ k rows fmt _ => if k = h then some (fmt, rows) else none
      | _ => none)

/-- Slabs of live tiles. -/
def Eng.usedSlabs (x : Eng) : Nat :=
  (x.tiles.map (fun t =>
    match t.2 with
    | some y => slabsOf y.fmt y.rows
    | none => 0)).sum

/-- Free slabs (R318). -/
def Eng.freeSlabs (x : Eng) : Nat := 512 - x.usedSlabs

/-- Slabs of allocations that wait. -/
def Eng.waitingSlabs (x : Eng) : Nat :=
  (x.work.map (fun m =>
    match m with
    | .alloc _ _ rows fmt _ => slabsOf fmt rows
    | _ => 0)).sum

/-- Slabs of issued MDRAINs with the free option. -/
def Eng.pendingSlabs (x : Eng) : Nat :=
  ((x.drains.filter (fun y => y.free)).map (fun y =>
    match x.liveInfo y.handle with
    | some i => slabsOf i.1 i.2
    | none => 0)).sum

/-- The rows of a new tile are allowed, and its slabs can be met (R320). -/
def Eng.canAlloc (x : Eng) (fmt : AccFmt) (rows : Nat) : Bool :=
  decide (rows ≠ 0) && decide (rows % 16 = 0) && decide (rows ≤ maxRows fmt)
    && decide (slabsOf fmt rows + x.waitingSlabs ≤ x.freeSlabs + x.pendingSlabs)

/-- Allocates a tile now, or queues the allocation behind the MDRAINs that free its slabs (R319, R320). -/
def Eng.alloc (x : Eng) (core h rows : Nat) (fmt : AccFmt) (anchor : Option Int) : Eng :=
  if slabsOf fmt rows + x.waitingSlabs ≤ x.freeSlabs then x.setTile h (some (Tile.new fmt rows anchor))
  else { x with work := x.work ++ [.alloc core h rows fmt anchor] }

/-- The per-tensor scales that a handle has recorded (R377). -/
def Eng.scalesOf (x : Eng) (h : Nat) : Option (Option W32 × Option W32) :=
  match (x.tile h).bind (fun t => t.scales) with
  | some s => some s
  | none => (x.passes.find? (fun p => decide (p.handle = h))).map (fun p =>
      (tensorScale p.ad.smode p.ad.tscale, tensorScale p.wd.smode p.wd.tscale))

/-- The weights that a pass with new = 0 keeps: those of the last pass issued, else those in force (R375). -/
def Eng.keptW (x : Eng) : Option WDesc :=
  match x.passes.getLast? with
  | some p => some p.wd
  | none => x.active.map (fun f => f.wd)

/-- The engine has no room for one more matrix instruction (Table 6-7). An allocation that an MSTREAM waits for is part of that
instruction. -/
def Eng.full (x : Eng) : Bool :=
  decide (8 ≤ (x.work.filter (fun m =>
    match m with
    | .alloc _ _ _ _ none => false
    | _ => true)).length + (x.fills.filter (fun f => decide (f.stage < 2))).length)

/-- The stalled instruction of an engine's core is tried again after a change of the engine's work. -/
def Dev.engRetry (d : Dev) (e : Nat) (stat : Nat → Word) : Dev :=
  match (d.core e).wait with
  | some (.room _) => d.modCore e (fun x => { x with wait := none })
  | some (.mtstat rd h) =>
    if (d.engine e).busyHandle h then d else d.modCore e (fun x => (x.setG rd (stat h)).retire x.ilen)
  | some _ => d.retry e
  | none => d

/-! ### MTSTAT (R383) -/

/-- The tile status word (Table 8-5). -/
def Eng.status (x : Eng) (h : Nat) : Word :=
  match x.tile h with
  | none => 0
  | some t =>
    BitVec.ofNat 64 (1 + b2n t.sat * 2 + b2n t.nonfinite * 4 + b2n t.cvtSat * 8 + b2n t.nanz * 16
      + b2n t.anchor.isSome * 32 + b2n t.promoted * 64
      + (match t.fmt with
         | .a16 => 0
         | .a32 => 1
         | .ax96 => 2) * 128
      + t.rows * 2 ^ 16 + ofSval 16 (t.anchor.getD 0) * 2 ^ 32)

/-- After matrix work has moved on. -/
def Dev.engMoved (d : Dev) (e : Nat) : Dev := d.engRetry e (d.engine e).status

/-- MTSTAT: takes effect in issue order with the work on its tile (R322, R383); a handle that an issued MDRAIN frees is
misused (R325). -/
def execMtstat (w : IW) (s : State) : Host.Outcome State Fault Refusal :=
  run (.mtstat w) (fun d => d.instr (mOp 0x1B) (decide (fld w.fn 10 1 = 0) && !bitAt w.rs2 4) w (fun d1 _ =>
    let h := fld w.rs2 3 0
    if (d1.engine w.core).freeIssued h then
      unitRaise d1 (matrixFault 0x0105 w.core (BitVec.ofNat 64 h) (d1.core w.core).pc.toNat h 0 0 0)
    else if (d1.engine w.core).busyHandle h then .stall d1 (.mtstat w.rd.toNat h)
    else doneRd d1 w ((d1.engine w.core).status h))) s

/-! ### MANCHOR (R280 to R282, R373, R374) -/

/-- Largest ⌊log2 |v|⌋ of finite non-zero values, and whether any is not finite. -/
def logOf (vs : List Val) : Option Int × Bool := (blockAnchor vs, vs.any Val.nonFinite)

/-- Row r of an activation operand, as bytes. -/
def Dev.actRow (d : Dev) (e : Nat) (a : ADesc) (r : Nat) : List Byte :=
  d.esRead e (a.abase * 64 + r * a.pitch * 64) (rowBytes a.efmt a.smode a.n)

/-- The scaled values of an activation operand over its rows and K blocks. -/
def Dev.actVals (d : Dev) (e : Nat) (a : ADesc) : List Val :=
  let book := d.book e a.efmt a.cbook
  (List.range a.m).flatMap (fun r =>
    let row := d.actRow e a r
    (List.range a.nkb).flatMap (fun j => rowBlock a.efmt a.smode book a.n row (a.kb + j)))

/-- The stream gob that holds block b of a fill that begins at block kb with stream gob q (R378). -/
def streamGob (wd : WDesc) (q kb b : Nat) : Nat := q + b / wd.nb - kb / wd.nb

/-- Where in the engine store the gob of block b stands: directly, or in the ring when it is present. -/
def Eng.gobAt (x : Eng) (wd : WDesc) (q kb b : Nat) : Option Nat :=
  if wd.viaStream then
    match x.wdStream wd with
    | none => none
    | some p =>
      let g := streamGob wd q kb b
      if tget (fun _ => false) p.present g then some ((p.slot0 + g % p.slots) * 65536) else none
  else some ((wd.gslot0 + b / wd.nb) * 65536)

/-- A stream gob whose directory the prefetcher refused (R357). -/
def Eng.gobBad (x : Eng) (wd : WDesc) (q kb b : Nat) : Bool :=
  wd.viaStream && (match x.wdStream wd with
    | none => false
    | some p => tget (fun _ => false) p.bad (streamGob wd q kb b))

/-- The stream gob that an operand begins at whose instruction names none, a gathered MSTREAM's or MANCHOR propose's: the first that has
not been released (log 143). -/
def Eng.streamHead (x : Eng) (wd : WDesc) : Nat :=
  match x.wdStream wd with
  | some p => p.next - p.slots + ((List.range (p.slots + 1)).find? (fun i => !tget (fun _ => false) p.freed (p.next - p.slots + i))).getD 0
  | none => 0

/-- The gob of block b can be read: it stands in the store, or its directory is known to be bad. -/
def Eng.stands (x : Eng) (wd : WDesc) (q kb b : Nat) : Bool := (x.gobAt wd q kb b).isSome || x.gobBad wd q kb b

/-- The local address of the gob of block b, for a fault record. -/
def Eng.gobVa (x : Eng) (wd : WDesc) (q kb b : Nat) : Nat :=
  match x.gobAt wd q kb b with
  | some pay => 0xFFFF80000000 + pay
  | none => 0

/-- Block b of an operand as read: zeros at and beyond the operand's K blocks (R378). -/
def Dev.weightBlock (d : Dev) (e : Nat) (wd : WDesc) (q kb b : Nat) : WBlock :=
  if wd.nkb ≤ b then { form := 0, rcd := [], bad := 0 }
  else
    match (d.engine e).gobAt wd q kb b with
    | none => { form := 0, rcd := [], bad := 0x0203 }
    | some pay =>
      if storeBytes < pay + 65536 then { form := 0, rcd := [], bad := 0x0107 }
      else d.readBlock e pay wd (b % wd.nb)

/-- The proposal of R280 from the logs of the two operands. -/
def proposal (a b : Option Int × Bool) : Int :=
  if a.2 || b.2 then 32767
  else
    match a.1, b.1 with
    | some x, some y => x + y + 2
    | _, _ => -32768

/-- Weights of K blocks kb to kb + n − 1 of a weight operand. -/
def Dev.weights (d : Dev) (e : Nat) (wd : WDesc) (q kb n : Nat) : List WBlock :=
  (List.range n).map (fun j => d.weightBlock e wd q kb (kb + j))

/-- All scaled weights of a list of blocks. -/
def blockVals (wd : WDesc) (book : List Byte) (bs : List WBlock) : List Val :=
  bs.flatMap (fun b => (List.range 128).flatMap (b.column wd.efmt wd.smode book))

/-- The gobs of a stream, of blocks kb to kb + n − 1. -/
def streamGobs (wd : WDesc) (q kb n : Nat) : List Nat :=
  ((List.range n).filter (fun j => decide (kb + j < wd.nkb))).map (fun j => streamGob wd q kb (kb + j))

/-- SKIPPED_GOB_DEMAND_FETCH (R359): skipped gobs among those needed are fetched ahead of the stream's other reads, and
counted in ENG_PFMISS. -/
def Dev.demandSkipped (d : Dev) (e i : Nat) (gs : List Nat) : Dev :=
  match (d.engine e).pstream i with
  | none => d
  | some p =>
    let ms := (gs.filter (fun g => tget (fun _ => false) p.skipped g)).dedup
    if ms = [] then d
    else
      let p1 := { p with
        skipped := ms.foldl (fun t g => tput (fun _ => false) t g false) p.skipped
        asked := ms ++ p.asked }
      ms.foldl (fun a g => a.askMove .stalled p.slot (p.src / 65536 + g) (.ring e i g))
        ((d.modEngine e (fun x => x.setPstream i (some p1))).addRf (Reg.ENG_PFMISS e) 63 0 ms.length)

/-- MANCHOR propose (R280, R373): a stream operand is read from the first gob on that has not been released. It waits, as a load does, for drains and
lines that are still to be written, and for gobs of its stream (R330). -/
def execManchorPropose (w : IW) (s : State) : Host.Outcome State Fault Refusal :=
  run (.manchorPropose w) (fun d => d.instr (mOp 0x18) (decide (fld w.fn 10 1 = 0)) w (fun d1 x =>
    let e := w.core
    let flt := fun (code kb va : Nat) (d : Dev) =>
      unitRaise (d.metaFault e code) (matrixFault code e (x.r1 w) x.pc.toNat 0 kb 0 va)
    match d1.desc e (x.r1 w) 8 with
    | .stop r => r
    | .ok d2 ws =>
      match d2.desc e (x.r2 w) 4 with
      | .stop r => r
      | .ok d3 vs =>
        let a := adescOf ws
        let wd := wdescOf vs
        let q := (d3.engine e).streamHead wd
        if !a.fmtOk || !wd.fmtOk then flt 0x0101 0 (x.r1 w).toNat d3
        else if !a.inStore || (decide (wd.efmt = 0xA) && decide (storeBytes < wd.cbook * 64 + 16)) then
          flt 0x0107 0 (x.r1 w).toNat d3
        else if decide ((d3.engine e).drains ≠ []) then .stall d3 (.room e)
        else if d3.linesOut e then .stall d3 .lines
        else if (List.range a.nkb).any (fun j =>
            decide (a.kb + j < wd.nkb) && !(d3.engine e).stands wd q a.kb (a.kb + j)) then
          .stall (d3.demandSkipped e wd.stream (streamGobs wd q a.kb a.nkb)) (.room e)
        else
          let bs := (List.range a.nkb).map (fun j => (a.kb + j, d3.weightBlock e wd q a.kb (a.kb + j)))
          match bs.find? (fun b => decide (b.2.bad ≠ 0)) with
          | some b => flt b.2.bad b.1 ((d3.engine e).gobVa wd q a.kb b.1) d3
          | none =>
            doneRd d3 w (BitVec.ofInt 64 (proposal (logOf (d3.actVals e a))
              (logOf (blockVals wd (d3.book e wd.efmt wd.cbook) (bs.map (fun b => b.2)))))))) s

/-- MANCHOR set (R281, R282, R374). -/
def execManchorSet (w : IW) (s : State) : Host.Outcome State Fault Refusal :=
  run (.manchorSet w) (fun d => d.instr (mOp 0x18) (decide (fld w.fn 10 1 = 0) && !bitAt w.rd 4) w (fun d1 x =>
    let e := w.core
    let h := fld w.rd 3 0
    let ta := sval 16 (x.r1 w).toNat
    let rows := fld (x.r2 w) 15 0
    let y := d1.engine e
    let flt := fun (code : Nat) => unitRaise d1 (matrixFault code e (x.r1 w) x.pc.toNat h 0 0 0)
    if y.freeIssued h then flt 0x0105
    else
      match y.tile h with
      | some t =>
        if t.fmt ≠ .ax96 ∨ t.rows ≠ rows then flt 0x0105
        else if y.busyHandle h then .stall d1 (.room e)
        else if t.promoted then flt 0x0103
        else .done (d1.setEngine e (y.setTile h (some { t with anchor := some ta })))
      | none =>
        if y.busyHandle h then .stall d1 (.room e)
        else if y.full then .stall d1 (.room e)
        else if !y.canAlloc .ax96 rows then flt 0x0104
        else .done (d1.setEngine e (y.alloc e h rows .ax96 (some ta))))) s

/-! ### MLOADW (R378, R379) and the shadow fill (R302 to R307) -/

/-- A drain issued before will write where a fill reads (R128, R307, R323). -/
def Eng.drainHits (x : Eng) (f : Fill) : Bool :=
  x.drains.any (fun y => (x.fillSlots f).any (fun g => y.meets f.core (g * 65536) 65536)
    || (decide (f.wd.efmt = 0xA) && y.meets f.core (f.wd.cbook * 64) 16))

/-- A line of an LDL is still to be written within a range of the engine's own store (R128). -/
def Dev.storeLine (d : Dev) (e off n : Nat) : Bool :=
  d.lineDue e false (0xFFFF80000000 + off) n || d.lineDue e false (0xFFFF00000000 + e * 0x4000000 + off) n

/-- A line of an LDL issued before is still to be written where a fill reads. -/
def Dev.lineHits (d : Dev) (e : Nat) (f : Fill) : Bool :=
  ((d.engine e).fillSlots f).any (fun g => d.storeLine e (g * 65536) 65536)
    || (decide (f.wd.efmt = 0xA) && d.storeLine e (f.wd.cbook * 64) 16)

/-- Blocks of form 1 double the K blocks of a pass (Table 7-4): the directory of the fill's first gob says so. -/
def Dev.fillPairs (d : Dev) (e : Nat) (wd : WDesc) (q kb : Nat) : Bool :=
  decide (kb < wd.nkb) && (match (d.engine e).gobAt wd q kb kb with
    | some pay => decide ((gobDir (d.esRead e pay 64)).form = 1)
    | none => false)

/-- Direct weights of n K blocks from kb on pass the end of the engine store (R328). -/
def WDesc.past (wd : WDesc) (kb n : Nat) : Bool :=
  !wd.viaStream && decide (0 < n) && decide (kb < wd.nkb) && decide (767 < wd.gslot0 + (min wd.nkb (kb + n) - 1) / wd.nb)

/-- The codebook of weights passes the end of the engine store. -/
def WDesc.bookPast (wd : WDesc) : Bool := decide (wd.efmt = 0xA) && decide (storeBytes < wd.cbook * 64 + 16)

/-- MLOADW (R307, R378, R379). The pass that will take the weights gives K_p, so the range is checked here for the fewest
blocks of any pass, and for the rest at its MSTREAM (log 52). -/
def execMloadw (w : IW) (s : State) : Host.Outcome State Fault Refusal :=
  run (.mloadw w) (fun d => d.instr (mOp 0x19) (decide (fld w.fn 10 1 = 0)) w (fun d1 x =>
    let e := w.core
    let kb := fld (x.r2 w) 15 0
    let q := fld (x.r2 w) 47 16
    match d1.desc e (x.r1 w) 4 with
    | .stop r => r
    | .ok d2 ws =>
      let wd := wdescOf ws
      let y := d2.engine e
      let flt := fun (code : Nat) => unitRaise d2 (matrixFault code e (x.r1 w) x.pc.toNat 0 kb 0 (x.r1 w).toNat)
      let f : Fill :=
        { core := e, pc := x.pc.toNat, wd := wd, kb := kb, q := q, rel := bitAt w.fn 0 && wd.viaStream, stage := 0,
          blocks := [], book := [], waited := false }
      if !wd.fmtOk then flt 0x0101
      else if wd.bookPast || wd.past kb (fewBlocks (d2.fillPairs e wd q kb)) then flt 0x0107
      else if y.full || y.drainHits f then .stall d2 (.room e)
      else if d2.lineHits e f then .stall d2 .lines
      else .done (d2.setEngine e { y with fills := y.fills ++ [f] }))) s

/-- The passes ahead of the one that takes the next weights have fed their rows, a gathered one has ended (R304, R354). -/
def Eng.shadowFree (x : Eng) : Bool :=
  match x.passes with
  | [] => true
  | p :: _ => p.takesFill

/-- Of the first n blocks of a fill, those that can be read now: up to the first one whose gob has not arrived. -/
def Eng.readable (x : Eng) (f : Fill) (n : Nat) : Nat :=
  ((List.range n).takeWhile (fun j =>
    decide (f.wd.nkb ≤ f.kb + j) || x.stands f.wd f.q f.kb (f.kb + j))).length

/-- The fill asks for the skipped gobs that it needs (R359). -/
def Dev.fillAsk (d : Dev) (e : Nat) (f : Fill) : Dev :=
  if f.wd.viaStream then
    d.demandSkipped e f.wd.stream
      (streamGobs f.wd f.q f.kb ((d.engine e).fillNeed f (d.fillPairs e f.wd f.q f.kb)))
  else d

/-- SHADOW_FILL_START (R304, R359): the oldest MLOADW whose weights have not swapped begins to fill the shadow. -/
def Dev.fillStart (d : Dev) (e : Nat) : Dev :=
  match (d.engine e).fills with
  | f :: fs =>
    if f.stage = 0 ∧ (d.engine e).shadowFree = true then
      (d.modEngine e (fun x => { x with fills := { f with stage := 1 } :: fs })).fillAsk e f
    else d
  | [] => d

/-- SHADOW_FILL_START (R304). -/
def execShadowFillStart (e : Nat) (s : State) : Host.Outcome State Fault Refusal :=
  run (.shadowFillStart e) (fun d => d.fillStart e) s

/-- Releases stream gobs to the prefetcher (R329, R379). -/
def Eng.release (x : Eng) (i : Nat) (gs : List Nat) : Eng :=
  match x.pstream i with
  | none => x
  | some p =>
    let hs := (gs.filter (fun g => !tget (fun _ => false) p.freed g &&
      (tget (fun _ => false) p.present g || tget (fun _ => false) p.skipped g || tget (fun _ => false) p.bad g))).dedup
    x.setPstream i (some { p with
      freed := hs.foldl (fun t g => tput (fun _ => false) t g true) p.freed
      released := p.released + hs.length })

/-- The stream gobs whose last block lies within blocks kb to kb + n − 1 (R379). -/
def lastWithin (wd : WDesc) (q kb n : Nat) : List Nat :=
  ((List.range n).filter (fun j => decide (kb + j < wd.nkb)
    && (decide ((kb + j + 1) % wd.nb = 0) || decide (kb + j + 1 = wd.nkb)))).map (fun j => streamGob wd q kb (kb + j))

/-- The gobs that a fill with rel = 1 releases once it has read the n blocks of its pass. -/
def Eng.fillRelease (x : Eng) (f : Fill) (n : Nat) : Eng :=
  if f.rel then x.release f.wd.stream (lastWithin f.wd f.q f.kb n) else x

/-- SHADOW_FILL_DONE (R302, R307, R330): the fill reads its blocks, and its codebook. It waits for gobs that have not arrived.
Before its pass is known it takes what blocks it can, and reads on when the pass needs more. -/
def Dev.fillDone (d : Dev) (e : Nat) : Dev :=
  let y := d.engine e
  match y.fills with
  | [] => d
  | f :: fs =>
    let pairs := d.fillPairs e f.wd f.q f.kb
    let need := y.fillNeed f pairs
    let n := y.readable f (passBlocks f.wd.efmt f.wd.efmt .a16 pairs)
    if f.stage = 0 ∨ (f.stage = 2 ∧ need ≤ f.blocks.length) then d
    else if n < need then (d.setEngine e { y with fills := { f with waited := true } :: fs }).fillAsk e f
    else
      let g : Fill := { f with
        stage := 2, blocks := f.blocks ++ (d.weights e f.wd f.q f.kb n).drop f.blocks.length
        book := if f.stage = 2 then f.book else d.book e f.wd.efmt f.wd.cbook }
      let y1 : Eng := { y with fills := g :: fs }
      (d.setEngine e (if y.claimant.isSome then y1.fillRelease f need else y1)).engMoved e

/-- SHADOW_FILL_DONE (R302). -/
def execShadowFillDone (e : Nat) (s : State) : Host.Outcome State Fault Refusal :=
  run (.shadowFillDone e) (fun d => d.fillDone e) s

/-! ### MSTREAM (R375 to R377) -/

/-- The accumulator format of MSTREAM's fn[1:0]. -/
def accOf (k : Nat) : Option AccFmt :=
  match k with
  | 0 => some .a16
  | 1 => some .a32
  | 2 => some .ax96
  | _ => none

/-- The first fault of the checks that MSTREAM makes, 0 for none (R252, R257, R320, R325, R328, R375 to R377, R803; the
order among several is log 53). `past`: its weights pass the end of the engine store. -/
def Eng.streamFault (x : Eng) (h : Nat) (a : ADesc) (wd : Option WDesc) (rows : Nat) (fmt : AccFmt)
    (gather past : Bool) : Nat :=
  if !a.fmtOk || (match wd with
      | some y => !y.fmtOk
      | none => false) then 0x0101
  else if decide (x.liveInfo h = none) && !x.canAlloc fmt rows then 0x0104
  else if x.freeIssued h then 0x0105
  else
    match wd with
    | none => 0x0105
    | some y =>
      let sc := (tensorScale a.smode a.tscale, tensorScale y.smode y.tscale)
      if (match x.liveInfo h with
          | some i => decide (i ≠ (fmt, rows))
          | none => false)
        || decide (rows < a.m)
        || (match x.scalesOf h with
            | some z => decide (z ≠ sc)
            | none => false)
        || (!gather && decide (passBlocks a.efmt y.efmt fmt true < a.nkb)) then 0x0105
      else if !a.inStore || past || (gather && y.bookPast) then 0x0107
      else 0

/-- One more pass of the entry in hand. -/
def Core.countPass (x : Core) : Core :=
  { x with entry := x.entry.map (fun n => { n with passes := n.passes + 1 }) }

/-- The pass number that the next pass of an entry takes. -/
def Core.passNum (x : Core) : Nat := (x.entry.map (fun n => n.passes)).getD 0

/-- The weights that a pass reads pass the end of the engine store (R328): those of its fill, or of a gathered range. -/
def Dev.weightsPast (d : Dev) (e : Nat) (a : ADesc) (wd : WDesc) (fmt : AccFmt) (newW gather : Bool) : Bool :=
  if gather then wd.past a.kb a.nkb
  else
    match (d.engine e).unclaimed.head? with
    | some f => newW && wd.past f.kb (passBlocks a.efmt wd.efmt fmt (d.fillPairs e wd f.q f.kb))
    | none => false

/-- Issues a pass whose operands have been read. -/
def mstreamGo (w : IW) (x : Core) (a : ADesc) (wd : Option WDesc) (gather : Option (List Byte)) (d : Dev) : IRes :=
  let e := w.core
  let h := fld w.rd 3 0
  let y := d.engine e
  let newW := bitAt w.fn 3
  let given := fld (x.r2 w) 15 0
  let rows := if given = 0 then (a.m + 15) / 16 * 16 else given
  match accOf (fld w.fn 1 0) with
  | none => unitRaise d (matrixFault 0x0101 e (x.r1 w) x.pc.toNat h a.kb 0 (x.r1 w).toNat)
  | some fmt =>
    let past := match wd with
      | some z => d.weightsPast e a z fmt newW gather.isSome
      | none => false
    let code := y.streamFault h a wd rows fmt gather.isSome past
    if code ≠ 0 then unitRaise d (matrixFault code e (x.r1 w) x.pc.toNat h a.kb x.passNum (x.r1 w).toNat)
    else if y.full || decide (5 ≤ y.passes.length) then .stall d (.room e)
    else
      let p : Pass :=
        { core := e, pc := x.pc.toNat, handle := h, ad := a, newW := newW, gather := gather,
          wd := wd.getD (wdescOf []), tileRows := rows, fmt := fmt, num := x.passNum, waited := false, lacks := [] }
      let y1 := if y.liveInfo h = none then y.alloc e h rows fmt none else y
      .done ((d.setEngine e { y1 with work := y1.work ++ [.pass p] }).modCore e Core.countPass)

/-- MSTREAM (R375 to R377); gathered, with the weight descriptor that its descriptor names, and its map, read as a load of the
core (R353, R376). -/
def execMstream (w : IW) (s : State) : Host.Outcome State Fault Refusal :=
  run (.mstream w) (fun d => d.instr (mOp 0x1A) (decide (fld w.fn 10 4 = 0) && !bitAt w.rd 4) w (fun d1 x =>
    let e := w.core
    match d1.desc e (x.r1 w) 8 with
    | .stop r => r
    | .ok d2 ws =>
      let a := adescOf ws
      let y := d2.engine e
      if bitAt w.fn 2 then
        match d2.desc e (BitVec.ofNat 64 a.wdesc) 4 with
        | .stop r => r
        | .ok d3 vs =>
          match d3.unitLoad e (a.amap + a.kb / 4) ((a.kb % 4 + a.nkb + 3) / 4) with
          | .ok d4 bs => mstreamGo w x a (some (wdescOf vs)) (some bs) d4
          | .fault d4 f => .raise d4 (causeOf false f.code) f
          | .stall d4 => .stall d4 (.operand x.slotN a.amap)
      else
        mstreamGo w x a (if bitAt w.fn 3 then y.unclaimed.head?.map (fun f => f.wd) else y.keptW) none d2)) s

/-! ### Passes (R305 to R312, R352 to R356) -/

/-- Work and fills without the work that names a handle; a dropped pass drops the fill it would have taken. -/
def dropWork (h : Nat) : List MWork → List Fill → List MWork × List Fill
  | [], fs => ([], fs)
  | m :: ms, fs =>
    match m with
    | .pass p =>
      if p.takesFill then
        let r := dropWork h ms (fs.drop 1)
        if p.handle = h then r else (m :: r.1, fs.take 1 ++ r.2)
      else
        let r := dropWork h ms fs
        if p.handle = h then r else (m :: r.1, r.2)
    | _ =>
      let r := dropWork h ms fs
      if m.handle = h then r else (m :: r.1, r.2)

/-- The tile in flight is discarded and its handle freed, with the work queued on it (R317, R363). -/
def Eng.discard (x : Eng) (h : Nat) : Eng :=
  let r := dropWork h x.work x.fills
  { x.setTile h none with work := r.1, fills := r.2 }

/-- The rows of a pass that are fed: those not masked (R308, R309). -/
def Dev.fedRows (d : Dev) (e : Nat) (a : ADesc) : List Nat :=
  let bits := leNat (d.esRead e (a.mask * 64) ((a.m + 7) / 8))
  (List.range a.m).filter (fun r => !(a.maskEn && bits.testBit r))

/-- Promotes one fed row's partials of one K block into the tile's row, column by column. -/
def Tile.promoteRow (t : Tile) (r : Nat) (av : List Val) : List (List Val) → Nat → Tile
  | [], _ => t
  | col :: cs, c => (t.promote r c (partialOf (List.zipWith vmulExact av col))).promoteRow r av cs (c + 1)

/-- A K block of a pass: its index in the whole K, whether the activation map omits it (R351), its weight columns. -/
structure PassBlock where
  b : Nat
  omitted : Bool
  cols : List (List Val)
  deriving DecidableEq, Repr

/-- Runs the K blocks of one fed row. A block that the activation map omits counts as zero activations (R351). -/
def Tile.runRow (t : Tile) (fmt smode : Nat) (book : List Byte) (n r : Nat) (row : List Byte) : List PassBlock → Tile
  | [] => t
  | b :: bs =>
    (t.promoteRow r (if b.omitted then List.replicate 32 zeroVal else rowBlock fmt smode book n row b.b) b.cols 0).runRow
      fmt smode book n r row bs

/-- The pass over fed rows and K blocks (R274, R309). A K range without blocks is a pass of zeros (R298). -/
def Dev.runRows (d : Dev) (e : Nat) (a : ADesc) (bs : List PassBlock) : List Nat → Tile → Tile
  | [], t => t
  | r :: rs, t =>
    d.runRows e a bs rs
      ((t.touch r).runRow a.efmt a.smode (d.book e a.efmt a.cbook) a.n r (d.actRow e a r) bs)

/-- K blocks with their weight columns. -/
def columnsOf (wd : WDesc) (book : List Byte) (omitted : Nat → Bool) (bs : List (Nat × WBlock)) : List PassBlock :=
  bs.map (fun b =>
    { b := b.1, omitted := omitted b.1, cols := (List.range 128).map (b.2.column wd.efmt wd.smode book) })

/-- A pass that cannot run: its tile is discarded, its fault raised at the core that issued it. -/
def Dev.passFault (d : Dev) (e : Nat) (p : Pass) (code kb num va : Nat) : Dev :=
  let d2 := (d.modEngine e (fun x => x.discard p.handle)).metaFault e code
  (d2.asyncFault p.core (d2.core p.core).slotN
    (matrixFault code e (BitVec.ofNat 64 p.pc) p.pc p.handle kb num va)).engMoved e

/-- Adds a free number of cycles to a counter of the engine (log 31). -/
def Dev.freeCycles (d : Dev) (r : Nat) : Dev :=
  let f := d.takeFree
  f.2.addRf r 63 0 (Config.freeWord f.1).toNat

/-- A tile that a pass has run into: per-tensor scales of the first pass (R377), touched rows of a gathered one (R355). -/
def Tile.passed (t : Tile) (p : Pass) (fed : List Nat) : Tile :=
  { t with
    touched := if p.gather.isSome then fed.foldl (fun k r => tput (fun _ => false) k r true) t.touched else t.touched
    scales := some (t.scales.getD (tensorScale p.ad.smode p.ad.tscale, tensorScale p.wd.smode p.wd.tscale)) }

/-- Completes a pass, or the `sweeps` passes of a gathered MSTREAM, on K blocks: promotions, touched rows, counters; 0x0102
without an anchor (R281, R311). A gathered MSTREAM with an empty compute list takes no array cycle (R355), as does a pass
without fed rows (R306). Waiting cycles are counted where its weights were waited for (R330). -/
def Dev.passRun (d : Dev) (e : Nat) (p : Pass) (bs : List PassBlock) (sweeps : Nat) (waited : Bool) : Dev :=
  let y := d.engine e
  match y.tile p.handle with
  | none => d
  | some t =>
    let fed := d.fedRows e p.ad
    let runs := decide (fed ≠ []) && (decide (bs ≠ []) || p.gather.isNone)
    if decide (t.fmt = .ax96) && t.anchor.isNone && runs then d.passFault e p 0x0102 p.ad.kb p.num 0
    else
      let t1 := (if runs then d.runRows e p.ad bs fed t else t).passed p fed
      let d1 := (d.setEngine e (y.setTile p.handle (some t1))).addRf (Reg.ENG_ROWS e) 63 0 (fed.length * sweeps)
      let d2 := if runs then d1.freeCycles (Reg.ENG_BUBBLES e) else d1
      (if waited then d2.freeCycles (Reg.ENG_WSTALL e) else d2).engMoved e

/-- GATHER_MERGE (R352): the compute list of the blocks `bs`, given the nz and nf bits of each operand. -/
def mergeList (anz anf wnz wnf : Nat → Bool) (bs : List Nat) : List Nat :=
  bs.filter (fun b => if anz b && wnz b then true else if anz b then anf b else wnz b && wnf b)

/-- Bit pair of block b in an activation map whose first byte covers block 4 × `first`. -/
def mapPair (map : List Byte) (first b : Nat) : Nat := nfld (map.getD (b / 4 - first) 0).toNat (2 * (b % 4) + 1) (2 * (b % 4))

/-- The directory of a gob as the merge reads it: checked, bad, of a gob that has not arrived, or on its way from a far home. -/
inductive DirRead where
  | ok (x : GobDir)
  | bad (code : Nat)
  | missing
  | late
  deriving DecidableEq, Repr

/-- A directory with the fault of its checks. -/
def dirRead (x : GobDir) (code : Nat) : DirRead := if code = 0 then .ok x else .bad code

/-- The form of a gob's directory equals that of its header (R339, Table 7-5). -/
def Dev.formOk (d : Dev) (s gob : Nat) (bs : List Byte) : Bool :=
  match d.walk s gob false with
  | .bad _ _ _ => true
  | .leaf _ w0 w1 =>
    match d.gobHeader s gob w0 w1 with
    | none => true
    | some h => decide (nfld (leNat (h.take 8)) 11 10 = (gobDir (bs.take 64)).form)

/-- The directory of a gob skipped on prediction, which stands in the stream's source. -/
def Dev.skippedDir (d : Dev) (e : Nat) (wd : WDesc) (p : PStream) (g : Nat) : Dev × DirRead :=
  match d.rd { slot := p.slot, eng := some e, src := e, core := none } (p.src + g * 65536) 64 with
  | .ok d1 bs =>
    let x := gobDir bs
    (d1, dirRead x (if d1.formOk p.slot (p.src / 65536 + g) bs then dirFault x wd.efmt wd.smode wd.nkb else 0x0203))
  | .stall d1 => (d1, .late)
  | .fault d1 _ => (d1, .missing)

/-- The directory of the gob that holds block b, as the merge reads it: in the engine store, or, for a gob skipped on
prediction, in the stream's source, so that the merge fetches none that no fill needs (R352, R359; log 125). -/
def Dev.dirOf (d : Dev) (e : Nat) (wd : WDesc) (q kb b : Nat) : Dev × DirRead :=
  let x := d.engine e
  match x.gobAt wd q kb b with
  | some pay => (d, dirRead (gobDir (d.esRead e pay 64)) (d.gobFault e pay wd))
  | none =>
    if x.gobBad wd q kb b then (d, .bad 0x0203)
    else
      match x.wdStream wd with
      | none => (d, .missing)
      | some p =>
        let g := streamGob wd q kb b
        if tget (fun _ => false) p.skipped g then d.skippedDir e wd p g else (d, .missing)

/-- The directories of the gobs of some blocks, by gob. -/
def Dev.dirsOf (d : Dev) (e : Nat) (wd : WDesc) (q kb : Nat) : List Nat → Dev × List (Nat × DirRead)
  | [] => (d, [])
  | b :: bs =>
    let r := d.dirOf e wd q kb b
    let t := r.1.dirsOf e wd q kb bs
    (t.1, (streamGob wd q kb b, r.2) :: t.2)

/-- A gathered MSTREAM waits: the gobs it needs are asked for (R330, R359). -/
def Dev.gatherWait (d : Dev) (e : Nat) (p : Pass) (gs : List Nat) : Dev :=
  (d.modEngine e (fun x =>
    { x with work := match x.work with
        | .pass _ :: ws => .pass { p with waited := p.waited || decide (gs ≠ []), lacks := gs } :: ws
        | ws => ws })).demandSkipped e p.wd.stream gs

/-- What a gathered MSTREAM comes to: it waits for gobs; a check fails, at a block, in a pass, after so many blocks were left out; or it
runs on the blocks of its compute list, so many a pass. -/
inductive GatherPlan where
  | wait (gs : List Nat)
  | bad (left b code num : Nat)
  | go (list : List Nat) (bs : List (Nat × WBlock)) (per : Nat)

/-- The merge of a gathered MSTREAM, and the checks of the blocks of its compute list (R352, R354, R363). -/
def Dev.gatherPlan (d : Dev) (e : Nat) (p : Pass) (map : List Byte) : Dev × GatherPlan :=
  let a := p.ad
  let q := (d.engine e).streamHead p.wd
  let ks := (List.range a.nkb).map (fun j => a.kb + j)
  let kw := ks.filter (fun b => decide (b < p.wd.nkb))
  let r := d.dirsOf e p.wd q a.kb (kw.filter (fun b => decide (b = a.kb) || decide (b % p.wd.nb = 0)))
  let x := r.1.engine e
  let dir := fun (b : Nat) => ((r.2.find? (fun y => decide (y.1 = streamGob p.wd q a.kb b))).map (·.2)).getD .missing
  match kw.findSome? (fun b => match dir b with
      | .bad code => some (b, code)
      | _ => none) with
  | some b => (r.1, .bad 0 b.1 b.2 0)
  | none =>
    let dark := kw.filter (fun b => decide (dir b = .missing))
    let abit := fun (k b : Nat) => (mapPair map (a.kb / 4) b).testBit k
    let wbit := fun (k b : Nat) => decide (b < p.wd.nkb) && (match dir b with
      | .ok y => y.bmap.testBit (2 * (b % p.wd.nb) + k)
      | _ => false)
    if dark ≠ [] ∨ kw.any (fun b => decide (dir b = .late)) then (r.1, .wait (dark.map (streamGob p.wd q a.kb)))
    else
      let list := mergeList (abit 0) (abit 1) (wbit 0) (wbit 1) ks
      let gone := list.filter (fun b => decide (b < p.wd.nkb) && !x.stands p.wd q a.kb b)
      if gone ≠ [] then (r.1, .wait (gone.map (streamGob p.wd q a.kb)))
      else
        let bs := list.map (fun b => (b, r.1.weightBlock e p.wd q a.kb b))
        let per := passBlocks a.efmt p.wd.efmt p.fmt (bs.any (fun b => decide (b.2.form = 1)))
        match bs.findIdx? (fun b => decide (b.2.bad ≠ 0)) with
        | some i =>
          let b := bs.getD i (0, { form := 0, rcd := [], bad := 0 })
          (r.1, .bad (ks.length - list.length) b.1 b.2.bad (i / per))
        | none => (r.1, .go list bs per)

/-- Pass numbers after a gathered MSTREAM that has run as n passes: later passes of the entry count on from them. -/
def Eng.renumber (x : Eng) (c n : Nat) : Eng :=
  { x with work := x.work.map (fun m =>
      match m with
      | .pass p => if p.core = c then .pass { p with num := p.num + n - 1 } else m
      | _ => m) }

/-- RESIDUE_MISMATCH (R317): the tile is discarded, the pane row recorded, the engine suspect. -/
def Dev.residue (d : Dev) (e : Nat) (p : Pass) (row : Nat) : Dev :=
  let d1 := ((d.satRf (Reg.ENG_RESIDUE e) 15 0 1).setRf (Reg.ENG_RESIDUE e) 19 16 row).setRb (Reg.ENG_STATUS e) 8 true
  d1.passFault e p 0x0106 p.ad.kb p.num 0

/-- A gathered MSTREAM (R352 to R356): merge, the blocks of the compute list, their checks. The first block that fails a check
stops it. The gobs that its range ends in are released (log 143). -/
def Dev.gatherRun (d : Dev) (e : Nat) (p : Pass) (map : List Byte) (mismatch : Option Nat) : Dev :=
  let a := p.ad
  let q := (d.engine e).streamHead p.wd
  let r := d.gatherPlan e p map
  let d0 := (r.1.modEngine e (fun y => { y with work := y.work.drop 1 })).unitDone (r.1.core e).slotN e
  match r.2 with
  | .wait gs => r.1.gatherWait e p gs
  | .bad left b code num =>
    (d0.addRf (Reg.ENG_SKIPBLK e) 63 0 left).passFault e p code b (p.num + num) ((r.1.engine e).gobVa p.wd q a.kb b)
  | .go list bs per =>
    let d1 := d0.addRf (Reg.ENG_SKIPBLK e) 63 0 (a.nkb - list.length)
    let abit := fun (b : Nat) => (mapPair map (a.kb / 4) b).testBit 0
    match mismatch with
    | some row => d1.residue e p row
    | none =>
      let book := d1.book e p.wd.efmt p.wd.cbook
      let n := (list.length + per - 1) / per
      let last : Fill :=
        { core := e, pc := p.pc, wd := p.wd, kb := a.kb, q := q, rel := false, stage := 2,
          blocks := (bs.drop ((n - 1) * per)).map (fun b => b.2), book := book, waited := false }
      let d2 := d1.modEngine e (fun y =>
        let z := if p.wd.viaStream then y.release p.wd.stream (lastWithin p.wd q a.kb a.nkb) else y
        { z.renumber p.core n with active := if n = 0 then y.active else some last })
      let d3 := d2.modCore p.core (fun c => { c with entry := c.entry.map (fun m => { m with passes := m.passes + n - 1 }) })
      d3.passRun e p (columnsOf p.wd book (fun b => !abit b) bs) n p.waited

/-- K blocks that a pass takes of the weights of a fill. -/
def Pass.takes (p : Pass) (f : Fill) : Nat := fillBlocks p f.wd f.pairs

/-- The first block that fails its checks among those that a pass takes of a fill (R363): its index in the whole K, and its
fault. -/
def Pass.badBlock (p : Pass) (f : Fill) : Option (Nat × Nat) :=
  ((f.blocks.take (p.takes f)).findIdx? (fun b => decide (b.bad ≠ 0))).map (fun i =>
    (f.kb + i, (f.blocks.getD i { form := 0, rcd := [], bad := 0 }).bad))

/-- The weights that the pass at the head of the engine's work runs on, when it can start: those in the shadow, or in force;
none for a gathered pass, which brings its own. -/
def Eng.passFill (x : Eng) (p : Pass) : Option Fill :=
  if p.newW then
    match x.fills with
    | f :: _ => if f.stage = 2 ∧ p.takes f ≤ f.blocks.length then some f else none
    | [] => none
  else x.active

/-- A pass on its weights. One that takes new weights swaps them in (R303); its fill has released its gobs (R379). A fill that
failed a check takes the pass and its tile with it (R363). -/
def Dev.passGo (d : Dev) (e : Nat) (p : Pass) (f : Fill) (mismatch : Option Nat) : Dev :=
  let y := d.engine e
  let d1 := d.setEngine e (if p.newW then
      { y.fillRelease f (p.takes f) with work := y.work.drop 1, fills := y.fills.drop 1, active := some f }
    else { y with work := y.work.drop 1 })
  match if p.newW then p.badBlock f else none with
  | some b => (d1.modEngine e (fun x => { x with active := y.active })).passFault e p b.2 b.1 p.num (y.gobVa f.wd f.q f.kb b.1)
  | none =>
    match mismatch with
    | some row => d1.residue e p row
    | none =>
      if p.takes f < p.ad.nkb then
        (d1.asyncFault e (d1.core e).slotN
          (matrixFault 0x0105 e (BitVec.ofNat 64 p.pc) p.pc p.handle p.ad.kb p.num 0)).engMoved e
      else
        d1.passRun e p (columnsOf p.wd f.book (fun _ => false) ((List.range p.ad.nkb).map (fun j =>
          (p.ad.kb + j, f.blocks.getD j { form := 0, rcd := [], bad := 0 })))) 1 (p.newW && f.waited)

/-- PASS_START (R305): the pass at the head of the engine's work runs, when its weights stand in the shadow or are in force. -/
def Dev.passStart (d : Dev) (e : Nat) (mismatch : Option Nat) : Dev :=
  let y := d.engine e
  match y.work with
  | .pass p :: _ =>
    (match p.gather with
     | some map => d.gatherRun e p map mismatch
     | none =>
       match y.passFill p with
       | some f => d.passGo e p f mismatch
       | none => d)
  | _ => d

/-- The pass at the head of the engine's work can start, and its weights pass their checks. -/
def Dev.passReady (d : Dev) (e : Nat) : Bool :=
  match (d.engine e).work with
  | .pass p :: _ =>
    (match p.gather with
     | some map =>
       (match (d.gatherPlan e p map).2 with
        | .go _ _ _ => true
        | _ => false)
     | none =>
       match (d.engine e).passFill p with
       | some f => !p.newW || (p.badBlock f).isNone
       | none => false)
  | _ => false

/-- PASS_START (R305); on a residue mismatch the pane row joins the repair record in flash (R317). -/
def execPassStart (e : Nat) (mismatch : Option Nat) (s : State) : Host.Outcome State Fault Refusal :=
  if (Instr.passStart e mismatch).wf then
    match mismatch, s.dev.passReady e with
    | some row, true =>
      let bad := tget (fun _ => (0 : BitVec 9)) s.nv.repair e
      .next { s with
        nv := { s.nv with repair := tput (fun _ => (0 : BitVec 9)) s.nv.repair e (setBit bad row true) }
        dev := s.dev.passStart e mismatch }
    | _, _ => .next { s with dev := s.dev.passStart e mismatch }
  else .refused .illFormed

/-- The oldest allocation that waits takes its slabs once they are free, whatever work stands before it (R320). -/
def Eng.serveAlloc (x : Eng) : Option Eng :=
  match x.work.findIdx? (fun m =>
    match m with
    | .alloc _ _ _ _ _ => true
    | _ => false) with
  | none => none
  | some i =>
    match x.work[i]? with
    | some (.alloc _ h rows fmt anchor) =>
      if slabsOf fmt rows ≤ x.freeSlabs then
        some ({ x with work := x.work.eraseIdx i }.setTile h (some (Tile.new fmt rows anchor)))
      else none
    | _ => none

/-- TILE_ALLOCATION_SERVED (R320). -/
def execTileAllocationServed (e : Nat) (s : State) : Host.Outcome State Fault Refusal :=
  run (.tileAllocationServed e) (fun d =>
    match (d.engine e).serveAlloc with
    | some y => (d.setEngine e y).engMoved e
    | none => d) s

/-! ### MDRAIN (R312, R323 to R325, R380 to R382) -/

/-- A drain as Table 8-4 and the instruction give it. -/
def drainOf (w : IW) (x : Core) (ws : List Nat) (rows : Nat) (rnd : List Byte) : Drain :=
  let r0 := nfld (dw ws 1) 15 0
  let n := nfld (dw ws 1) 31 16
  { core := w.core, pc := x.pc.toNat, handle := fld w.rd 3 0, free := bitAt w.fn 1, zfill := bitAt w.fn 2,
    map := bitAt w.fn 3, toVec := bitAt w.fn 4, rmode := fld w.fn 6 5, obase := nfld (dw ws 0) 19 0,
    ofmt := nfld (dw ws 0) 23 20, opitch := nfld (dw ws 0) 47 32, r0 := r0, nrows := if n = 0 then rows - r0 else n,
    vb := nfld (dw ws 1) 36 32, rnd := rnd, ncol := nfld (dw ws 3) 31 0, c0 := nfld (dw ws 3) 63 32,
    amap := nfld (dw ws 4) 47 0, unit := (x.entry.map (fun n => n.nextUnit)).getD 0 }

/-- Bytes of a drained row. -/
def Drain.rowLen (y : Drain) : Nat := 128 * fmtBits y.ofmt / 8

/-- The first fault of MDRAIN's checks, 0 for none. `given` is the nrows field. -/
def Drain.fault (y : Drain) (fmt : AccFmt) (rows given : Nat) : Nat :=
  if 0xB < y.ofmt ∨ y.rmode = 3 ∨ (y.ofmt = 0xB ∧ fmt ≠ .ax96) then 0x0101
  else if y.toVec ∧ (y.ofmt ≠ 0 ∨ given = 0 ∨ 32 - y.vb < given) then 0x0101
  else if rows < y.r0 + y.nrows ∨ (y.map ∧ y.c0 % 128 ≠ 0) then 0x0105
  else if !y.toVec && decide (0 < y.nrows) && decide (storeBytes < y.obase * 64 + (y.nrows - 1) * y.opitch * 64 + y.rowLen)
    then 0x0107
  else 0

/-- A fill of an earlier MLOADW still has to read where the drain will write (R128, R307, R323). -/
def Drain.fillMeets (y : Drain) (x : Eng) (f : Fill) : Bool :=
  (!y.toVec && decide (0 < y.nrows) && x.fillHits f (y.obase * 64) ((y.nrows - 1) * y.opitch * 64 + y.rowLen))
    || (y.map && (match ownOff y.core y.mapVa with
      | some b => x.fillHits f b 1
      | none => false))

/-- MDRAIN (R312, R325, R380 to R382): checks, then the drain joins the engine's work. Its writes wait, as stores do, for the
fills and the lines of earlier instructions of the core. -/
def execMdrain (w : IW) (s : State) : Host.Outcome State Fault Refusal :=
  run (.mdrain w) (fun d => d.instr (mOp 0x1B) (decide (fld w.fn 10 7 = 0) && !bitAt w.rd 4) w (fun d1 x =>
    let e := w.core
    let h := fld w.rd 3 0
    match d1.desc e (x.r1 w) 8 with
    | .stop r => r
    | .ok d2 ws =>
      let y := d2.engine e
      let flt := fun (code : Nat) (d : Dev) => unitRaise d (matrixFault code e (x.r1 w) x.pc.toNat h 0 0 (x.r1 w).toNat)
      let go := fun (d3 : Dev) (rnd : List Byte) =>
        match y.liveInfo h with
        | none => flt 0x0105 d3
        | some i =>
          let z := drainOf w x ws i.2 rnd
          let code := z.fault i.1 i.2 (nfld (dw ws 1) 31 16)
          if y.freeIssued h then flt 0x0105 d3
          else if code ≠ 0 then flt code d3
          else if y.full || y.fills.any (fun f => z.fillMeets y f) then .stall d3 (.room e)
          else if (List.range z.nrows).any (fun i => !z.toVec && d3.storeLine e (z.obase * 64 + i * z.opitch * 64) z.rowLen)
              || (z.map && d3.lineDue e false z.mapVa 1) then .stall d3 .lines
          else
            .done ((d3.setEngine e { y with work := y.work ++ [.drain z] }).modCore e (fun c =>
              { c with entry := c.entry.map (fun n => { n with nextUnit := n.nextUnit + 1 }) }))
      if fld w.fn 6 5 = 2 then
        match d2.desc e (BitVec.ofNat 64 (nfld (dw ws 2) 47 0)) 6 with
        | .stop r => r
        | .ok d3 rs => go d3 (rs.flatMap (leBytes 8))
      else go d2 [])) s

/-- Row r of a tile as a drain writes it: the elements' bits and their flags; none for a row it does not write. -/
def Tile.drainRow (t : Tile) (y : Drain) (r : Nat) : Option (List (Nat × Flg)) :=
  if tget (fun _ => false) t.touched r then
    some ((List.range 128).map (fun c => t.drained y.ofmt (rndOf y.rmode y.rnd (r * y.ncol + y.c0 + c)) r c))
  else if y.zfill then some (List.replicate 128 (0, Flg.none))
  else none

/-- The bytes of a row's elements. -/
def rowBytesOf (ofmt : Nat) (xs : List (Nat × Flg)) : List Byte := packElems (fmtBits ofmt) (xs.map (·.1))

/-- The value of an element as written, for a block map. -/
def writtenVal (ofmt x : Nat) : Val :=
  if ofmt = 0xB then
    (if x = 2 ^ 95 then Val.nan else Val.fin false x 0)
  else decodeElem ofmt drainBook x

/-- The map byte of drained rows: four K blocks of 32 columns (R350). -/
def mapByte (ofmt : Nat) (rows : List (List (Nat × Flg))) : Nat :=
  ((List.range 4).map (fun j =>
    mapBits (rows.flatMap (fun r => ((r.drop (32 * j)).take 32).map (fun x => writtenVal ofmt x.1))) * 4 ^ j)).sum

/-- ORs bits into a byte of a block map (R350). The lines of a far home stay at hand until the unit's work is done. -/
def Dev.orMap (d : Dev) (e va bits : Nat) : MemRes :=
  let w : Who := { slot := (d.core e).slotN, eng := some e, src := e, core := none }
  match d.rd w va 1 with
  | .ok d1 bs => d1.wr w va [BitVec.ofNat 8 ((bs.getD 0 0).toNat ||| bits)]
  | r => r

/-- Goes on from an access to a map: one that must wait leaves the unit's work to be tried again, nothing of it done; one that
fails raises its fault at the core. -/
def MemRes.mapped (r : MemRes) (e : Nat) (k : Dev → Dev) : Dev :=
  match r with
  | .ok d _ => k (d.unitDone (d.core e).slotN e)
  | .fault d f => k ((d.unitDone (d.core e).slotN e).asyncFault e (d.core e).slotN f)
  | .stall d => d

/-- Writes the rows of a drain: row r0 + i to the engine store, or to vector register vb + i (R323, R382). -/
def Dev.drainRows (d : Dev) (e : Nat) (y : Drain) : List (Nat × Option (List (Nat × Flg))) → Dev
  | [] => d
  | (_, none) :: rs => d.drainRows e y rs
  | (i, some xs) :: rs =>
    let d1 :=
      if y.toVec then d.modCore e (fun c => c.setLanes (y.vb + i) 0 (xs.map (fun x => BitVec.ofNat 32 x.1)))
      else d.esWrite e (y.obase * 64 + i * y.opitch * 64) (rowBytesOf y.ofmt xs)
    d1.drainRows e y rs

/-- DRAIN_COMMIT (R324): the drain at the head of the engine's work writes its rows; with free the handle is freed; the
tile is a committed unit of its entry. While its map byte cannot be written, the drain waits (R137, R350). -/
def Dev.drainCommit (d : Dev) (e : Nat) : Dev :=
  let x := d.engine e
  match x.work with
  | .drain y :: ws =>
    (match x.tile y.handle with
     | none => (d.setEngine e { x with work := ws }).engMoved e
     | some t =>
       if y.unit ≠ ((d.core y.core).entry.map (fun n => n.units)).getD y.unit then d
       else
         let rows := (List.range y.nrows).map (fun i => (i, t.drainRow y (y.r0 + i)))
         let out := rows.filterMap (fun r => r.2)
         let fl := flagsOf (out.flatMap (fun r => r.map (·.2)))
         let t1 := { t with cvtSat := t.cvtSat || fl.cvtSat, nanz := t.nanz || fl.nanz }
         (if y.map then d.orMap e y.mapVa (mapByte y.ofmt out) else .ok d []).mapped e (fun d0 =>
           let d1 := d0.modEngine e (fun z => { z with work := ws }.setTile y.handle (if y.free then none else some t1))
           ((d1.drainRows e y rows).commitUnit y.core 0 y.rowLen (out.flatMap (rowBytesOf y.ofmt))).engMoved e))
  | _ => d

/-- DRAIN_COMMIT (R324). -/
def execDrainCommit (e : Nat) (s : State) : Host.Outcome State Fault Refusal :=
  run (.drainCommit e) (fun d => d.drainCommit e) s

end Sys2Proof.Machine
end

