-- ==== Sys2Proof/Machine/Streams.lean ====
section
/-! DEFINITION. Prefetch streams: TSTREAM, refill of ring slots, arrival of gobs (R329, R357 to R359, R404, R405, R495). -/

namespace Sys2Proof.Machine

/-- Gob slots of an engine store (R471). -/
def gobSlots : Nat := 768

/-- A stream descriptor as a stream that has fetched nothing (Table 8-14). -/
def streamOf (slot core pc : Nat) (ws : List Nat) (map : List Byte) : PStream :=
  { slot := slot, core := core, pc := pc, src := nfld (dw ws 0) 47 0, slots := nfld (dw ws 0) 55 48, slot0 := nfld (dw ws 1) 9 0,
    ngobs := nfld (dw ws 3) 31 0, pred := (dw ws 1).testBit 10, nblk := nfld (dw ws 1) 31 16,
    nb := nfld (dw ws 1) 39 32, pmap := map, next := 0, asked := [], present := [], skipped := [], bad := [],
    freed := [], released := 0, fetched := 0, closing := false }

/-- K blocks that the fill at place i of the queue may have to hold: those of the pass that takes it, else the most of any pass. -/
def Eng.fillMost (x : Eng) (i : Nat) (f : Fill) : Nat :=
  match (x.passes.filter Pass.takesFill)[i]? with
  | some p => fillBlocks p f.wd (f.stage < 2 || f.pairs)
  | none => passBlocks f.wd.efmt f.wd.efmt .a16 true

/-- An issued MLOADW that has still to read, or a gathered MSTREAM that has not run, names gob g of stream i (R329). Reads of a stream
that is ending are those issued before its end (R405). -/
def Eng.names (x : Eng) (i g : Nat) : Bool :=
  let mine := fun (wd : WDesc) => wd.viaStream && decide (wd.stream = i) && (x.wdStream wd).isSome
  (x.fills.zipIdx.any (fun f => mine f.1.wd
    && ((List.range (x.fillMost f.2 f.1)).filter (fun j => decide (f.1.blocks.length ≤ j) && decide (f.1.kb + j < f.1.wd.nkb))).any (fun j =>
      decide (streamGob f.1.wd f.1.q f.1.kb (f.1.kb + j) = g))))
  || x.passes.any (fun p => p.gather.isSome && mine p.wd
    && (streamGobs p.wd (x.streamHead p.wd) p.ad.kb p.ad.nkb).contains g)

/-- Every gob of stream i that is present has been released, and no issued read names it. -/
def Eng.drained (x : Eng) (i : Nat) (p : PStream) : Bool :=
  p.present.all (fun g => tget (fun _ => false) p.freed g.1 && !x.names i g.1)

/-- A stream ends: no further gob of it is fetched. -/
def PStream.close (p : PStream) : PStream := { p with closing := true, asked := [], skipped := [] }

/-- Marks the reads of stream i that have been issued: they are for the stream that ends (R405), or for the one that has come. -/
def Eng.markReads (x : Eng) (i : Nat) (b : Bool) : Eng :=
  let mark := fun (wd : WDesc) => if wd.viaStream && decide (wd.stream = i) then { wd with ended := b } else wd
  { x with
    fills := x.fills.map (fun f => { f with wd := mark f.wd })
    work := x.work.map (fun m =>
      match m with
      | .pass p => .pass { p with wd := mark p.wd }
      | y => y) }

/-- A stream, or none, stands at index i in place of an ended one, with nothing left that waits. Reads of a gob that was not fetched
before the end are for what stands there now (log 142). -/
def Eng.replaceStream (x : Eng) (i : Nat) (n : Option PStream) : Eng :=
  { (x.setPstream i n).markReads i false with queued := tput (fun _ => none) x.queued i none }

/-- A new stream, or none for a close, takes the place of the one at index i once that one's gobs are released (R405). -/
def Eng.openStream (x : Eng) (i : Nat) (n : Option PStream) : Eng :=
  match x.pstream i with
  | none => x.setPstream i n
  | some p =>
    let y := if p.closing then x else (x.setPstream i (some p.close)).markReads i true
    if y.drained i p then y.replaceStream i n else { y with queued := tput (fun _ => none) x.queued i n }

/-- TSTREAM's effect: the stream, and no more reads for the one that it ends (R405). -/
def Dev.setStream (d : Dev) (e i : Nat) (n : Option PStream) : Dev :=
  (d.dropRing e (some i)).modEngine e (fun y => y.openStream i n)

/-- A stream that ended gives way once its gobs are released. -/
def Eng.settleStream (x : Eng) (i : Nat) : Eng :=
  match x.pstream i with
  | none => x
  | some p =>
    if p.closing && x.drained i p then x.replaceStream i (tget (fun _ => none) x.queued i) else x

/-- The faults of TSTREAM: a source off a gob boundary, a ring beyond gob slot 767, an invalid object descriptor. -/
def Dev.streamFault (d : Dev) (c s : Nat) (p : PStream) : Option (Nat × FaultInfo) :=
  if p.src % 65536 ≠ 0 then some (3, misaligned c p.src)
  else if gobSlots < p.slot0 + p.slots then
    some (8, matrixFault 0x0107 c (BitVec.ofNat 64 (d.core c).pc.toNat) (d.core c).pc.toNat 0 0 0 p.src)
  else
    match d.leafAddr s (p.src / 65536) with
    | .error _ => none
    | .ok a =>
      if (d.t1w a).testBit 0 && (d.obj s (leafObj (d.t1w a))).isNone then
        some (8, memFault 0x0605 c p.src (leafObj (d.t1w a)) (d.t1w a) (d.t1w (a + 8)))
      else none

/-- TSTREAM on an engine core with its descriptor read; the prediction map is read as a load of the core (R358). -/
def tstreamGo (w : IW) (x : Core) (ws : List Nat) (d : Dev) : IRes :=
  let c := w.core
  let i := fld w.rd 2 0
  let p := streamOf x.slotN c x.pc.toNat ws []
  if p.slots = 0 then .done (d.setStream c i none)
  else
    match d.streamFault c x.slotN p with
    | some cf => .raise d cf.1 cf.2
    | none =>
      if p.pred then
        match d.unitLoad c (nfld (dw ws 2) 47 0) ((p.nblk + 3) / 4) with
        | .ok d1 map => .done (d1.setStream c i (some { p with pmap := map }))
        | .fault d1 f => .raise d1 (causeOf false f.code) f
        | .stall d1 => .stall d1 (.operand x.slotN (nfld (dw ws 2) 47 0))
      else .done (d.setStream c i (some p))

/-- TSTREAM (R404, R405, R488). A control core has no streams: there it has no effect (log 58). -/
def execTstream (w : IW) (s : State) : Host.Outcome State Fault Refusal :=
  run (.tstream w) (fun d => d.instr (cOp 0x2C false) (decide (fld w.fn 10 2 = 0) && decide (fld w.rd 4 3 = 0)) w
    (fun d1 x =>
      if 32 ≤ w.core then .done d1
      else
        match d1.desc w.core (x.r1 w) 4 with
        | .stop r => r
        | .ok d2 ws => tstreamGo w x ws d2)) s

/-! ### Refill -/

/-- The blocks that gob q of a stream with a map covers: first and number (R357). -/
def PStream.blocks (p : PStream) (q : Nat) : Nat × Nat :=
  let per := (p.nblk + p.nb - 1) / max p.nb 1
  let b := q % max per 1 * p.nb
  (b, min p.nb (p.nblk - b))

/-- Every block the gob covers is zero in the map (R358). -/
def PStream.predictedZero (p : PStream) (q : Nat) : Bool :=
  p.pred && (List.range (p.blocks q).2).all (fun j => decide (mapPair p.pmap 0 ((p.blocks q).1 + j) % 2 = 0))

/-- The ring slot of gob q of stream i is free: its last occupant never came to stand there, or has been released and no issued
read names it (R329). -/
def Eng.slotFree (x : Eng) (i : Nat) (p : PStream) (q : Nat) : Bool :=
  let o := q - p.slots
  decide (q < p.slots)
    || (!tget (fun _ => false) p.present o && !tget (fun _ => false) p.skipped o && !p.asked.contains o
      && !tget (fun _ => false) p.bad o)
    || (tget (fun _ => false) p.freed o && !x.names i o)

/-- The stream goes on to its next gob, which takes the place of the last occupant of its slot. -/
def PStream.advance (p : PStream) : PStream :=
  let o := p.next - p.slots
  let drop := fun (t : Tab Bool) => if p.next < p.slots then t else tput (fun _ => false) t o false
  { p with
    next := p.next + 1, present := drop p.present, skipped := drop p.skipped, bad := drop p.bad, freed := drop p.freed }

/-- Gob reads outstanding on an engine, over all streams. -/
def Eng.inflight (x : Eng) : Nat :=
  (x.streams.map (fun r =>
    match r.2 with
    | some p => p.asked.length
    | none => 0)).sum

/-- ENG_CFG.pf_inflight in force. -/
def Dev.pfLimit (d : Dev) (e : Nat) : Nat :=
  let n := d.inf (Reg.ENG_CFG e) 4 0
  if n = 0 ∨ 16 < n then 16 else n

/-- PREFETCH_REFILL (R329, R358, R404, R489): the next gob of the stream is asked of the movers, or skipped on prediction. -/
def Dev.prefetchRefill (d0 : Dev) (e i : Nat) : Dev :=
  let d := d0.modEngine e (fun x => x.settleStream i)
  match (d.engine e).pstream i with
  | none => d
  | some p =>
    if p.closing ∨ p.ngobs ≤ p.next ∨ (d.engine e).slotFree i p p.next = false then d
    else if p.predictedZero p.next then
      (d.modEngine e (fun x => x.setPstream i (some { p.advance with
        skipped := tput (fun _ => false) p.advance.skipped p.next true }))).addRf (Reg.ENG_PFSKIP e) 63 0 1
    else if d.pfLimit e ≤ (d.engine e).inflight then d
    else
      (d.modEngine e (fun x => x.setPstream i (some { p.advance with asked := p.asked ++ [p.next] }))).askMove .stream p.slot
        (p.src / 65536 + p.next) (.ring e i p.next)

/-- PREFETCH_REFILL (R329, R358, R404). -/
def execPrefetchRefill (e i : Nat) (s : State) : Host.Outcome State Fault Refusal :=
  run (.prefetchRefill e i) (fun d => d.prefetchRefill e i) s

/-! ### Arrival -/

/-- The directory of an arriving gob matches the declaration of a stream with a map (R357). -/
def PStream.dirOk (p : PStream) (q : Nat) (bs : List Byte) : Bool :=
  !p.pred || (let x := gobDir (bs.take 64)
    decide (x.kb0 = (p.blocks q).1) && decide (x.nb = (p.blocks q).2))

/-- A gob-cache copy of a gob read by a stream, of stream policy and within the quota (R495); an invalid descriptor is recorded
(R488). A gob in the engine-store window is in no tier. -/
def Dev.streamCopy (d : Dev) (s gob : Nat) (bs : List Byte) : Dev :=
  if 0xFFFF0000 ≤ gob then d
  else
    match d.walk s gob false with
    | .bad _ _ _ => d
    | .leaf _ w0 w1 =>
      match d.objOfGob s gob with
      | some ox =>
        if ox.2.policy = 1 ∧ d.quotaRoom s 33 22 then (d.gcFill s gob bs ((d.gobHeader s gob w0 w1).getD [])).getD d else d
      | none => d.noteGob s gob w0 w1

/-- A gob whose bytes have been read is poisoned. -/
def Dev.poisonedNow (d : Dev) (s gob : Nat) : Bool := (d.leafWords s gob).1.testBit 5

/-- What the read of a stream's gob in hand gives: the lines of a far home, or what stands at hand (R486). -/
def Dev.ringBytes (d : Dev) (r : MoveReq) (e : Nat) : MemRes :=
  if 0xFFFF0000 ≤ r.gob then d.rd { slot := r.slot, eng := some e, src := e, core := none } (r.gob * 65536) 65536
  else if r.buf.length = 65536 ∧ d.poisonedNow r.slot r.gob = false then .ok d r.buf
  else
    match d.rdGob r.slot (r.gob * 65536) 65536 e with
    | .bytes d1 bs => .ok d1 bs
    | .fault d1 f => .fault d1 f
    | .far d1 _ _ => .stall d1
    | .host d1 _ => .stall d1
    | .stall d1 => .stall d1

/-- The read of a gob of stream i that is over, of those in hand that the stream asks for: the gob, the work, what it read. -/
def Dev.ringDone (d : Dev) (e i : Nat) : List Nat → Dev × Option (Nat × MoveReq × MemRes)
  | [] => (d, none)
  | q :: qs =>
    match d.tir.busy.find? (fun r => decide (r.dest = .ring e i q)) with
    | none => d.ringDone e i qs
    | some r =>
      match d.ringBytes r e with
      | .stall d1 => d1.ringDone e i qs
      | x => (x.dev, some (q, r, x))

/-- The source of a stream's gob fails its crc (R481): a copy is discarded, a home is poisoned, and the gob is read again. -/
def Dev.ringCrc (d : Dev) (r : MoveReq) (bs : List Byte) : Option Dev :=
  if 0xFFFF0000 ≤ r.gob then none
  else
    match d.walk r.slot r.gob false with
    | .bad _ _ _ => none
    | .leaf a w0 w1 =>
      let near := d.nearCopy r.slot r.gob w0 w1
      if w0.testBit 5 then none
      else if crcBad ((near.map (·.2)).getD ((d.gobHeader r.slot r.gob w0 w1).getD [])) bs then
        some (if near.isSome then d.dropNear r.slot r.gob
          else if leafTier w0 = 1 then d.poison r.slot r.gob a w0 w1 (nfld w1 21 0 * 65536) 65536
          else d.poisonLeaf r.slot r.gob a w0 w1)
      else none

/-- The reads of stream i in hand that cannot go on: one of a gob under repair waits for it without a mover (R513), one whose
copy at hand has gone asks for the lines of the home. -/
def Dev.ringResume (d : Dev) (e i : Nat) : Dev :=
  (d.tir.busy.filter (fun r =>
    match r.dest with
    | .ring e1 i1 _ => decide (e1 = e) && decide (i1 = i)
    | _ => false)).foldl (fun a r =>
      if a.underRepair r.slot r.gob then (a.endMove r.id).askMove r.kind r.slot r.gob r.dest else a.moverResume r) d

/-- The fill that has begun has to wait for a gob that is not there yet (R330). -/
def Eng.noteWaits (x : Eng) (pairs : Bool) : Eng :=
  match x.fills with
  | f :: fs =>
    if decide (1 ≤ f.stage) && decide (f.blocks.length < x.fillNeed f pairs) && decide (x.readable f (x.fillNeed f pairs) < x.fillNeed f pairs)
    then { x with fills := { f with waited := true } :: fs } else x
  | [] => x

/-- A gob of a stream has been read into its ring slot, or its directory refused. -/
def Dev.ringPlace (d : Dev) (e i q : Nat) (p : PStream) (r : MoveReq) (bs : List Byte) : Dev :=
  let gob := p.src / 65536 + q
  let p1 := { p with asked := p.asked.filter (fun y => decide (y ≠ q)), fetched := p.fetched + 1 }
  let at_ := p.slot0 + q % p.slots
  let d1 := (d.streamCopy p.slot gob bs).endMove r.id
  let pairs := match (d.engine e).fills with
    | f :: _ => d.fillPairs e f.wd f.q f.kb
    | [] => false
  let d2 := d1.modEngine e (fun x => x.noteWaits pairs)
  if p.dirOk q bs && (decide (0xFFFF0000 ≤ gob) || d.formOk p.slot gob bs) then
    ((d2.esWrite e (at_ * 65536) bs).modEngine e (fun x =>
      { x with heads := tput (fun _ => none) x.heads at_ none }.setPstream i (some { p1 with
        present := tput (fun _ => false) p.present q true }))).engMoved e
  else
    (((d2.setRb (Reg.ENG_SPSTAT e) 1 true).modEngine e (fun x => x.setPstream i (some { p1 with
      bad := tput (fun _ => false) p.bad q true }))).asyncFault p.core p.slot
        (matrixFault 0x0203 e (BitVec.ofNat 64 p.pc) p.pc 0 (p.blocks q).1 0 (gob * 65536))).engMoved e

/-- PREFETCH_GOB_ARRIVAL (R330, R357): a gob asked for stands in its ring slot. One that is poisoned is dropped (R512). -/
def Dev.prefetchArrival (d0 : Dev) (e i : Nat) : Dev :=
  match (d0.engine e).pstream i with
  | none => d0
  | some p =>
    let t := d0.ringDone e i p.asked
    match t.2 with
    | none => t.1.ringResume e i
    | some (q, r, res) =>
      let lost := fun (a : Dev) => (a.endMove r.id).modEngine e (fun x => x.setPstream i (some { p with
        asked := p.asked.filter (fun y => decide (y ≠ q)) }))
      match res with
      | .stall d => d
      | .fault d f => if f.code = 0x0601 then lost d else (lost d).asyncFault p.core p.slot f
      | .ok d bs =>
        match d.ringCrc r bs with
        | some d1 => d1.ringResume e i
        | none => d.ringPlace e i q p r bs

/-- PREFETCH_GOB_ARRIVAL (R330, R357, R495). -/
def execPrefetchGobArrival (e i : Nat) (s : State) : Host.Outcome State Fault Refusal :=
  run (.prefetchGobArrival e i) (fun d => d.prefetchArrival e i) s

end Sys2Proof.Machine
end

