-- ==== Sys2Proof/Machine/SyncHost.lean ====
section
/-! DEFINITION. Sync objects as the host reaches them, their ranges, and the sweep of the sync-count ledger (file 11). -/

namespace Sys2Proof.Machine

/-- A host write to an object is not applied through a job view that does not own it; the slot counts it (R551). -/
def Dev.hostRejects (d : Dev) (v : Via) (i : Nat) : Option Nat :=
  match v.slot with
  | none => none
  | some s => if d.owner i = some s then none else some s

/-- A write of SYN_POST: its count to the object named, with the error epoch marked on err (R551). One that would carry
beyond 2^32 − 1 is not applied; a job view counts it. -/
def Dev.synPostWrite (d : Dev) (v : Via) (x : Word) : Dev :=
  let i := fld x 15 0
  match d.hostRejects v i with
  | some s => d.satRf (Reg.SYN_HREJ s) 31 0 1
  | none =>
    let r := d.post i (fld x 63 32) (bitAt x 16)
    if r.2 then r.1
    else
      match v.slot with
      | some s => r.1.satRf (Reg.SYN_HREJ s) 31 0 1
      | none => r.1

/-- A write of SYN_RESET resets the object as SORESET does (R551). -/
def Dev.synResetWrite (d : Dev) (v : Via) (x : Word) : Dev :=
  let i := fld x 15 0
  match d.hostRejects v i with
  | some s => d.satRf (Reg.SYN_HREJ s) 31 0 1
  | none => d.synReset i

/-- SYN_POST (R551). -/
def execSynPost (v : Via) (x : BitVec 64) (s : State) : Host.Outcome State Fault Refusal :=
  host (.synPost v x) v false true (fun a => a.synPostWrite v x) s

/-- SYN_RESET (R551). -/
def execSynReset (v : Via) (x : BitVec 64) (s : State) : Host.Outcome State Fault Refusal :=
  host (.synReset v x) v false false (fun a => a.synResetWrite v x) s

/-! ### Ranges (R547, R548) -/

/-- SYN_RANGE_WRITE (R548). -/
def execSynRangeWrite (sl : Nat) (x : BitVec 64) (s : State) : Host.Outcome State Fault Refusal :=
  host (.synRangeWrite sl x) bar0 false false (fun a => a.synRangeWrite sl x) s

/-! ### The sweep (R557) -/

/-- Standing counts of a group, modulo 2^64. -/
def Dev.groupSum (d : Dev) (g : Nat) : Word :=
  BitVec.ofNat 64 (((d.standing.filter (fun ic => decide (d.group ic.1 = g))).map Prod.snd).foldl (· + ·) 0)

/-- The sweep of one group: the standing sum is shown, and 0x0B01 is raised when it is not applied − consumed (R557). -/
def Dev.sweepGroup (d : Dev) (g : Nat) : Dev :=
  let sum := d.groupSum g
  let d1 := (d.lapse (ledApplied g)).lapse (ledConsumed g)
  let d2 := (d1.ledgerRepair (ledApplied g)).ledgerRepair (ledConsumed g)
  let d3 := if g < 16 then d2.setReg (Reg.LSYN_STANDING g) sum else d2
  let net := d3.ledgerVal (ledApplied g) - d3.ledgerVal (ledConsumed g)
  if sum = net then d3 else d3.ledgerStop 0x0B01 3 g sum net (d3.groupSlots g)

/-- SYNC_SWEEP (R557): every group, from the counts as they stand. -/
def execSyncSweep (s : State) : Host.Outcome State Fault Refusal :=
  run .syncSweep (fun d => (List.range 17).foldl Dev.sweepGroup d) s

end Sys2Proof.Machine
end

