-- ==== Sys2Proof/Machine/HostRegs.lean ====
section
/-! DEFINITION. The registers as a host access finds them: the three views, values that the device computes at a read, writes
by access code and change class, and what a write triggers (R14 to R30, R772, R773; file 16). -/

namespace Sys2Proof.Machine

/-! ### The job view window (Tables 16-14 and 16-15) -/

/-- The device page, in its order. -/
def devicePage : List Nat :=
  [Reg.TOP_ID, Reg.MODULE_ID, Reg.SEC_ID, Reg.SEC_BOOT, Reg.SEC_FW, Reg.SEC_LC, Reg.SEC_DEVID 0, Reg.SEC_DEVID 1,
   Reg.PWR_ID, Reg.PWR_MEAS, Reg.PWR_THERM] ++ (List.range 5).map Reg.PWR_DOM ++ [Reg.MEM_ID, Reg.MEM_FRAMES, Reg.FAB_ID]
  ++ (List.range 8).map Reg.PORT_STATE ++ (List.range 8).map Reg.PORT_PARTNER
  ++ [Reg.RTE_ID, Reg.XCH_ID, Reg.SCH_ID, Reg.TIR_ID, Reg.CUL_ID, Reg.SYN_ID, Reg.FLT_ID, Reg.HST_ID]

/-- Parts of the window with one register block each: first offset, bytes, BAR0 offset of the block of slot s. -/
def windowParts (s : Nat) : List (Nat × Nat × Nat) :=
  [(0x0, 0x2000, Reg.HST_APER s), (0x2000, 0x100, Reg.RCTX_CFG s), (0x2100, 0x40, Reg.XCH_CFG s),
   (0x2200, 0x100, Reg.SCH_SHARE s), (0x2300, 0x60, Reg.FLT_HEAD s), (0x2400, 0x50, Reg.TT_BASE s),
   (0x2500, 0x30, Reg.LSYN_APPLIED s), (0x2600, 8, Reg.SYN_HREJ s), (0x2608, 8, Reg.FAB_SSTAT s),
   (0x3400, 0x400, Reg.SEC_MREG 0 0), (0x8800, 0x20, Reg.GFT_CFG 0), (0x18000, 0x4000, Reg.GFT_SEG 0 0),
   (0x20000, 0x4000, Reg.FLOG s 0 0), (0x60000, 8, Reg.SYN_POST), (0x60008, 8, Reg.SYN_RESET)]

/-- Parts of the window that repeat: first offset, stride, count, which of them the slot's window shows, and where. -/
def Dev.windowRows (d : Dev) (s : Nat) : List (Nat × Nat × Nat × (Nat → Bool) × (Nat → Nat)) :=
  let wbase := d.rf (Reg.RCTX_CFG s) 31 16
  [(0x2800, 0x40, 32, fun c => decide (d.cadOwner c = some s), Reg.CAD_OWN),
   (0x3000, 8, devicePage.length, fun _ => true, fun i => devicePage.getD i 0),
   (0x4000, 0x200, 32, fun e => decide (d.engSlot e = some s), Reg.ENG_ID),
   (0x8000, 8, 256, fun r => d.rctxValid s && d.rtAllowed s r, Reg.RT_OBJ),
   (0x10000, 0x40, 256, fun r => d.rctxValid s && d.rtAllowed s r, fun r => Reg.RTD r 0),
   (0x30000, 16, 4096, fun j => d.rctxValid s && d.workAllowed s (wbase + j) (wbase + j + 1), fun j => Reg.WORK (wbase + j) 0),
   (0x40000, 0x80, 1024, fun p => decide (d.poolOwner p = some s), Reg.POOL_CFG),
   (0x80000, 16, 32768, fun j => decide (d.owner (d.rf (Reg.SYN_RANGE s) 15 0 + j) = some s),
      fun j => Reg.SYN_STATE (d.rf (Reg.SYN_RANGE s) 15 0 + j))]

/-- The BAR0 offset of the register that a window of slot s shows at an offset (R20, R773). -/
def Dev.windowOff (d : Dev) (s o : Nat) : Option Nat :=
  match (windowParts s).find? (fun p => decide (p.1 ≤ o) && decide (o < p.1 + p.2.1)) with
  | some p => some (p.2.2 + (o - p.1))
  | none =>
    match (d.windowRows s).find? (fun r => decide (r.1 ≤ o) && decide (o < r.1 + r.2.1 * r.2.2.1)) with
    | some r =>
      let i := (o - r.1) / r.2.1
      if r.2.2.2.1 i then some (r.2.2.2.2 i + (o - r.1) % r.2.1) else none
    | none => none

/-- The BAR0 offset that an access through a view names. -/
def Dev.viewOff (d : Dev) (v : Via) (o : Nat) : Option Nat :=
  match v.slot with
  | none => some o
  | some s => d.windowOff s o

/-- The register of an access and its indices: through a job view no P register (R18). -/
def Dev.regOf (d : Dev) (v : Via) (o : Nat) : Option (Nat × RDesc × List Nat) :=
  match d.viewOff v o with
  | none => none
  | some off =>
    match regAt off allRegs with
    | none => none
    | some ri => if v.slot.isSome && decide (ri.1.view = .p) then none else some (off, ri.1, ri.2)

/-! ### Values computed at a read -/

/-- A sequence space as FAB_SEQ_KEY names it: found, and FAB_SEQ_VAL. -/
def Dev.seqLookup (d : Dev) (k : Word) : Bool × Nat :=
  let key : SpaceKey :=
    if bitAt k 47 then { job := fld k 19 0, src := d.node, core := fld k 41 36, dst := fld k 35 20, chan := fld k 45 42, post := bitAt k 46 }
    else { job := fld k 19 0, src := fld k 35 20, core := fld k 41 36, dst := d.node, chan := fld k 45 42, post := bitAt k 46 }
  if bitAt k 47 then
    match d.fab.send.find? (fun x => decide (x.key = key)) with
    | some x => (true, x.next % 2 ^ 32 + (((x.unacked.head?.map (fun (y : Sent) => y.idx)).getD x.next) % 2 ^ 32) * 2 ^ 32)
    | none => (false, 0)
  else
    match d.fab.recv.find? (fun x => decide (x.key = key)) with
    | some x => (true, (x.expect + 2 ^ 32 - 1) % 2 ^ 32)
    | none => (false, 0)

/-- Entries of a slot with state 1: in a window and not started. -/
def Dev.waitingEntries (d : Dev) (s : Nat) : Nat :=
  ((d.sch.lists.filter (fun l => decide (l.slot = s))).map (fun l => l.win.length)).sum

/-- Word of a stream as PF_STATE shows it: gobs fetched and released, ring slots, set up, a consumer waits. -/
def pfWord (p : PStream) (waiting : Bool) : Nat :=
  p.fetched % 65536 + p.released % 65536 * 2 ^ 16 + p.slots % 256 * 2 ^ 32 + 2 ^ 40 + b2n waiting * 2 ^ 41

/-- A consumer waits for gobs of stream i of an engine (R330): the fill that has begun and lacks a block which it needs, or the gathered pass
at the head of the work. -/
def Dev.streamWaits (d : Dev) (e i : Nat) : Bool :=
  let x := d.engine e
  let of_ := fun (wd : WDesc) => wd.viaStream && decide (wd.stream = i)
  (match x.fills with
   | f :: _ => decide (1 ≤ f.stage) && of_ f.wd
      && (List.range (x.fillNeed f (d.fillPairs e f.wd f.q f.kb))).any (fun j =>
        decide (f.blocks.length ≤ j) && decide (f.kb + j < f.wd.nkb) && !x.stands f.wd f.q f.kb (f.kb + j))
   | [] => false)
  || (match x.work with
   | .pass p :: _ => p.gather.isSome && of_ p.wd && decide (p.lacks ≠ [])
   | _ => false)

/-- Credits of a VC of a port, all classes: held toward the partner, and occupied here. -/
def Dev.credWord (d : Dev) (p vc : Nat) : Nat × Nat :=
  let x := d.port p
  (((List.range 4).map (fun c => (x.credit (vc * 4 + c)).held)).sum, ((List.range 4).map (fun c => (x.credit (vc * 4 + c)).occupied)).sum)

/-- RCTX_STATE (Table 3-10): the epoch of the newest open batch. With none open the spec gives no value: the epoch of the batch opened last
shows (DESIGN CHOICE, log 150). -/
def Dev.rctxWord (d : Dev) (s : Nat) : Nat :=
  let x := d.rctx s
  ((x.batches.getLast?.map (fun (b : Batch) => b.epoch)).getD x.epoch) % 4096 + x.batches.length % 8 * 2 ^ 12 + b2n (x.waits.any OpenWait.opens && x.epochTaken) * 2 ^ 15
    + b2n (x.batches.any (fun b => b.waitCounts.isSome)) * 2 ^ 16

/-- The bin passes R696 (950 mV) and the ageing limit dtop. -/
def Dev.binUsable (d : Dev) (k : Nat) : Bool := decide (d.voltAt k ≤ 950) && decide (d.rf Reg.PWR_AGE 14 8 ≤ k)

/-- The value of a register at a read: what stands in it, and for registers that show other state that state. -/
def Dev.regValue (d : Dev) (off : Nat) (r : RDesc) (is : List Nat) : Word :=
  let w := d.reg off
  let i := is.headD 0
  let j := is.getD 1 0
  if r.base = Reg.LSYN_APPLIED 0 then d.ledgerVal (ledApplied i)
  else if r.base = Reg.LSYN_CONSUMED 0 then d.ledgerVal (ledConsumed i)
  else if r.base = Reg.LRP_PENDING 0 then d.ledgerVal (ledPending i)
  else if r.base = Reg.LRP_FAILED 0 then d.ledgerVal (ledFailed i)
  else if r.base = Reg.ENG_STATUS 0 then setBit w 0 (d.core i).entry.isSome
  else if r.base = Reg.ENG_TILES 0 then
    let x := d.engine i
    BitVec.ofNat 64 ((x.tiles.filter (fun t => t.2.isSome)).length % 32 + x.freeSlabs % 1024 * 2 ^ 5 + x.pendingSlabs % 1024 * 2 ^ 15)
  else if r.base = Reg.POOL_STAT 0 then
    let x := d.pool i
    setFld (setFld (setFld w 24 0 x.free) 32 25 x.reserved) 46 37 x.waiters.length
  else if r.base = Reg.POOL_HELD 0 then BitVec.ofNat 64 (d.pool i).held
  else if r.base = Reg.PF_STATE 0 0 then
    (match (d.engine i).pstream j with
     | some p => BitVec.ofNat 64 (pfWord p (d.streamWaits i j))
     | none => 0)
  else if r.base = Reg.SCH_SLOTSTAT 0 then
    BitVec.ofNat 64 ((d.enginesOf i).length + (d.openLists i).length % 16 * 2 ^ 8 + d.waitingEntries i % 512 * 2 ^ 12)
  else if r.base = Reg.RCTX_STATE 0 then BitVec.ofNat 64 (d.rctxWord i)
  else if r.base = Reg.RTE_STATUS then setBit w 0 (decide (d.allBatches ≠ []))
  else if r.base = Reg.CUL_STATUS then BitVec.ofNat 64 (d.bitmapUsed none)
  else if r.base = Reg.FAB_SEQTAB then BitVec.ofNat 64 d.fab.recv.length
  else if r.base = Reg.PORT_CRED 0 0 then
    let c := d.credWord i j
    setFld (setFld w 15 0 c.1) 31 16 c.2
  else if r.base = Reg.PWR_VF 0 then setBit w 12 (d.binUsable (32 + i))
  else if r.base = Reg.PWR_AGE then
    setFld w 63 24 (fld w 63 24 + (d.pwr.powered + (d.now - d.pwr.hours168)) / hourCclk)
  else if r.base = Reg.TWIN_STATUS 0 then setFld w 38 32 (d.twinOf i).waits.length
  else if r.base = Reg.HMB_STATUS 0 then
    let o := d.reg (Reg.HMB_OBJ i)
    setFld (setFld (setFld w 31 16 (fld o 15 0)) 47 32 (fld o 31 16)) 63 48 (fld o 47 32)
  else w

/-- HMB_OUT[i]: a paged read of the slot; one that cannot be made reads 0 (R779). -/
def Dev.hmbOut (d : Dev) (s i : Nat) : Dev × Word :=
  match d.unitRead s 56 (d.rf (Reg.HMB_CFG s) 47 12 * 4096 + 2048 + 8 * i) 8 with
  | .ok d1 bs => (d1, BitVec.ofNat 64 (leNat bs))
  | .fault d1 _ => (d1.unitDone s 56, 0)
  | .stall d1 => (d1, 0)

/-- A host access waits for lines of a far gob (R469). -/
def Dev.hostLines (d : Dev) (s : Nat) : Bool :=
  d.fab.reads.any (fun r =>
    match r.use with
    | .unit src t _ => decide (src = 56) && decide (t = s)
    | _ => false)

/-- A read of HMB_OUT[i] must wait for a move, a repair or a far line (R469, R487, R513). -/
def Dev.outWaits (d : Dev) (r : RDesc) (is : List Nat) : Bool :=
  let s := is.headD 0
  decide (r.base = Reg.HMB_OUT 0 0)
    && (match d.rd (unitWho s 56) (d.rf (Reg.HMB_CFG s) 47 12 * 4096 + 2048 + 8 * is.getD 1 0) 8 with
      | .stall d1 => d.runs s || d1.hostLines s
      | _ => false)

/-- The ledger counters that a register shows. -/
def shownLedger (r : RDesc) (i : Nat) : List Nat :=
  if r.base = Reg.LSYN_APPLIED 0 then [ledApplied i]
  else if r.base = Reg.LSYN_CONSUMED 0 then [ledConsumed i]
  else if r.base = Reg.LRP_PENDING 0 then [ledPending i]
  else if r.base = Reg.LRP_FAILED 0 then [ledFailed i]
  else []

/-- A read of a register: one of a ledger counter takes the majority of its copies (R559). -/
def Dev.regRead (d : Dev) (off : Nat) (r : RDesc) (is : List Nat) : Dev × Word :=
  if r.base = Reg.HMB_OUT 0 0 then d.hmbOut (is.headD 0) (is.getD 1 0)
  else
    let d1 := d.ledgerReads (shownLedger r (is.headD 0))
    (d1, d1.regValue off r is)

/-- A read clears the RC fields of the register in the same access (R14). -/
def Dev.clearRc (d : Dev) (off : Nat) (fs : List RField) : Dev :=
  fs.foldl (fun a f => if f.acc = .rc then a.setRf off f.hi f.lo 0 else a) d

/-! ### Writes by access code and change class (R14, R21 to R30) -/

/-- Ports that are trained or training. -/
def Dev.portsTrained (d : Dev) : Bool :=
  (List.range 8).any (fun p => decide (d.portState p ≠ 0) && decide (d.portState p ≠ 7) && decide (d.portState p ≠ 8))

/-- Registers whose L fields are busy while the slot of their first index has a job, with no cfg_rejected bit (R26). -/
def slotLRegs : List Nat :=
  [Reg.JOB_ID 0, Reg.JOB_MAP 0 0, Reg.JOB_PROFILE 0, Reg.TWIN_CFG 0, Reg.TT_BASE 0, Reg.OBJ_CFG 0, Reg.HST_APER 0,
   Reg.HMB_CFG 0, Reg.HMB_OBJ 0]

/-- Whether the L fields of a register are busy, and the cfg_rejected bit that covers them (R21, R26). -/
def Dev.lState (d : Dev) (r : RDesc) (i : Nat) : Bool × Option (Nat × Nat) :=
  if r.base = Reg.RCTX_CFG 0 then (decide ((d.rctx i).batches ≠ []), some (Reg.RCTX_STATUS i, 0))
  else if r.base = Reg.GFT_CFG 0 ∨ r.base = Reg.GFT_SEG 0 0 then (decide (d.allBatches ≠ []), some (Reg.RTE_STATUS, 1))
  else if r.base ∈ slotLRegs then (d.hasJob i, none)
  else if r.base = Reg.DPROF 0 then (d.anyJob, none)
  else if r.base = Reg.POOL_CFG 0 ∨ r.base = Reg.POOL_BASE 0 ∨ r.base = Reg.POOL_REC 0 then
    (!d.poolQuiesced i || decide ((d.pool i).held ≠ 0) || decide ((d.pool i).reserved ≠ 0), some (Reg.POOL_CTRL i, 2))
  else if r.base = Reg.FAB_NODE ∨ r.base = Reg.FAB_TOPO then (d.portsTrained, some (Reg.FAB_STATUS, 2))
  else if r.base = Reg.PWR_CAP ∨ r.base = Reg.PWR_PACE then (d.anyJob, some (Reg.PWR_STATUS, 30))
  else (false, none)

/-- The bits of a whole-word register that are not reserved (Tables 3-2 and 12-7). -/
def wordMask (r : RDesc) (w : Nat) : Nat :=
  if r.base = Reg.WIN 0 0 then
    (match w with
     | 0 => 0xFFFFFFF07
     | 1 => 2 ^ 48 - 2 ^ 12
     | 2 => 2 ^ 41 - 1
     | _ => 0)
  else if r.base = Reg.RTD 0 0 then
    2 ^ 64 - 1 - (match w with
      | 0 => 2 ^ 32 - 2 ^ 29
      | 1 => 2 ^ 64 - 2 ^ 28
      | 2 => 2 ^ 16 - 2 ^ 4
      | 4 => 2 ^ 32 - 2 ^ 3
      | 6 => 2 ^ 64 - 2 ^ 61
      | 7 => 2 ^ 16 - 2 ^ 12 + (2 ^ 48 - 2 ^ 42)
      | _ => 0)
  else 2 ^ 64 - 1

/-- One field of a write: RW fields take the value, an L field only while its block is idle; W1C fields are cleared by ones;
the others take nothing. -/
def Dev.writeField (d : Dev) (off : Nat) (busy : Bool) (x : Word) (f : RField) : Dev :=
  match f.acc with
  | .rw => if f.cls = .l ∧ busy then d else d.setRf off f.hi f.lo (fld x f.hi f.lo)
  | .w1c => d.setRf off f.hi f.lo (d.rf off f.hi f.lo &&& ((2 ^ 64 - 1) ^^^ fld x f.hi f.lo))
  | _ => d

/-- A write would change an L field (R27). -/
def Dev.changesL (d : Dev) (off : Nat) (r : RDesc) (x : Word) : Bool :=
  r.fields.any (fun f => decide (f.acc = .rw) && decide (f.cls = .l) && decide (d.rf off f.hi f.lo ≠ fld x f.hi f.lo))

/-- The block of a register with L fields (R21, R29). -/
def lBlock (r : RDesc) (i : Nat) : Option LBlock :=
  if r.base = Reg.RCTX_CFG 0 then some (.rctx i)
  else if r.base = Reg.GFT_CFG 0 ∨ r.base = Reg.GFT_SEG 0 0 then some .tables
  else if r.base = Reg.FAB_NODE ∨ r.base = Reg.FAB_TOPO then some .ports
  else if r.base ∈ slotLRegs then some (.slot i)
  else if r.base = Reg.DPROF 0 ∨ r.base = Reg.PWR_CAP ∨ r.base = Reg.PWR_PACE then some .jobs
  else if r.base = Reg.POOL_CFG 0 ∨ r.base = Reg.POOL_BASE 0 ∨ r.base = Reg.POOL_REC 0 then some (.pool i)
  else none

/-- The mask of a register's L fields. -/
def RDesc.lMask (r : RDesc) : Nat :=
  ((r.fields.filter (fun f => decide (f.acc = .rw) && decide (f.cls = .l))).map (fun f => 2 ^ (f.hi + 1) - 2 ^ f.lo)).sum

/-- A write that changed L fields of an idle block is kept for its CCLK (R29). -/
def Dev.keepL (d : Dev) (off : Nat) (r : RDesc) (i : Nat) (flag : Option (Nat × Nat)) (old : Word) : Dev :=
  match lBlock r i with
  | some b => d.noteL { time := d.now, block := b, off := off, mask := r.lMask, old := old, flag := flag }
  | none => d

/-- The fields of a register take a write; an ignored write to an L field shows in its cfg_rejected bit (R26, R27). -/
def Dev.writeFields (d : Dev) (off : Nat) (r : RDesc) (is : List Nat) (x0 : Word) : Dev :=
  let x : Word := BitVec.ofNat 64 (x0.toNat &&& wordMask r (is.getD 1 0))
  let l := d.lState r (is.headD 0)
  let rejected := l.1 && d.changesL off r x
  let d0 := if !l.1 && d.changesL off r x then d.keepL off r (is.headD 0) l.2 (d.reg off) else d
  let d1 := r.fields.foldl (fun a f => a.writeField off l.1 x f) d0
  match l.2 with
  | some fb => if rejected then d1.setRb fb.1 fb.2 true else d1
  | none => d1

/-! ### The mailbox (R776 to R779) -/

/-- An access to a mailbox object that the slot does not own: counted in SYN_HREJ. -/
def Dev.mailboxRejects (d : Dev) (s : Nat) (os : List Nat) : Bool := os.any (fun o => decide (d.owner o ≠ some s))

/-- HMB_SEND of length n (R776). A write of the in-area that must wait for a move or a repair waits (R487, R513; log 93); an
in-area that cannot be written leaves all as it is but for HST_HERR. -/
def Dev.hmbSend (d : Dev) (s n : Nat) : Dev :=
  let o := d.rf (Reg.HMB_OBJ s) 15 0
  if d.rb (Reg.HMB_CFG s) 0 = false then d
  else if d.mailboxRejects s [o] then d.satRf (Reg.SYN_HREJ s) 31 0 1
  else if n < 8 ∨ 2040 < n ∨ n % 8 ≠ 0 then d.setRb (Reg.HMB_STATUS s) 1 true
  else if d.synCount o ≠ 0 then d.setRb (Reg.HMB_STATUS s) 0 true
  else
    let bs := leBytes 8 n ++ (List.range (n / 8)).flatMap (fun i => leBytes 8 (d.reg (Reg.HMB_DATA s i)).toNat)
    match d.wr (unitWho s 56) (d.rf (Reg.HMB_CFG s) 47 12 * 4096) bs with
    | .ok d1 _ => (d1.unitDone s 56).donePost s 56 o 1 false
    | .stall d1 => if d1.runs s || d1.hostLines s then d1.hold (.hmbSend { slot := some s, ide := true } s n) else d.satRf Reg.HST_HERR 31 0 1
    | .fault _ _ => d.satRf Reg.HST_HERR 31 0 1

/-- HMB_ACK.go (R779): out_obj is reset and ack_obj posted. -/
def Dev.hmbAck (d : Dev) (s : Nat) : Dev :=
  let out := d.rf (Reg.HMB_OBJ s) 31 16
  let ack := d.rf (Reg.HMB_OBJ s) 47 32
  if d.rb (Reg.HMB_CFG s) 0 = false then d
  else if d.mailboxRejects s [out, ack] then d.satRf (Reg.SYN_HREJ s) 31 0 1
  else ((d.synReset out).post ack 1 false).1

/-- HMB_SEND (R776). -/
def execHmbSend (v : Via) (sl len : Nat) (s : State) : Host.Outcome State Fault Refusal :=
  host (.hmbSend v sl len) v false true (fun a => if viaSees v sl then a.hmbSend sl len else a) s

/-- HMB_ACK (R779). -/
def execHmbAck (v : Via) (sl : Nat) (s : State) : Host.Outcome State Fault Refusal :=
  host (.hmbAck v sl) v false false (fun a => if viaSees v sl then a.hmbAck sl else a) s

/-! ### What a write triggers -/

/-- PORT_CTRL: en 0 is DISABLED; en 1 lets a disabled port train (R578, R585); retrain. -/
def Dev.portCtrl (d : Dev) (p : Nat) (x : Word) : Dev :=
  if bitAt x 0 = false then
    if d.portState p = 8 then d
    else (d.setReg (Reg.PORT_STATE p) 8).modPort p (fun y => { y.leaveUp d.now with since := d.now })
  else if d.portState p = 8 then
    let d1 := (d.setReg (Reg.PORT_STATE p) 0).modPort p (fun y => { y with since := d.now })
    if d1.rb Reg.FAB_STATUS 0 && d1.rb Reg.FAB_NODE 16 && d1.portUsed p then d1.portFull p else d1
  else if bitAt x 1 then d.portRetrain p
  else d

/-- New routing operations go on once RTE_CTRL.hold is 0. -/
def Dev.rteRelease (d : Dev) : Dev :=
  cores41.foldl (fun a c => if (a.core c).wait = some (.room 256) then a.modCore c (fun y => { y with wait := none }) else a) d

/-- The S fields of the scheduler and the engines take force at once where no entry of the slot or engine executes. -/
def Dev.commitIdle (d : Dev) (r : RDesc) (i : Nat) : Dev :=
  if r.base = Reg.SCH_SHARE 0 ∨ r.base = Reg.SCH_CCORES 0 ∨ r.base = Reg.SQ_BASE 0 0 ∨ r.base = Reg.SQ_CFG 0 0 then
    (if d.executes i then d else d.schCommit i)
  else if r.base = Reg.ENG_CFG 0 then (if (d.core i).entry.isSome then d else d.commit (Reg.ENG_CFG i))
  else d

/-- After a write of SYN_CTL: where it has cleared irq_pend and the condition still holds, a new message goes (R553). -/
def Dev.pendCleared (d : Dev) (i : Nat) (was : Bool) : Dev := if was && !d.rb (Reg.SYN_CTL i) 5 then d.synIrq i else d

/-- What follows from a write to a register: the commands that its WO fields drive, and effects at once. -/
def Dev.regTrigger (d : Dev) (r : RDesc) (i : Nat) (x : Word) : Dev :=
  if r.base = Reg.RCTX_CANCEL 0 then (if bitAt x 12 then d.cancelGo i (fld x 11 0) else d)
  else if r.base = Reg.JOB_ADMIT 0 then
    let d1 := if bitAt x 0 then d.admitJob i else d
    if bitAt x 1 then d1.operatorStop i else d1
  else if r.base = Reg.TIR_EDIT_OP then
    (if 1 ≤ fld x 2 0 ∧ fld x 2 0 ≤ 4 then d.tirEdit (fld x 2 0) else d)
  else if r.base = Reg.POOL_CTRL 0 then
    let d1 := d.poolQuiesce i (bitAt x 0)
    if bitAt x 1 then d1.poolInit i else d1
  else if r.base = Reg.POOL_CFG 0 then d.setRb (Reg.POOL_STAT i) 36 (d.poolQuiesced i)
  else if r.base = Reg.PORT_CTRL 0 then d.portCtrl i x
  else if r.base = Reg.HMB_SEND 0 then d.hmbSend i (fld x 11 0)
  else if r.base = Reg.HMB_ACK 0 then (if bitAt x 0 then d.hmbAck i else d)
  else if r.base = Reg.CAD_OWN 0 then (if bitAt x 4 then d else d.cadStop i)
  else if r.base = Reg.RTE_CTRL then (if bitAt x 0 then d else d.rteRelease)
  else if r.base = Reg.FAB_SEQ_KEY then
    let q := d.seqLookup (d.reg Reg.FAB_SEQ_KEY)
    ((d.setRb Reg.FAB_SEQ_KEY 63 q.1).setReg Reg.FAB_SEQ_VAL (BitVec.ofNat 64 q.2))
  else d.commitIdle r i

/-- A write of a register of this device, but for the commands of the SEC block, which the root core carries out. -/
def Dev.regWrite (d : Dev) (v : Via) (off : Nat) (r : RDesc) (is : List Nat) (x : Word) : Dev :=
  let i := is.headD 0
  if v.slot.isSome && decide (r.view = .jr) then d
  else if r.base = Reg.SYN_POST then d.synPostWrite v x
  else if r.base = Reg.SYN_RESET then d.synResetWrite v x
  else if r.base = Reg.SYN_RANGE 0 then d.synRangeWrite i x
  else if r.base = Reg.WINDOW 0 then d.windowWrite i x
  else if r.base = Reg.CAD_CFG 0 then d.cadWrite i x
  else if r.base = Reg.CAD_QUOTA 0 then (d.cadKeep i).writeFields off r is x
  else if r.base = Reg.SYN_CTL 0 then (d.writeFields off r is x).pendCleared i (d.rb (Reg.SYN_CTL i) 5)
  else (d.writeFields off r is x).regTrigger r i x

/-! ### The MSI-X table (R780) -/

/-- The table: 136 entries of 16 bytes. -/
def msixTable (off : Nat) : Bool := decide (0x1E08000 ≤ off) && decide (off < 0x1E08000 + 136 * 16) && decide (off % 8 = 0)

/-- The pending bits of the vectors held back in D3hot, as a word of the array. -/
def Dev.pbaWord (d : Dev) (i : Nat) : Word :=
  BitVec.ofNat 64 (((List.range 64).map (fun k => b2n (d.hst.msixPending.contains (64 * i + k)) * 2 ^ k)).sum)

/-- A write at a BAR0 offset that no register of a block occupies: the MSI-X table takes it, elsewhere it is ignored. -/
def Dev.otherWrite (d : Dev) (v : Via) (o : Nat) (x : Word) : Dev :=
  if v.slot.isNone && msixTable o then d.setReg o x else d

/-- A read at a BAR0 offset that no register of a block occupies. -/
def Dev.otherRead (d : Dev) (v : Via) (o : Nat) : Word :=
  if v.slot.isSome then 0
  else if msixTable o then d.reg o
  else if 0x1E09000 ≤ o ∧ o < 0x1E09000 + 24 ∧ o % 8 = 0 then d.pbaWord ((o - 0x1E09000) / 8)
  else 0

/-- The offset lies in the TOP or SEC block of BAR0. -/
def secBlock (v : Via) (o : Nat) : Bool := v.slot.isNone && decide (o < 0x200000)

/-- A host read of 8 bytes (R14, R18, R723, R772): it completes with the value, and clears what it reads as RC. -/
def Dev.hostRegRead (d : Dev) (v : Via) (o : Nat) : Dev :=
  d.barAccess (.registerRcRead v o) v (secBlock v o) false (fun a =>
    match a.regOf v o with
    | none => a.complete (.ok (leBytes 8 (a.otherRead v o).toNat))
    | some x =>
      let r := a.regRead x.1 x.2.1 x.2.2
      if a.outWaits x.2.1 x.2.2 then r.1.hold (.registerRcRead v o)
      else (r.1.complete (.ok (leBytes 8 r.2.toNat))).clearRc x.1 x.2.1.fields)

/-- In boot-failed, the blocks other than TOP and SEC read 0 through BAR0 (R723). -/
def Dev.failedRead (d : Dev) (v : Via) (o : Nat) : Bool :=
  decide (d.rf Reg.SEC_BOOT 3 0 = 8) && v.slot.isNone && !secBlock v o && !d.hst.d3hot && !d.rb Reg.PWR_STATUS 31

/-- REGISTER_RC_READ (R14). -/
def execRegisterRcRead (v : Via) (off : Nat) (s : State) : Host.Outcome State Fault Refusal :=
  run (.registerRcRead v off) (fun d =>
    if d.failedRead v off then d.complete (.ok (List.replicate 8 0#8)) else d.hostRegRead v off) s

end Sys2Proof.Machine
end

