-- ==== Sys2Proof/Machine/Boot.lean ====
section
/-! DEFINITION. Start-up, resets, life cycle, secure boot, measurements and debug lock: the root core's work (file 15). -/

namespace Sys2Proof.Machine

/-! ### Life cycle and debug (R731 to R734, R743 to R745) -/

/-- The life-cycle state of a number of burnt rows: 0 BLANK, 1 PROVISIONED, 2 FIELD, 3 RECALL, 4 RETIRED (R732). -/
def lcOf (rows : Nat) : Nat :=
  if rows = 0 then 0 else if rows = 1 then 1 else if 16 ≤ rows then 4 else if rows % 2 = 0 then 2 else 3

/-- SEC_LC (Table 15-11). -/
def lcWord (nv : NonVol) (x : Sec) : Word :=
  BitVec.ofNat 64 (lcOf nv.rows + b2n x.unlocked * 2 ^ 3 + x.scope % 4 * 2 ^ 4 + b2n x.pendingDebug.isSome * 2 ^ 6
    + nv.revoked.toNat * 2 ^ 8 + (16 - nv.rows) * 2 ^ 12)

/-- Shows the life cycle and debug state. -/
def Dev.showLc (d : Dev) (nv : NonVol) : Dev := d.setReg Reg.SEC_LC (lcWord nv d.sec)

/-- The kinds of reset (Table 15-3). -/
inductive ResetKind where
  | cold
  | warm
  | device
  deriving DecidableEq, Repr

/-- Debug in force from a reset on: a change that waits takes effect at a device reset; BLANK is open, FIELD and RETIRED are
locked (R743, R745). Unlocked, scope, and the change still waiting. -/
def debugAfter (k : ResetKind) (lc : Nat) (x : Sec) : Bool × Nat × Option Nat :=
  let y : Bool × Nat × Option Nat :=
    match k with
    | .cold => (false, 0, none)
    | .warm => (x.unlocked, x.scope, x.pendingDebug)
    | .device =>
      (match x.pendingDebug with
       | some 0 => (false, 0, none)
       | some n => (true, n, none)
       | none => (x.unlocked, x.scope, none))
  if lc = 0 then (true, 3, y.2.2) else if lc = 2 ∨ lc = 4 then (false, 0, y.2.2) else y

/-! ### The start of a reset (R724 to R727) -/

/-- Payload frames of a part (Table 10-11). -/
def boardFrames (b : Board) : Nat := if b.memPop then 4050944 else 2021376

/-- MODULE_ID (Table 16-17). -/
def moduleId (b : Board) : Word := BitVec.ofNat 64 (b2n b.memPop + b.pkgRev % 16 * 2 ^ 4 + b.brdRev % 16 * 2 ^ 8)

/-- The PCIe device ID of a part (Table 0-1). -/
def Board.deviceId (b : Board) : Nat := if b.memPop then 0x3A30 else 0x3A31

/-- The part number of a part (R1, Table 0-1). -/
def Board.part (b : Board) : String := if b.memPop then "CMN3-256" else "CMN3-128"

/-- Registers whose value after a reset comes from the board or from flash. -/
def Dev.loadRegs (d : Dev) (nv : NonVol) : Dev :=
  let d1 := (List.range 33).foldl (fun a i => a.setReg (Reg.PWR_VF i) (vfWord (a.board.vtab.getD i 0))) d
  let d2 := ((d1.setReg Reg.MODULE_ID (moduleId d.board)).setReg Reg.MEM_FRAMES (BitVec.ofNat 64 (boardFrames d.board))).setRb
    Reg.MEM_STATUS 32 d.board.memPop
  (d2.setReg Reg.FAB_NODE nv.fabNode).setReg Reg.FAB_TOPO nv.fabTopo

/-- The firmware shows the input with its trips (R753), the clock in use and the PCIe link in HST_INPUT and HST_STATUS. -/
def Dev.showWorld (d : Dev) : Dev :=
  let d1 := d.setRf Reg.HST_INPUT 35 0 (fld d.hst.input 35 0)
  (d1.setRf Reg.HST_STATUS 8 0 d.hst.link).setRb Reg.HST_STATUS 9 d.sec.extLost

/-- Start-up state after the start of a reset. A step 1 in progress goes on (R726; log 138). -/
def Sec.restart (x : Sec) (k : ResetKind) (lc : Nat) : Sec :=
  let g := debugAfter k lc x
  { Sec.reset with running := true, train := decide (k ≠ .device) || (x.running && x.train), inputGood := true, t0 := x.t0,
                   unlocked := g.1, scope := g.2.1, pendingDebug := g.2.2, perst := x.perst,
                   extLost := x.extLost }

/-- The start of a cold, warm or device reset: memories are wiped, every register has its Reset value, ports are OFF, no
sequence space is kept (R16, R69, R725, R727). Host memory is not the device's; frames retired since the last cold reset stay
out of use (R509); time runs on but for a cold reset. -/
def Dev.startReset (d : Dev) (nv : NonVol) (k : ResetKind) : Dev :=
  let now := if k = .cold then 0 else d.now
  let step := if k = .cold ∨ (d.sec.running ∧ d.rf Reg.SEC_BOOT 3 0 = 1) then 1 else 2
  let e : Dev := { Dev.reset with
    now := now, free := d.free, board := d.board,
    mem := { Dev.reset.mem with t3 := d.mem.t3 },
    tir := { Dev.reset.tir with retired := if k = .cold then [] else d.tir.retired },
    pwr := { Pwr.reset with
      start := now, boundary := now + 1000000, hours168 := if k = .cold then 0 else d.pwr.hours168,
      minSlack := d.pwr.minSlack, powered := d.pwr.powered, ageDue := decide (k = .cold) || d.pwr.ageDue },
    sec := d.sec.restart k (lcOf nv.rows),
    hst := { d.hst with d3hot := false, msixPending := [], waits := [], lwrites := [], link := if k = .device then d.hst.link else 0 },
    out := d.out }
  ((e.loadRegs nv).showLc nv).setRf Reg.SEC_BOOT 3 0 step

/-- INPUT_GOOD (R716, R724): a cold reset. -/
def execInputGood (s : State) : Host.Outcome State Fault Refusal :=
  .next (if !s.dev.sec.inputGood && s.dev.hst.stageOn && !s.dev.hst.stayOff then
    { s with dev := s.dev.startReset s.nv .cold } else s)

/-- A warm or device reset is refused after a thermal trip while the hottest junction reads 95 °C or more (R708). -/
def Dev.resetRefused (d : Dev) : Bool := d.rb Reg.PWR_STATUS 31 && decide (950 ≤ d.hotNow)

/-- PERST_ASSERT (R724): a warm reset. -/
def execPerstAssert (s : State) : Host.Outcome State Fault Refusal :=
  let d : Dev := { s.dev with sec := { s.dev.sec with perst := true } }
  .next { s with dev :=
    if s.dev.sec.perst = false ∧ d.sec.inputGood ∧ d.resetRefused = false then d.startReset s.nv .warm else d }

/-- PERST_DEASSERT (R720). -/
def execPerstDeassert (s : State) : Host.Outcome State Fault Refusal :=
  run .perstDeassert (fun d =>
    if d.sec.perst then { d with sec := { d.sec with perst := false } } else d) s

/-- The device is at device-ready or in boot-failed: it takes commands of the SEC block. -/
def Dev.bootOver (d : Dev) : Bool := decide (d.rf Reg.SEC_BOOT 3 0 = 7) || decide (d.rf Reg.SEC_BOOT 3 0 = 8)

/-- A device reset, where it is not refused. -/
def State.deviceReset (s : State) : State :=
  if s.dev.bootOver && !s.dev.resetRefused then { s with dev := s.dev.startReset s.nv .device } else s

/-- A write of 1 to SEC_RESET.go (R724); it is heard after a thermal trip too (R708). -/
def State.secReset (s : State) : State :=
  if s.dev.bootOver && s.dev.hst.d3hot then { s with dev := s.dev.complete .unsupported } else s.deviceReset

/-- SEC_RESET_GO (R724). -/
def execSecResetGo (s : State) : Host.Outcome State Fault Refusal := .next s.secReset

/-- FUNCTION_LEVEL_RESET (R768): a device reset. -/
def execFunctionLevelReset (s : State) : Host.Outcome State Fault Refusal := .next s.deviceReset

/-! ### Measurements (R740) -/

/-- The bytes of a measurement register. -/
def Dev.mreg (d : Dev) (m : Nat) : List Byte := (List.range 8).flatMap (fun w => leBytes 8 (d.reg (Reg.SEC_MREG m w)).toNat)

/-- Extends a measurement register: M := SHAKE256(M ‖ d), 512 bits. -/
def Dev.extend (d : Dev) (m : Nat) (bs : List Byte) : Dev :=
  let ws := leWords 8 8 (shake256 64 (d.mreg m ++ bs))
  (List.range 8).foldl (fun a w => a.setReg (Reg.SEC_MREG m w) (BitVec.ofNat 64 (ws.getD w 0))) d

/-- Bytes of the mailbox. -/
def Dev.mbox (d : Dev) (a n : Nat) : List Byte :=
  (List.range n).map (fun i => BitVec.ofNat 8 ((d.reg (Reg.SEC_MBOX ((a + i) / 8))).toNat / 2 ^ (8 * ((a + i) % 8))))

/-- A write of 1 to SEC_MEXT.go (R740): MREG8 to MREG15. -/
def Dev.secMext (d : Dev) (m : Nat) : Dev := if 8 ≤ m ∧ m < 16 then d.extend m (d.mbox 0 64) else d

/-- SEC_MEXT_GO (R740). -/
def execSecMextGo (reg : Nat) (s : State) : Host.Outcome State Fault Refusal :=
  host (.secMextGo reg) bar0 true false (fun a => (a.setRf Reg.SEC_MEXT 3 0 reg).secMext reg) s

/-! ### Secure boot (R735 to R738) -/

/-- The image slot A (0) or B (1): manifest and image. -/
def NonVol.image (nv : NonVol) (sl : Nat) : List Host.Cell := if sl = 0 then nv.imageA else nv.imageB

/-- Bytes of a slot. -/
def NonVol.bytes (nv : NonVol) (sl a n : Nat) : List Byte := rdBytes (nv.image sl) a n

/-- A little-endian field of a manifest. -/
def NonVol.field (nv : NonVol) (sl a n : Nat) : Nat := leNat (nv.bytes sl a n)

/-- A key slot exists and is not revoked. -/
def NonVol.keyUsable (nv : NonVol) (k : Nat) : Bool := decide (k < 4) && !bitAt nv.revoked k

/-- A slot verifies (R737). -/
def NonVol.verifies (nv : NonVol) (sl : Nat) : Bool :=
  let key := nv.field sl 1 1
  decide (nv.field sl 0 1 = 0x01) && nv.keyUsable key
    && decide (shake256 32 (nv.bytes sl 80 1793) = nv.keyHash.getD key [])
    && (nv.field sl 2 1).testBit (lcOf nv.rows) && decide (nv.minSvn ≤ nv.field sl 8 4)
    && Config.falconVerify (nv.bytes sl 80 1793) (nv.bytes sl 0 1920) (nv.bytes sl 1920 1280)
    && decide (shake256 64 (nv.bytes sl 4096 (nv.field sl 12 4)) = nv.bytes sl 16 64)

/-- The slot that boots: the preferred one, then the other (R737). -/
def NonVol.bootSlot (nv : NonVol) : Option Nat :=
  let p := nv.preferred % 2
  if nv.verifies p then some p else if nv.verifies (1 - p) then some (1 - p) else none

/-- SEC_FW (Table 15-11). -/
def fwWord (nv : NonVol) (sl : Nat) : Word :=
  BitVec.ofNat 64 (nv.field sl 4 4 + nv.field sl 8 4 % 65536 * 2 ^ 32 + nv.minSvn % 65536 * 2 ^ 48)

/-! ### The end of a step (R716, R717, R722) -/

/-- Records the end of step s in SEC_BTIME. -/
def Dev.stepTime (d : Dev) (s ms : Nat) : Dev := d.setRf Reg.SEC_BTIME (10 * (s - 1) + 9) (10 * (s - 1)) (min ms 1023)

/-- The next step begins. -/
def Dev.nextStep (d : Dev) (s : Nat) : Dev := d.setRf Reg.SEC_BOOT 3 0 (s + 1)

/-- Boot-failed (R722, R723). -/
def Dev.bootFail (d : Dev) (reason : Nat) : Dev :=
  let d1 := (d.setRf Reg.SEC_BOOT 3 0 8).setRf Reg.SEC_BOOT 11 8 reason
  { d1 with sec := { d1.sec with running := false } }.answer (.event 0)

/-- Step 2: secure boot, the boot nonce, MREG0 and MREG1. -/
def Dev.bootFirmware (d : Dev) (nv : NonVol) (r : BootResult) : Dev :=
  if r.readable = false then d.bootFail 3
  else if lcOf nv.rows = 4 then d.bootFail 4
  else
    match nv.bootSlot with
    | none => d.bootFail 1
    | some sl =>
      let d1 := (List.range 4).foldl (fun a i =>
        a.setReg (Reg.SEC_NONCE i) (BitVec.ofNat 64 (r.nonce.toNat / 2 ^ (64 * i)))) d
      let d2 := (d1.extend 0 (Config.romVersion ++ Config.fuseBytes (lcOf nv.rows) nv.revoked.toNat nv.minSvn)).extend 1
        (nv.bytes sl 0 80)
      let d3 := ((d2.setReg Reg.SEC_FW (fwWord nv sl)).setRb Reg.SEC_BOOT 4 (decide (sl = 1))).setRb Reg.SEC_BOOT 5
        (decide (sl ≠ nv.preferred % 2))
      { d3 with sec := { d3.sec with fwSlot := sl } }.showWorld.nextStep 2

/-- The skew table of the pane rows that fail, and the row disabled, 15 for none; retired where no repair is left (R314 to
R316). -/
def repairOf (bad : BitVec 9) : List Nat × Nat × Bool :=
  match (List.range 8).filter (fun p => bitAt bad p) with
  | [] => (List.range 8 ++ [15], 15, false)
  | [f] =>
    if bitAt bad 8 then (List.replicate 9 15, 15, true)
    else ((List.range 9).map (fun p => if p < f then p else if p = f then 15 else p - 1), f, false)
  | _ => (List.replicate 9 15, 15, true)

/-- The repair decision of an engine (R313). -/
def Dev.repairEngine (d : Dev) (e : Nat) (bad : BitVec 9) : Dev :=
  let r := repairOf bad
  let skew := ((List.range 9).map (fun p => r.1.getD p 15 * 2 ^ (4 * p))).sum
  (((d.setReg (Reg.ENG_REPAIR e) (BitVec.ofNat 64 (bad.toNat + r.2.1 * 2 ^ 9))).setReg (Reg.ENG_SKEW e) (BitVec.ofNat 64 skew)).setRb
    (Reg.ENG_STATUS e) 6 (decide (r.2.1 ≠ 15))).setRb (Reg.ENG_STATUS e) 7 r.2.2

/-- Pane rows of an engine that failed self-test, with those of the repair record. -/
def badRows (nv : NonVol) (r : BootResult) (e : Nat) : BitVec 9 :=
  (r.badRows.filter (fun x => decide (x.1 = e))).foldl (fun a x => a ||| x.2) (tget (fun _ => 0) nv.repair e)

/-- Step 3: GDDR7 training, the array self-test and the repair decision. -/
def Dev.trainAndRepair (d : Dev) (nv : NonVol) (r : BootResult) : Dev :=
  let trained := if d.sec.train then r.trained else BitVec.allOnes 32
  let d1 := d.setRf Reg.MEM_STATUS 31 0 trained.toNat
  let d2 := (List.range 32).foldl (fun a c => a.setRb (Reg.MEM_CH c) 32 (bitAt trained c)) d1
  if trained ≠ BitVec.allOnes 32 then d2.bootFail 2
  else ((List.range 32).foldl (fun a e => a.repairEngine e (badRows nv r e)) d2).nextStep 3

/-- Step 4: the full wipe (R725). -/
def Dev.wipe (d : Dev) : Dev := { d with mem := { Dev.reset.mem with t3 := d.mem.t3 } }

/-- The offsets that the settings record may write (R719): PWR, MEM, and FAB below its offset 0x10_0000. -/
def settingOk (off : Nat) : Bool :=
  (decide (0x200000 ≤ off) && decide (off < 0x400000)) || (decide (0x1400000 ≤ off) && decide (off < 0x1800000))
    || (decide (0xC00000 ≤ off) && decide (off < 0xD00000))

/-- A pair of the settings record is written as the operator would write it. -/
def Dev.applySetting (d : Dev) (p : Nat × Word) : Dev :=
  match d.regOf bar0 p.1 with
  | some x => d.regWrite bar0 x.1 x.2.1 x.2.2 p.2
  | none => d

/-- The pairs of the settings record that are applied. -/
def NonVol.applied (nv : NonVol) : List (Nat × Word) := nv.settings.filter (fun p => settingOk p.1)

/-- Step 5: the wear journal, the settings record, MREG4 and MREG5; fabric-ready at its end (R713, R717, R719). -/
def Dev.fabricReady (d : Dev) (nv : NonVol) : Dev :=
  let d1 := ((d.setRf Reg.PWR_AGE 6 0 nv.jOffset).setRf Reg.PWR_AGE 14 8 nv.jDtop).setRf Reg.PWR_AGE 63 24 nv.jHours
  let d2 := d1.modPwr (fun x => { x with offset := nv.jOffset })
  let d3 := nv.applied.foldl Dev.applySetting d2
  let d4 := d3.extend 4 (shake256 64 (nv.applied.flatMap (fun p => leBytes 8 p.1 ++ leBytes 8 p.2.toNat)))
  let d5 := d4.extend 5 (Config.stateBytes (lcOf nv.rows) (b2n d4.sec.unlocked) d4.sec.scope (d4.reg Reg.FAB_NODE).toNat
    (d4.reg Reg.FAB_TOPO).toNat)
  let d6 := (d5.setRb Reg.FAB_STATUS 0 true).nextStep 5
  (List.range 8).foldl (fun a p => a.modPort p (fun x =>
    { x with since := a.now, downSince := if a.portUsed p then some a.now else none })) d6

/-- The seed of the identity key (R739). -/
def idSeed (uds : List Byte) : List Byte := uds ++ ("MN3-ID".toList.map (fun c => BitVec.ofNat 8 c.toNat))

/-- The attestation key and certificate, the device ID, and the lock of the UDS (R739). -/
def Dev.attest (d : Dev) (nv : NonVol) : Dev :=
  match nv.uds with
  | none => { d with sec := { d.sec with udsLocked := true } }
  | some uds =>
    let said := (List.range 6).flatMap d.mreg ++ (List.range 4).flatMap (fun i => leBytes 8 (d.reg (Reg.SEC_NONCE i)).toNat)
    let key := Config.falconKey (uds ++ said)
    let idk := Config.falconKey (idSeed uds)
    let body := Config.falconPublic key ++ said
    let devid := leWords 8 2 (shake256 16 (Config.falconPublic idk))
    let d1 : Dev := { d with sec := { d.sec with attKey := key, attCert := body ++ Config.falconSign idk body, udsLocked := true } }
    (d1.setReg (Reg.SEC_DEVID 0) (BitVec.ofNat 64 (devid.getD 0 0))).setReg (Reg.SEC_DEVID 1) (BitVec.ofNat 64 (devid.getD 1 0))

/-- Step 6: firmware measured, the attestation key, device-ready (R586, R717, R739). -/
def Dev.deviceReady (d : Dev) (nv : NonVol) : Dev :=
  let d1 := ((d.extend 2 (Config.firmwareDigest 0)).extend 2 (Config.firmwareDigest 1)).extend 3 (Config.firmwareDigest 2)
  let d2 := ((d1.attest nv).setRb Reg.FAB_STATUS 1 true).setRf Reg.SEC_BOOT 3 0 7
  (List.range 8).foldl Dev.openPort { d2 with sec := { d2.sec with running := false } }

/-- A power-up step ends (R716). -/
def Dev.stepEnd (d0 : Dev) (nv : NonVol) (r : BootResult) : Dev :=
  if d0.sec.running = false then d0
  else
    let s := d0.rf Reg.SEC_BOOT 3 0
    let d := d0.stepTime s r.ms
    match s with
    | 1 => { d with now := 0, sec := { d.sec with t0 := min r.ms 1023 } }.nextStep 1
    | 2 => d.bootFirmware nv r
    | 3 => d.trainAndRepair nv r
    | 4 => d.wipe.nextStep 4
    | 5 => d.fabricReady nv
    | 6 => d.deviceReady nv
    | _ => d0

/-- The ageing evaluation of a cold reset, once the journal is restored, by what stood before the step (R711, R713; log 136). -/
def State.coldAgeing (s : State) (p : Pwr) : State :=
  if p.ageDue then
    let r := ageingStep { s.nv with jHours := s.nv.jHours + p.powered / hourCclk } s.dev
    { s with nv := r.1, dev := (r.2.setRf Reg.PWR_AGE 63 24 r.1.jHours).modPwr (fun x =>
        { x with ageDue := false, powered := p.powered % hourCclk, minSlack := 255 }) }
  else s

/-- POWER_UP_STEP_END (R711, R716). -/
def execPowerUpStepEnd (r : BootResult) (s : State) : Host.Outcome State Fault Refusal :=
  let t : State := { s with dev := s.dev.stepEnd s.nv r }
  .next (if s.dev.sec.running && decide (s.dev.rf Reg.SEC_BOOT 3 0 = 5) then t.coldAgeing s.dev.pwr else t)

/-! ### SEC_CMD (R732 to R738, R743, R747) -/

/-- The outcome of a command: error and its code, 0 for success. -/
def Dev.cmdResult (d : Dev) (k : Nat) : Dev := (d.setRb Reg.SEC_CMD 9 (decide (k ≠ 0))).setRf Reg.SEC_CMD 15 12 k

/-- A command that failed. -/
def State.cmdFails (s : State) (k : Nat) : State := { s with dev := s.dev.cmdResult k }

/-- A command that succeeded, with what it changes. -/
def State.cmdOk (s : State) (nv : NonVol) (f : Dev → Dev) : State := { s with nv := nv, dev := (f s.dev).cmdResult 0 }

/-- The token in the mailbox (R735): 0 where it is accepted, else the error code. -/
def Dev.tokenError (d : Dev) (nv : NonVol) : Nat :=
  let key := leNat (d.mbox 2 1)
  let ids := (List.range 2).flatMap (fun i => leBytes 8 (d.reg (Reg.SEC_DEVID i)).toNat)
  let nonce := (List.range 4).flatMap (fun i => leBytes 8 (d.reg (Reg.SEC_NONCE i)).toNat)
  if !nv.keyUsable key || !Config.falconVerify (Config.crebenKey key) (d.mbox 0 64) (d.mbox 64 1280) then 1
  else if d.mbox 16 16 ≠ ids ∨ d.mbox 32 32 ≠ nonce then 2
  else 0

/-- A job is admitted. -/
def Dev.jobAdmitted (d : Dev) : Bool := decide (d.jobSlots ≠ [])

/-- Rows are burnt, then a device reset runs (R733). -/
def State.burn (s : State) (nv : NonVol) : State := { s with nv := nv, dev := (s.dev.cmdResult 0).startReset nv .device }

/-- Table 15-5, transitions by token. -/
def transitionAllowed (a b : Nat) : Bool :=
  (decide (a = 0) && decide (b = 1)) || (decide (a = 1) && decide (b = 2)) || (decide (a = 2) && decide (b = 3))
    || (decide (a = 3) && decide (b = 2))

/-- SEC_CMD 1, transition (R732, R733). -/
def State.cmdTransition (s : State) : State :=
  let k := s.dev.tokenError s.nv
  let lc := lcOf s.nv.rows
  if s.dev.jobAdmitted then s.cmdFails 7
  else if k ≠ 0 then s.cmdFails k
  else if leNat (s.dev.mbox 0 1) ≠ 1 ∨ transitionAllowed lc (leNat (s.dev.mbox 1 1)) = false then s.cmdFails 3
  else if 15 ≤ s.nv.rows then s.cmdFails 4
  else s.burn { s.nv with rows := s.nv.rows + 1, uds := if lc = 0 then some Config.udsFused else s.nv.uds }

/-- SEC_CMD 2, debug unlock (R743). -/
def State.cmdUnlock (s : State) : State :=
  let k := s.dev.tokenError s.nv
  let lc := lcOf s.nv.rows
  let scope := leNat (s.dev.mbox 1 1)
  if s.dev.jobAdmitted then s.cmdFails 7
  else if k ≠ 0 then s.cmdFails k
  else if leNat (s.dev.mbox 0 1) ≠ 2 ∨ (lc ≠ 1 ∧ lc ≠ 3) ∨ (scope ≠ 1 ∧ scope ≠ 3) then s.cmdFails 3
  else s.cmdOk s.nv (fun d => { d with sec := { d.sec with pendingDebug := some scope } }.showLc s.nv)

/-- SEC_CMD 3, debug lock (R743). -/
def State.cmdLock (s : State) : State :=
  s.cmdOk s.nv (fun d => { d with sec := { d.sec with pendingDebug := some 0 } }.showLc s.nv)

/-- Bytes of an image slot: the manifest and an image of at most 32 MiB. -/
def slotBytes : Nat := 4096 + 2 ^ 25

/-- The slot that is not running. -/
def Sec.otherSlot (x : Sec) : Nat := if x.fwSlot = 0 then 1 else 0

/-- SEC_CMD 4, write image chunk (R747): the slot that is not running. -/
def State.cmdChunk (s : State) : State :=
  let off := leNat (s.dev.mbox 0 8)
  let bs := s.dev.mbox 64 2048
  if slotBytes < off + 2048 then s.cmdFails 5
  else if s.dev.sec.otherSlot = 0 then s.cmdOk { s.nv with imageA := wrBytes s.nv.imageA off bs } id
  else s.cmdOk { s.nv with imageB := wrBytes s.nv.imageB off bs } id

/-- SEC_CMD 5, select preferred slot (R747). -/
def State.cmdSelect (s : State) : State :=
  let sl := leNat (s.dev.mbox 0 1)
  if sl < 2 ∧ s.nv.verifies sl then s.cmdOk { s.nv with preferred := sl } id else s.cmdFails 6

/-- SEC_CMD 6, commit svn (R738): min_svn rises to the svn of the running image, of 64 rows at most. -/
def State.cmdCommit (s : State) : State :=
  if s.dev.rf Reg.SEC_BOOT 3 0 ≠ 7 then s.cmdFails 3
  else
    let n := max s.nv.minSvn (min 64 (s.dev.rf Reg.SEC_FW 47 32))
    s.cmdOk { s.nv with minSvn := n } (fun d => d.setRf Reg.SEC_FW 63 48 n)

/-- SEC_CMD 7, save settings record (R719, R747). -/
def State.cmdSettings (s : State) : State :=
  let n := leNat (s.dev.mbox 0 2)
  if s.dev.jobAdmitted then s.cmdFails 7
  else if 255 < n then s.cmdFails 3
  else s.cmdOk { s.nv with settings := (List.range n).map (fun i =>
    (leNat (s.dev.mbox (16 + 16 * i) 8), BitVec.ofNat 64 (leNat (s.dev.mbox (24 + 16 * i) 8)))) } id

/-- SEC_CMD 8, retire (R732 to R734): every row left is burnt, the UDS read port blown. -/
def State.cmdRetire (s : State) : State :=
  let lc := lcOf s.nv.rows
  if s.dev.jobAdmitted then s.cmdFails 7
  else if lc = 0 ∨ lc = 4 then s.cmdFails 3
  else s.burn { s.nv with rows := 16, uds := none, udsBlown := true }

/-- A command to the root core; others are ignored. -/
def State.secCmd (s : State) (op : Nat) : State :=
  match op with
  | 1 => s.cmdTransition
  | 2 => s.cmdUnlock
  | 3 => s.cmdLock
  | 4 => s.cmdChunk
  | 5 => s.cmdSelect
  | 6 => s.cmdCommit
  | 7 => s.cmdSettings
  | 8 => s.cmdRetire
  | _ => s

/-- A host access that reaches state beyond the device. -/
def State.barAccess (s : State) (c : Instr) (v : Via) (sec post : Bool) (f : State → State) : State :=
  match s.dev.barStop c v sec post with
  | some e => { s with dev := e }
  | none => f s

/-- A write of an op to SEC_CMD. -/
def State.hostCmd (s : State) (c : Instr) (op : Nat) : State := s.barAccess c bar0 true false (fun t => t.secCmd op)

/-- SEC_CMD_TRANSITION (R732). -/
def execSecCmdTransition (s : State) : Host.Outcome State Fault Refusal := .next (s.hostCmd .secCmdTransition 1)

/-- SEC_CMD_DEBUG_UNLOCK (R743). -/
def execSecCmdDebugUnlock (s : State) : Host.Outcome State Fault Refusal := .next (s.hostCmd .secCmdDebugUnlock 2)

/-- SEC_CMD_DEBUG_LOCK (R743). -/
def execSecCmdDebugLock (s : State) : Host.Outcome State Fault Refusal := .next (s.hostCmd .secCmdDebugLock 3)

/-- SEC_CMD_WRITE_IMAGE_CHUNK (R747). -/
def execSecCmdWriteImageChunk (s : State) : Host.Outcome State Fault Refusal := .next (s.hostCmd .secCmdWriteImageChunk 4)

/-- SEC_CMD_SELECT_SLOT (R747). -/
def execSecCmdSelectSlot (s : State) : Host.Outcome State Fault Refusal := .next (s.hostCmd .secCmdSelectSlot 5)

/-- SEC_CMD_COMMIT_SVN (R738). -/
def execSecCmdCommitSvn (s : State) : Host.Outcome State Fault Refusal := .next (s.hostCmd .secCmdCommitSvn 6)

/-- SEC_CMD_SAVE_SETTINGS (R747). -/
def execSecCmdSaveSettings (s : State) : Host.Outcome State Fault Refusal := .next (s.hostCmd .secCmdSaveSettings 7)

/-- SEC_CMD_RETIRE (R734). -/
def execSecCmdRetire (s : State) : Host.Outcome State Fault Refusal := .next (s.hostCmd .secCmdRetire 8)

/-! ### Job reset (R17, R472, R560, R561, R628, R728 to R730) -/

/-- A write of 1 to SEC_JRESET.go: ignored, with err, before device-ready or while a job reset is busy; else the job stops
with record 0x0A01. -/
def Dev.jresetGo (d : Dev) (s : Nat) : Dev :=
  if d.rf Reg.SEC_BOOT 3 0 ≠ 7 ∨ d.rb Reg.SEC_JRESET 5 then d.setRb Reg.SEC_JRESET 7 true
  else
    let d1 := (d.setRf Reg.SEC_JRESET 3 0 s).setRb Reg.SEC_JRESET 5 true
    { d1 with sec := { d1.sec with jreset := some s } }.operatorStop s

/-- SEC_JRESET_GO (R728). -/
def execSecJresetGo (sl : Nat) (s : State) : Host.Outcome State Fault Refusal :=
  host (.secJresetGo sl) bar0 true false (fun a => a.jresetGo sl) s

/-- Closes the bundles of a job (R631). -/
def Dev.closeBundles (d : Dev) (job : Nat) : Dev :=
  [6, 7].foldl (fun a p =>
    let bs := a.bundles p
    (bs.filter (fun b => decide (b.job = job))).foldl (fun c b => c.sendBundle p b)
      (a.setBundles p (bs.filter (fun b => decide (b.job ≠ job))))) d

/-- Step 2: what every unit holds of the job is discarded (R654). -/
def Dev.dropWork (d : Dev) (s job : Nat) : Dev :=
  { d with
    sch := { d.sch with lists := d.sch.lists.filter (fun l => decide (l.slot ≠ s)),
                        queueStopped := d.sch.queueStopped.filter (fun q => decide (q.1 / 4 ≠ s)) },
    rte := { d.rte with ctx := tput (fun _ => RouteCtx.reset) d.rte.ctx s RouteCtx.reset,
                        ops := d.rte.ops.filter (fun o => decide (o.slot ≠ s)),
                        packs := d.rte.packs.filter (fun o => decide (o.slot ≠ s)) },
    xch := { d.xch with sends := d.xch.sends.filter (fun m => decide (m.slot ≠ s)),
                        queues := d.xch.queues.filter (fun q => decide (q.1 / 16 ≠ s)),
                        chunks := d.xch.chunks.filter (fun k => decide (k.1 ≠ s)),
                        aborted := d.xch.aborted.filter (fun k => decide (k.1 ≠ s)),
                        bins := d.xch.bins.filter (fun k => decide (k.1 ≠ s)),
                        refetch := d.xch.refetch.filter (fun k => decide (k.1 % 16 ≠ s)),
                        zoneOut := d.xch.zoneOut.filter (fun z => decide (z.1 / 131072 ≠ s)),
                        zoneIn := d.xch.zoneIn.filter (fun z => decide (z.1 / 131072 ≠ s)),
                        zoneWait := d.xch.zoneWait.filter (fun z => decide (z.slot ≠ s)) },
    fab := { d.fab with reads := d.fab.reads.filter (fun (r : LineRead) => decide (r.tx.job ≠ job)),
                        stores := d.fab.stores.filter (fun x => decide (x.2.1.job ≠ job)),
                        binStage := d.fab.binStage.filter (fun b => decide (b.1.1 ≠ job)) },
    tir := { d.tir with queue := d.tir.queue.filter (fun m => decide (m.slot ≠ s)),
                        busy := d.tir.busy.filter (fun m => decide (m.slot ≠ s)),
                        quar := d.tir.quar.filter (fun q => decide (q.1 ≠ s)),
                        noted := d.tir.noted.filter (fun n => decide (n.1 / 2 ^ 32 ≠ s)),
                        lost := d.tir.lost.filter (fun q => decide (q.1 ≠ s)),
                        lines := d.tir.lines.filter (fun l => decide (l.2.1 ≠ s)),
                        failed := d.tir.failed.filter (fun l => decide (l.2.1 ≠ s)),
                        later := d.tir.later.filter (fun u => decide (u.key.1 ≠ s)) },
    twin := tput (fun _ => Twin.reset) d.twin s Twin.reset }

/-- Wipes a T1 frame. -/
def Dev.zeroFrame (d : Dev) (f : Nat) : Dev := { d with mem := { d.mem with t1 := zeroRange d.mem.t1 (f * 65536) 65536 } }

/-- The gob-cache entries of a slot are wiped. -/
def Dev.zeroCache (d : Dev) (s : Nat) : Dev :=
  let ks := (d.tir.gc.filter (fun e => match e.2 with
    | some x => decide (x.slot = s)
    | none => false)).map Prod.fst
  ks.foldl (fun a k =>
    let b := a.setGc k none
    { b with mem := { b.mem with gc := zeroRange b.mem.gc (k * 65536) 65536 } }) d

/-- Route tables of a slot's RCTX_CFG range. -/
def Dev.slotTables (d : Dev) (s : Nat) : List Nat := (List.range 256).filter (fun r => d.rctxValid s && d.rtAllowed s r)

/-- The key-store range of a route table is wiped, and the table is resident no more. -/
def Dev.zeroTable (d : Dev) (rt : Nat) : Dev :=
  let x := rtdOf (d.rtdForce rt)
  { d with mem := { d.mem with ks := zeroRange d.mem.ks x.keyLo (x.keyHi - x.keyLo) },
           rte := { d.rte with resident := d.rte.resident.filter (fun r => decide (r.1 ≠ rt)),
                               reload := d.rte.reload.filter (fun r => decide (r.1 ≠ rt)),
                               supply := d.rte.supply.filter (fun r => decide (r.1 ≠ rt)),
                               tally := d.rte.tally.filter (fun r => decide (r.1 / 65536 ≠ rt)) } }

/-- An engine that serves the slot: its store and its accumulators are wiped; it keeps the slot. -/
def Dev.zeroEngine (d : Dev) (e : Nat) : Dev :=
  let y := d.engine e
  let d1 := d.setEngine e { Eng.reset with moving := y.moving, served := y.served, servedLast := y.servedLast, newest := y.newest }
  { d1 with mem := { d1.mem with es := zeroRange d1.mem.es (e * 2 ^ 26) (2 ^ 26) } }

/-- Step 3: the wipes of a job reset. -/
def Dev.wipeSlot (d : Dev) (s : Nat) : Dev :=
  let d1 := ((d.slotFrames s).foldl Dev.zeroFrame d).keepTables s []
  let d2 := (d.slotTables s).foldl Dev.zeroTable (d1.zeroCache s)
  let d3 := (d.enginesOf s).foldl Dev.zeroEngine d2
  (d.coresOf s).foldl (fun a c => a.modCore c (fun x => x.assign s)) d3

/-- The pools that a slot owns. -/
def Dev.poolsOf (d : Dev) (s : Nat) : List Nat :=
  (d.cul.pools.map Prod.fst).filter (fun p => decide (d.poolOwner p = some s))

/-- R560 on one pool: every held and reserved buffer returns, records and waiters are cleared. Its registers show it once the
thresholds have their Reset values (R17, R540). -/
def Dev.reclaimPool (d : Dev) (p : Nat) : Dev :=
  let x := d.pool p
  let is := (x.recs.filter (fun r => r.2.held || r.2.reserved)).map Prod.fst
  let y := is.foldl (fun a i => a.giveBack (decide (d.inf (Reg.POOL_CFG p) 6 6 = 1)) i) x
  (d.setPool p { y with recs := [], waiters := [], lastQueue := none }).satRf (Reg.POOL_RECLAIM p) 31 0 is.length

/-- Buffers of a slot's pools that are held or reserved. -/
def Dev.reclaimed (d : Dev) (s : Nat) : Nat := ((d.poolsOf s).map (fun p => (d.pool p).held + (d.pool p).reserved)).sum

/-- The objects that a slot owns. -/
def Dev.objectsOf (d : Dev) (s : Nat) : List Nat :=
  ((List.range (d.rf (Reg.SYN_RANGE s) 32 16)).map (fun j => d.rf (Reg.SYN_RANGE s) 15 0 + j)).filter (fun i =>
    decide (i < 65536) && decide (d.owner i = some s))

/-- R561: objects reset, their SYN_CTL cleared, the slot's sums 0. -/
def Dev.clearObjects (d : Dev) (s : Nat) : Dev :=
  let d1 := (d.objectsOf s).foldl (fun a i => (a.synReset i).setReg (Reg.SYN_CTL i) 0) d
  [ledApplied s, ledConsumed s, ledIssued s, ledPending s, ledFailed s, ledAckOk s, ledAckRej s].foldl (fun a k => a.ledgerSet k 0) d1

/-- A register is job-scoped and belongs to the slot (R17). -/
def Dev.jobScoped (d : Dev) (s off : Nat) : Bool :=
  match regAt off allRegs with
  | none => false
  | some r =>
    match r.1.scope with
    | .none => false
    | .slot => decide (r.2.headD 0 = s)
    | .cad => decide (d.cadOwner (r.2.headD 0) = some s)
    | .pool => decide (d.poolOwner (r.2.headD 0) = some s)

/-- Restores the job-scoped registers of a slot to their Reset values; its cadences stop. -/
def Dev.restoreScoped (d : Dev) (s : Nat) : Dev :=
  let cads := (List.range 32).filter (fun n => decide (d.cadOwner n = some s))
  let d1 : Dev := { d with regs := d.regs.filter (fun r => !d.jobScoped s r.1), force := d.force.filter (fun r => !d.jobScoped s r.1) }
  cads.foldl (fun a n => a.setCadence n Cadence.reset) d1

/-- A move of a home that ends with the reset of its slot: the operation shows that the leaf is gone. -/
def Dev.editLost (d0 d : Dev) (s : Nat) : Dev :=
  if (d0.tir.busy ++ d0.tir.queue).any (fun m => decide (m.slot = s) && decide (m.kind = .editMove)) then
    ({ d with tir := { d.tir with edit := none } } : Dev).editDone 1
  else d

/-- The frames that a slot's leaves, its tables and the work of the movers for it name. -/
def Dev.slotHolds (d : Dev) (s : Nat) : List Nat :=
  d.slotFrames s ++ d.tablesKept s
    ++ ((d.tir.busy ++ d.tir.queue).filter (fun m => decide (m.slot = s))).flatMap (fun m => m.frame.toList ++ (match m.dest with
      | .home tier w1 => if tier = 1 then [nfld w1 21 0] else []
      | _ => []))

/-- Steps 2 to 5 of R728. Frames that only the slot's leaves, tables and moves named are free (R807); the record array of a pool that
stays valid is not. -/
def Dev.jobResetDone (d : Dev) (s : Nat) : Dev :=
  let job := d.jobId s
  let n := d.reclaimed s
  let d1 := ((d.closeBundles job).dropWork s job).wipeSlot s
  let d2 := ((d.poolsOf s).foldl Dev.reclaimPool d1).clearObjects s
  let d3 : Dev := { d2 with fab := { d2.fab with send := d2.fab.send.filter (fun (x : SendSpace) => decide (x.key.job ≠ job)),
                                                 recv := d2.fab.recv.filter (fun (x : RecvSpace) => decide (x.key.job ≠ job)),
                                                 waitReads := d2.fab.waitReads.filter (fun (x : Tx) => decide (x.job ≠ job)) } }
  let d4 := (((d.editLost (d3.restoreScoped s) s).showMovers).setReg (Reg.LBUF_RECLAIMED s) (BitVec.ofNat 64 n)).setRf (Reg.JOB_ADMIT s) 3 2 0
  let d5 := (((d.poolsOf s).foldl Dev.poolShow (d4.framesDrop (d.slotHolds s))).setRb Reg.SEC_JRESET 5 false).setRb Reg.SEC_JRESET 6 true
  { d5 with sec := { d5.sec with jreset := none } }

/-- JOB_RESET_COMPLETE (R728). -/
def execJobResetComplete (s : State) : Host.Outcome State Fault Refusal :=
  run .jobResetComplete (fun d =>
    match d.sec.jreset with
    | some sl => d.jobResetDone sl
    | none => d) s

end Sys2Proof.Machine
end

