-- ==== Sys2Proof/Machine/Fabric.lean ====
section
/-! DEFINITION. Transactions as they arrive: line reads and writes, messages, acknowledgements, posts, notices, bundles, and
end-to-end recovery (R597 to R633, R810). -/

namespace Sys2Proof.Machine

/-! ### Answers -/

/-- An ACK (R624): it names the space by the key of the acknowledged transaction. -/
def Dev.sendAck (d : Dev) (x : Tx) (seq status reason : Nat) : Dev :=
  let post := decide (x.op = 0x07) || decide (x.op = 0x0B)
  let d1 := if status = 1 then d.satRf Reg.FAB_REJECTS 31 0 1 else d
  d1.launch { d.tx 0x06 1 x.src x.job x.core with
    chan := if post then 0 else x.chan, pspace := post, seq := seq, status := status, offset := reason }

/-- A GRANT (R608, R609): its seq names the RTS. -/
def Dev.sendGrant (d : Dev) (k : SpaceKey) (queue seq status reason : Nat) : Dev :=
  let d1 := if status = 1 then d.satRf Reg.FAB_REJECTS 31 0 1 else d
  d1.launch { d.tx 0x09 1 k.src k.job k.core with
    chan := k.chan, queue := queue, seq := seq, status := status, offset := reason }

/-- An RDR (R604, R606): rid in offset [15:0], a reason above it; data only when the read is served. -/
def Dev.sendRdr (d : Dev) (x : Tx) (status reason : Nat) (bs : List Byte) : Dev :=
  let d1 := if status = 1 then d.satRf Reg.FAB_REJECTS 31 0 1 else d
  d1.launch { d.tx 0x02 1 x.src x.job x.core with
    chan := x.chan, status := status, offset := x.rid + reason * 2 ^ 16, lenM1 := bs.length - 1, payload := bs }

/-! ### Sequence at the receiver (R622, R623, R628) -/

/-- Key of the receiving space of a transaction. -/
def Dev.recvKey (d : Dev) (x : Tx) : SpaceKey :=
  let post := decide (x.op = 0x07) || decide (x.op = 0x0B)
  { job := x.job, src := x.src, core := x.core, dst := d.node, chan := if post then 0 else x.chan, post := post }

/-- The receiving space of a key, once a transaction has opened it. -/
def Dev.recvSpace (d : Dev) (k : SpaceKey) : Option RecvSpace := d.fab.recv.find? (fun y => decide (y.key = k))

/-- The seq that the receiver expects next in a space. -/
def Dev.expectSeq (d : Dev) (k : SpaceKey) : Nat :=
  match d.recvSpace k with
  | some y => y.expect
  | none => 0

/-- Sets it, opening the space. -/
def Dev.setExpect (d : Dev) (k : SpaceKey) (n : Nat) : Dev :=
  match d.recvSpace k with
  | some _ =>
    { d with fab := { d.fab with recv := d.fab.recv.map (fun y => if y.key = k then { y with expect := n } else y) } }
  | none =>
    { d with fab := { d.fab with recv := d.fab.recv ++ [({ key := k, expect := n, dupAck := none } : RecvSpace)] } }

/-- Spaces that a device keeps (R628). -/
def maxSpaces : Nat := 262144

/-- seq a stands before seq b, modulo 2^32. -/
def seqBefore (a b : Nat) : Bool := decide (1 ≤ (b + 2 ^ 32 - a % 2 ^ 32) % 2 ^ 32) && decide ((b + 2 ^ 32 - a % 2 ^ 32) % 2 ^ 32 < 2 ^ 31)

/-- A duplicate (R622, R623): discarded; at most one ACK a microsecond names the last accepted seq. R623 gives it no status: it is ok,
also where what was accepted last was a rejected post (DESIGN CHOICE, log 151). -/
def Dev.duplicate (d : Dev) (x : Tx) (k : SpaceKey) : Dev :=
  let d1 := d.satRf Reg.FAB_DUPS 31 0 1
  match d1.recvSpace k with
  | none => d1
  | some y =>
    let due := match y.dupAck with
      | some t => decide (t + 1000 ≤ d.now)
      | none => true
    if due then
      ({ d1 with fab := { d1.fab with recv := d1.fab.recv.map (fun (z : RecvSpace) => if z.key = k then { z with dupAck := some d.now } else z) } }).sendAck
        x ((y.expect + 2 ^ 32 - 1) % 2 ^ 32) 0 0
    else d1

/-- A sequenced transaction whose turn it is, is accepted by what follows, which says whether it is; a duplicate and one out of
sequence are discarded (R622); one for which no space is left is answered busy (R628). -/
def Dev.inSequence (d : Dev) (x : Tx) (k : Dev → Dev) : Dev :=
  let key := d.recvKey x
  let e := d.expectSeq key
  if x.seq = e then
    if (d.recvSpace key).isNone && decide (maxSpaces ≤ d.fab.recv.length) then d.sendAck x x.seq 3 0 else k d
  else if seqBefore x.seq e then d.duplicate x key
  else d.satRf Reg.FAB_OOS 31 0 1

/-- Every write of its space before a line read has been accepted (R627). -/
def Dev.readDue (d : Dev) (x : Tx) : Bool := !seqBefore (d.expectSeq (d.recvKey x)) x.seq

/-- A line read waits at its destination; one sent again while it waits is the same read. -/
def Dev.holdRead (d : Dev) (x : Tx) : Dev :=
  if d.fab.waitReads.any (fun y => decide (d.recvKey y = d.recvKey x) && decide (y.rid = x.rid)) then d
  else { d with fab := { d.fab with waitReads := d.fab.waitReads ++ [x] } }

/-- Serves a line read (R603 to R606); one whose gob is under repair waits for it (R513). -/
def Dev.serveRead (d : Dev) (x : Tx) : Dev :=
  let d1 := d.windowSeen x.job x.offset
  match d1.receiverCheck x.job x.offset 128 false with
  | .error r => d1.sendRdr x 1 r []
  | .ok sa =>
    match d1.rd (unitWho sa.1 60) sa.2 128 with
    | .ok d2 bs => (d2.unitDone sa.1 60).sendRdr x 0 0 bs
    | .fault d2 f =>
      if f.code = 0x0601 then d2.sendRdr x 2 0 []
      else d2.sendRdr x 1 (if f.code = 0x0610 then 5 else if f.code = 0x0611 then 6 else 7) []
    | .stall d2 => d2.holdRead x

/-- Serves the line reads that wait and are due. -/
def Dev.serveReads (d : Dev) : Dev :=
  d.fab.waitReads.foldl (fun a x =>
    if a.readDue x then
      ({ a with fab := { a.fab with waitReads := a.fab.waitReads.filter (fun y => decide (y ≠ x)) } }).serveRead x
    else a) d

/-- Accepts a transaction and acknowledges it; line reads that waited for it are served. -/
def Dev.accept (d : Dev) (x : Tx) (status reason : Nat) : Dev :=
  ((d.setExpect (d.recvKey x) ((x.seq + 1) % 2 ^ 32)).sendAck x x.seq status reason).serveReads

/-! ### Writes (R603, R604) -/

/-- A line or bulk write in its turn: accepted, checked, applied, acknowledged. A write that has to wait for a move or a
repair is left unaccepted, and its sender sends it again (log 71). -/
def Dev.takeWrite (d : Dev) (x : Tx) : Dev :=
  d.inSequence x (fun d0 =>
    let d1 := d0.windowSeen x.job x.offset
    match d1.receiverCheck x.job x.offset x.payload.length true with
    | .error r => d1.accept x 1 r
    | .ok sa =>
      match d1.wr (unitWho sa.1 60) sa.2 x.payload with
      | .ok d2 _ => (d2.unitDone sa.1 60).accept x 0 0
      | .fault d2 f => d2.accept x 1 (if f.code = 0x0610 then 5 else if f.code = 0x0611 then 6 else 7)
      | .stall d2 => d2)

/-- WRL_RECEIVE (R603, R604, R622). -/
def execWrlReceive (p : Nat) (x : Tx) (s : State) : Host.Outcome State Fault Refusal :=
  run (.wrlReceive p x) (fun d => d.arriveAt p x (fun a => a.takeWrite x)) s

/-- BLK_RECEIVE (R603, R604, R622). -/
def execBlkReceive (p : Nat) (x : Tx) (s : State) : Host.Outcome State Fault Refusal :=
  run (.blkReceive p x) (fun d => d.arriveAt p x (fun a => a.takeWrite x)) s

/-! ### Line reads (R603 to R606, R627) -/

/-- A line read at its destination: served after every earlier write of its space (R627). -/
def Dev.takeRead (d : Dev) (x : Tx) : Dev := if d.readDue x then d.serveRead x else d.holdRead x

/-- RDL_RECEIVE (R627). -/
def execRdlReceive (p : Nat) (x : Tx) (s : State) : Host.Outcome State Fault Refusal :=
  run (.rdlReceive p x) (fun d => d.arriveAt p x (fun a => a.takeRead x)) s

/-- The slot that holds a job of an identifier, running or stopped. -/
def Dev.slotHolding (d : Dev) (job : Nat) : Option Nat :=
  slots16.find? (fun s => d.hasJob s && decide (d.jobId s = job))

/-- A line read ends. -/
def Dev.dropRead (d : Dev) (k : Nat) : Dev :=
  { d with fab := { d.fab with reads := d.fab.reads.filter (fun r => decide (r.k ≠ k)) } }

/-- The fault of a line read whose answer is not its data: code and reason. The port named is 0 (log 72). -/
def readFault (r : LineRead) (code reason : Nat) : FaultInfo :=
  fabFault code (BitVec.ofNat 64 (r.tx.dst * 2 ^ 48 + r.tx.offset)) r.tx.dst r.tx.core r.tx.chan false reason r.tx.seq r.tx.seq

/-- A line read fails at its user: asynchronously for LDL, at the instruction that stalls on it, at the unit, at the mover. An
instruction takes one fault: its other reads then bring nothing. -/
def Dev.readFails (d : Dev) (r : LineRead) (f : FaultInfo) : Dev :=
  match r.use with
  | .ldl c sl _ _ _ => (d.asyncFault c sl f).wake c
  | .core c _ => d.raiseCore c 8 f
  | .unit src s va => d.unitLineFails src s va f
  | .gone _ => d
  | .mover k _ => d.moverFails k f

/-- Sets a sticky flag of the slot of a job (FAB_SSTAT). -/
def Dev.sstat (d : Dev) (job bit : Nat) : Dev :=
  match d.slotHolding job with
  | some s => d.setRb (Reg.FAB_SSTAT s) bit true
  | none => d

/-- The data of a line read reach their user, with the stores that have come to the line since it was asked for (R486). -/
def Dev.readArrives (d : Dev) (r : LineRead) (data : List Byte) : Dev :=
  let bs := patched data r.patch
  match r.use with
  | .ldl c sl la ph _ => d.ldlArrives c sl la ph bs
  | .core c va => d.lineArrives c va bs
  | .unit src s va => d.unitArrives src s va bs
  | .gone _ => d
  | .mover k line => d.moverData k line bs

/-- A far gob of a slot has been answered poisoned: it is poisoned here as well, and what waits on it goes on (R511, R606). -/
def Dev.farPoisoned (d : Dev) (sl gob : Nat) : Dev :=
  match d.leafAddr sl gob with
  | .error _ => d
  | .ok a => (d.poisonLeaf sl gob a (d.t1w a) (d.t1w (a + 8))).resumeGob sl gob

/-- A line read is answered poisoned (R511, R606). -/
def Dev.readPoisoned (d : Dev) (r : LineRead) : Dev :=
  match r.use with
  | .core c va => d.farPoisoned (d.core c).slotN (va / 65536)
  | .unit _ s va => d.farPoisoned s (va / 65536)
  | .gone _ => d
  | .mover k _ => d.moverPoisoned k (readFault r 0x0601 0)
  | _ => d.readFails r (readFault r 0x0601 0)

/-- RDR_RECEIVE (R604 to R606, R627): the first answer for a rid completes the read. -/
def Dev.takeRdr (d : Dev) (x : Tx) : Dev :=
  match d.fab.reads.find? (fun r => !r.host && decide (r.rid = x.offset % 65536) && decide (r.tx.dst = x.src)
      && decide (r.tx.job = x.job)) with
  | none => d
  | some r =>
    let d1 := d.dropRead r.k
    match x.status with
    | 0 => d1.readArrives r x.payload
    | 2 => d1.readPoisoned r
    | 3 => (d1.sstat x.job 3).readFails r (readFault r 0x0505 0)
    | _ => (d1.sstat x.job 0).readFails r (readFault r (rejectCode (nfld x.offset 19 16)) (nfld x.offset 19 16))

/-- RDR_RECEIVE (R627). -/
def execRdrReceive (p : Nat) (x : Tx) (s : State) : Host.Outcome State Fault Refusal :=
  run (.rdrReceive p x) (fun d => d.arriveAt p x (fun a => a.takeRdr x)) s

/-- RDL_RESEND (R627): with the same rid after e2e_us; 0x0504 after 100 ms. -/
def execRdlResend (rid : Nat) (s : State) : Host.Outcome State Fault Refusal :=
  run (.rdlResend rid) (fun d =>
    match d.fab.reads.find? (fun r => !r.host && decide (r.rid = rid) && decide (r.last ≤ d.now)
        && (d.space (spaceKeyOf r.tx)).waiting.all (fun w => decide (w.1.op ≠ 0x01) || decide (w.1.rid ≠ rid))) with
    | none => d
    | some r =>
      if r.first + 100000000 ≤ d.now then
        ((d.dropRead r.k).sstat r.tx.job 1).readFails r (readFault r 0x0504 0)
      else
        let d1 := d.satRf Reg.FAB_RETX 31 0 1
        ({ d1 with fab := { d1.fab with reads := d1.fab.reads.map (fun (y : LineRead) =>
            if y.k = r.k then { y with last := d.now + d.e2e } else y) } }).launch { r.tx with retx := true }) s

/-- T3_READ_COMPLETION (R768): the host's data for a line read. -/
def execT3ReadCompletion (k : Nat) (data : List (BitVec 8)) (s : State) : Host.Outcome State Fault Refusal :=
  run (.t3ReadCompletion k data) (fun d =>
    match d.fab.reads.find? (fun r => r.host && decide (r.k = k)) with
    | none => d
    | some r =>
      let bs := (List.range 128).map (fun i => data.getD i 0)
      (d.dropRead k).readArrives r bs) s

/-! ### Messages at the receiver (R608 to R612) -/

/-- RTS in its turn (R609, R610): queued, rejected, or answered busy. It does not advance its space. -/
def Dev.takeRts (d : Dev) (x : Tx) : Dev :=
  let key := d.recvKey x
  let e := d.expectSeq key
  let n := nfld x.offset 31 0
  if x.seq = e then
    match d.slotOfJob x.job with
    | none => d.sendGrant key x.queue x.seq 1 1
    | some s =>
      let q := d.rqueue s x.queue
      if q.msgs.any (fun m => decide (m.key = key) && decide (m.seq = x.seq)) then d.sendGrant key x.queue x.seq 0 0
      else if q.rts.any (fun w => decide (w.key = key) && decide (w.seq = x.seq)) then d.satRf Reg.FAB_DUPS 31 0 1
      else
        let tooLarge := match q.pool with
          | some p => decide (d.bufSize p < n)
          | none => false
        if tooLarge then d.sendGrant key x.queue x.seq 1 8
        else if 256 ≤ q.rts.length then d.sendGrant key x.queue x.seq 3 0
        else d.setRqueue s x.queue { q with rts := q.rts ++ [{ key := key, seq := x.seq, bytes := n }] }
  else if seqBefore x.seq e then d.duplicate x key
  else d.satRf Reg.FAB_OOS 31 0 1

/-- RTS_RECEIVE (R609). -/
def execRtsReceive (p : Nat) (x : Tx) (s : State) : Host.Outcome State Fault Refusal :=
  run (.rtsReceive p x) (fun d => d.arriveAt p x (fun a => a.takeRts x)) s

/-- GRANT_SEND (R542, R608): the oldest reserved buffer goes to the oldest waiting RTS; a message that the pool's buffers
cannot hold is rejected (R609). -/
def execGrantSend (sl q : Nat) (s : State) : Host.Outcome State Fault Refusal :=
  run (.grantSend sl q) (fun d =>
    let x := d.rqueue sl q
    match x.pool, x.rts with
    | some p, w :: ws =>
      if d.bufSize p < w.bytes then (d.setRqueue sl q { x with rts := ws }).sendGrant w.key q w.seq 1 8
      else
        match x.reserved with
        | [] => d
        | i :: is =>
          let m : RecvMsg := { key := w.key, seq := w.seq, bytes := w.bytes, pool := p, buf := i, got := 0, src := w.key.src,
                               complete := false }
          (((d.setRqueue sl q { x with rts := ws, reserved := is, msgs := x.msgs ++ [m] }).bufHand p i 50).poolDone p).sendGrant
            w.key q w.seq 0 0
    | _, _ => d) s

/-- A fragment in its turn (R608, R612, R810). -/
def Dev.takeFragment (d : Dev) (x : Tx) : Dev :=
  d.inSequence x (fun d0 =>
    match d0.slotOfJob x.job with
    | none => d0.accept x 1 1
    | some s =>
      let q := d0.rqueue s x.queue
      match q.msgs.find? (fun m => decide (m.key = d0.recvKey x) && !m.complete) with
      | none => d0.accept x 1 10
      | some m =>
        if m.got ≠ x.offset ∨ m.bytes < x.offset + x.payload.length then d0.accept x 1 10
        else
          match d0.wr (unitWho s 60) (d0.bufAddr m.pool m.buf + x.offset) x.payload with
          | .stall d1 => d1
          | .fault d1 f => (d1.accept x 0 0).unitFault s f
          | .ok d0 _ =>
            let d1 := d0.unitDone s 60
            let n := m.got + x.payload.length
            let m1 := { m with got := n, complete := decide (n = m.bytes) }
            let y := d1.rqueue s x.queue
            let d2 := (d1.setRqueue s x.queue { y with msgs := y.msgs.map (fun z => if z = m then m1 else z) }).accept x 0 0
            if m1.complete then d2.recvArrived s x.queue else d2)

/-- MSG_RECEIVE (R612). -/
def execMsgReceive (p : Nat) (x : Tx) (s : State) : Host.Outcome State Fault Refusal :=
  run (.msgReceive p x) (fun d => d.arriveAt p x (fun a => a.takeFragment x)) s

/-! ### Posts and notices (R105, R113, R114, R186, R679, R810) -/

/-- A post in its turn: its check and its application; a pace post reaches Lehr. -/
def Dev.takePost (d : Dev) (x : Tx) : Dev :=
  d.inSequence x (fun d0 =>
    let i := nfld x.offset 15 0
    let n := nfld x.offset 47 16
    if x.core = 61 then
      if 0xFF00 ≤ i ∧ i ≤ 0xFF10 then
        let r := d0.post i n x.err
        if r.2 then (r.1.accept x 0 0).paceArrives i x.src else r.1.accept x 1 9
      else d0.accept x 1 2
    else
      match d0.slotOfJob x.job with
      | none => d0.accept x 1 1
      | some s =>
        if d0.owner i = some s then
          let r := d0.post i n x.err
          if r.2 then r.1.accept x 0 0 else r.1.accept x 1 9
        else d0.accept x 1 2)

/-- POST_RECEIVE (R105). -/
def execPostReceive (p : Nat) (x : Tx) (s : State) : Host.Outcome State Fault Refusal :=
  run (.postReceive p x) (fun d => d.arriveAt p x (fun a => a.takePost x)) s

/-- A quarantine notice in its turn (R186, R516). -/
def Dev.takeNotice (d : Dev) (x : Tx) : Dev :=
  d.inSequence x (fun d0 =>
    match d0.slotOfJob x.job with
    | none => d0.accept x 1 1
    | some s => (d0.maskExpert s (nfld x.offset 7 0) (nfld x.offset 23 8)).accept x 0 0)

/-- QNOT_RECEIVE (R186). -/
def execQnotReceive (p : Nat) (x : Tx) (s : State) : Host.Outcome State Fault Refusal :=
  run (.qnotReceive p x) (fun d => d.arriveAt p x (fun a => a.takeNotice x)) s

/-- A hint: never acknowledged; one for a job that is not admitted has no effect (R178, R494). -/
def Dev.takeHintTx (d : Dev) (x : Tx) : Dev :=
  match d.slotOfJob x.job with
  | none => d
  | some sl => d.takeHint sl (nfld x.offset 7 0) (nfld x.offset 19 8)

/-- HINT_RECEIVE (R178, R494). -/
def execHintReceive (p : Nat) (x : Tx) (s : State) : Host.Outcome State Fault Refusal :=
  run (.hintReceive p x) (fun d => d.arriveAt p x (fun a => a.takeHintTx x)) s

/-! ### Acknowledgements (R605, R624, R810) -/

/-- A message of a space that has sent something not yet acknowledged. -/
def Dev.ackedMsg (d : Dev) (k : SpaceKey) : Option SendMsg :=
  d.xch.sends.find? (fun m => decide (d.msgKey m = k) && decide (m.acked < m.sent))

/-- A message that has failed and whose last fragment is acknowledged ends: its object is posted with the error epoch
marked (R609). -/
def Dev.endFailed (d : Dev) (m : SendMsg) : Dev :=
  if m.phase = 3 ∧ m.acked = m.sent then (d.dropMsg m.id).sendPost m true else d.putMsg m

/-- A fragment is acknowledged ok. -/
def Dev.fragmentOk (d : Dev) (k : SpaceKey) (n : Nat) : Dev :=
  match d.ackedMsg k with
  | none => d
  | some m => d.endFailed { m with acked := m.acked + n }

/-- A fragment is acknowledged rejected (R810): 0x0509, and no further fragment is sent. -/
def Dev.fragmentRejected (d : Dev) (k : SpaceKey) (t : Tx) (reason : Nat) : Dev :=
  match d.ackedMsg k with
  | none => d
  | some m =>
    let d1 :=
      if m.phase = 3 then d
      else d.asyncFault m.core m.slot (fabFault 0x0509 (BitVec.ofNat 64 m.src) m.dest m.core m.chan false reason t.seq t.seq)
    let last := (d.xch.sends.filter (fun y => decide (d.msgKey y = k) && decide (y.sent ≠ 0))).getLast?.map SendMsg.id
    let x := d1.space k
    let stop := decide (last = some m.id)
    let unsent := if stop then ((x.waiting.filter (fun w => decide (w.1.op = 0x05))).map (fun w => w.1.payload.length)).sum else 0
    let d2 := if stop then d1.setSpace { x with waiting := x.waiting.filter (fun w => decide (w.1.op ≠ 0x05)) } else d1
    d2.endFailed { m with phase := 3, acked := m.acked + t.payload.length, sent := m.sent - unsent }

/-- A remote post leaves the pending counts of the ledger for another account (R556). -/
def Dev.postSettled (d : Dev) (job n : Nat) (account : Nat → Nat) : Dev :=
  match d.slotHolding job with
  | none => d
  | some s =>
    let d1 := (d.lapse (ledPending s)).lapse (account s)
    ((d1.ledgerAdd (ledPending s) (0 - BitVec.ofNat 64 n)).ledgerAdd (account s) (BitVec.ofNat 64 n)).remoteLedgerCheck s

/-- A transaction is complete: acknowledged ok (R624). -/
def Dev.completeOk (d : Dev) (k : SpaceKey) (t : Tx) : Dev :=
  if t.op = 0x07 ∧ t.core ≠ 61 then d.postSettled t.job (nfld t.offset 47 16) ledAckOk
  else if t.op = 0x05 then d.fragmentOk k t.payload.length
  else d

/-- The fault of a write, at the core that issued it (R605, R113). -/
def Dev.issuerFault (d : Dev) (t : Tx) (f : FaultInfo) : Dev :=
  match d.slotHolding t.job with
  | some s => d.asyncFault t.core s f
  | none => d

/-- JFINFO of a fault of a transaction: the sync name of a post, else the global address. -/
def txInfo (t : Tx) : Word :=
  BitVec.ofNat 64 (t.dst * 2 ^ 48 + (if t.op = 0x07 then nfld t.offset 15 0 else t.offset))

/-- A transaction is complete: acknowledged rejected (R605, R810). -/
def Dev.completeRejected (d : Dev) (k : SpaceKey) (t : Tx) (reason : Nat) : Dev :=
  let f := fun code => fabFault code (txInfo t) t.dst t.core k.chan k.post reason t.seq t.seq
  if t.op = 0x07 then
    if t.core = 61 then d.paceLate
    else
      let n := nfld t.offset 47 16
      let code := if reason = 9 then 0x0803 else 0x0802
      (d.postSettled t.job n ledAckRej).issuerFault t
        (mkFault code (txInfo t) t.core (txInfo t).toNat n reason)
  else if t.op = 0x05 then d.fragmentRejected k t reason
  else if t.op = 0x0B then d
  else
    match (if t.op = 0x03 ∧ t.core = 56 then d.moveRejected t.dst t.offset else none) with
    | some d1 => d1
    | none => (d.sstat t.job 0).issuerFault t (f (rejectCode reason))

/-- An ACK (R624): ok completes what its space has not had acknowledged up to the seq it names, rejected what it names
alone. A failed space takes none; busy completes nothing and raises 0x0505 (R628). -/
def Dev.takeAck (d : Dev) (x : Tx) : Dev :=
  let k : SpaceKey :=
    { job := x.job, src := d.node, core := x.core, dst := x.src, chan := if x.pspace then 0 else x.chan, post := x.pspace }
  let y := d.space k
  if y.failed then d
  else
    let named := fun (u : Sent) => decide (u.tx.op ≠ 0x08) && decide (u.tx.seq = x.seq)
    let covered := fun (u : Sent) => decide (u.tx.op ≠ 0x08) && !seqBefore x.seq u.tx.seq
    match x.status with
    | 0 =>
      let done := y.unacked.filter covered
      if done = [] then d
      else
        (done.foldl (fun (a : Dev) (u : Sent) => a.completeOk k u.tx)
          (d.setSpace { y with unacked := y.unacked.filter (fun u => !covered u) })).afterAck
    | 3 =>
      match y.unacked.find? named with
      | none => d
      | some u =>
        (d.sstat x.job 3).issuerFault u.tx (fabFault 0x0505 (txInfo u.tx) u.tx.dst u.tx.core k.chan k.post 0 u.tx.seq u.tx.seq)
    | _ =>
      match y.unacked.find? named with
      | none => d
      | some u =>
        ((d.setSpace { y with unacked := y.unacked.filter (fun v => decide (v.idx ≠ u.idx) || decide (v.tx.op = 0x08)) }).completeRejected
          k u.tx (nfld x.offset 3 0)).afterAck

/-- ACK_RECEIVE (R624). -/
def execAckReceive (p : Nat) (x : Tx) (s : State) : Host.Outcome State Fault Refusal :=
  run (.ackReceive p x) (fun d => d.arriveAt p x (fun a => a.takeAck x)) s

/-! ### GRANT at the sender (R608, R609, R611) -/

/-- The RTS of a message leaves its space. -/
def Dev.dropRts (d : Dev) (m : SendMsg) : Dev :=
  let x := d.space (d.msgKey m)
  d.setSpace { x with unacked := x.unacked.filter (fun u => decide (u.tx.op ≠ 0x08) || decide (u.tx.rid ≠ m.id)) }

/-- A message ends without its GRANT: the fault at its core, its object posted with the error epoch marked, its space
free. -/
def Dev.sendFails (d : Dev) (m : SendMsg) (f : FaultInfo) : Dev :=
  ((((d.dropRts m).dropMsg m.id).asyncFault m.core m.slot f).sendPost m true).freeSpace m

/-- A fault of a message (Table 13-4). -/
def msgFault (m : SendMsg) (code reason seq : Nat) : FaultInfo :=
  fabFault code (BitVec.ofNat 64 m.src) m.dest m.core m.chan false reason seq seq

/-- A GRANT (R608, R609). -/
def Dev.takeGrant (d : Dev) (x : Tx) : Dev :=
  let k : SpaceKey := { job := x.job, src := d.node, core := x.core, dst := x.src, chan := x.chan, post := false }
  let y := d.space k
  match y.unacked.find? (fun u => decide (u.tx.op = 0x08) && decide (u.tx.seq = x.seq)) with
  | none => d
  | some u =>
    match d.sendMsg u.tx.rid with
    | none => d
    | some m =>
      if 2 ≤ m.phase ∨ y.failed then d
      else
        match x.status with
        | 0 => ((d.dropRts m).sendGranted m)
        | 3 => d.putMsg { m with phase := 1, since := d.now }
        | _ => d.sendFails m (msgFault m 0x0509 (nfld x.offset 3 0) x.seq)

/-- GRANT_RECEIVE (R608). -/
def execGrantReceive (p : Nat) (x : Tx) (s : State) : Host.Outcome State Fault Refusal :=
  run (.grantReceive p x) (fun d => d.arriveAt p x (fun a => a.takeGrant x)) s

/-- The RTS of a message as it was sent. -/
def Dev.sentRts (d : Dev) (m : SendMsg) : Option Sent :=
  (d.space (d.msgKey m)).unacked.find? (fun u => decide (u.tx.op = 0x08) && decide (u.tx.rid = m.id))

/-- RTS_BUSY_RESEND (R609): after 10 µs. -/
def execRtsBusyResend (m : Nat) (s : State) : Host.Outcome State Fault Refusal :=
  run (.rtsBusyResend m) (fun d =>
    match d.sendMsg m with
    | none => d
    | some y =>
      if y.phase = 1 ∧ y.since + 10000 ≤ d.now then
        match d.sentRts y with
        | none => d
        | some u => (d.putMsg { y with phase := 0, since := d.now }).launch { u.tx with rid := 0 }
      else d) s

/-- GRANT_TIMEOUT (R611): no GRANT 100 ms after the first RTS. -/
def execGrantTimeout (m : Nat) (s : State) : Host.Outcome State Fault Refusal :=
  run (.grantTimeout m) (fun d =>
    match d.sendMsg m with
    | none => d
    | some y =>
      match d.sentRts y with
      | none => d
      | some u =>
        if y.phase ≤ 1 ∧ u.first + 100000000 ≤ d.now then d.sendFails y (msgFault y 0x0506 0 u.tx.seq) else d) s

/-! ### End-to-end recovery (R625, R626) -/

/-- E2E_TIMER_EXPIRY (R625): the oldest unacknowledged transaction of the space and every later one are sent again, in order. -/
def execE2eTimerExpiry (k : SpaceKey) (s : State) : Host.Outcome State Fault Refusal :=
  run (.e2eTimerExpiry k) (fun d =>
    let x := d.space k
    match x.unacked with
    | [] => d
    | u :: _ =>
      if d.now < u.last ∨ x.failed then d
      else
        let d1 := (d.satRf Reg.FAB_RETX 31 0 x.unacked.length).setSpace
          { x with unacked := x.unacked.map (fun v => { v with last := d.now + d.e2e }) }
        x.unacked.foldl (fun (a : Dev) (v : Sent) =>
          a.launch { v.tx with retx := true, rid := if v.tx.op = 0x08 then 0 else v.tx.rid }) d1) s

/-- The posts of a failed space leave the pending counts as failed. -/
def Dev.postsFailed (d : Dev) (ts : List Tx) : Dev :=
  ts.foldl (fun (a : Dev) (t : Tx) =>
    if t.op = 0x07 ∧ t.core ≠ 61 then a.postSettled t.job (nfld t.offset 47 16) ledFailed else a) d

/-- A fence of the space's core that waits for its node (R102). -/
def Dev.fenceWaits (d : Dev) (k : SpaceKey) : Bool :=
  decide (k.core ≤ 40) && (match (d.core k.core).wait with
    | some (.fence none) => true
    | some (.fence (some n)) => decide (n = k.dst)
    | _ => false)

/-- The space fails (R626): 0x0504 names the range of seq; at a waiting fence it is the fence's (R102). The writes stay
unacknowledged, so that no later fence or release completes (R98, R132); what waited to be sent is given up. -/
def Dev.failSpace (d : Dev) (x : SendSpace) : Dev :=
  let k := x.key
  let us := x.unacked.filter (fun u => decide (u.tx.op ≠ 0x08))
  let lo := (us.head?.map (fun u => u.tx.seq)).getD 0
  let hi := (us.getLast?.map (fun u => u.tx.seq)).getD 0
  let info := (us.head?.map (fun u => txInfo u.tx)).getD 0
  let f := fabFault 0x0504 info k.dst k.core k.chan k.post 0 lo hi
  let waits := d.fenceWaits k
  let d1 := (d.setSpace { x with
    unacked := us, waiting := [], msg := none, failed := true, lost := x.lost || x.waiting.any (fun w => fencedOp w.1) }).sstat k.job 1
  let d2 := (d1.postsFailed (us.map (fun u => u.tx))).postsFailed (x.waiting.map (fun w => w.1))
  let d3 := { d2 with xch := { d2.xch with sends := d2.xch.sends.filter (fun m => decide (d2.msgKey m ≠ k)) } }
  let d4 :=
    if waits then d3.raiseCore k.core 8 f
    else
      match d3.slotHolding k.job with
      | some s => d3.asyncFault k.core s f
      | none => d3
  d4.afterAck

/-- E2E_WRITE_FAIL (R626): a write not acknowledged 100 ms after its first send. -/
def execE2eWriteFail (k : SpaceKey) (s : State) : Host.Outcome State Fault Refusal :=
  run (.e2eWriteFail k) (fun d =>
    let x := d.space k
    if !x.failed && x.unacked.any (fun u => decide (u.tx.op ≠ 0x08) && decide (u.first + 100000000 ≤ d.now)) then d.failSpace x
    else d) s

/-! ### Bundles (R630, R633) -/

/-- A transaction from the words of its header and its payload. -/
def txOfWords (w0 w1 w2 w3 : Nat) (bs : List Byte) : Tx :=
  { op := nfld w0 4 0, vc := nfld w0 7 5, chan := nfld w0 11 8, core := nfld w0 17 12, hops := nfld w0 23 18,
    dst := nfld w0 39 24, src := nfld w0 55 40, detour := w0.testBit 56, retx := w0.testBit 57, first := w0.testBit 58,
    last := w0.testBit 59, err := w0.testBit 60, status := nfld w0 62 61, pspace := w0.testBit 63,
    offset := nfld w1 47 0, queue := nfld w1 51 48, lenM1 := nfld w1 63 52, seq := nfld w2 31 0, via := nfld w2 47 32,
    rid := nfld w2 63 48, crc := nfld w3 31 0, job := nfld w3 51 32, phase := w3.testBit 52, payload := bs }

/-- Bytes of payload of a bundle's entry: a WRL's line, and an RDR's when it is served (Table 12-6). -/
def entryLen (op status : Nat) : Nat := if op = 0x03 ∨ (op = 0x02 ∧ status = 0) then 128 else 0

/-- Restores the full headers of a bundle's entries (R630, R633): block nibbles of this block and of the gateway's, the
bundle's job. -/
def Dev.unbundle (d : Dev) (b : Tx) : Nat → List Byte → List Tx
  | 0, _ => []
  | n + 1, bs =>
    if bs.length < 24 then []
    else
      let w := leWords 8 3 bs
      let w0 := w.getD 0 0
      let w2 := w.getD 2 0
      let len := entryLen (nfld w0 4 0) (nfld w0 62 61)
      let t := txOfWords w0 (w.getD 1 0) (nfld w2 31 0) (nfld w2 63 32 + b.job * 2 ^ 32) ((bs.drop 24).take len)
      let t1 := { t with dst := withCoord t.dst 3 (coord d.node 3), src := withCoord t.src 3 (coord b.src 3) }
      t1 :: d.unbundle b n (bs.drop (24 + len))

/-- Consumes a transaction of a bundle at its destination. -/
def Dev.deliver (d : Dev) (t : Tx) : Dev :=
  d.crcChecked t (fun a =>
    if t.op = 0x02 then a.takeRdr t
    else if t.op = 0x03 then a.takeWrite t
    else if t.op = 0x06 then a.takeAck t
    else if t.op = 0x07 then a.takePost t
    else if t.op = 0x08 then a.takeRts t
    else if t.op = 0x09 then a.takeGrant t
    else if t.op = 0x0B then a.takeNotice t
    else a.satRf Reg.FAB_DROPS 31 0 1)

/-- What a bundle holds is restored and sent on in order (R633). -/
def Dev.takeBundle (d : Dev) (x : Tx) : Dev :=
  (d.unbundle x 171 x.payload).foldl (fun (b : Dev) (t : Tx) => if t.dst = b.node then b.deliver t else b.forward t none) d

/-- BUNDLE_RECEIVE (R633): the entries are restored and sent on in order. -/
def execBundleReceive (p : Nat) (x : Tx) (s : State) : Host.Outcome State Fault Refusal :=
  run (.bundleReceive p x) (fun d => d.arriveAt p x (fun a => a.takeBundle x)) s

/-! ### Flits and their transactions (R571 to R574, R587) -/

/-- Bytes of payload that a header announces (Table 12-6). -/
def payloadLen (op status lenM1 : Nat) : Nat :=
  if op = 0x02 then (if status = 0 then 128 else 0)
  else if op = 0x03 then 128
  else if op = 0x04 ∨ op = 0x05 ∨ op = 0x0E then lenM1 + 1
  else if lenM1 = 0 then 0 else lenM1 + 1

/-- The transactions that stand whole in received bytes, from an 8-byte boundary on, and what is left of one that does not: a word of op
0x00 is unused (R572). Fuel: words. -/
def unpack : Nat → List Byte → List Tx × List Byte
  | 0, bs => ([], bs)
  | k + 1, bs =>
    match bs with
    | [] => ([], [])
    | b :: _ =>
      if b.toNat % 32 = 0 then unpack k (bs.drop 8)
      else
        let w := leWords 8 4 bs
        let w0 := w.getD 0 0
        let n := 32 + payloadLen (nfld w0 4 0) (nfld w0 62 61) (nfld (w.getD 1 0) 63 52)
        if bs.length < n then ([], bs)
        else
          let r := unpack k (bs.drop ((n + 7) / 8 * 8))
          (txOfWords w0 (w.getD 1 0) (w.getD 2 0) (w.getD 3 0) ((bs.take n).drop 32) :: r.1, r.2)

/-- A transaction that a port has received whole: by its op at its destination, else onward (R598, R600, R614). -/
def Dev.takeTx (d : Dev) (p : Nat) (x : Tx) : Dev :=
  if d.isHere x = false then d.transit p x
  else
    d.arriveAt p x (fun a =>
      if x.op = 0x01 then a.takeRead x
      else if x.op = 0x02 then a.takeRdr x
      else if x.op = 0x03 ∨ x.op = 0x04 then a.takeWrite x
      else if x.op = 0x05 then a.takeFragment x
      else if x.op = 0x06 then a.takeAck x
      else if x.op = 0x07 then a.takePost x
      else if x.op = 0x08 then a.takeRts x
      else if x.op = 0x09 then a.takeGrant x
      else if x.op = 0x0A then a.takeHintTx x
      else if x.op = 0x0B then a.takeNotice x
      else if x.op = 0x0E then a.takeBundle x
      else if x.op = 0x10 then a.takeDisc p x
      else if x.op = 0x11 then a.takeLsn p x
      else a.satRf Reg.FAB_DROPS 31 0 1)

/-- The payload area of a data flit: the transactions that are whole with it are taken, in order (R572, log 70). -/
def Dev.takeArea (d : Dev) (p : Nat) (area : List Byte) : Dev :=
  let bs := (d.port p).part ++ area
  let r := unpack (bs.length / 8 + 1) bs
  r.1.foldl (fun a t => a.takeTx p t) (d.modPort p (fun y => { y with part := r.2 }))

/-- A sequenced flit in its turn: its credits; for a control flit the comparison; for a data flit the transactions that its payload area
completes (R572). -/
def Dev.takeFlit (d : Dev) (p : Nat) (x : Flit) : Dev :=
  let d1 := d.modPort p (fun y =>
    let k := x.cvc * 4 + x.ccls
    let c := y.credit k
    ({ y with rxExpect := (y.rxExpect + 1) % 8192, nakSent := false } : Port).setCredit k { c with gs := (c.gs + x.ccnt) % 2 ^ 48 })
  let d2 := d1.flushPort p
  if x.kind = 3 then (if x.hb ≠ [] then d2.hbCompare p x.hb else d2) else d2.takeArea p x.area

/-- A bad sequenced flit (R571, R574): one with the expected fseq has arrived, so that its discard is NAKed though an earlier one was. -/
def Dev.refuseBad (d : Dev) (p : Nat) (x : Flit) : Dev :=
  (if x.fseq = (d.port p).rxExpect then d.modPort p (fun y => { y with nakSent := false }) else d).refuseFlit p

/-- FLIT_RECEIVE (R574, R587). -/
def execFlitReceive (p : Nat) (x : Flit) (s : State) : Host.Outcome State Fault Refusal :=
  run (.flitReceive p x) (fun d =>
    let st := d.portState p
    if st = 0 ∨ st = 1 ∨ st = 7 ∨ st = 8 then d.satRf Reg.FAB_DROPS 31 0 1
    else if !d.portLinked p then d
    else
      let d1 := d.fecCount p x.errs
      if flitBad x then (if flitSequenced x then d1.refuseBad p x else d1)
      else
        let d2 := d1.ackFlits p x.ack
        if !flitSequenced x then (if x.kind = 2 then d2.nakArrives p ((x.ack + 1) % 8192) else d2)
        else if x.fseq = (d2.port p).rxExpect then d2.takeFlit p x
        else d2.refuseFlit p) s

end Sys2Proof.Machine
end

