-- ==== Sys2Proof/Machine/Edge.lean ====
section
/-! DEFINITION. Where the host and the surroundings meet the device: register writes, BAR4, PCIe, the input stage and J1
(file 16). -/

namespace Sys2Proof.Machine

/-! ### REGISTER_WRITE (R14, R18 to R30, R772, R773) -/

/-- A write to a register of the SEC block that commands the root core, or to another register. -/
def State.fieldWrite (s : State) (v : Via) (off : Nat) (r : RDesc) (is : List Nat) (x : Word) : State :=
  if r.base = Reg.SEC_CMD then { s with dev := s.dev.writeFields off r is x }.secCmd (fld x 7 0)
  else if r.base = Reg.SEC_RESET then (if bitAt x 0 then s.deviceReset else s)
  else if r.base = Reg.SEC_JRESET then
    let d := s.dev.writeFields off r is x
    { s with dev := if bitAt x 4 then d.jresetGo (fld x 3 0) else d }
  else if r.base = Reg.SEC_MEXT then
    let d := s.dev.writeFields off r is x
    { s with dev := if bitAt x 4 then d.secMext (fld x 3 0) else d }
  else { s with dev := s.dev.regWrite v off r is x }

/-- A host write of 8 bytes through a view. -/
def State.regWrite (s : State) (v : Via) (o : Nat) (x : Word) : State :=
  match s.dev.regOf v o with
  | some y => s.fieldWrite v y.1 y.2.1 y.2.2 x
  | none => if (s.dev.viewOff v o).isSome then { s with dev := s.dev.otherWrite v o x } else s

/-- A write names SYN_POST or HMB_SEND (R775). -/
def Dev.postsObject (d : Dev) (v : Via) (o : Nat) : Bool :=
  match d.regOf v o with
  | some y => decide (y.2.1.base = Reg.SYN_POST) || decide (y.2.1.base = Reg.HMB_SEND 0)
  | none => false

/-- REGISTER_WRITE (R26). A device reset is heard after a thermal trip too (R708). -/
def execRegisterWrite (v : Via) (off : Nat) (x : BitVec 64) (s : State) : Host.Outcome State Fault Refusal :=
  if (Instr.registerWrite v off x).wf then
    .next (if off = Reg.SEC_RESET ∧ v.slot.isNone then (if bitAt x 0 then s.secReset else s)
      else s.barAccess (.registerWrite v off x) v (secBlock v off) (s.dev.postsObject v off) (fun t => t.regWrite v off x))
  else .refused .illFormed

/-! ### BAR4 (R774) -/

/-- Counts a refused host access. -/
def Dev.herr (d : Dev) : Dev := d.satRf Reg.HST_HERR 31 0 1

/-- The local address of an access through an aperture. -/
def Dev.apertureAddr (d : Dev) (a : Bar4) : Nat := d.rf (Reg.HST_APER a.slot) 47 16 * 65536 + a.off

/-- Zeros of a read. -/
def zeros (n : Nat) : List Byte := List.replicate n 0#8

/-- The home of a gob that an access of n bytes through an aperture names is being moved. -/
def Dev.apertureMoves (d : Dev) (a : Bar4) (n : Nat) : Bool :=
  let va := a.slot * 2 ^ 48 + d.apertureAddr a
  d.leafMoving va || d.leafMoving (va + (n - 1))

/-- A read through an aperture; one that must wait for a move or a repair waits (R487, R513), of a stopped job for a move alone. -/
def Dev.apertureRead (d : Dev) (a : Bar4) : Dev :=
  let va := d.apertureAddr a
  if d.rb (Reg.HST_APER a.slot) 0 = false ∨ 2 ^ 48 < va + a.len then d.herr.complete (.ok (zeros a.len))
  else
    match d.rd (unitWho a.slot 56) va a.len with
    | .ok d1 bs => (d1.unitDone a.slot 56).complete (.ok bs)
    | .fault d1 f =>
      if f.code = 0x0601 then (d1.unitDone a.slot 56).complete .poisoned
      else (d1.unitDone a.slot 56).herr.complete (.ok (zeros a.len))
    | .stall d1 => if d1.runs a.slot || d1.apertureMoves a a.len || d1.hostLines a.slot then d1.hold (.bar4Access a) else d1.complete .poisoned

/-- A write through an aperture; one that must wait for a move or a repair waits (R487, R804). -/
def Dev.apertureWrite (d : Dev) (a : Bar4) (bs : List Byte) : Dev :=
  let va := d.apertureAddr a
  if d.rb (Reg.HST_APER a.slot) 0 = false ∨ d.rb (Reg.HST_APER a.slot) 1 = false ∨ 2 ^ 48 < va + bs.length then d.herr
  else
    match d.wr (unitWho a.slot 56) va bs with
    | .ok d1 _ => d1.unitDone a.slot 56
    | .fault d1 _ => (d1.unitDone a.slot 56).herr
    | .stall d1 => if d1.runs a.slot || d1.apertureMoves a bs.length || d1.hostLines a.slot then d1.hold (.bar4Access a) else d.herr

/-- BAR4_ACCESS (R774). -/
def execBar4Access (a : Bar4) (s : State) : Host.Outcome State Fault Refusal :=
  host (.bar4Access a) { slot := some a.slot, ide := a.ide } false false (fun d =>
    match a.write with
    | some bs => d.apertureWrite a bs
    | none => d.apertureRead a) s

/-! ### PCIe (R720, R761, R768 to R771) -/

/-- The slot whose window or aperture a request to BAR2 or BAR4 names. -/
def barSlot (bar off : Nat) : Nat := if bar = 2 then off / 2 ^ 20 else if bar = 4 then off / 2 ^ 30 else 16

/-- IDE_INTEGRITY_FAILURE (R771): the request is discarded and counted, with a record for a job whose window or aperture it
named. -/
def execIdeIntegrityFailure (bar off : Nat) (s : State) : Host.Outcome State Fault Refusal :=
  run (.ideIntegrityFailure bar off) (fun d =>
    if d.bootOver = false then d
    else
      let d1 := d.satRf Reg.HST_IDE 31 0 1
      let sl := barSlot bar off
      if sl < 16 ∧ d1.hasJob sl then d1.recordOnly sl (mkFault 0x0A02 0 59 0 0 0) else d1) s

/-- T3_REQUEST_FAILURE (R768): as an uncorrectable error in the home. -/
def execT3RequestFailure (k : Nat) (s : State) : Host.Outcome State Fault Refusal :=
  run (.t3RequestFailure k) (fun d =>
    match d.fab.reads.find? (fun r => r.host && decide (r.k = k)) with
    | none => d
    | some r =>
      let d1 := (d.dropRead k).satRf Reg.HST_T3ERR 31 0 1
      match r.use with
      | .mover m _ => d1.moverPoisoned m (readFault r 0x0601 0)
      | _ => d1.readPoisoned r) s

/-- PCIE_LINK_TRAINING_DONE (R720, R761): speed 1 to 7 and a width of Table 16-12, or no link. -/
def execPcieLinkTrainingDone (speed width : Nat) (s : State) : Host.Outcome State Fault Refusal :=
  run (.pcieLinkTrainingDone speed width) (fun d =>
    if d.sec.inputGood ∧ d.sec.perst = false ∧ d.rf Reg.SEC_BOOT 3 0 ≠ 1 ∧ 1 ≤ speed ∧ speed ≤ 7 ∧ width ∈ [1, 2, 4, 8, 16] then
      let d1 : Dev := { d with hst := { d.hst with link := speed + width * 16 } }
      (d1.setRf Reg.HST_STATUS 3 0 speed).setRf Reg.HST_STATUS 8 4 width
    else d) s

/-- PCIE_CONFIG_REQUEST (R720, R723): Retry Status until device-ready or boot-failed; then the identity of the function (R2). After a thermal trip the device answers
management only (R708). -/
def execPcieConfigRequest (s : State) : Host.Outcome State Fault Refusal :=
  run .pcieConfigRequest (fun d =>
    if d.sec.inputGood = false ∨ d.sec.perst ∨ d.rb Reg.PWR_STATUS 31 then d
    else d.answer (if d.bootOver then .configOk d.board.deviceId 0x120000 else .configRetry)) s

/-- D3HOT_ENTRY (R769). -/
def execD3hotEntry (s : State) : Host.Outcome State Fault Refusal :=
  run .d3hotEntry (fun d => if d.bootOver then { d with hst := { d.hst with d3hot := true } } else d) s

/-- D0_RETURN (R769): every state is kept, and the MSI-X messages held pending are sent. -/
def execD0Return (s : State) : Host.Outcome State Fault Refusal :=
  run .d0Return (fun d =>
    let d1 : Dev := { d with hst := { d.hst with d3hot := false, msixPending := [] } }
    d.hst.msixPending.foldl Dev.msix d1) s

/-! ### The input stage and J1 (R751 to R753, R761) -/

/-- The input is lost: every rail is off, and all that is not in flash, in fuses or outside the device is gone (R752). -/
def Dev.inputLost (d : Dev) : Dev :=
  ({ Dev.reset with
    free := d.free, board := d.board, mem := { Dev.reset.mem with t3 := d.mem.t3 },
    sec := { Sec.reset with perst := d.sec.perst, extLost := d.sec.extLost },
    hst := { d.hst with d3hot := false, msixPending := [], i3cAddr := none, waits := [], lwrites := [], link := 0, clock := d.hst.clock + d.now },
    pwr := { Pwr.reset with minSlack := d.pwr.minSlack, powered := d.pwr.powered + (d.now - d.pwr.hours168) },
    out := d.out } : Dev).setReg Reg.HST_INPUT (d.reg Reg.HST_INPUT)

/-- The trips since the last cold reset: the firmware shows them in HST_INPUT (R753). -/
def Dev.setTrips (d : Dev) (n : Nat) : Dev :=
  ({ d with hst := { d.hst with input := setFld d.hst.input 35 32 n } } : Dev).setRf Reg.HST_INPUT 35 32 n

/-- Shows the input voltage in tenths of a volt and its range. -/
def Dev.showInput (d : Dev) (dv : Int) : Dev :=
  let w := setBit (setBit (setFld d.hst.input 11 0 dv.toNat) 12 (decide (540 ≤ dv) && decide (dv < 560))) 13
    (decide (700 < dv) && decide (dv ≤ 740))
  ({ d with hst := { d.hst with input := w } } : Dev).setRf Reg.HST_INPUT 13 0 (fld w 13 0)

/-- The input voltage is dv for us microseconds (Table 16-4). -/
def inputEnds (dv : Int) (us : Nat) : Bool :=
  decide (dv < -5) || (decide (dv < 540) && decide (1000 ≤ us)) || (decide (740 < dv) && decide (100 ≤ us))

/-- INPUT_VOLTAGE_CHANGE (R752, R753). Beyond the ratings of Table 16-2 the device promises nothing (R749). -/
def execInputVoltageChange (dv : Int) (us : Nat) (s : State) : Host.Outcome State Fault Refusal :=
  if dv < -700 ∨ 800 < dv then .fault .beyondRatings
  else
    run (.inputVoltageChange dv us) (fun d0 =>
      let d := d0.showInput dv
      let d1 := if inputEnds dv us && d.sec.inputGood then (d.setTrips 0).inputLost else d
      if d1.hst.stayOff && decide (dv < 200) && decide (1000000 ≤ us) then
        { d1 with hst := { d1.hst with stayOff := false, stageOn := true, trips := [] } }
      else d1) s

/-- The times of the trips so far make three within 60 s. -/
def threeTrips : List Nat → Bool
  | a :: _ :: c :: _ => decide (a ≤ c + 60000000000)
  | _ => false

/-- INPUT_OVERCURRENT_TRIP (R753): above 42 A for 100 µs, or above 60 A. -/
def execInputOvercurrentTrip (ma us : Nat) (s : State) : Host.Outcome State Fault Refusal :=
  run (.inputOvercurrentTrip ma us) (fun d =>
    if d.hst.stageOn && ((decide (42000 < ma) && decide (100 ≤ us)) || decide (60000 < ma)) then
      let d1 := (d.setTrips (min 15 (fld d.hst.input 35 32 + 1))).inputLost
      let ts := (d1.hst.clock :: d1.hst.trips).take 3
      { d1 with hst := { d1.hst with stageOn := false, trips := ts, stayOff := threeTrips ts } }
    else d) s

/-- INPUT_STAGE_RESTART (R753): 1 s after a trip. -/
def execInputStageRestart (s : State) : Host.Outcome State Fault Refusal :=
  run .inputStageRestart (fun d =>
    if d.hst.stageOn || d.hst.stayOff then d
    else { d with hst := { d.hst with stageOn := true, clock := d.hst.clock + 1000000000 } }) s

/-- Contacts of a group that are open. -/
def openCount (x : Nat) : Nat := ((List.range 8).filter (fun i => x.testBit i)).length

/-- INPUT_CONTACT_OPEN (R761): more than two open contacts of a group limit the current to 7 A for each that remains. -/
def execInputContactOpen (rtn : Bool) (mask : BitVec 8) (s : State) : Host.Outcome State Fault Refusal :=
  run (.inputContactOpen rtn mask) (fun d =>
    let w := if rtn then setFld d.hst.input 31 24 mask.toNat else setFld d.hst.input 23 16 mask.toNat
    let n := max (openCount (fld w 23 16)) (openCount (fld w 31 24))
    let d1 := if rtn then d.setRf Reg.HST_INPUT 31 24 mask.toNat else d.setRf Reg.HST_INPUT 23 16 mask.toNat
    { d1 with hst := { d1.hst with input := w, limitMa := if 2 < n then some (7000 * (8 - n)) else none } }) s

/-- REFCLK_LOSS (R761). -/
def execRefclkLoss (s : State) : Host.Outcome State Fault Refusal :=
  run .refclkLoss (fun d =>
    let d1 : Dev := { d with sec := { d.sec with extLost := true } }
    if d1.sec.inputGood then d1.setRb Reg.HST_STATUS 9 true else d1) s

/-! ### Accesses that wait (R774, R775) -/

/-- A host access that waits is made again. -/
def hostAgain (c : Instr) (s : State) : Host.Outcome State Fault Refusal :=
  match c with
  | .bar4Access a => execBar4Access a s
  | .registerRcRead v off => execRegisterRcRead v off s
  | .synPost v x => execSynPost v x s
  | .synReset v x => execSynReset v x s
  | .windowWrite v sl x => execWindowWrite v sl x s
  | .rctxCancelGo v sl e => execRctxCancelGo v sl e s
  | .cadCfgEnableSet v n x => execCadCfgEnableSet v n x s
  | .cadCfgEnableClear v n x => execCadCfgEnableClear v n x s
  | .hmbSend v sl n => execHmbSend v sl n s
  | .hmbAck v sl => execHmbAck v sl s
  | .registerWrite v off x => execRegisterWrite v off x s
  | .jobAdmitGo sl => execJobAdmitGo sl s
  | .jobAdmitStop sl => execJobAdmitStop sl s
  | .tirEditWriteLeaf => execTirEditWriteLeaf s
  | .tirEditReadLeaf => execTirEditReadLeaf s
  | .tirEditMove => execTirEditMove s
  | .tirEditInvalidate => execTirEditInvalidate s
  | .poolInit p => execPoolInit p s
  | .poolQuiesceWrite p q => execPoolQuiesceWrite p q s
  | .portCtrlRetrain p => execPortCtrlRetrain p s
  | .synRangeWrite sl x => execSynRangeWrite sl x s
  | .secMextGo n => execSecMextGo n s
  | .secJresetGo sl => execSecJresetGo sl s
  | .secCmdTransition => execSecCmdTransition s
  | .secCmdDebugUnlock => execSecCmdDebugUnlock s
  | .secCmdDebugLock => execSecCmdDebugLock s
  | .secCmdWriteImageChunk => execSecCmdWriteImageChunk s
  | .secCmdSelectSlot => execSecCmdSelectSlot s
  | .secCmdCommitSvn => execSecCmdCommitSvn s
  | .secCmdSaveSettings => execSecCmdSaveSettings s
  | .secCmdRetire => execSecCmdRetire s
  | _ => .next s

/-- The state after a host access that waited: it waits again, or has been made. -/
def State.again (s : State) (c : Instr) : State :=
  match hostAgain c s with
  | .next t => t
  | _ => s

/-- The host accesses that wait are tried again, oldest first. -/
def State.retryHost (s : State) : State :=
  if s.dev.hst.waits = [] then s
  else s.dev.hst.waits.foldl State.again { s with dev := { s.dev with hst := { s.dev.hst with waits := [] } } }

end Sys2Proof.Machine
end

