-- ==== Sys2Proof/Machine/Clock.lean ====
section
/-! DEFINITION. The passing of one CCLK: what an idle step of the block does (log 10). -/

namespace Sys2Proof.Machine

/-- The ACLK divider in force, 32 to 64 (R674, PWR_STATUS). -/
def Dev.divider (d : Dev) : Nat :=
  let n := d.rf Reg.PWR_STATUS 6 0
  if n = 0 then 64 else n

/-- Cycles of a core's clock pass for the timeout of a SOWAIT (R108). -/
def Core.passCycles (x : Core) (n : Nat) : Core :=
  match x.wait with
  | some (.sowait rd obj target (some left)) => { x with wait := some (.sowait rd obj target (some (left - n))) }
  | _ => x

/-- Core c counts the cycles of its own clock in one CCLK: ACLK for engine cores, at 64 / D cycles (Table 2-2,
Table 14-1). -/
def Dev.countCycles (d : Dev) (c : Nat) : Dev :=
  d.modCore c (fun x =>
    if c < 32 then
      let n := x.phase + 64
      { (x.passCycles (n / d.divider)).setCsr 0x400 (x.csrOf 0x400 + BitVec.ofNat 64 (n / d.divider)) with phase := n % d.divider }
    else (x.passCycles 1).setCsr 0x400 (x.csrOf 0x400 + 1))

/-- The ACLK cycles of one CCLK are counted, 64 / D of them; hints start and end by the count (R411, R699). -/
def Dev.countAclk (d : Dev) : Dev :=
  d.modPwr (fun x =>
    let n := x.aphase + 64
    { x with aclks := x.aclks + n / d.divider, aphase := n % d.divider })

/-- An RPACK arrive that waits for the bins of its stage is taken again (log 146). -/
def Dev.wakeArrive (d : Dev) : Dev :=
  cores41.foldl (fun a c => if (a.core c).wait = some (.room 512) then a.modCore c (fun y => { y with wait := none }) else a) d

/-- One CCLK passes: the scheduler notes the entries whose dependencies are met at its end (R441, R452); time and cycle counters
advance, as does the count of ACLK cycles (R411); engines whose reassignment is over move to their slots (R449); the pace epoch counts the engines' service (R447); line reads that wait are tried again; the collectives in hand go on (log 129). While
the input is absent there is no clock. -/
def Dev.tick (d : Dev) : Dev :=
  if d.sec.inputGood then
    let d0 := d.noteMet
    ((((List.range 41).foldl Dev.countCycles { d0 with now := d0.now + 1 }).countAclk.engMoves)).countServed.serveReads.collTick.wakeArrive
  else d

/-- What one CCLK does to the block: the device's own time, then the host accesses that wait. -/
def State.tick (s : State) : State :=
  if s.dev.sec.inputGood then { s with dev := s.dev.tick }.retryHost else s

end Sys2Proof.Machine
end

