-- ==== Sys2Proof/Machine/Encode.lean ====
section
/-! DEFINITION. VSPENC: the encoder of weight gobs and the map of activation blocks (R343, R350, R360, R361, R388, R389). -/

namespace Sys2Proof.Machine

/-- An encode descriptor (Table 8-7). -/
structure EDesc where
  src : Nat
  spitch : Nat
  efmt : Nat
  smode : Nat
  form : Nat
  dslot : Nat
  nb : Nat
  nkb : Nat
  cg : Nat
  so : Nat
  deriving DecidableEq, Repr

/-- Table 8-7. -/
def edescOf (ws : List Nat) : EDesc :=
  { src := nfld (dw ws 0) 19 0, spitch := nfld (dw ws 0) 35 20, efmt := nfld (dw ws 0) 39 36,
    smode := nfld (dw ws 0) 41 40, form := nfld (dw ws 0) 43 42, dslot := nfld (dw ws 1) 9 0,
    nb := nfld (dw ws 1) 17 10, nkb := nfld (dw ws 1) 33 18, cg := nfld (dw ws 1) 49 34, so := nfld (dw ws 2) 15 0 }

/-- Gobs that an encode writes. -/
def EDesc.gobs (x : EDesc) : Nat := (x.nkb + x.nb - 1) / x.nb

/-- The fault of an encode's checks, 0 for none. -/
def EDesc.fault (x : EDesc) : Nat :=
  if !operandFmt x.efmt || !smodeOk x.efmt x.smode then 0x0101
  else if x.form = 3 ∨ x.nb = 0 ∨ 128 < x.nb ∨ 65536 < 320 + x.nb * denseRecord x.efmt x.smode then 0x0203
  else if storeBytes < x.src * 64 + 127 * x.spitch * 64 + rowBytes x.efmt x.smode (32 * x.nkb)
      ∨ 768 < x.dslot + x.gobs then 0x0107
  else 0

/-! ### Blocks as the encoder sees them -/

/-- One column of one block: element bits, scale bytes, and for each element whether it counts as non-zero. -/
structure EncCol where
  xs : List Nat
  sc : List Byte
  nz : List Bool
  nf : Bool
  deriving DecidableEq, Repr

/-- The codebook by which CB4 weights are read, which the encode descriptor does not name: free entries (log 57). -/
def encodeBook : List Byte := (List.range 16).map Config.encodeBook

/-- Column c of K block j of the source. -/
def Dev.encCol (d : Dev) (e : Nat) (x : EDesc) (j c : Nat) : EncCol :=
  let n := 32 * x.nkb
  let row := d.esRead e (x.src * 64 + c * x.spitch * 64) (rowBytes x.efmt x.smode n)
  let vs := rowBlock x.efmt x.smode encodeBook n row j
  { xs := (List.range 32).map (fun i => packedElem (fmtBits x.efmt) row (32 * j + i)),
    sc := (row.drop (elemBytes x.efmt n + j * scaleBytes x.smode)).take (scaleBytes x.smode),
    nz := vs.map (fun v => !v.isZero), nf := vs.any Val.nonFinite }

/-- Bytes padded with zeros to a multiple of 64. -/
def padBytes (bs : List Byte) : List Byte := bs ++ List.replicate (pad64 bs.length - bs.length) 0#8

/-- A dense record (Table 7-3). -/
def denseRec (fmt : Nat) (cs : List EncCol) : List Byte :=
  padBytes (packElems (fmtBits fmt) (cs.flatMap (fun c => c.xs)) ++ cs.flatMap (fun c => c.sc))

/-- The two positions that form 1 stores for a group: the non-zero ones, then the lowest unlisted, ascending (R343); none
for a group of three or four non-zero values. -/
def pairOf (nz : List Bool) : Option (Nat × Nat) :=
  let on := (List.range 4).filter (fun i => nz.getD i false)
  let off := (List.range 4).filter (fun i => !nz.getD i false)
  match on ++ off with
  | a :: b :: _ => if 2 < on.length then none else some (min a b, max a b)
  | _ => none

/-- The groups of a column: stored positions, or none where a group has too many. -/
def EncCol.pairs (c : EncCol) : Option (List (Nat × Nat)) :=
  (List.range 8).mapM (fun g => pairOf ((c.nz.drop (4 * g)).take 4))

/-- Stored values of a column in form 1: +0 in spare slots. -/
def EncCol.stored (c : EncCol) (ps : List (Nat × Nat)) : List Nat :=
  (List.range 8).flatMap (fun g =>
    let p := ps.getD g (0, 1)
    let at_ := fun i => if c.nz.getD (4 * g + i) false then c.xs.getD (4 * g + i) 0 else 0
    [at_ p.1, at_ p.2])

/-- The index word of a column in form 1. -/
def pairWord (ps : List (Nat × Nat)) : Nat :=
  ((List.range 8).map (fun g => ((ps.getD g (0, 1)).1 + (ps.getD g (0, 1)).2 * 4) * 16 ^ g)).sum

/-- A form 1 record, when every group allows it. -/
def pairRec (fmt : Nat) (cs : List EncCol) : Option (List Byte) :=
  (cs.mapM EncCol.pairs).map (fun ps =>
    padBytes (packElems (fmtBits fmt) ((List.zip cs ps).flatMap (fun z => z.1.stored z.2))
      ++ ps.flatMap (fun p => leBytes 4 (pairWord p)) ++ cs.flatMap (fun c => c.sc)))

/-- The bitmap word of a column in form 2. -/
def EncCol.bitmap (c : EncCol) : Nat := ((List.range 32).map (fun i => b2n (c.nz.getD i false) * 2 ^ i)).sum

/-- A form 2 record; none for a block of zeros. -/
def sparseRec (fmt : Nat) (cs : List EncCol) : List Byte :=
  if cs.all (fun c => c.nz.all (fun b => !b)) then []
  else
    padBytes (cs.flatMap (fun c => leBytes 4 c.bitmap) ++ cs.flatMap (fun c => c.sc)
      ++ packElems (fmtBits fmt) (cs.flatMap (fun c =>
        ((List.zip c.xs c.nz).filter (fun z => z.2)).map (fun z => z.1))))

/-- The records of a gob in a form; none where form 1 meets a group that it cannot store. -/
def recordsOf (form fmt : Nat) (bs : List (List EncCol)) : Option (List (List Byte)) :=
  if form = 1 then bs.mapM (pairRec fmt)
  else some (bs.map (if form = 2 then sparseRec fmt else denseRec fmt))

/-- Bytes that a gob uses with its records. -/
def usedBytes (rs : List (List Byte)) : Nat := 320 + (rs.map List.length).sum

/-- Offset table entries of the records, the first from byte `at_`; 0xFFFF for an absent block. -/
def offsetsOf : Nat → List (List Byte) → List Nat
  | _, [] => []
  | at_, r :: rs => (if r = [] then 0xFFFF else at_ / 64) :: offsetsOf (at_ + r.length) rs

/-- The payload of a gob: directory, offset table (entries of blocks that the gob does not have: log 57), records. -/
def payloadOf (x : EDesc) (form kb0 : Nat) (bs : List (List EncCol)) (rs : List (List Byte)) (spare : Nat) : List Byte :=
  let n := bs.length
  let dir := form + x.efmt * 2 ^ 2 + x.smode * 2 ^ 6 + kb0 * 2 ^ 8 + n * 2 ^ 24 + x.cg * 2 ^ 32
  let bmap := ((List.range n).map (fun j =>
    let cs := bs.getD j []
    (b2n (cs.any (fun c => c.nz.any id)) + 2 * b2n (cs.any (fun c => c.nf))) * 4 ^ j)).sum
  leBytes 8 dir ++ leBytes 4 (320 + n * denseRecord x.efmt x.smode) ++ leBytes 4 (usedBytes rs) ++ leBytes 32 bmap
    ++ List.replicate 16 0#8
    ++ (offsetsOf 320 rs ++ List.replicate (128 - n) spare).flatMap (leBytes 2) ++ rs.flatten

/-- The header of a gob that an encoder writes for a slot (R361, Table 10-5): weights of the slot's job. The gob belongs to no object
yet: its obj, index and version are free values (log 142). -/
def Dev.encHead (d : Dev) (s form crc : Nat) : GobHead × Dev :=
  let a := d.takeFree
  let b := a.2.takeFree
  ({ hver := 1, kind := 1, form := form, crcOk := true, obj := fld (Config.freeWord a.1) 15 0,
     index := fld (Config.freeWord a.1) 63 32, version := (Config.freeWord b.1).toNat, crc := crc, job := d.jobId s }, b.2)

/-- Writes gob g of an encode: its payload, then its header, which commits it (R360, R361, R481); none where form 1 cannot store a group (0x0201). -/
def Dev.encGob (d : Dev) (c s : Nat) (x : EDesc) (g : Nat) : Option Dev :=
  let kb0 := g * x.nb
  let n := min x.nb (x.nkb - kb0)
  let bs := (List.range n).map (fun j => (List.range 128).map (d.encCol c x (kb0 + j)))
  match recordsOf x.form x.efmt bs with
  | none => none
  | some rs =>
    let back := decide (320 + n * denseRecord x.efmt x.smode < usedBytes rs)
    let form := if back then 0 else x.form
    let rs1 := if back then bs.map (denseRec x.efmt) else rs
    let f := d.takeFree
    let bytes := payloadOf x form kb0 bs rs1 ((Config.freeWord f.1).toNat % 65536)
    let d1 := if back then f.2.setRb (Reg.ENG_SPSTAT c) 0 true else f.2
    let d2 := d1.esWrite c ((x.dslot + g) * 65536) bytes
    let h := d2.encHead s form (crc64xz (d2.esRead c ((x.dslot + g) * 65536) 65536))
    some ((h.2.modEngine c (fun y => { y with heads := tput (fun _ => none) y.heads (x.dslot + g) (some h.1) })).commitUnit c 1 4096 bytes)

/-- The K block of gob g of an encode that has a group which form 1 cannot store: the first one. -/
def Dev.encBad (d : Dev) (c : Nat) (x : EDesc) (g : Nat) : Nat :=
  let kb0 := g * x.nb
  kb0 + (((List.range (min x.nb (x.nkb - kb0))).find? (fun j =>
    (pairRec x.efmt ((List.range 128).map (d.encCol c x (kb0 + j)))).isNone)).getD 0)

/-- Writes gobs from g on. A fault leaves the gob in flight, whose number it answers, and later ones unwritten. -/
def Dev.encGobs (d : Dev) (c s : Nat) (x : EDesc) : Nat → Nat → Dev × Option Nat
  | 0, _ => (d, none)
  | n + 1, g =>
    match d.encGob c s x g with
    | none => (d, some g)
    | some d1 => d1.encGobs c s x n (g + 1)

/-! ### VSPENC map -/

/-- The bits of one K block over the rows of an activation operand. -/
def Dev.blockBits (d : Dev) (e : Nat) (a : ADesc) (b : Nat) : Nat :=
  let book := d.book e a.efmt a.cbook
  mapBits ((List.range a.m).flatMap (fun r => rowBlock a.efmt a.smode book a.n (d.actRow e a r) b))

/-- ORs the bits of blocks into the map, block by block (R350, R388). -/
def Dev.mapBlocks (d : Dev) (e : Nat) (a : ADesc) : List Nat → MemRes
  | [] => .ok d []
  | b :: bs =>
    match d.orMap e (a.amap + b / 4) (d.blockBits e a b * 4 ^ (b % 4)) with
    | .ok d1 _ => d1.mapBlocks e a bs
    | r => r

/-! ### Commands -/

/-- Queues an encoder or map operation. -/
def Dev.encQueue (d : Dev) (c : Nat) (y : EncWork) (units : Nat) : Dev :=
  (d.modEngine c (fun x => { x with enc := x.enc ++ [y] })).modCore c (fun x =>
    { x with entry := x.entry.map (fun n => { n with nextUnit := n.nextUnit + units }) })

/-- VSPENC encode (R389): issue. -/
def execVspencEncode (w : IW) (s : State) : Host.Outcome State Fault Refusal :=
  run (.vspencEncode w) (fun d => d.instr (mOp 0x27) (decide (fld w.fn 10 2 = 0)) w (fun d1 x =>
    match d1.desc w.core (x.r1 w) 4 with
    | .stop r => r
    | .ok d2 ws =>
      let y := edescOf ws
      if y.fault ≠ 0 then
        unitRaise (d2.metaFault w.core y.fault)
          { matrixFault y.fault w.core (x.r1 w) x.pc.toNat 0 0 0 (x.r1 w).toNat with ukind := if y.fault = 0x0203 then 2 else 1 }
      else
        .done (d2.encQueue w.core
          { core := w.core, pc := x.pc.toNat, map := false, desc := ws.map (BitVec.ofNat 64), so := y.so,
            slot := x.slotN, unit := (x.entry.map (fun n => n.nextUnit)).getD 0 } y.gobs))) s

/-- VSPENC map (R388): issue. -/
def execVspencMap (w : IW) (s : State) : Host.Outcome State Fault Refusal :=
  run (.vspencMap w) (fun d => d.instr (mOp 0x27) (decide (fld w.fn 10 2 = 0)) w (fun d1 x =>
    match d1.desc w.core (x.r1 w) 8 with
    | .stop r => r
    | .ok d2 ws =>
      let a := adescOf ws
      if !a.fmtOk then unitRaise d2 (matrixFault 0x0101 w.core (x.r1 w) x.pc.toNat 0 a.kb 0 (x.r1 w).toNat)
      else if !a.inStore then unitRaise d2 (matrixFault 0x0107 w.core (x.r1 w) x.pc.toNat 0 a.kb 0 (x.r1 w).toNat)
      else
        .done (d2.encQueue w.core
          { core := w.core, pc := x.pc.toNat, map := true, desc := ws.map (BitVec.ofNat 64),
            so := fld (x.r2 w) 15 0, slot := x.slotN, unit := 0 } 0))) s

/-- VSPENC_COMPLETION (R361, R388): the oldest operation writes its gobs or its map and posts its object. A map byte that
cannot be written yet leaves the operation to be tried again (R137, R350). An encode waits
for the earlier units of its entry (R652). -/
def Dev.encComplete (d : Dev) (e : Nat) : Dev :=
  match (d.engine e).enc with
  | [] => d
  | y :: ys =>
    let ws := y.desc.map BitVec.toNat
    let d1 := d.modEngine e (fun x => { x with enc := ys })
    if y.map then
      let a := adescOf ws
      match d.mapBlocks e a ((List.range a.nkb).map (fun j => a.kb + j)) with
      | .ok d2 _ => ((d2.modEngine e (fun x => { x with enc := ys })).unitDone y.slot e).donePost y.slot e y.so 1 false
      | .fault d2 f => (d2.modEngine e (fun x => { x with enc := ys })).asyncFault y.core y.slot f
      | .stall d2 => d2
    else if y.unit ≠ ((d.core y.core).entry.map (fun n => n.units)).getD y.unit then d
    else
      let x := edescOf ws
      let r := d1.encGobs e y.slot x x.gobs 0
      match r.2 with
      | none => (r.1.unitPost y.slot y.so 1 false).engMoved e
      | some g =>
        ((r.1.metaFault e 0x0201).asyncFault y.core y.slot
          { matrixFault 0x0201 e (BitVec.ofNat 64 y.pc) y.pc 0 (r.1.encBad e x g) 0 (0xFFFF80000000 + (x.dslot + g) * 65536) with
            ukind := 2 }).engMoved e

/-- VSPENC_COMPLETION (R361). -/
def execVspencCompletion (e : Nat) (s : State) : Host.Outcome State Fault Refusal :=
  run (.vspencCompletion e) (fun d => d.encComplete e) s

end Sys2Proof.Machine
end

