-- ==== Sys2Proof/Machine/Manage.lean ====
section
/-! DEFINITION. The management controller (R721, R763 to R767) and the SPDM responder (R741, R742). The bodies that DMTF
documents lay out are free values (log 34). -/

namespace Sys2Proof.Machine

/-! ### Management -/

/-- The management controller answers from 20 ms after input good (R721). Time runs from the lock of the root PLL. -/
def Dev.awake (d : Dev) : Bool :=
  d.sec.inputGood && decide (d.rf Reg.SEC_BOOT 3 0 ≠ 1) && decide (20 ≤ d.now / 1000000 + d.sec.t0)

/-- What management reports (Table 15-2, R723). -/
def Dev.statusName (d : Dev) : String :=
  if d.rf Reg.SEC_BOOT 3 0 = 7 then "ready" else if d.rf Reg.SEC_BOOT 3 0 = 8 then "failed" else "starting"

/-- Management serves commands. -/
def Dev.serves (d : Dev) : Bool := decide (d.rf Reg.SEC_BOOT 3 0 = 7)

/-- MCTP_CONTROL_REQUEST (R721, R766): status until device-ready, then the query's answer. -/
def execMctpControlRequest (q : Nat) (s : State) : Host.Outcome State Fault Refusal :=
  run (.mctpControlRequest q) (fun d =>
    if d.awake = false then d
    else if d.serves then d.answer (.mctp 0 (Config.mctpBody 0 q))
    else d.answer (.status d.statusName)) s

/-- A PLDM command other than status: nothing before 20 ms, ERROR_NOT_READY until device-ready, then served (R721). -/
def Dev.pldm (d : Dev) (f : Dev → Dev) : Dev :=
  if d.awake = false then d else if d.serves then f d else d.answer .errorNotReady

/-- GET_TID (R766). -/
def execGetTid (s : State) : Host.Outcome State Fault Refusal :=
  run .getTid (fun d => d.pldm (fun a => a.answer (.mctp 1 (Config.mctpBody 1 0)))) s

/-- GET_PLDM_VERSION (R766). -/
def execGetPldmVersion (s : State) : Host.Outcome State Fault Refusal :=
  run .getPldmVersion (fun d => d.pldm (fun a => a.answer (.mctp 2 (Config.mctpBody 2 0)))) s

/-- GET_PLDM_TYPES (R766). -/
def execGetPldmTypes (s : State) : Host.Outcome State Fault Refusal :=
  run .getPldmTypes (fun d => d.pldm (fun a => a.answer (.mctp 3 (Config.mctpBody 3 0)))) s

/-- GET_PLDM_COMMANDS (R766). -/
def execGetPldmCommands (s : State) : Host.Outcome State Fault Refusal :=
  run .getPldmCommands (fun d => d.pldm (fun a => a.answer (.mctp 4 (Config.mctpBody 4 0)))) s

/-- The sensors of Table 16-11 by the model's numbers (log 90): input voltage; input power; 10 ms average; power of the five
shares; hottest junction; coolant inlet, outlet; hottest GDDR7 device; boot step; life cycle; throttle; tripped; end of
margin. -/
def Dev.sensor (d : Dev) (id : Nat) : Int :=
  match id with
  | 0 => fld d.hst.input 11 0
  | 1 => d.rf Reg.PWR_MEAS 15 0
  | 2 => d.rf Reg.PWR_MEAS 47 32
  | 8 => sval 16 (d.rf Reg.PWR_THERM 15 0)
  | 9 => sval 16 (d.rf (Reg.PWR_TSENS 38) 15 0)
  | 10 => sval 16 (d.rf (Reg.PWR_TSENS 39) 15 0)
  | 11 => max (sval 16 (d.rf (Reg.PWR_TSENS 36) 15 0)) (sval 16 (d.rf (Reg.PWR_TSENS 37) 15 0))
  | 12 => d.rf Reg.SEC_BOOT 3 0
  | 13 => d.rf Reg.SEC_LC 2 0
  | 14 => b2n (d.rb Reg.PWR_STATUS 26)
  | 15 => b2n (d.rb Reg.PWR_STATUS 31)
  | 16 => b2n (d.rb Reg.PWR_STATUS 27)
  | n => d.rf (Reg.PWR_DOM (n - 3)) 15 0

/-- PLDM_SENSOR_READ (R766). -/
def execPldmSensorRead (id : Nat) (s : State) : Host.Outcome State Fault Refusal :=
  run (.pldmSensorRead id) (fun d => d.pldm (fun a => a.answer (.sensor id (a.sensor id)))) s

/-- POWER_CAP_EFFECTER_WRITE (R767). -/
def execPowerCapEffecterWrite (watts : Nat) (s : State) : Host.Outcome State Fault Refusal :=
  run (.powerCapEffecterWrite watts) (fun d => d.pldm (fun a =>
    (a.setRf Reg.PWR_CAP 10 0 (max 800 (min 1800 watts))).answer (.status "success"))) s

/-- What the FRU data of a board holds (R3, R764, Table 16-10). -/
def Board.fru (b : Board) : FruContent :=
  { part := b.part, brdRev := b.brdRev % 16, memPop := b.memPop, device := b.deviceId, watts := 1800, wattsPeak := 2000, flow := 20,
    inlet := 40 }

/-- FRU_READ (R763): whenever MGMT_3V3 is present, the input good or not. The bytes spell the content as IPMI lays it out, with
serial number and date of the module: they are free, by part and board revision (log 39). -/
def execFruRead (off len : Nat) (s : State) : Host.Outcome State Fault Refusal :=
  run (.fruRead off len) (fun d => d.answer (.fru d.board.fru ((List.range len).map (fun i =>
    Config.fruByte (b2n d.board.memPop + d.board.brdRev % 16 * 2) ((off + i) % 8192))))) s

/-- DYNAMIC_ADDRESS_ASSIGNMENT (R765). -/
def execDynamicAddressAssignment (addr : Nat) (s : State) : Host.Outcome State Fault Refusal :=
  run (.dynamicAddressAssignment addr) (fun d => if d.awake then { d with hst := { d.hst with i3cAddr := some addr } } else d) s

/-! ### SPDM -/

/-- Attestation is served: not in BLANK, not in RETIRED (Table 15-4). -/
def Dev.attests (d : Dev) : Bool := decide (1 ≤ d.rf Reg.SEC_LC 2 0) && decide (d.rf Reg.SEC_LC 2 0 ≤ 3)

/-- An SPDM answer: its code (PRESUMED, log 34), what this spec says it holds, the rest as DMTF lays it out, and a signature
by the attestation key over all of it where the response carries one (R742). -/
def Dev.spdmAnswer (d : Dev) (code : Nat) (holds req : List Byte) (signed : Bool) : Dev :=
  let r := d.takeFree
  let body := holds ++ Config.spdmBody code req r.1
  r.2.answer (.spdm code body (if signed then Config.falconSign d.sec.attKey body else []))

/-- A request: no answer before fabric-ready or in boot-failed, Busy before device-ready (R721, R723); one that attests is
answered with ERROR where the life-cycle state refuses attestation. -/
def Dev.spdm (d : Dev) (attest : Bool) (f : Dev → Dev) : Dev :=
  if d.sec.inputGood = false ∨ d.rb Reg.FAB_STATUS 0 = false ∨ d.rf Reg.SEC_BOOT 3 0 = 8 then d
  else if d.serves = false then d.answer .spdmBusy
  else if attest && !d.attests then d.spdmAnswer 0x7F [] [] false
  else f d

/-- GET_VERSION (R741). -/
def execGetVersion (req : List (BitVec 8)) (s : State) : Host.Outcome State Fault Refusal :=
  run (.getVersion req) (fun d => d.spdm false (fun a => a.spdmAnswer 0x84 [] req false)) s

/-- GET_CAPABILITIES (R741). -/
def execGetCapabilities (req : List (BitVec 8)) (s : State) : Host.Outcome State Fault Refusal :=
  run (.getCapabilities req) (fun d => d.spdm false (fun a => a.spdmAnswer 0xE1 [] req false)) s

/-- NEGOTIATE_ALGORITHMS (R741). -/
def execNegotiateAlgorithms (req : List (BitVec 8)) (s : State) : Host.Outcome State Fault Refusal :=
  run (.negotiateAlgorithms req) (fun d => d.spdm false (fun a => a.spdmAnswer 0xE3 [] req false)) s

/-- The certificates of slot 0 that the device holds: identity, attestation (Table 15-9). -/
def State.chain (s : State) : List Byte := s.nv.idCert ++ s.dev.sec.attCert

/-- GET_DIGESTS (R741). -/
def execGetDigests (req : List (BitVec 8)) (s : State) : Host.Outcome State Fault Refusal :=
  run (.getDigests req) (fun d => d.spdm true (fun a => a.spdmAnswer 0x81 [] (req ++ s.chain) false)) s

/-- GET_CERTIFICATE (R741). -/
def execGetCertificate (req : List (BitVec 8)) (s : State) : Host.Outcome State Fault Refusal :=
  run (.getCertificate req) (fun d => d.spdm true (fun a => a.spdmAnswer 0x82 [] (req ++ s.chain) false)) s

/-- CHALLENGE (R742). -/
def execChallenge (req : List (BitVec 8)) (s : State) : Host.Outcome State Fault Refusal :=
  run (.challenge req) (fun d => d.spdm true (fun a => a.spdmAnswer 0x83 [] (req ++ s.chain) true)) s

/-- The measurements that an index names: n from 1 to 16 is MREG n − 1, 0xFF all (Table 15-9). -/
def Dev.measurements (d : Dev) (i : Nat) : List Byte :=
  if i = 0xFF then (List.range 16).flatMap d.mreg else if 1 ≤ i ∧ i ≤ 16 then d.mreg (i - 1) else []

/-- GET_MEASUREMENTS (R741, R742): the index in byte 3, a signature asked for in byte 2. -/
def execGetMeasurements (req : List (BitVec 8)) (s : State) : Host.Outcome State Fault Refusal :=
  run (.getMeasurements req) (fun d => d.spdm true (fun a =>
    a.spdmAnswer 0xE0 (a.measurements (req.getD 3 0).toNat) req (bitAt (req.getD 2 0) 0))) s

/-- KEY_EXCHANGE (R741, R742). -/
def execKeyExchange (req : List (BitVec 8)) (s : State) : Host.Outcome State Fault Refusal :=
  run (.keyExchange req) (fun d => d.spdm true (fun a => a.spdmAnswer 0xE4 [] (req ++ s.chain) true)) s

/-- FINISH (R741). -/
def execFinish (req : List (BitVec 8)) (s : State) : Host.Outcome State Fault Refusal :=
  run (.finish req) (fun d => d.spdm true (fun a => a.spdmAnswer 0xE5 [] req false)) s

/-- KEY_UPDATE (R741). -/
def execKeyUpdate (req : List (BitVec 8)) (s : State) : Host.Outcome State Fault Refusal :=
  run (.keyUpdate req) (fun d => d.spdm true (fun a => a.spdmAnswer 0xE9 [] req false)) s

/-- HEARTBEAT (R741). -/
def execHeartbeat (req : List (BitVec 8)) (s : State) : Host.Outcome State Fault Refusal :=
  run (.heartbeat req) (fun d => d.spdm true (fun a => a.spdmAnswer 0xE8 [] req false)) s

/-- END_SESSION (R741). -/
def execEndSession (req : List (BitVec 8)) (s : State) : Host.Outcome State Fault Refusal :=
  run (.endSession req) (fun d => d.spdm true (fun a => a.spdmAnswer 0xEC [] req false)) s

/-- CHUNK_GET (R741). -/
def execChunkGet (req : List (BitVec 8)) (s : State) : Host.Outcome State Fault Refusal :=
  run (.chunkGet req) (fun d => d.spdm false (fun a => a.spdmAnswer 0x86 [] req false)) s

/-- IDE key management (R740, R771): the streams that are secure after the request; a change extends MREG6. -/
def Dev.ideRequest (d : Dev) (req : List Byte) : Dev :=
  let old := d.rf Reg.HST_STATUS 14 10
  let new := Config.ideStreams old req % 32
  if new = old then d else (d.setRf Reg.HST_STATUS 14 10 new).extend 6 (Config.ideDigest req)

/-- VENDOR_DEFINED_REQUEST (R741): PCIe IDE key management. -/
def execVendorDefinedRequest (req : List (BitVec 8)) (s : State) : Host.Outcome State Fault Refusal :=
  run (.vendorDefinedRequest req) (fun d => d.spdm true (fun a => (a.ideRequest req).spdmAnswer 0xFE [] req false)) s

end Sys2Proof.Machine
end

