-- ==== Sys2Proof/Machine/System.lean ====
section
/-! DEFINITION. Sync instructions, privilege and exceptions as cores execute and take them (R103 to R126, R744, R800). -/

namespace Sys2Proof.Machine

/-! ### Sync names -/

/-- Node of a sync name. -/
def syncNode (n : Word) : Nat := fld n 63 48

/-- Object index of a sync name. -/
def syncObj (n : Word) : Nat := fld n 15 0

/-- A fault of the 0x08 area: sync name, count or target, owner slot of the object (Table 13-4). -/
def Dev.syncFault (d : Dev) (code c : Nat) (name : Word) (n : Nat) : FaultInfo :=
  mkFault code name c name.toNat n (match d.owner (syncObj name) with
    | some s => s + 16
    | none => 0)

/-- A core may touch an object of this device: any at M, at J those its slot owns (R112). -/
def Dev.mayTouch (d : Dev) (c i : Nat) : Bool :=
  let x := d.core c
  x.atM c || (match x.slot with
    | some s => decide (d.owner i = some s)
    | none => false)

/-! ### SOPOST -/

/-- A post to an object of this device: applied at once when its release is met, else held (R104, R114, R132). -/
def postLocal (d : Dev) (w : IW) (name : Word) (n : Nat) (err dst : Bool) : IRes :=
  let c := w.core
  let i := syncObj name
  if d.mayTouch c i = false then unitRaise d (d.syncFault 0x0801 c name n)
  else
    let g := if dst then d.storesOf c else d.gateOf c none
    if d.gateOpen g && decide ((d.core c).posts = []) then
      let r := d.post i n err
      if r.2 then doneRd r.1 w 0 else unitRaise r.1 (d.syncFault 0x0803 c name n)
    else
      doneRd (d.modCore c (fun x => { x with posts := x.posts ++
        [({ name := name, count := n, err := err, gate := g } : HeldPost)] })) w 0

/-- A post to an object of another node: VC4, in the space of posts, entered in the remote-post ledger (R105, R132,
R556). -/
def postRemote (d : Dev) (w : IW) (name : Word) (n : Nat) (err dst : Bool) : IRes :=
  let c := w.core
  let s := (d.core c).slotN
  if !d.inTopo (syncNode name) then unitRaise d (fabFault 0x0503 name (syncNode name) c 0 true 0 0 0)
  else
    let t : Tx := { d.tx 0x07 4 (syncNode name) (d.jobId s) c with offset := syncObj name + n * 2 ^ 16, err := err }
    if d.spaceFailed t then unitRaise d (fabFault 0x0504 name (syncNode name) c 0 true 0 0 0)
    else
      let d1 := ((d.notePost s n).issue t (d.gateOf c (if dst then some (syncNode name) else none))).remoteLedgerCheck s
      if d.runs s && !d1.runs s then .leave d1 else doneRd d1 w 0

/-- SOPOST (R104, R105, R112 to R114, R132). Rules are silent on fn[10:4], which is ignored (DESIGN CHOICE, log 124). -/
def execSopost (w : IW) (s : State) : Host.Outcome State Fault Refusal :=
  run (.sopost w) (fun d => d.instr (cOp 0x14 false) true w (fun d1 x =>
    let name := x.r1 w
    let n := fld (x.r2 w) 31 0
    if !d1.matrixQuiet w.core then .stall d1 (.room w.core)
    else if d1.linesOut w.core then .stall d1 .lines
    else if syncNode name = d1.node then postLocal d1 w name n (bitAt w.fn 2) (bitAt w.fn 3)
    else postRemote d1 w name n (bitAt w.fn 2) (bitAt w.fn 3))) s

/-! ### SOWAIT and SORESET -/

/-- The status word of Table 2-9. -/
def waitStatus (count : Nat) (met err tmo : Bool) : Word :=
  BitVec.ofNat 64 (count % 2 ^ 32 + b2n met * 2 ^ 32 + b2n err * 2 ^ 33 + b2n tmo * 2 ^ 34)

/-- The status with which a wait ends now; none while it goes on. -/
def Dev.waitEnd (d : Dev) (obj target : Nat) (left : Option Nat) : Option Word :=
  let n := d.synCount obj
  let met := decide (target ≤ n)
  let err := d.synErr obj
  let tmo := decide (left = some 0)
  if met || err || tmo then some (waitStatus n met err (tmo && !met && !err)) else none

/-- Checks that SOWAIT and SORESET make on a sync name: 0x0804 for another node, 0x0801 for an object of another owner
(R111, R112). -/
def localName (d : Dev) (c : Nat) (name : Word) (n : Nat) (k : IRes) : IRes :=
  if syncNode name ≠ d.node then unitRaise d (d.syncFault 0x0804 c name n)
  else if d.mayTouch c (syncObj name) = false then unitRaise d (d.syncFault 0x0801 c name n)
  else k

/-- SOWAIT (R107 to R112): the timeout is 2^t cycles of the core's clock for t from 1 to 31. Rules are silent on fn[3:2] and
fn[10:9], which are ignored (DESIGN CHOICE, log 124). -/
def execSowait (w : IW) (s : State) : Host.Outcome State Fault Refusal :=
  run (.sowait w) (fun d => d.instr (cOp 0x14 false) true w (fun d1 x =>
    let name := x.r1 w
    let n := fld (x.r2 w) 31 0
    let t := fld w.fn 8 4
    let dl := if t = 0 then none else some (2 ^ t)
    localName d1 w.core name n
      (match d1.waitEnd (syncObj name) n dl with
       | some v => doneRd d1 w v
       | none => .stall d1 (.sowait w.rd.toNat (syncObj name) n dl)))) s

/-- SOWAIT_END (R107): the wait of a core ends once its condition holds; before that nothing happens. -/
def Dev.sowaitEnd (d : Dev) (c : Nat) : Dev :=
  match (d.core c).wait with
  | some (.sowait rd obj target dl) =>
    (match d.waitEnd obj target dl with
     | some v => d.modCore c (fun x => (x.setG rd v).retire x.ilen)
     | none => d)
  | _ => d

/-- SOWAIT_END (R107). -/
def execSowaitEnd (c : Nat) (s : State) : Host.Outcome State Fault Refusal :=
  run (.sowaitEnd c) (fun d => d.sowaitEnd c) s

/-- SORESET (R110 to R112). Rules are silent on fn[10:2] and rs2, which are ignored (DESIGN CHOICE, log 124). -/
def execSoreset (w : IW) (s : State) : Host.Outcome State Fault Refusal :=
  run (.soreset w) (fun d => d.instr (cOp 0x14 false) true w (fun d1 x =>
    let name := x.r1 w
    localName d1 w.core name 0
      (doneRd (d1.synReset (syncObj name)) w (BitVec.ofNat 64 (d1.synCount (syncObj name)))))) s

/-! ### The system group (R800) -/

/-- fn[10:3] is 0. -/
def sysFn (w : IW) : Bool := decide (fld w.fn 10 3 = 0)

/-- fn[10:3], rd, rs1 and rs2 are 0. -/
def sysZero (w : IW) : Bool := sysFn w && decide (w.rd = 0) && decide (w.rs1 = 0) && decide (w.rs2 = 0)

/-- A core asks for the job-stop service: it is in the fault handler of 0x0401 or 0x0402, and the request of its JCALL names the
service (R118, R207; the number is the firmware's, log 131). -/
def Core.asksStop (x : Core) (request : Word) : Bool :=
  bitAt (x.csrOf 0x407) 0 && (decide (x.csrOf 0x405 = 0x0401) || decide (x.csrOf 0x405 = 0x0402))
    && decide (request = Config.jobStopCall)

/-- JCALL (R118): cause 0x06, entry to M. The firmware serves the job-stop service by stopping the job as R637 states, without a
further record (R207). -/
def execJcall (w : IW) (s : State) : Host.Outcome State Fault Refusal :=
  run (.jcall w) (fun d => d.instr (cOp 0x12 false) (sysFn w && decide (w.rs2 = 0)) w (fun d1 x =>
    match x.atM w.core, x.slot with
    | false, some sl => if x.asksStop (x.r1 w) then .leave ((Dev.finish w.core (ilenOf w) (.enter d1 0x06 .running)).stopJob sl) else .enter d1 0x06 .running
    | _, _ => .enter d1 0x06 .running)) s

/-- JFRET (R124): illegal at M and with active = 0. -/
def execJfret (w : IW) (s : State) : Host.Outcome State Fault Refusal :=
  run (.jfret w) (fun d => d.instr (cOp 0x12 false) (sysZero w) w (fun d1 x =>
    if x.atM w.core || !bitAt (x.csrOf 0x407) 0 then .raise d1 2 (illegalFault w.core x.pc (wordOf 0x12 w))
    else .go (d1.modCore w.core (fun y => y.setCsr 0x407 0)) (x.csrOf 0x002).toNat)) s

/-- EBREAK (R744): entry to M with debug unlocked, where the core stands in the debug state; fault 0x0A11 with debug
locked. -/
def execEbreak (w : IW) (s : State) : Host.Outcome State Fault Refusal :=
  run (.ebreak w) (fun d => d.instr (cOp 0x12 false) (sysZero w) w (fun d1 x =>
    if d1.sec.unlocked then .enter d1 0x07 .debug
    else .raise d1 7 { illegalFault w.core x.pc (wordOf 0x12 w) with code := 0x0A11 })) s

/-- An instruction of the system group that is illegal at J (R115). -/
def Dev.mOnly (d : Dev) (w : IW) (k : Dev → Core → IRes) : Dev :=
  d.instr (cOp 0x12 false) (sysZero w) w (fun d1 x =>
    if x.atM w.core then k d1 x else .raise d1 2 (illegalFault w.core x.pc (wordOf 0x12 w)))

/-- WFI (R800): the wait may end at once (log 43). -/
def execWfi (w : IW) (s : State) : Host.Outcome State Fault Refusal :=
  run (.wfi w) (fun d => d.mOnly w (fun d1 _ => .done d1)) s

/-- MRET (R117): privilege from ppriv, pc from XEPC. -/
def execMret (w : IW) (s : State) : Host.Outcome State Fault Refusal :=
  run (.mret w) (fun d => d.mOnly w (fun d1 x =>
    .go (d1.modCore w.core (fun y => y.setCsr 0x800 (x.mret.csrOf 0x800))) (x.csrOf 0x802).toNat)) s

/-- HALT (R800): the core takes no further instruction (log 43). -/
def execHalt (w : IW) (s : State) : Host.Outcome State Fault Refusal :=
  run (.halt w) (fun d => d.mOnly w (fun d1 _ => .done (d1.modCore w.core (fun x => { x with run := .halted })))) s

/-! ### Exceptions from outside the instruction -/

/-- A core stands at an instruction boundary, in a SOWAIT that restarts on return (R109, R122), or in a collective program. A core whose entry's code
has ended stands at the entry end address until the entry completes (R417, R418). -/
def Core.boundary (x : Core) : Bool :=
  (decide (x.run = .running) || (decide (x.run = .ended) && x.entry.isSome)) &&
    (match x.wait with
     | none => true
     | some (.sowait _ _ _ _) => true
     | some .coll => true
     | _ => false)

/-- ASYNC_UNIT_FAULT_TAKEN (R121): the oldest unit fault that waits is taken at a boundary with ie = 1 or at J. -/
def Dev.takeAsync (d : Dev) (c : Nat) : Dev :=
  let x := d.core c
  match x.async with
  | [] => d
  | f :: fs =>
    if x.boundary && (bitAt (x.csrOf 0x800) 3 || !x.atM c) then
      (d.modCore c (fun y => { y with async := fs, wait := none, lines := [] })).raiseCore c 8 f
    else d

/-- ASYNC_UNIT_FAULT_TAKEN (R121). -/
def execAsyncUnitFaultTaken (c : Nat) (s : State) : Host.Outcome State Fault Refusal :=
  run (.asyncUnitFaultTaken c) (fun d => d.takeAsync c) s

/-- DEBUG_HALT (R744): with debug unlocked and the core in the token's scope, entry to M with cause 0x0A. -/
def execDebugHalt (c : Nat) (s : State) : Host.Outcome State Fault Refusal :=
  run (.debugHalt c) (fun d =>
    let x := d.core c
    if d.sec.unlocked && x.boundary && (decide (c ≠ 40) || decide (d.sec.scope = 3)) then
      (d.endReads c).setCore c { x.enterM 0x0A 0 with run := .debug, frozen := true }
    else d) s

end Sys2Proof.Machine
end

