-- ==== Sys2Proof/Machine/Vector.lean ====
section
/-! DEFINITION. Vector instructions (Table 8-6, R288 to R293, R384 to R387). -/

namespace Sys2Proof.Machine

/-! ### Lanes -/

/-- The rounding bit of a vector instruction: 0 RNE, 1 RTZ. -/
def vrnd (b : Bool) : Rnd := if b then Rnd.rtz else Rnd.rne

/-- A vector instruction: it waits for a drain to vector registers that has been issued before it (log 56). -/
def Dev.vec (d : Dev) (major : Nat) (legal : Bool) (w : IW) (f : Dev → Core → IRes) : Dev :=
  d.instr (mOp major) legal w (fun d1 x =>
    if (d1.engine w.core).drains.any (fun y => y.toVec) then .stall d1 (.room w.core) else f d1 x)

/-- Completes with new lanes of vd and the flags of the lanes' operations. -/
def doneLanes (d : Dev) (w : IW) (rs : List (W32 × Flg)) : IRes :=
  .done ((d.vflags w.core (flagsOf (rs.map (·.2)))).modCore w.core (fun x => x.setLanes w.rd.toNat 0 (rs.map (·.1))))

/-- A two-operand instruction of major 0x20; fn[10:5] is reserved. -/
def Dev.vArith (d : Dev) (w : IW) (f : Rnd → W32 → W32 → W32 × Flg) : Dev :=
  d.vec 0x20 (decide (fld w.fn 10 5 = 0)) w (fun d1 x =>
    doneLanes d1 w (List.zipWith (f (vrnd (bitAt w.fn 4))) (x.lanes w.rs1.toNat) (x.lanes w.rs2.toNat)))

/-! ### The bound of R292 -/

/-- The first value is at most the second. -/
def leVal (x y : Val) : Bool := decide (cmpVal x y = some Ordering.lt) || decide (cmpVal x y = some Ordering.eq)

/-- A finite value to a power. -/
def Val.pow (x : Val) (n : Nat) : Val :=
  match x with
  | Val.fin s m e => Val.fin (s && decide (n % 2 = 1)) (m ^ n) (e * n)
  | y => y

/-- The power of two 2^q. -/
def twoTo (q : Int) : Val := Val.fin false 1 q

/-- A finite value of at most zero. -/
def Val.notPos : Val → Bool
  | Val.fin s m _ => s || decide (m = 0)
  | _ => false

/-- How a positive value compares with 2^x: both are raised to the power that makes the exponent x whole. -/
def cmpExp2 (a x : Val) : Option Ordering :=
  match x with
  | Val.fin s m e =>
    let p : Int := (m : Int) * 2 ^ e.toNat
    cmpVal (a.pow (2 ^ (-e).toNat)) (twoTo (if s then -p else p))
  | _ => none

/-- a ≤ 2^x. -/
def belowExp2 (a x : Val) : Bool := a.notPos || decide (cmpExp2 a x = some Ordering.lt) || decide (cmpExp2 a x = some Ordering.eq)

/-- 2^x ≤ a. -/
def aboveExp2 (a x : Val) : Bool :=
  !a.notPos && (decide (cmpExp2 a x = some Ordering.gt) || decide (cmpExp2 a x = some Ordering.eq))

/-- a is at most the exact result of VEXP2 (0), VLOG2 (1), VRCP (2), VRSQ (3) on x. -/
def belowExact (k : Nat) (x a : Val) : Bool :=
  match k with
  | 0 => belowExp2 a x
  | 1 => aboveExp2 x a
  | 2 => if x.notPos then leVal (twoTo 0) (vmulExact a x) else leVal (vmulExact a x) (twoTo 0)
  | _ => a.notPos || leVal (vmulExact (vmulExact a a) x) (twoTo 0)

/-- a is at least the exact result. -/
def aboveExact (k : Nat) (x a : Val) : Bool :=
  match k with
  | 0 => aboveExp2 a x
  | 1 => belowExp2 x a
  | 2 => if x.notPos then leVal (vmulExact a x) (twoTo 0) else leVal (twoTo 0) (vmulExact a x)
  | _ => !a.notPos && leVal (twoTo 0) (vmulExact (vmulExact a a) x)

/-- The exact result on an infinity: 2^(+∞) and log2(+∞) are +∞; 2^(−∞), 1/±∞ and 1/√(+∞) are 0. -/
def infExact (k : Nat) (x : Val) : Option Val :=
  match k, x with
  | 0, Val.inf s => some (if s then Val.fin false 0 0 else Val.inf false)
  | 1, Val.inf false => some (Val.inf false)
  | 2, Val.inf _ => some (Val.fin false 0 0)
  | 3, Val.inf false => some (Val.fin false 0 0)
  | _, _ => none

/-- The operands on which the instruction has an exact result. -/
def hasExact (k : Nat) (x : Val) : Bool :=
  match x with
  | Val.fin _ m _ => decide (k = 0) || (decide (m ≠ 0) && (decide (k = 2) || !x.notPos))
  | _ => (infExact k x).isSome

/-- A sum of two finite values. -/
def addVal (x y : Val) : Val :=
  match x, y with
  | Val.fin a m e, Val.fin b n f =>
    let s := sumExact a m e b n f
    Val.fin (decide (s.1 < 0)) s.1.natAbs s.2
  | _, _ => Val.nan

/-- The value negated. -/
def Val.neg : Val → Val
  | Val.fin s m e => Val.fin (!s) m e
  | Val.inf s => Val.inf (!s)
  | Val.nan => Val.nan

/-- The exponent of the binade of the exact result, at least −126: 2^(E − 23) is its unit in the last place. -/
def exactBinade (k : Nat) (x : Val) : Int :=
  (((List.range 254).map (fun i => (127 : Int) - i)).find? (fun q =>
    belowExact k x (twoTo q) || aboveExact k x (twoTo q).neg)).getD (-126)

/-- A word is within 2 units in the last place of the exact result (R292); an exact result beyond the range is an infinity
(R293), and the unit in the last place of an exact 0 is that of the subnormals. -/
def within2ulp (k : Nat) (x y : W32) : Bool :=
  let v := val32 x
  if decide (infExact k v = some (Val.inf false)) then decide (val32 y = Val.inf false)
  else if (infExact k v).isSome then leVal (val32 y) (twoTo (-148)) && leVal (twoTo (-148)).neg (val32 y)
  else if belowExact k v (twoTo 128) then decide (val32 y = Val.inf false)
  else if aboveExact k v (twoTo 128).neg then decide (val32 y = Val.inf true)
  else
    let two := twoTo (exactBinade k v - 22)
    let r := match val32 y with
      | Val.inf s => Val.fin s 1 128
      | z => z
    belowExact k v (addVal r two.neg) && aboveExact k v (addVal r two)

/-- The highest word below n that satisfies a condition; 0 when none does. -/
def lastWord (p : W32 → Bool) : Nat → W32
  | 0 => 0
  | n + 1 => if p (BitVec.ofNat 32 n) then BitVec.ofNat 32 n else lastWord p n

/-- The result of an approximate instruction: canonical NaN for a NaN; where there is an exact result, the free value if it is
within the bound of R292, else a word that is; elsewhere a value that the spec does not give (log 30). -/
def approx (k : Nat) (f : W32 → W32) (x : W32) : W32 × Flg :=
  if val32 x = Val.nan then nanResult [x]
  else
    let g := Config.approxFlags k x
    (if hasExact k (val32 x) && !within2ulp k x (f x) then lastWord (within2ulp k x) (2 ^ 32)
      else if val32 (f x) = Val.nan then qnan else f x,
      { Flg.none with invalid := bitAt g 0, divzero := bitAt g 1, overflow := bitAt g 2, underflow := bitAt g 3,
                      inexact := bitAt g 4 })

/-- VADD (R384). -/
def execVadd (w : IW) (s : State) : Host.Outcome State Fault Refusal :=
  run (.vadd w) (fun d => d.vArith w (fun r x y => add32 r x y)) s

/-- VSUB (R384). -/
def execVsub (w : IW) (s : State) : Host.Outcome State Fault Refusal :=
  run (.vsub w) (fun d => d.vArith w (fun r x y => sub32 r x y)) s

/-- VMUL (R384). -/
def execVmul (w : IW) (s : State) : Host.Outcome State Fault Refusal :=
  run (.vmul w) (fun d => d.vArith w (fun r x y => mul32 r x y)) s

/-- VMIN (R291). -/
def execVmin (w : IW) (s : State) : Host.Outcome State Fault Refusal :=
  run (.vmin w) (fun d => d.vArith w (fun _ x y => min32 x y)) s

/-- VMAX (R291). -/
def execVmax (w : IW) (s : State) : Host.Outcome State Fault Refusal :=
  run (.vmax w) (fun d => d.vArith w (fun _ x y => max32 x y)) s

/-- VDIV (R288). -/
def execVdiv (w : IW) (s : State) : Host.Outcome State Fault Refusal :=
  run (.vdiv w) (fun d => d.vArith w (fun r x y => div32 r x y)) s

/-- VSQRT (R288). -/
def execVsqrt (w : IW) (s : State) : Host.Outcome State Fault Refusal :=
  run (.vsqrt w) (fun d => d.vArith w (fun r x _ => sqrt32 r x)) s

/-- VEXP2 (R292). -/
def execVexp2 (w : IW) (s : State) : Host.Outcome State Fault Refusal :=
  run (.vexp2 w) (fun d => d.vArith w (fun _ x _ => approx 0 Config.vexp2 x)) s

/-- VLOG2 (R292). -/
def execVlog2 (w : IW) (s : State) : Host.Outcome State Fault Refusal :=
  run (.vlog2 w) (fun d => d.vArith w (fun _ x _ => approx 1 Config.vlog2 x)) s

/-- VRCP (R292). -/
def execVrcp (w : IW) (s : State) : Host.Outcome State Fault Refusal :=
  run (.vrcp w) (fun d => d.vArith w (fun _ x _ => approx 2 Config.vrcp x)) s

/-- VRSQ (R292). -/
def execVrsq (w : IW) (s : State) : Host.Outcome State Fault Refusal :=
  run (.vrsq w) (fun d => d.vArith w (fun _ x _ => approx 3 Config.vrsq x)) s

/-- A fused multiply-add of major 0x21; fn[10:2] is reserved. -/
def Dev.vFused (d : Dev) (w : IW) (minus : Bool) : Dev :=
  d.vec 0x21 (decide (fld w.fn 10 2 = 0)) w (fun d1 x =>
    doneLanes d1 w (List.zipWith (fun p z => fma32 (vrnd (bitAt w.fn 1)) p.1 p.2 (if minus then neg32 z else z))
      (List.zip (x.lanes w.rs1.toNat) (x.lanes w.rs2.toNat)) (x.lanes w.rd.toNat)))

/-- VFMA (R384). -/
def execVfma (w : IW) (s : State) : Host.Outcome State Fault Refusal :=
  run (.vfma w) (fun d => d.vFused w false) s

/-- VFMS (R384): vs1 × vs2 − vd. -/
def execVfms (w : IW) (s : State) : Host.Outcome State Fault Refusal :=
  run (.vfms w) (fun d => d.vFused w true) s

/-- The relation of VCMP: 0 EQ, 1 NE, 2 LT, 3 LE, 4 unordered. -/
def vcmpHolds (k : Nat) (x y : W32) : Bool :=
  let o := cmpVal (val32 x) (val32 y)
  match k with
  | 0 => decide (o = some Ordering.eq)
  | 1 => decide (o ≠ some Ordering.eq)
  | 2 => decide (o = some Ordering.lt)
  | 3 => decide (o = some Ordering.lt) || decide (o = some Ordering.eq)
  | _ => decide (o = none)

/-- One lane of VCMP: all ones when true; invalid for a signalling NaN (R290). -/
def vcmpLane (k : Nat) (x y : W32) : W32 × Flg :=
  (if vcmpHolds k x y then 0xFFFFFFFF#32 else 0#32, { Flg.none with invalid := isSnan x || isSnan y })

/-- VCMP (R384). -/
def execVcmp (w : IW) (s : State) : Host.Outcome State Fault Refusal :=
  run (.vcmp w) (fun d => d.vec 0x22 (decide (fld w.fn 10 3 = 0) && decide (fld w.fn 2 0 ≤ 4)) w (fun d1 x =>
    doneLanes d1 w (List.zipWith (vcmpLane (fld w.fn 2 0)) (x.lanes w.rs1.toNat) (x.lanes w.rs2.toNat)))) s

/-- A bitwise or unsigned instruction of major 0x23, on vs1, vs2 and the old vd; fn[10:3] is reserved. -/
def Dev.vBits (d : Dev) (w : IW) (f : W32 → W32 → W32 → W32) : Dev :=
  d.vec 0x23 (decide (fld w.fn 10 3 = 0)) w (fun d1 x =>
    doneLanes d1 w (List.zipWith (fun p z => (f p.1 p.2 z, Flg.none))
      (List.zip (x.lanes w.rs1.toNat) (x.lanes w.rs2.toNat)) (x.lanes w.rd.toNat)))

/-- VAND (R384). -/
def execVand (w : IW) (s : State) : Host.Outcome State Fault Refusal :=
  run (.vand w) (fun d => d.vBits w (fun x y _ => x &&& y)) s

/-- VOR (R384). -/
def execVor (w : IW) (s : State) : Host.Outcome State Fault Refusal :=
  run (.vor w) (fun d => d.vBits w (fun x y _ => x ||| y)) s

/-- VXOR (R384). -/
def execVxor (w : IW) (s : State) : Host.Outcome State Fault Refusal :=
  run (.vxor w) (fun d => d.vBits w (fun x y _ => x ^^^ y)) s

/-- VIADD (R384). -/
def execViadd (w : IW) (s : State) : Host.Outcome State Fault Refusal :=
  run (.viadd w) (fun d => d.vBits w (fun x y _ => x + y)) s

/-- VSEL (R384): vs1 where bit 31 of vd is 1, else vs2. -/
def execVsel (w : IW) (s : State) : Host.Outcome State Fault Refusal :=
  run (.vsel w) (fun d => d.vBits w (fun x y z => if bitAt z 31 then x else y)) s

/-- VSHL (R384). -/
def execVshl (w : IW) (s : State) : Host.Outcome State Fault Refusal :=
  run (.vshl w) (fun d => d.vBits w (fun x y _ => x <<< fld y 4 0)) s

/-- VSHR (R384). -/
def execVshr (w : IW) (s : State) : Host.Outcome State Fault Refusal :=
  run (.vshr w) (fun d => d.vBits w (fun x y _ => x >>> fld y 4 0)) s

/-! ### VCVT (R293, R384, R386, R387) -/

/-- A lane converted to a format: bits and flags. A signalling NaN raises invalid (R290); whether inexact is raised is free
(log 55). -/
def narrowLane (fmt : Nat) (book : List Byte) (r : Rnd) (x : W32) : Nat × Flg :=
  let y := convertElem fmt book r (val32 x)
  let exact := decide (cmpVal (decodeElem fmt book y.1) (val32 x) = some Ordering.eq) || decide (val32 x = Val.nan)
  (y.1, { y.2 with inexact := Config.convertRaises && !exact, invalid := isSnan x })

/-- An element widened to FP32, exactly. -/
def widenLane (fmt : Nat) (book : List Byte) (x : Nat) : W32 :=
  match decodeElem fmt book x with
  | Val.nan => qnan
  | Val.inf n => inf32 n
  | Val.fin n m e => (roundInt32 Rnd.rne n (scaledTo e n m e) e).1

/-- A signalling NaN of a format that has them: its top fraction bit is 0. -/
def isSnanElem (fmt x : Nat) : Bool :=
  (decide (fmt ≤ 2) || decide (fmt = 4)) && (match ffmt fmt with
    | some f => decide (decodeFloat f x = Val.nan) && !x.testBit (f.fb - 1)
    | none => false)

/-- The bytes of a vector register. -/
def laneBytes (ls : List W32) : List Byte := ls.flatMap (fun l => leBytes 4 l.toNat)

/-- The lanes of 512 bytes. -/
def lanesOf (bs : List Byte) : List W32 := (leWords 4 128 bs).map (BitVec.ofNat 32)

/-- The narrow form: 128 elements packed into the low bits of vd, the rest 0. -/
def vcvtNarrow (d : Dev) (w : IW) (x : Core) (fmt mode : Nat) (desc book : List Byte) : IRes :=
  let base := 128 * fld (x.r2 w) 63 48
  let rs := (List.range 128).map (fun l =>
    narrowLane fmt book (rndOf mode desc (base + l)) (x.getV w.rs1.toNat l))
  let bs := packElems (fmtBits fmt) (rs.map (·.1))
  .done ((d.vflags w.core (flagsOf (rs.map (·.2)))).modCore w.core (fun y =>
    y.setLanes w.rd.toNat 0 (lanesOf (bs ++ List.replicate (512 - bs.length) 0#8))))

/-- The widen form: exact; a signalling NaN raises invalid (R290). -/
def vcvtWiden (d : Dev) (w : IW) (x : Core) (fmt : Nat) (book : List Byte) : IRes :=
  let bs := laneBytes (x.lanes w.rs1.toNat)
  let es := (List.range 128).map (packedElem (fmtBits fmt) bs)
  .done ((d.vflags w.core { Flg.none with invalid := es.any (isSnanElem fmt) }).modCore w.core (fun y =>
    y.setLanes w.rd.toNat 0 (es.map (widenLane fmt book))))

/-- Bytes that an instruction's operand names in local memory, read as a load of the core's unit. -/
def operandBytes (d : Dev) (c va n : Nat) (k : Dev → List Byte → IRes) : IRes :=
  match d.unitLoad c va n with
  | .ok d1 bs => k d1 bs
  | .fault d1 f => .raise d1 (causeOf false f.code) f
  | .stall d1 => .stall d1 (.operand (d.core c).slotN va)

/-- VCVT (R384, R386, R387): the codebook of CB4 stands at g[rs2][47:0] (log 56). -/
def execVcvt (w : IW) (s : State) : Host.Outcome State Fault Refusal :=
  run (.vcvt w) (fun d => d.vec 0x24 (decide (fld w.fn 10 7 = 0)) w (fun d1 x =>
    let fmt := fld w.fn 3 0
    let mode := fld w.fn 5 4
    let at2 := va48 (x.r2 w)
    let widen := bitAt w.fn 6
    let bad := decide (0xB ≤ fmt) || decide (mode = 3)
    let wrong (e : Dev) : IRes := unitRaise e (matrixFault 0x0101 w.core (BitVec.ofNat 64 fmt) x.pc.toNat 0 0 0 0)
    if fmt = 0xA then
      operandBytes d1 w.core at2 16 (fun d2 book =>
        if bad then wrong d2
        else if widen then vcvtWiden d2 w x fmt book else vcvtNarrow d2 w x fmt 0 [] book)
    else if !widen && decide (mode = 2) then
      (if at2 % 64 ≠ 0 then .raise d1 3 (misaligned w.core at2)
       else operandBytes d1 w.core at2 48 (fun d2 desc =>
         if bad then wrong d2 else vcvtNarrow d2 w x fmt mode desc []))
    else if bad then wrong d1
    else if widen then vcvtWiden d1 w x fmt []
    else vcvtNarrow d1 w x fmt mode [] [])) s

/-! ### VLD, VST, lane moves -/

/-- The 512 bytes of a vector load or store pass the end of the engine's own store (R328). -/
def vectorPast (c va : Nat) : Bool :=
  (match ownOff c va with
    | some o => decide (o < storeBytes) && decide (storeBytes < o + 512)
    | none => false)

/-- VLD (R384): 512 bytes at g[rs1], a local address also at M (R116, R336). -/
def execVld (w : IW) (s : State) : Host.Outcome State Fault Refusal :=
  run (.vld w) (fun d => d.vec 0x25 (decide (fld w.fn 10 1 = 0)) w (fun d1 x =>
    addrCheck d1 w.core false (x.r1 w) 64 (fun va =>
      if vectorPast w.core va then
        unitRaise d1 (matrixFault 0x0107 w.core (x.r1 w) x.pc.toNat 0 0 0 va)
      else
      match d1.unitLoad w.core va 512 with
      | .ok d2 bs => .done (d2.modCore w.core (fun y => y.setLanes w.rd.toNat 0 (lanesOf bs)))
      | .fault d2 f => .raise d2 (causeOf false f.code) f
      | .stall d2 => .stall d2 (.vload w.rd.toNat x.slotN va)))) s

/-- VST (R384): the register named by rd goes to g[rs1] (log 56), a local address also at M (R116, R336). -/
def execVst (w : IW) (s : State) : Host.Outcome State Fault Refusal :=
  run (.vst w) (fun d => d.vec 0x25 (decide (fld w.fn 10 1 = 0)) w (fun d1 x =>
    addrCheck d1 w.core true (x.r1 w) 64 (fun va =>
      if vectorPast w.core va then
        unitRaise d1 (matrixFault 0x0107 w.core (x.r1 w) x.pc.toNat 0 0 0 va)
      else
      match d1.unitStore w.core va (laneBytes (x.lanes w.rd.toNat)) with
      | .ok d2 _ => .done d2
      | .fault d2 f => .raise d2 (causeOf true f.code) f
      | .stall d2 => .stall d2 (.vstore w.rd.toNat x.slotN va)))) s

/-- One level of the tree of VRED: adjacent pairs. -/
def pairUp (f : W32 → W32 → W32 × Flg) : List (W32 × Flg) → List (W32 × Flg)
  | a :: b :: t => ((f a.1 b.1).1, (a.2.or b.2).or (f a.1 b.1).2) :: pairUp f t
  | t => t

/-- The balanced tree over 128 lanes: seven levels (R385). -/
def reduceTree (f : W32 → W32 → W32 × Flg) : Nat → List (W32 × Flg) → List (W32 × Flg)
  | 0, t => t
  | n + 1, t => reduceTree f n (pairUp f t)

/-- The operation of VRED: 0 sum with RNE, 1 maximum, 2 minimum. -/
def redOp (k : Nat) : W32 → W32 → W32 × Flg :=
  if k = 0 then add32 Rnd.rne else if k = 1 then max32 else min32

/-- VRED (R385). -/
def execVred (w : IW) (s : State) : Host.Outcome State Fault Refusal :=
  run (.vred w) (fun d => d.vec 0x26 (decide (fld w.fn 10 4 = 0) && decide (fld w.fn 3 2 ≠ 3)) w (fun d1 x =>
    let r := (reduceTree (redOp (fld w.fn 3 2)) 7 ((x.lanes w.rs1.toNat).map (fun l => (l, Flg.none)))).headD (0, Flg.none)
    doneLanes d1 w (r :: List.replicate 127 (0, Flg.none)))) s

/-- VBCAST (R384): g[rs1][31:0] in every lane. -/
def execVbcast (w : IW) (s : State) : Host.Outcome State Fault Refusal :=
  run (.vbcast w) (fun d => d.vec 0x26 (decide (fld w.fn 10 2 = 0)) w (fun d1 x =>
    doneLanes d1 w (List.replicate 128 (BitVec.ofNat 32 (fld (x.r1 w) 31 0), Flg.none)))) s

/-- VMOVG (R384): lane g[rs2][6:0] of vs1, zero-extended, to g[rd]. -/
def execVmovg (w : IW) (s : State) : Host.Outcome State Fault Refusal :=
  run (.vmovg w) (fun d => d.vec 0x26 (decide (fld w.fn 10 2 = 0)) w (fun d1 x =>
    doneRd d1 w (BitVec.ofNat 64 (x.getV w.rs1.toNat (fld (x.r2 w) 6 0)).toNat))) s

end Sys2Proof.Machine
end

