-- ==== Sys2Proof/Machine/Words.lean ====
section
/-! DEFINITION. Instruction words: which instruction a 32-bit word names (Tables 2-3 and 2-4), which words are illegal (R67,
R76, R79, R115), and the exception that one of these raises. -/

namespace Sys2Proof.Machine

/-- The fields of a narrow word at a core (Table 2-3). -/
def fieldsOf (c : Nat) (w : BitVec 32) : IW :=
  { core := c, pre := none, rd := BitVec.ofNat 5 (fld w 25 21), rs1 := BitVec.ofNat 5 (fld w 20 16),
    rs2 := BitVec.ofNat 5 (fld w 15 11), fn := BitVec.ofNat 11 (fld w 10 0) }

/-- An instruction as the word map lists it: its major opcode, its command, whether its fields are legal, whether it is E
only. Which operation of a group a word names is what makes the command well-formed. -/
structure WordForm where
  major : Nat
  make : IW → Instr
  legal : IW → Bool
  eOnly : Bool

/-- ALU register forms, operation fn[4:0] (R83). -/
def aluForms : List WordForm :=
  [{ major := 0x01, make := .add false, legal := aluLegal false, eOnly := false },
   { major := 0x01, make := .sub false, legal := aluLegal false, eOnly := false },
   { major := 0x01, make := .and false, legal := aluLegal false, eOnly := false },
   { major := 0x01, make := .or false, legal := aluLegal false, eOnly := false },
   { major := 0x01, make := .xor false, legal := aluLegal false, eOnly := false },
   { major := 0x01, make := .sll false, legal := aluLegal false, eOnly := false },
   { major := 0x01, make := .srl false, legal := aluLegal false, eOnly := false },
   { major := 0x01, make := .sra false, legal := aluLegal false, eOnly := false },
   { major := 0x01, make := .min false, legal := aluLegal false, eOnly := false },
   { major := 0x01, make := .max false, legal := aluLegal false, eOnly := false },
   { major := 0x01, make := .minu false, legal := aluLegal false, eOnly := false },
   { major := 0x01, make := .maxu false, legal := aluLegal false, eOnly := false },
   { major := 0x01, make := .mul false, legal := aluLegal false, eOnly := false },
   { major := 0x01, make := .mulh false, legal := aluLegal false, eOnly := false },
   { major := 0x01, make := .mulhu false, legal := aluLegal false, eOnly := false },
   { major := 0x01, make := .div false, legal := aluLegal false, eOnly := false },
   { major := 0x01, make := .divu false, legal := aluLegal false, eOnly := false },
   { major := 0x01, make := .rem false, legal := aluLegal false, eOnly := false },
   { major := 0x01, make := .remu false, legal := aluLegal false, eOnly := false },
   { major := 0x01, make := .popc false, legal := aluLegal false, eOnly := false },
   { major := 0x01, make := .clz false, legal := aluLegal false, eOnly := false },
   { major := 0x01, make := .ctz false, legal := aluLegal false, eOnly := false }]

/-- ALU immediate forms, operation rs2 (R83). -/
def aluImmForms : List WordForm :=
  [{ major := 0x02, make := .add true, legal := aluLegal true, eOnly := false },
   { major := 0x02, make := .sub true, legal := aluLegal true, eOnly := false },
   { major := 0x02, make := .and true, legal := aluLegal true, eOnly := false },
   { major := 0x02, make := .or true, legal := aluLegal true, eOnly := false },
   { major := 0x02, make := .xor true, legal := aluLegal true, eOnly := false },
   { major := 0x02, make := .sll true, legal := aluLegal true, eOnly := false },
   { major := 0x02, make := .srl true, legal := aluLegal true, eOnly := false },
   { major := 0x02, make := .sra true, legal := aluLegal true, eOnly := false },
   { major := 0x02, make := .min true, legal := aluLegal true, eOnly := false },
   { major := 0x02, make := .max true, legal := aluLegal true, eOnly := false },
   { major := 0x02, make := .minu true, legal := aluLegal true, eOnly := false },
   { major := 0x02, make := .maxu true, legal := aluLegal true, eOnly := false },
   { major := 0x02, make := .mul true, legal := aluLegal true, eOnly := false },
   { major := 0x02, make := .mulh true, legal := aluLegal true, eOnly := false },
   { major := 0x02, make := .mulhu true, legal := aluLegal true, eOnly := false },
   { major := 0x02, make := .div true, legal := aluLegal true, eOnly := false },
   { major := 0x02, make := .divu true, legal := aluLegal true, eOnly := false },
   { major := 0x02, make := .rem true, legal := aluLegal true, eOnly := false },
   { major := 0x02, make := .remu true, legal := aluLegal true, eOnly := false },
   { major := 0x02, make := .popc true, legal := aluLegal true, eOnly := false },
   { major := 0x02, make := .clz true, legal := aluLegal true, eOnly := false },
   { major := 0x02, make := .ctz true, legal := aluLegal true, eOnly := false }]

/-- Majors 0x03 to 0x0F (R85 to R97). -/
def plainForms : List WordForm :=
  [{ major := 0x03, make := .luh, legal := fun _ => true, eOnly := false },
   { major := 0x04, make := .cmp, legal := cmpLegal, eOnly := false },
   { major := 0x05, make := .cmpi, legal := cmpiLegal, eOnly := false },
   { major := 0x06, make := .pand, legal := predLegal, eOnly := false },
   { major := 0x06, make := .por, legal := predLegal, eOnly := false },
   { major := 0x06, make := .pxor, legal := predLegal, eOnly := false },
   { major := 0x06, make := .pandn, legal := predLegal, eOnly := false },
   { major := 0x08, make := .bp, legal := fun w => !bitAt w.rd 4, eOnly := false },
   { major := 0x09, make := .jal, legal := fun _ => true, eOnly := false },
   { major := 0x0A, make := .jalr, legal := fun w => decide (w.rs2 = 0), eOnly := false },
   { major := 0x0C, make := .ld, legal := fun w => decide (fld w.rs2 4 3 ≠ 3), eOnly := false },
   { major := 0x0D, make := .st, legal := fun w => decide (fld w.rs2 4 3 ≠ 3) && !bitAt w.rs2 2, eOnly := false },
   { major := 0x0E, make := .ldl, legal := fun w => decide (w.rs2 = 0) && decide (fld w.fn 10 5 = 0), eOnly := false },
   { major := 0x0F, make := .stl, legal := stlLegal, eOnly := false }]

/-- Majors 0x10 to 0x15 (R99, R103, R800, R801, R402). -/
def groupForms : List WordForm :=
  [{ major := 0x10, make := .fence, legal := fenceLegal, eOnly := false },
   { major := 0x10, make := .fenceD, legal := fun w => decide (w.rd = 0) && decide (w.rs2 = 0), eOnly := false },
   { major := 0x11, make := .csrr, legal := fun w => decide (fld w.rs2 4 3 = 0), eOnly := false },
   { major := 0x11, make := .csrw, legal := fun w => decide (fld w.rs2 4 3 = 0), eOnly := false },
   { major := 0x11, make := .csrs, legal := fun w => decide (fld w.rs2 4 3 = 0), eOnly := false },
   { major := 0x11, make := .csrc, legal := fun w => decide (fld w.rs2 4 3 = 0), eOnly := false },
   { major := 0x12, make := .jcall, legal := fun w => sysFn w && decide (w.rs2 = 0), eOnly := false },
   { major := 0x12, make := .jfret, legal := sysZero, eOnly := false },
   { major := 0x12, make := .ebreak, legal := sysZero, eOnly := false },
   { major := 0x12, make := .wfi, legal := sysZero, eOnly := false },
   { major := 0x12, make := .mret, legal := sysZero, eOnly := false },
   { major := 0x12, make := .halt, legal := sysZero, eOnly := false },
   { major := 0x14, make := .sopost, legal := fun _ => true, eOnly := false },
   { major := 0x14, make := .sowait, legal := fun _ => true, eOnly := false },
   { major := 0x14, make := .soreset, legal := fun _ => true, eOnly := false },
   { major := 0x15, make := .balloc, legal := fun w => decide (fld w.fn 10 3 = 0), eOnly := false },
   { major := 0x15, make := .bshare, legal := fun w => decide (fld w.fn 10 3 = 0), eOnly := false },
   { major := 0x15, make := .bdrop, legal := fun w => decide (fld w.fn 10 2 = 0), eOnly := false },
   { major := 0x15, make := .bfree, legal := fun w => decide (fld w.fn 10 2 = 0), eOnly := false }]

/-- Matrix instructions (R372). -/
def matrixForms : List WordForm :=
  [{ major := 0x18, make := .manchorPropose, legal := fun w => decide (fld w.fn 10 1 = 0), eOnly := true },
   { major := 0x18, make := .manchorSet, legal := fun w => decide (fld w.fn 10 1 = 0) && !bitAt w.rd 4, eOnly := true },
   { major := 0x19, make := .mloadw, legal := fun w => decide (fld w.fn 10 1 = 0), eOnly := true },
   { major := 0x1A, make := .mstream, legal := fun w => decide (fld w.fn 10 4 = 0) && !bitAt w.rd 4, eOnly := true },
   { major := 0x1B, make := .mdrain, legal := fun w => decide (fld w.fn 10 7 = 0) && !bitAt w.rd 4, eOnly := true },
   { major := 0x1B, make := .mtstat, legal := fun w => decide (fld w.fn 10 1 = 0) && !bitAt w.rs2 4, eOnly := true }]

/-- Vector instructions (R384). -/
def vectorForms : List WordForm :=
  [{ major := 0x20, make := .vadd, legal := fun w => decide (fld w.fn 10 5 = 0), eOnly := true },
   { major := 0x20, make := .vsub, legal := fun w => decide (fld w.fn 10 5 = 0), eOnly := true },
   { major := 0x20, make := .vmul, legal := fun w => decide (fld w.fn 10 5 = 0), eOnly := true },
   { major := 0x20, make := .vmin, legal := fun w => decide (fld w.fn 10 5 = 0), eOnly := true },
   { major := 0x20, make := .vmax, legal := fun w => decide (fld w.fn 10 5 = 0), eOnly := true },
   { major := 0x20, make := .vdiv, legal := fun w => decide (fld w.fn 10 5 = 0), eOnly := true },
   { major := 0x20, make := .vsqrt, legal := fun w => decide (fld w.fn 10 5 = 0), eOnly := true },
   { major := 0x20, make := .vexp2, legal := fun w => decide (fld w.fn 10 5 = 0), eOnly := true },
   { major := 0x20, make := .vlog2, legal := fun w => decide (fld w.fn 10 5 = 0), eOnly := true },
   { major := 0x20, make := .vrcp, legal := fun w => decide (fld w.fn 10 5 = 0), eOnly := true },
   { major := 0x20, make := .vrsq, legal := fun w => decide (fld w.fn 10 5 = 0), eOnly := true },
   { major := 0x21, make := .vfma, legal := fun w => decide (fld w.fn 10 2 = 0), eOnly := true },
   { major := 0x21, make := .vfms, legal := fun w => decide (fld w.fn 10 2 = 0), eOnly := true },
   { major := 0x22, make := .vcmp, legal := fun w => decide (fld w.fn 10 3 = 0) && decide (fld w.fn 2 0 ≤ 4), eOnly := true },
   { major := 0x23, make := .vand, legal := fun w => decide (fld w.fn 10 3 = 0), eOnly := true },
   { major := 0x23, make := .vor, legal := fun w => decide (fld w.fn 10 3 = 0), eOnly := true },
   { major := 0x23, make := .vxor, legal := fun w => decide (fld w.fn 10 3 = 0), eOnly := true },
   { major := 0x23, make := .viadd, legal := fun w => decide (fld w.fn 10 3 = 0), eOnly := true },
   { major := 0x23, make := .vsel, legal := fun w => decide (fld w.fn 10 3 = 0), eOnly := true },
   { major := 0x23, make := .vshl, legal := fun w => decide (fld w.fn 10 3 = 0), eOnly := true },
   { major := 0x23, make := .vshr, legal := fun w => decide (fld w.fn 10 3 = 0), eOnly := true },
   { major := 0x24, make := .vcvt, legal := fun w => decide (fld w.fn 10 7 = 0), eOnly := true },
   { major := 0x25, make := .vld, legal := fun w => decide (fld w.fn 10 1 = 0), eOnly := true },
   { major := 0x25, make := .vst, legal := fun w => decide (fld w.fn 10 1 = 0), eOnly := true },
   { major := 0x26, make := .vred, legal := fun w => decide (fld w.fn 10 4 = 0) && decide (fld w.fn 3 2 ≠ 3), eOnly := true },
   { major := 0x26, make := .vbcast, legal := fun w => decide (fld w.fn 10 2 = 0), eOnly := true },
   { major := 0x26, make := .vmovg, legal := fun w => decide (fld w.fn 10 2 = 0), eOnly := true },
   { major := 0x27, make := .vspencEncode, legal := fun w => decide (fld w.fn 10 2 = 0), eOnly := true },
   { major := 0x27, make := .vspencMap, legal := fun w => decide (fld w.fn 10 2 = 0), eOnly := true }]

/-- Routing, exchange, tier, loop, hint and digest instructions (Tables 8-8 to 8-15). -/
def unitForms : List WordForm :=
  [{ major := 0x28, make := .rscore, legal := fun w => decide (fld w.fn 10 1 = 0), eOnly := false },
   { major := 0x28, make := .rselect, legal := fun w => decide (fld w.fn 10 1 = 0), eOnly := false },
   { major := 0x29, make := .rpackPack, legal := fun w => decide (fld w.fn 10 3 = 0), eOnly := false },
   { major := 0x29, make := .rpackArrive, legal := fun w => decide (fld w.fn 10 3 = 0), eOnly := false },
   { major := 0x29, make := .rcombine, legal := fun w => decide (fld w.fn 10 2 = 0), eOnly := false },
   { major := 0x29, make := .rstatReadLedger, legal := rstatLegal, eOnly := false },
   { major := 0x29, make := .rstatCancel, legal := rstatLegal, eOnly := false },
   { major := 0x29, make := .rstatSupplyCounts, legal := rstatLegal, eOnly := false },
   { major := 0x29, make := .rstatReload, legal := rstatLegal, eOnly := false },
   { major := 0x2A, make := .xsend, legal := fun w => decide (fld w.fn 10 2 = 0), eOnly := false },
   { major := 0x2A, make := .xrecvReceive, legal := fun w => decide (fld w.fn 10 2 = 0), eOnly := false },
   { major := 0x2A, make := .xrecvBind, legal := fun w => decide (fld w.fn 10 2 = 0), eOnly := false },
   { major := 0x2B, make := .xtag, legal := fun w => decide (w.fn = 0), eOnly := false },
   { major := 0x2C, make := .tpref, legal := fun w => decide (fld w.fn 10 4 = 0), eOnly := false },
   { major := 0x2C, make := .tstream, legal := fun w => decide (fld w.fn 10 2 = 0) && decide (fld w.rd 4 3 = 0), eOnly := false },
   { major := 0x2C, make := .tpin, legal := fun w => decide (fld w.fn 10 5 = 0), eOnly := false },
   { major := 0x2D, make := .loopn, legal := fun w => decide (w.rd = 0) && decide (fld w.rs2 4 1 = 0), eOnly := false },
   { major := 0x2E, make := .phint, legal := fun w => !bitAt w.fn 10 && decide (w.rd = 0) && decide (w.rs1 = 0), eOnly := false },
   { major := 0x2F, make := .digestFold, legal := fun w => decide (fld w.fn 10 2 = 0), eOnly := false },
   { major := 0x2F, make := .digestRead, legal := fun w => decide (fld w.fn 10 3 = 0), eOnly := false },
   { major := 0x2F, make := .digestLevel, legal := fun w => decide (fld w.fn 10 2 = 0), eOnly := false }]

/-- The word map (Table 2-4). -/
def wordForms : List WordForm :=
  aluForms ++ aluImmForms ++ plainForms ++ groupForms ++ matrixForms ++ vectorForms ++ unitForms

/-- The instruction that a narrow word names: none where its major or its operation is reserved (R76, R83, R103, R800), as for
the all-zero word. -/
def formOf (c : Nat) (w : BitVec 32) : Option WordForm :=
  wordForms.find? (fun r => decide (r.major = fld w 31 26) && (r.make (fieldsOf c w)).wf)

/-- The command that a narrow word spells at a core. -/
def decodeWord (c : Nat) (w : BitVec 32) : Option Instr := (formOf c w).map (fun r => r.make (fieldsOf c w))

/-- What privilege makes illegal: WFI, MRET and HALT at J (R115), JFRET at M or with no fault being handled (R124). -/
def Core.denied (x : Core) (c : Nat) : Instr → Bool
  | .wfi _ => !x.atM c
  | .mret _ => !x.atM c
  | .halt _ => !x.atM c
  | .jfret _ => x.atM c || !bitAt (x.csrOf 0x407) 0
  | _ => false

/-- A word is illegal at a core. A prefix comes alone only where the wide form that it begins is one that R79 forbids: the
others come as their own commands. -/
def Core.illegal (x : Core) (c : Nat) (w : BitVec 32) : Bool :=
  match formOf c w with
  | none => true
  | some r => !r.legal (fieldsOf c w) || (r.eOnly && decide (32 ≤ c)) || x.denied c (r.make (fieldsOf c w))

/-- ILLEGAL_INSTRUCTION (R76): an illegal word, at a core that takes one. A word that names an instruction is that instruction's
command and raises nothing here. -/
def execIllegalInstruction (c : Nat) (word : BitVec 32) (s : State) : Host.Outcome State Fault Refusal :=
  run (.illegalInstruction c word) (fun d =>
    let x := d.core c
    if x.takes && !d.rb Reg.PWR_STATUS 31 && x.illegal c word then
      Dev.finish c 4 (.raise d 2 (illegalFault c x.pc word.toNat))
    else d) s

end Sys2Proof.Machine
end

