-- ==== Sys2Proof/Machine/Dispatch.lean ====
section
/-! DEFINITION. What each command does: one arm for each constructor. -/

namespace Sys2Proof.Machine

/-- The effect of a command on everything but the queue. -/
def exec (i : Instr) (s : State) : Host.Outcome State Fault Refusal :=
  match i with
  | .add ix w => Sys2Proof.Machine.execAdd ix w s
  | .sub ix w => Sys2Proof.Machine.execSub ix w s
  | .and ix w => Sys2Proof.Machine.execAnd ix w s
  | .or ix w => Sys2Proof.Machine.execOr ix w s
  | .xor ix w => Sys2Proof.Machine.execXor ix w s
  | .sll ix w => Sys2Proof.Machine.execSll ix w s
  | .srl ix w => Sys2Proof.Machine.execSrl ix w s
  | .sra ix w => Sys2Proof.Machine.execSra ix w s
  | .min ix w => Sys2Proof.Machine.execMin ix w s
  | .max ix w => Sys2Proof.Machine.execMax ix w s
  | .minu ix w => Sys2Proof.Machine.execMinu ix w s
  | .maxu ix w => Sys2Proof.Machine.execMaxu ix w s
  | .mul ix w => Sys2Proof.Machine.execMul ix w s
  | .mulh ix w => Sys2Proof.Machine.execMulh ix w s
  | .mulhu ix w => Sys2Proof.Machine.execMulhu ix w s
  | .div ix w => Sys2Proof.Machine.execDiv ix w s
  | .divu ix w => Sys2Proof.Machine.execDivu ix w s
  | .rem ix w => Sys2Proof.Machine.execRem ix w s
  | .remu ix w => Sys2Proof.Machine.execRemu ix w s
  | .popc ix w => Sys2Proof.Machine.execPopc ix w s
  | .clz ix w => Sys2Proof.Machine.execClz ix w s
  | .ctz ix w => Sys2Proof.Machine.execCtz ix w s
  | .luh w => Sys2Proof.Machine.execLuh w s
  | .cmp w => Sys2Proof.Machine.execCmp w s
  | .cmpi w => Sys2Proof.Machine.execCmpi w s
  | .pand w => Sys2Proof.Machine.execPand w s
  | .por w => Sys2Proof.Machine.execPor w s
  | .pxor w => Sys2Proof.Machine.execPxor w s
  | .pandn w => Sys2Proof.Machine.execPandn w s
  | .bp w => Sys2Proof.Machine.execBp w s
  | .jal w => Sys2Proof.Machine.execJal w s
  | .jalr w => Sys2Proof.Machine.execJalr w s
  | .ld w => Sys2Proof.Machine.execLd w s
  | .st w => Sys2Proof.Machine.execSt w s
  | .ldl w => Sys2Proof.Machine.execLdl w s
  | .stl w => Sys2Proof.Machine.execStl w s
  | .fence w => Sys2Proof.Machine.execFence w s
  | .fenceD w => Sys2Proof.Machine.execFenceD w s
  | .csrr w => Sys2Proof.Machine.execCsrr w s
  | .csrw w => Sys2Proof.Machine.execCsrw w s
  | .csrs w => Sys2Proof.Machine.execCsrs w s
  | .csrc w => Sys2Proof.Machine.execCsrc w s
  | .jcall w => Sys2Proof.Machine.execJcall w s
  | .jfret w => Sys2Proof.Machine.execJfret w s
  | .ebreak w => Sys2Proof.Machine.execEbreak w s
  | .wfi w => Sys2Proof.Machine.execWfi w s
  | .mret w => Sys2Proof.Machine.execMret w s
  | .halt w => Sys2Proof.Machine.execHalt w s
  | .sopost w => Sys2Proof.Machine.execSopost w s
  | .sowait w => Sys2Proof.Machine.execSowait w s
  | .sowaitEnd c => Sys2Proof.Machine.execSowaitEnd c s
  | .soreset w => Sys2Proof.Machine.execSoreset w s
  | .asyncUnitFaultTaken c => Sys2Proof.Machine.execAsyncUnitFaultTaken c s
  | .debugHalt c => Sys2Proof.Machine.execDebugHalt c s
  | .manchorPropose w => Sys2Proof.Machine.execManchorPropose w s
  | .manchorSet w => Sys2Proof.Machine.execManchorSet w s
  | .mloadw w => Sys2Proof.Machine.execMloadw w s
  | .shadowFillStart e => Sys2Proof.Machine.execShadowFillStart e s
  | .shadowFillDone e => Sys2Proof.Machine.execShadowFillDone e s
  | .mstream w => Sys2Proof.Machine.execMstream w s
  | .passStart e mismatch => Sys2Proof.Machine.execPassStart e mismatch s
  | .tileAllocationServed e => Sys2Proof.Machine.execTileAllocationServed e s
  | .mdrain w => Sys2Proof.Machine.execMdrain w s
  | .drainCommit e => Sys2Proof.Machine.execDrainCommit e s
  | .mtstat w => Sys2Proof.Machine.execMtstat w s
  | .vadd w => Sys2Proof.Machine.execVadd w s
  | .vsub w => Sys2Proof.Machine.execVsub w s
  | .vmul w => Sys2Proof.Machine.execVmul w s
  | .vmin w => Sys2Proof.Machine.execVmin w s
  | .vmax w => Sys2Proof.Machine.execVmax w s
  | .vdiv w => Sys2Proof.Machine.execVdiv w s
  | .vsqrt w => Sys2Proof.Machine.execVsqrt w s
  | .vexp2 w => Sys2Proof.Machine.execVexp2 w s
  | .vlog2 w => Sys2Proof.Machine.execVlog2 w s
  | .vrcp w => Sys2Proof.Machine.execVrcp w s
  | .vrsq w => Sys2Proof.Machine.execVrsq w s
  | .vfma w => Sys2Proof.Machine.execVfma w s
  | .vfms w => Sys2Proof.Machine.execVfms w s
  | .vcmp w => Sys2Proof.Machine.execVcmp w s
  | .vand w => Sys2Proof.Machine.execVand w s
  | .vor w => Sys2Proof.Machine.execVor w s
  | .vxor w => Sys2Proof.Machine.execVxor w s
  | .viadd w => Sys2Proof.Machine.execViadd w s
  | .vsel w => Sys2Proof.Machine.execVsel w s
  | .vshl w => Sys2Proof.Machine.execVshl w s
  | .vshr w => Sys2Proof.Machine.execVshr w s
  | .vcvt w => Sys2Proof.Machine.execVcvt w s
  | .vld w => Sys2Proof.Machine.execVld w s
  | .vst w => Sys2Proof.Machine.execVst w s
  | .vred w => Sys2Proof.Machine.execVred w s
  | .vbcast w => Sys2Proof.Machine.execVbcast w s
  | .vmovg w => Sys2Proof.Machine.execVmovg w s
  | .vspencEncode w => Sys2Proof.Machine.execVspencEncode w s
  | .vspencMap w => Sys2Proof.Machine.execVspencMap w s
  | .rscore w => Sys2Proof.Machine.execRscore w s
  | .batchOpenResume sl => Sys2Proof.Machine.execBatchOpenResume sl s
  | .batchOpenEpochTimeout sl => Sys2Proof.Machine.execBatchOpenEpochTimeout sl s
  | .rselect w => Sys2Proof.Machine.execRselect w s
  | .routeClose sl rt => Sys2Proof.Machine.execRouteClose sl rt s
  | .routeCloseCountsTimeout sl rt => Sys2Proof.Machine.execRouteCloseCountsTimeout sl rt s
  | .rpackPack w => Sys2Proof.Machine.execRpackPack w s
  | .rpackArrive w => Sys2Proof.Machine.execRpackArrive w s
  | .marverRestage c pool stage held => Sys2Proof.Machine.execMarverRestage c pool stage held s
  | .rcombine w => Sys2Proof.Machine.execRcombine w s
  | .returnBinHandoff c bin => Sys2Proof.Machine.execReturnBinHandoff c bin s
  | .rstatReadLedger w => Sys2Proof.Machine.execRstatReadLedger w s
  | .rstatCancel w => Sys2Proof.Machine.execRstatCancel w s
  | .rstatSupplyCounts w => Sys2Proof.Machine.execRstatSupplyCounts w s
  | .rstatReload w => Sys2Proof.Machine.execRstatReload w s
  | .xsend w => Sys2Proof.Machine.execXsend w s
  | .xsendComplete m => Sys2Proof.Machine.execXsendComplete m s
  | .xrecvReceive w => Sys2Proof.Machine.execXrecvReceive w s
  | .xrecvTimeout c => Sys2Proof.Machine.execXrecvTimeout c s
  | .xrecvBind w => Sys2Proof.Machine.execXrecvBind w s
  | .xtag w => Sys2Proof.Machine.execXtag w s
  | .chunkReceiptArrival m => Sys2Proof.Machine.execChunkReceiptArrival m s
  | .abortMessageArrival c desc tag sender => Sys2Proof.Machine.execAbortMessageArrival c desc tag sender s
  | .balloc w => Sys2Proof.Machine.execBalloc w s
  | .ballocWaiterServed p => Sys2Proof.Machine.execBallocWaiterServed p s
  | .bshare w => Sys2Proof.Machine.execBshare w s
  | .bdrop w => Sys2Proof.Machine.execBdrop w s
  | .bfree w => Sys2Proof.Machine.execBfree w s
  | .queueReservation p => Sys2Proof.Machine.execQueueReservation p s
  | .tpref w => Sys2Proof.Machine.execTpref w s
  | .tstream w => Sys2Proof.Machine.execTstream w s
  | .prefetchGobArrival e ix => Sys2Proof.Machine.execPrefetchGobArrival e ix s
  | .prefetchRefill e ix => Sys2Proof.Machine.execPrefetchRefill e ix s
  | .tpin w => Sys2Proof.Machine.execTpin w s
  | .loopn w => Sys2Proof.Machine.execLoopn w s
  | .phint w => Sys2Proof.Machine.execPhint w s
  | .phintBoostStart u => Sys2Proof.Machine.execPhintBoostStart u s
  | .phintBoostEnd u => Sys2Proof.Machine.execPhintBoostEnd u s
  | .digestFold w => Sys2Proof.Machine.execDigestFold w s
  | .digestRead w => Sys2Proof.Machine.execDigestRead w s
  | .digestLevel w => Sys2Proof.Machine.execDigestLevel w s
  | .submitListTake sl q => Sys2Proof.Machine.execSubmitListTake sl q s
  | .entryEnterWindow sl q taken => Sys2Proof.Machine.execEntryEnterWindow sl q taken s
  | .entryStart sl q taken pos => Sys2Proof.Machine.execEntryStart sl q taken pos s
  | .affinityWaitExpiry sl q taken pos => Sys2Proof.Machine.execAffinityWaitExpiry sl q taken pos s
  | .entrySkip sl q taken pos => Sys2Proof.Machine.execEntrySkip sl q taken pos s
  | .entryComplete c => Sys2Proof.Machine.execEntryComplete c s
  | .engineReassign e => Sys2Proof.Machine.execEngineReassign e s
  | .cadencePeriodStart n => Sys2Proof.Machine.execCadencePeriodStart n s
  | .cadCfgEnableSet v n x => Sys2Proof.Machine.execCadCfgEnableSet v n x s
  | .cadCfgEnableClear v n x => Sys2Proof.Machine.execCadCfgEnableClear v n x s
  | .jobAdmitGo sl => Sys2Proof.Machine.execJobAdmitGo sl s
  | .jobAdmitStop sl => Sys2Proof.Machine.execJobAdmitStop sl s
  | .rctxCancelGo v sl epoch => Sys2Proof.Machine.execRctxCancelGo v sl epoch s
  | .moveComplete k => Sys2Proof.Machine.execMoveComplete k s
  | .windowWrite v sl x => Sys2Proof.Machine.execWindowWrite v sl x s
  | .replicaReadTimeout k => Sys2Proof.Machine.execReplicaReadTimeout k s
  | .refetchFrameWaitTimeout k => Sys2Proof.Machine.execRefetchFrameWaitTimeout k s
  | .poolInit p => Sys2Proof.Machine.execPoolInit p s
  | .poolQuiesceWrite p q => Sys2Proof.Machine.execPoolQuiesceWrite p q s
  | .poolQuiesced p => Sys2Proof.Machine.execPoolQuiesced p s
  | .synPost v x => Sys2Proof.Machine.execSynPost v x s
  | .synReset v x => Sys2Proof.Machine.execSynReset v x s
  | .synRangeWrite sl x => Sys2Proof.Machine.execSynRangeWrite sl x s
  | .portTrainStart p => Sys2Proof.Machine.execPortTrainStart p s
  | .portTrainingDone p r => Sys2Proof.Machine.execPortTrainingDone p r s
  | .portTrainingTimeout p => Sys2Proof.Machine.execPortTrainingTimeout p s
  | .portDownRetry p => Sys2Proof.Machine.execPortDownRetry p s
  | .fastRetrainStart p => Sys2Proof.Machine.execFastRetrainStart p s
  | .fastRetrainTimeout p => Sys2Proof.Machine.execFastRetrainTimeout p s
  | .identFlitReceive p x => Sys2Proof.Machine.execIdentFlitReceive p x s
  | .flitReceive p x => Sys2Proof.Machine.execFlitReceive p x s
  | .nakReceive p fseq => Sys2Proof.Machine.execNakReceive p fseq s
  | .heartbeatSend p => Sys2Proof.Machine.execHeartbeatSend p s
  | .portHoldExpiry p => Sys2Proof.Machine.execPortHoldExpiry p s
  | .transitForward p x => Sys2Proof.Machine.execTransitForward p x s
  | .rdlReceive p x => Sys2Proof.Machine.execRdlReceive p x s
  | .rdrReceive p x => Sys2Proof.Machine.execRdrReceive p x s
  | .wrlReceive p x => Sys2Proof.Machine.execWrlReceive p x s
  | .blkReceive p x => Sys2Proof.Machine.execBlkReceive p x s
  | .msgReceive p x => Sys2Proof.Machine.execMsgReceive p x s
  | .ackReceive p x => Sys2Proof.Machine.execAckReceive p x s
  | .postReceive p x => Sys2Proof.Machine.execPostReceive p x s
  | .rtsReceive p x => Sys2Proof.Machine.execRtsReceive p x s
  | .grantSend sl q => Sys2Proof.Machine.execGrantSend sl q s
  | .grantReceive p x => Sys2Proof.Machine.execGrantReceive p x s
  | .hintReceive p x => Sys2Proof.Machine.execHintReceive p x s
  | .qnotReceive p x => Sys2Proof.Machine.execQnotReceive p x s
  | .bundleReceive p x => Sys2Proof.Machine.execBundleReceive p x s
  | .discReceive p x => Sys2Proof.Machine.execDiscReceive p x s
  | .lsnReceive p x => Sys2Proof.Machine.execLsnReceive p x s
  | .reservedOpReceive p x => Sys2Proof.Machine.execReservedOpReceive p x s
  | .e2eTimerExpiry k => Sys2Proof.Machine.execE2eTimerExpiry k s
  | .e2eWriteFail k => Sys2Proof.Machine.execE2eWriteFail k s
  | .rdlResend rid => Sys2Proof.Machine.execRdlResend rid s
  | .rtsBusyResend m => Sys2Proof.Machine.execRtsBusyResend m s
  | .grantTimeout m => Sys2Proof.Machine.execGrantTimeout m s
  | .bundleClose p ix => Sys2Proof.Machine.execBundleClose p ix s
  | .portCtrlRetrain p => Sys2Proof.Machine.execPortCtrlRetrain p s
  | .powerWindowEnd r => Sys2Proof.Machine.execPowerWindowEnd r s
  | .senseSample r => Sys2Proof.Machine.execSenseSample r s
  | .estimatorUpdate r => Sys2Proof.Machine.execEstimatorUpdate r s
  | .thermalSample temps => Sys2Proof.Machine.execThermalSample temps s
  | .twinDigestCompare sl d => Sys2Proof.Machine.execTwinDigestCompare sl d s
  | .twinTimeout sl => Sys2Proof.Machine.execTwinTimeout sl s
  | .powerUpStepEnd r => Sys2Proof.Machine.execPowerUpStepEnd r s
  | .inputVoltageChange dv us => Sys2Proof.Machine.execInputVoltageChange dv us s
  | .inputOvercurrentTrip ma us => Sys2Proof.Machine.execInputOvercurrentTrip ma us s
  | .bar4Access a => Sys2Proof.Machine.execBar4Access a s
  | .ideIntegrityFailure bar off => Sys2Proof.Machine.execIdeIntegrityFailure bar off s
  | .t3RequestFailure k => Sys2Proof.Machine.execT3RequestFailure k s
  | .hmbSend v sl len => Sys2Proof.Machine.execHmbSend v sl len s
  | .hmbAck v sl => Sys2Proof.Machine.execHmbAck v sl s
  | .secJresetGo sl => Sys2Proof.Machine.execSecJresetGo sl s
  | .secMextGo reg => Sys2Proof.Machine.execSecMextGo reg s
  | .getVersion req => Sys2Proof.Machine.execGetVersion req s
  | .getCapabilities req => Sys2Proof.Machine.execGetCapabilities req s
  | .negotiateAlgorithms req => Sys2Proof.Machine.execNegotiateAlgorithms req s
  | .getDigests req => Sys2Proof.Machine.execGetDigests req s
  | .getCertificate req => Sys2Proof.Machine.execGetCertificate req s
  | .challenge req => Sys2Proof.Machine.execChallenge req s
  | .getMeasurements req => Sys2Proof.Machine.execGetMeasurements req s
  | .keyExchange req => Sys2Proof.Machine.execKeyExchange req s
  | .finish req => Sys2Proof.Machine.execFinish req s
  | .keyUpdate req => Sys2Proof.Machine.execKeyUpdate req s
  | .heartbeat req => Sys2Proof.Machine.execHeartbeat req s
  | .endSession req => Sys2Proof.Machine.execEndSession req s
  | .chunkGet req => Sys2Proof.Machine.execChunkGet req s
  | .vendorDefinedRequest req => Sys2Proof.Machine.execVendorDefinedRequest req s
  | .mctpControlRequest q => Sys2Proof.Machine.execMctpControlRequest q s
  | .pldmSensorRead id => Sys2Proof.Machine.execPldmSensorRead id s
  | .powerCapEffecterWrite watts => Sys2Proof.Machine.execPowerCapEffecterWrite watts s
  | .fruRead off len => Sys2Proof.Machine.execFruRead off len s
  | .registerRcRead v off => Sys2Proof.Machine.execRegisterRcRead v off s
  | .registerWrite v off x => Sys2Proof.Machine.execRegisterWrite v off x s
  | .illegalInstruction c word => Sys2Proof.Machine.execIllegalInstruction c word s
  | .routingOperationComplete k => Sys2Proof.Machine.execRoutingOperationComplete k s
  | .vspencCompletion e => Sys2Proof.Machine.execVspencCompletion e s
  | .moverCopyComplete k => Sys2Proof.Machine.execMoverCopyComplete k s
  | .t3ReadCompletion k data => Sys2Proof.Machine.execT3ReadCompletion k data s
  | .pcieLinkTrainingDone speed width => Sys2Proof.Machine.execPcieLinkTrainingDone speed width s
  | .dynamicAddressAssignment addr => Sys2Proof.Machine.execDynamicAddressAssignment addr s
  | .miswiredIdentSend p => Sys2Proof.Machine.execMiswiredIdentSend p s
  | .inputContactOpen rtn mask => Sys2Proof.Machine.execInputContactOpen rtn mask s
  | .tirEditWriteLeaf => Sys2Proof.Machine.execTirEditWriteLeaf s
  | .tirEditReadLeaf => Sys2Proof.Machine.execTirEditReadLeaf s
  | .tirEditMove => Sys2Proof.Machine.execTirEditMove s
  | .tirEditInvalidate => Sys2Proof.Machine.execTirEditInvalidate s
  | .moverTakeWork => Sys2Proof.Machine.execMoverTakeWork s
  | .patrolScrub => Sys2Proof.Machine.execPatrolScrub s
  | .syncSweep => Sys2Proof.Machine.execSyncSweep s
  | .paceEpochBoundary => Sys2Proof.Machine.execPaceEpochBoundary s
  | .localProposal => Sys2Proof.Machine.execLocalProposal s
  | .paceUpPost => Sys2Proof.Machine.execPaceUpPost s
  | .paceDownPost => Sys2Proof.Machine.execPaceDownPost s
  | .paceDownMissing => Sys2Proof.Machine.execPaceDownMissing s
  | .ageingEvaluation => Sys2Proof.Machine.execAgeingEvaluation s
  | .inputGood => Sys2Proof.Machine.execInputGood s
  | .inputStageRestart => Sys2Proof.Machine.execInputStageRestart s
  | .refclkLoss => Sys2Proof.Machine.execRefclkLoss s
  | .perstAssert => Sys2Proof.Machine.execPerstAssert s
  | .perstDeassert => Sys2Proof.Machine.execPerstDeassert s
  | .pcieConfigRequest => Sys2Proof.Machine.execPcieConfigRequest s
  | .functionLevelReset => Sys2Proof.Machine.execFunctionLevelReset s
  | .d3hotEntry => Sys2Proof.Machine.execD3hotEntry s
  | .d0Return => Sys2Proof.Machine.execD0Return s
  | .secCmdTransition => Sys2Proof.Machine.execSecCmdTransition s
  | .secCmdDebugUnlock => Sys2Proof.Machine.execSecCmdDebugUnlock s
  | .secCmdDebugLock => Sys2Proof.Machine.execSecCmdDebugLock s
  | .secCmdWriteImageChunk => Sys2Proof.Machine.execSecCmdWriteImageChunk s
  | .secCmdSelectSlot => Sys2Proof.Machine.execSecCmdSelectSlot s
  | .secCmdCommitSvn => Sys2Proof.Machine.execSecCmdCommitSvn s
  | .secCmdSaveSettings => Sys2Proof.Machine.execSecCmdSaveSettings s
  | .secCmdRetire => Sys2Proof.Machine.execSecCmdRetire s
  | .secResetGo => Sys2Proof.Machine.execSecResetGo s
  | .jobResetComplete => Sys2Proof.Machine.execJobResetComplete s
  | .getTid => Sys2Proof.Machine.execGetTid s
  | .getPldmVersion => Sys2Proof.Machine.execGetPldmVersion s
  | .getPldmTypes => Sys2Proof.Machine.execGetPldmTypes s
  | .getPldmCommands => Sys2Proof.Machine.execGetPldmCommands s

end Sys2Proof.Machine
end

