-- ==== Sys2Proof/Safety.lean ====
section
/-! DEFINITION. What a safe run is, and the terms in which claims speak of commands, cores, registers and memories. -/

namespace Sys2Proof.Safety

open Sys2Proof.Machine

/-! ### Completion -/

/-- A command completes at a state: its meaning answers a next state. -/
def Completes (c : Instr) (s : State) : Prop := ∃ t, exec c s = .next t

/-- A command completes and leaves the device `d`; the queue, the fuses and the flash are as before. -/
def Does (c : Instr) (s : State) (d : Dev) : Prop := exec c s = .next { s with dev := d }

/-- A well-formed command that has no effect at a state: it is turned away, or it is not its time. -/
def Idle (c : Instr) (s : State) : Prop := exec c s = .next s

/-! ### Cores -/

/-- The device as an instruction of core `c` finds it, or as it stands when the instruction has ended: line reads that were on
their way for the core then bring nothing (R93, R136). -/
def ended (d : Dev) (c : Nat) (b : Bool) : Dev := if b then d.endReads c else d

/-- From `d` to `e` only core `c` has changed, and it is now `x`; line reads of the core may have ended. -/
def OnlyCore (d e : Dev) (c : Nat) (x : Core) : Prop :=
  (∃ b, e = { ended d c b with cores := e.cores }) ∧ ∀ k, e.core k = if k = c then x else d.core k

/-- From `d` to `e` only core `c` and engine `c` have changed, and they are now `x` and `y`; line reads of the core may have
ended. -/
def OnlyEngine (d e : Dev) (c : Nat) (x : Core) (y : Eng) : Prop :=
  (∃ b, e = { ended d c b with cores := e.cores, eng := e.eng }) ∧ (∀ k, e.core k = if k = c then x else d.core k)
    ∧ ∀ k, e.engine k = if k = c then y else d.engine k

/-- A core takes this instruction and carries it out: it runs and waits for nothing, the device has not tripped, the fields
and the width are legal (R79), the profile has the instruction (R67), and its predicate holds (R80). -/
def Issues (d : Dev) (op : Op) (legal : Bool) (w : IW) : Prop :=
  (d.core w.core).takes = true ∧ d.rb Reg.PWR_STATUS 31 = false ∧ legal = true ∧ wideLegal op w = true
    ∧ (op.eOnly = true → w.core < 32) ∧ predHolds (d.core w.core) w = true

/-- The core after a taken branch or jump: it counts as retired, a loop level that the target leaves is gone, and the core
continues at the target (R90, R408, R410). -/
def jumped (x : Core) (target : Nat) : Core :=
  ({ x.setCsr 0x401 (x.csrOf 0x401 + 1) with loops := jumpLoops x.frozen target x.loops } : Core).goTo target

/-- No shipped program that a slot of core c runs begins at an address (log 129). -/
def NoProgramAt (d : Dev) (c t : Nat) : Prop :=
  ∀ (s : Nat) (r : Nat × Nat), (d.core c).slot = some s → tget (fun _ => none) d.xch.rings s = some r → t ≠ r.1 ∧ t ≠ r.2

/-- From `d` to `e` core c, which stood as x, has taken a branch or jump to t: only it has changed, and where a shipped program
begins there, the core has gone on into that program (R90, R408, R410; log 129). -/
def Jumps (d e : Dev) (c : Nat) (x : Core) (t : Nat) : Prop :=
  ∃ e0, OnlyCore d e0 c (jumped x t) ∧ e = e0.enterRings c ∧ (NoProgramAt d c (pcMask t).toNat → e = e0)

/-! ### Host accesses -/

/-- A host access to a register block is performed: the device answers (R708, R720), it is not in D3hot, an IDE stream
carries it where one is required, and no earlier posted write holds it back (R775). -/
def HostOpen (d : Dev) (c : Instr) (v : Via) (sec post : Bool) : Prop := d.barStop c v sec post = none

/-! ### Rows of the opcode table by shape -/

/-- The operations of Table 2-6 on x and y (R83, R84); 19 to 21 ignore y. -/
def aluRows : List ((Bool → IW → Instr) × (Word → Word → Word)) :=
  [(.add, fun x y => x + y), (.sub, fun x y => x - y), (.and, fun x y => x &&& y), (.or, fun x y => x ||| y),
   (.xor, fun x y => x ^^^ y), (.sll, fun x y => x <<< (y.toNat % 64)), (.srl, fun x y => x >>> (y.toNat % 64)),
   (.sra, fun x y => x.sshiftRight (y.toNat % 64)),
   (.min, fun x y => if x.toInt ≤ y.toInt then x else y), (.max, fun x y => if x.toInt ≤ y.toInt then y else x),
   (.minu, fun x y => if x.toNat ≤ y.toNat then x else y), (.maxu, fun x y => if x.toNat ≤ y.toNat then y else x),
   (.mul, fun x y => x * y), (.mulh, fun x y => BitVec.ofInt 64 (x.toInt * y.toInt / 2 ^ 64)),
   (.mulhu, fun x y => BitVec.ofNat 64 (x.toNat * y.toNat / 2 ^ 64)),
   (.div, divS), (.divu, divU), (.rem, remS), (.remu, remU),
   (.popc, fun x _ => BitVec.ofNat 64 (popCount x)), (.clz, fun x _ => BitVec.ofNat 64 (leadZeros x)),
   (.ctz, fun x _ => BitVec.ofNat 64 (trailZeros x))]

/-- The predicate instructions (R87). -/
def predRows : List ((IW → Instr) × (Bool → Bool → Bool)) :=
  [(.pand, fun a b => a && b), (.por, fun a b => a || b), (.pxor, fun a b => xor a b), (.pandn, fun a b => a && !b)]

/-! ### Vector instructions of lanes -/

/-- Vector instructions that act lane by lane: the constructor, the major opcode, whether the instruction's own fields are legal,
and the lane's result and flags from vs1, vs2 and the old vd (Table 8-6, R288 to R292, R384). -/
def vecRows : List ((IW → Instr) × Nat × (IW → Bool) × (IW → W32 → W32 → W32 → W32 × Flg)) :=
  let arith := fun (w : IW) => decide (fld w.fn 10 5 = 0)
  let fused := fun (w : IW) => decide (fld w.fn 10 2 = 0)
  let bits := fun (w : IW) => decide (fld w.fn 10 3 = 0)
  [(.vadd, 0x20, arith, fun w a b _ => add32 (vrnd (bitAt w.fn 4)) a b),
   (.vsub, 0x20, arith, fun w a b _ => sub32 (vrnd (bitAt w.fn 4)) a b),
   (.vmul, 0x20, arith, fun w a b _ => mul32 (vrnd (bitAt w.fn 4)) a b),
   (.vmin, 0x20, arith, fun _ a b _ => min32 a b),
   (.vmax, 0x20, arith, fun _ a b _ => max32 a b),
   (.vdiv, 0x20, arith, fun w a b _ => div32 (vrnd (bitAt w.fn 4)) a b),
   (.vsqrt, 0x20, arith, fun w a _ _ => sqrt32 (vrnd (bitAt w.fn 4)) a),
   (.vexp2, 0x20, arith, fun _ a _ _ => approx 0 Config.vexp2 a),
   (.vlog2, 0x20, arith, fun _ a _ _ => approx 1 Config.vlog2 a),
   (.vrcp, 0x20, arith, fun _ a _ _ => approx 2 Config.vrcp a),
   (.vrsq, 0x20, arith, fun _ a _ _ => approx 3 Config.vrsq a),
   (.vfma, 0x21, fused, fun w a b c => fma32 (vrnd (bitAt w.fn 1)) a b c),
   (.vfms, 0x21, fused, fun w a b c => fma32 (vrnd (bitAt w.fn 1)) a b (neg32 c)),
   (.vcmp, 0x22, fun w => bits w && decide (fld w.fn 2 0 ≤ 4), fun w a b _ => vcmpLane (fld w.fn 2 0) a b),
   (.vand, 0x23, bits, fun _ a b _ => (a &&& b, Flg.none)),
   (.vor, 0x23, bits, fun _ a b _ => (a ||| b, Flg.none)),
   (.vxor, 0x23, bits, fun _ a b _ => (a ^^^ b, Flg.none)),
   (.viadd, 0x23, bits, fun _ a b _ => (a + b, Flg.none)),
   (.vsel, 0x23, bits, fun _ a b c => (if bitAt c 31 then a else b, Flg.none)),
   (.vshl, 0x23, bits, fun _ a b _ => (a <<< (b.toNat % 32), Flg.none)),
   (.vshr, 0x23, bits, fun _ a b _ => (a >>> (b.toNat % 32), Flg.none))]

/-- No drain of an engine to vector registers is in flight: a vector instruction does not wait for one. -/
def NoVectorDrain (d : Dev) (c : Nat) : Prop := (d.engine c).drains.any (fun y => y.toVec) = false

/-! ### Arrivals at a fabric port -/

/-- What each transaction that ends at this device does once its crc and its credits have been checked: the constructor and the
unit's action, on the port it came by (R599 to R612, R622 to R633, R178, R186, R588, R615). -/
def arrivalRows : List ((Nat → Tx → Instr) × (Nat → Tx → Dev → Dev)) :=
  [(.wrlReceive, fun _ x a => a.takeWrite x), (.blkReceive, fun _ x a => a.takeWrite x),
   (.rdlReceive, fun _ x a => a.takeRead x), (.rdrReceive, fun _ x a => a.takeRdr x),
   (.rtsReceive, fun _ x a => a.takeRts x), (.msgReceive, fun _ x a => a.takeFragment x),
   (.postReceive, fun _ x a => a.takePost x), (.qnotReceive, fun _ x a => a.takeNotice x),
   (.ackReceive, fun _ x a => a.takeAck x), (.grantReceive, fun _ x a => a.takeGrant x),
   (.reservedOpReceive, fun _ _ a => a.satRf Reg.FAB_DROPS 31 0 1),
   (.hintReceive, fun _ x a =>
     match a.slotOfJob x.job with
     | none => a
     | some sl => a.takeHint sl (nfld x.offset 7 0) (nfld x.offset 19 8)),
   (.bundleReceive, fun _ x a =>
     (a.unbundle x 171 x.payload).foldl (fun (b : Dev) (t : Tx) =>
       if t.dst = b.node then b.deliver t else b.forward t none) a)]

/-- The device once the credit ledger that a transaction takes has been read (R559). -/
def ledgered (d : Dev) (p : Nat) (x : Tx) : Dev := d.readLedger 0 (p * 8 + d.inKey p x / 4) d.jobSlots

/-- A transaction comes by a linked port within the credits granted there. -/
def WithinCredit (d : Dev) (p : Nat) (x : Tx) : Prop :=
  d.portLinked p = true ∧
    (let c := ((ledgered d p x).port p).credit (d.inKey p x)
     txUnits x ≤ (c.g + 2 ^ 48 - c.r % 2 ^ 48) % 2 ^ 48)

/-- The device once the credits that a transaction occupies have been counted at its port. -/
def counted (d : Dev) (p : Nat) (x : Tx) : Dev :=
  let d0 := ledgered d p x
  let c := (d0.port p).credit (d.inKey p x)
  d0.setPort p ((d0.port p).setCredit (d.inKey p x) { c with r := (c.r + txUnits x) % 2 ^ 48 })

/-! ### Management and attestation -/

/-- Commands of MCTP and PLDM that the management controller serves once the device is ready, and what it answers (R766; bodies
that DMTF lays out are free, log 34). -/
def pldmRows : List (Instr × Resp) :=
  [(.getTid, .mctp 1 (Config.mctpBody 1 0)), (.getPldmVersion, .mctp 2 (Config.mctpBody 2 0)),
   (.getPldmTypes, .mctp 3 (Config.mctpBody 3 0)), (.getPldmCommands, .mctp 4 (Config.mctpBody 4 0))]

/-- The SPDM requests that leave the device as it is but for the answer: constructor, response code, whether it attests, and whether
its response is signed (R741, R742; log 34). -/
def spdmRows : List ((List Byte → Instr) × Nat × Bool × Bool) :=
  [(.getVersion, 0x84, false, false), (.getCapabilities, 0xE1, false, false), (.negotiateAlgorithms, 0xE3, false, false),
   (.getDigests, 0x81, true, false), (.getCertificate, 0x82, true, false), (.challenge, 0x83, true, true),
   (.keyExchange, 0xE4, true, true), (.finish, 0xE5, true, false), (.keyUpdate, 0xE9, true, false),
   (.heartbeat, 0xE8, true, false), (.endSession, 0xEC, true, false), (.chunkGet, 0x86, false, false)]

/-! ### Cores at their start -/

/-- The registers that R69 names read 0: g, p1 to p7, v and the loop stack. -/
def Cleared (x : Core) : Prop :=
  (∀ i, x.getG i = 0) ∧ (∀ i, i ≠ 0 → x.getP i = false) ∧ (∀ i k, x.getV i k = 0) ∧ x.loops = []

/-! ### Memories, fuses -/

/-- The byte memories of the device stand in canonical form. -/
def MemoriesCanonical (d : Dev) : Prop :=
  Memory.wf d.mem.t1 = true ∧ Memory.wf d.mem.t3 = true ∧ Memory.wf d.mem.es = true ∧ Memory.wf d.mem.ks = true
    ∧ Memory.wf d.mem.gc = true

/-- Fuses and counters that only rise have not fallen from one state to the next: fuse rows burnt and the minimum
version (R731, R738), and a device secret that is burnt stays burnt. -/
def FusesMonotone (a b : NonVol) : Prop := a.rows ≤ b.rows ∧ a.minSvn ≤ b.minSvn ∧ (a.udsBlown = true → b.udsBlown = true)

end Sys2Proof.Safety
end

