-- ==== Sys2Proof/Certificates/Slice0/Obligations.lean ====
section
/-! DEFINITION. The statements for the provers, one Prop each. -/

open Sys2Proof Sys2Proof.Machine Sys2Proof.Safety

/-! ### Commands, the queue, fuses and reset -/

/-- A step takes the command at the front of the queue and executes it on the state with the rest of the queue. -/
def Obligations.StepRunsTheFrontCommand : Prop :=
  ∀ (c : Instr) (cs : List Instr) (s : State), s.pending = c :: cs → step s = exec c { s with pending := cs }

/-- Every well-formed command completes, but for INPUT_VOLTAGE_CHANGE, which stops beyond the absolute ratings (R749) and
only there; a command that is not well-formed is refused. -/
def Obligations.WellFormedCommandsComplete : Prop :=
  (∀ (c : Instr) (s : State), c.wf = true → (∀ dv us, c ≠ .inputVoltageChange dv us) → Completes c s)
    ∧ (∀ (c : Instr) (s : State), c.wf = false → exec c s = .refused .illFormed)
    ∧ (∀ (dv : Int) (us : Nat) (s : State), (Instr.inputVoltageChange dv us).wf = true →
        ((∃ t, exec (.inputVoltageChange dv us) s = .next t) ∨ exec (.inputVoltageChange dv us) s = .fault .beyondRatings))

/-- No command touches the queue: whatever it does, the commands that wait are those that waited. -/
def Obligations.CommandsKeepTheQueue : Prop :=
  ∀ (c : Instr) (s t : State), exec c s = .next t → t.pending = s.pending

/-- Every step keeps what fuses promise: burnt rows and the minimum version never fall, and a burnt device secret stays burnt
(R731, R738). -/
def Obligations.StepsNeverUnburnFuses : Prop :=
  ∀ s t : State, step s = .next t → FusesMonotone s.nv t.nv

/-! ### Scalar instructions -/

/-- R83 and R84: an ALU instruction that issues writes the result of Table 2-6 to g[rd] and retires; nothing else of the
device changes. The second operand is g[rs2] in the register form, imm in the immediate form. -/
def Obligations.AluResults : Prop :=
  ∀ r ∈ aluRows, ∀ (i : Bool) (w : IW) (s : State), (r.1 i w).wf = true →
    Issues s.dev { major := if i then 2 else 1, takesImm := i, branch := false, eOnly := false }
      (i || decide (fld w.fn 10 5 = 0)) w →
    ∃ e, Does (r.1 i w) s e ∧
      OnlyCore s.dev e w.core
        (((s.dev.core w.core).setG w.rd.toNat
          (r.2 ((s.dev.core w.core).getG w.rs1.toNat)
            (if i then immValue w else (s.dev.core w.core).getG w.rs2.toNat))).retire (ilenOf w))

/-- R84: division by 0 gives all ones and the remainder x; the most negative number over −1 gives itself and remainder 0;
else quotients are rounded toward zero, and quotient, remainder and operands fit together. A division that issues raises no
exception: it writes its result and retires. -/
def Obligations.DivisionRules : Prop :=
  (∀ x : Word, divS x 0 = BitVec.allOnes 64 ∧ divU x 0 = BitVec.allOnes 64 ∧ remS x 0 = x ∧ remU x 0 = x)
    ∧ divS (BitVec.ofNat 64 (2 ^ 63)) (BitVec.allOnes 64) = BitVec.ofNat 64 (2 ^ 63)
    ∧ remS (BitVec.ofNat 64 (2 ^ 63)) (BitVec.allOnes 64) = 0
    ∧ (∀ x y : Word, divS x y * y + remS x y = x ∨ y = 0)
    ∧ (∀ x y : Word, y ≠ 0 → divU x y * y + remU x y = x ∧ (remU x y).toNat < y.toNat)
    ∧ (∀ x y : Word, y ≠ 0 → (remS x y).toInt = x.toInt.tmod y.toInt)
    ∧ (∀ r ∈ ([(.div, divS), (.divu, divU), (.rem, remS), (.remu, remU)] :
        List ((Bool → IW → Instr) × (Word → Word → Word))), ∀ (i : Bool) (w : IW) (s : State),
      (r.1 i w).wf = true →
      Issues s.dev { major := if i then 2 else 1, takesImm := i, branch := false, eOnly := false }
        (i || decide (fld w.fn 10 5 = 0)) w →
      (let x := s.dev.core w.core
       ∃ e, Does (r.1 i w) s e ∧ OnlyCore s.dev e w.core
         ((x.setG w.rd.toNat (r.2 (x.getG w.rs1.toNat) (if i then immValue w else x.getG w.rs2.toNat))).retire (ilenOf w))))

/-- Table 2-6, codes 19 to 21: POPC counts the 1 bits; above the leading zeros of x no bit is set and the next one is; below
the trailing zeros no bit is set and the next one is; 64 for 0. -/
def Obligations.BitCounts : Prop :=
  (∀ x : Word, popCount x = ((List.range 64).map (fun i => if bitAt x i then 1 else 0)).sum)
    ∧ (∀ x : Word, leadZeros x ≤ 64 ∧ (∀ i, i < 64 → 64 - leadZeros x ≤ i → bitAt x i = false)
        ∧ (leadZeros x < 64 → bitAt x (63 - leadZeros x) = true))
    ∧ (∀ x : Word, trailZeros x ≤ 64 ∧ (∀ i, i < trailZeros x → bitAt x i = false)
        ∧ (trailZeros x < 64 → bitAt x (trailZeros x) = true))

/-- R85, R86: LUH writes imm × 2^32; CMP and CMPI set p[rd[23:21]] to the condition.
R87: the predicate instructions write p[rd[23:21]] from p[rs1[18:16]] and p[rs2[13:11]]. -/
def Obligations.ComparesAndPredicates : Prop :=
  ((∀ (w : IW) (s : State), (Instr.luh w).wf = true →
    Issues s.dev { major := 0x03, takesImm := true, branch := false, eOnly := false } true w →
    ∃ e, Does (.luh w) s e ∧
      OnlyCore s.dev e w.core (((s.dev.core w.core).setG w.rd.toNat (immValue w * BitVec.ofNat 64 (2 ^ 32))).retire (ilenOf w)))
  ∧ (∀ (w : IW) (s : State), (Instr.cmp w).wf = true →
    Issues s.dev { major := 0x04, takesImm := false, branch := false, eOnly := false }
      (decide (fld w.fn 10 3 = 0) && decide (fld w.rd 4 3 = 0) && decide (fld w.fn 2 0 ≤ 5)) w →
    ∃ e, Does (.cmp w) s e ∧
      OnlyCore s.dev e w.core (((s.dev.core w.core).setP (fld w.rd 2 0)
        (condHolds (fld w.fn 2 0) ((s.dev.core w.core).getG w.rs1.toNat) ((s.dev.core w.core).getG w.rs2.toNat))).retire
          (ilenOf w)))
  ∧ (∀ (w : IW) (s : State), (Instr.cmpi w).wf = true →
    Issues s.dev { major := 0x05, takesImm := true, branch := false, eOnly := false }
      (decide (fld w.rs2 4 3 = 0) && decide (fld w.rd 4 3 = 0) && decide (fld w.rs2 2 0 ≤ 5)) w →
    ∃ e, Does (.cmpi w) s e ∧
      OnlyCore s.dev e w.core (((s.dev.core w.core).setP (fld w.rd 2 0)
        (condHolds (fld w.rs2 2 0) ((s.dev.core w.core).getG w.rs1.toNat) (immValue w))).retire (ilenOf w))))
  ∧ (∀ r ∈ predRows, ∀ (w : IW) (s : State), (r.1 w).wf = true →
    Issues s.dev { major := 0x06, takesImm := false, branch := false, eOnly := false }
      (decide (fld w.rd 4 3 = 0) && decide (fld w.rs1 4 3 = 0) && decide (fld w.rs2 4 3 = 0) && decide (fld w.fn 10 2 = 0)) w →
    ∃ e, Does (r.1 w) s e ∧
      OnlyCore s.dev e w.core (((s.dev.core w.core).setP (fld w.rd 2 0)
        (r.2 ((s.dev.core w.core).getP (fld w.rs1 2 0)) ((s.dev.core w.core).getP (fld w.rs2 2 0)))).retire (ilenOf w)))

/-- R88 to R90: BP branches when p[rd[23:21]] differs from rd[24], else retires; JAL and JALR write the address of the next
instruction to g[rd] and jump. Targets here lie below 2^48 (R90 has the others). A jump changes the core alone, but where a
shipped program of its job begins at the target. -/
def Obligations.BranchesAndJumps : Prop :=
  (∀ (w : IW) (s : State), (Instr.bp w).wf = true →
    Issues s.dev { major := 0x08, takesImm := false, branch := true, eOnly := false } (!bitAt w.rd 4) w →
    ((s.dev.core w.core).getP (fld w.rd 2 0) = bitAt w.rd 3 →
      ∃ e, Does (.bp w) s e ∧ OnlyCore s.dev e w.core ((s.dev.core w.core).retire (ilenOf w)))
    ∧ ((s.dev.core w.core).getP (fld w.rd 2 0) ≠ bitAt w.rd 3 →
        ((s.dev.core w.core).pc + BitVec.ofInt 64 (offset21 w)).toNat < 2 ^ 48 →
        ∃ e, Does (.bp w) s e ∧ Jumps s.dev e w.core (s.dev.core w.core)
          ((s.dev.core w.core).pc + BitVec.ofInt 64 (offset21 w)).toNat))
  ∧ (∀ (w : IW) (s : State), (Instr.jal w).wf = true →
    Issues s.dev { major := 0x09, takesImm := false, branch := true, eOnly := false } true w →
    ((s.dev.core w.core).pc + BitVec.ofInt 64 (offset21 w)).toNat < 2 ^ 48 →
      ∃ e, Does (.jal w) s e ∧ Jumps s.dev e w.core
        ((s.dev.core w.core).setG w.rd.toNat ((s.dev.core w.core).pc + BitVec.ofNat 64 (ilenOf w)))
        ((s.dev.core w.core).pc + BitVec.ofInt 64 (offset21 w)).toNat)
  ∧ (∀ (w : IW) (s : State), (Instr.jalr w).wf = true →
    Issues s.dev { major := 0x0A, takesImm := true, branch := true, eOnly := false } (decide (w.rs2 = 0)) w →
    ((s.dev.core w.core).getG w.rs1.toNat + immValue w).toNat < 2 ^ 48 →
      ∃ e, Does (.jalr w) s e ∧ Jumps s.dev e w.core
        ((s.dev.core w.core).setG w.rd.toNat ((s.dev.core w.core).pc + BitVec.ofNat 64 (ilenOf w)))
        (((s.dev.core w.core).getG w.rs1.toNat + immValue w).toNat / 4 * 4))

/-- R801: CSRR, CSRW, CSRS and CSRC complete for every CSR number: each writes what a read of the CSR gives to g[rd] and
retires; CSRW writes the CSR g[rs1], CSRS sets and CSRC clears in it the bits of g[rs1], CSRR writes nothing.
R70, R71: at J a CSR from 0x800 reads 0 and a write of it does nothing, as does a write of a number that names no CSR.
R115, R117 and Table 2-2: at M a write of a CSR that the core holds reaches it: one of 64 bits reads back what was written,
one of fewer bits those, and XSTATUS.priv, whatever is written, keeps its value. A write reaches the core's own CSRs alone,
and of those only the one it names. -/
def Obligations.CsrAccess : Prop :=
  (∀ r ∈ ([(.csrr, fun _ _ => none), (.csrw, fun _ v => some v), (.csrs, fun o v => some (o ||| v)),
      (.csrc, fun o v => some (o &&& ~~~v))] : List ((IW → Instr) × (Word → Word → Option Word))),
    ∀ (w : IW) (s : State), (r.1 w).wf = true →
    Issues s.dev { major := 0x11, takesImm := false, branch := false, eOnly := false } (decide (fld w.rs2 4 3 = 0)) w →
    ∃ e, exec (r.1 w) s = .next { s with dev := e } ∧
      (let n := w.fn.toNat + 2 ^ 11 * fld w.rs2 0 0
       let old := s.dev.csrRead w.core n
       let d := match r.2 old ((s.dev.core w.core).getG w.rs1.toNat) with
         | some v => s.dev.csrWrite w.core n v
         | none => s.dev
       OnlyCore d e w.core (((d.core w.core).setG w.rd.toNat old).retire (ilenOf w))))
  ∧ ((∀ (d : Dev) (c n : Nat), 0x800 ≤ n → (d.core c).atM c = false → d.csrRead c n = 0)
    ∧ (∀ (d : Dev) (c n : Nat) (v : Word), 0x800 ≤ n → (d.core c).atM c = false → d.csrWrite c n v = d)
    ∧ (∀ (d : Dev) (c n : Nat) (v : Word), 0x003 < n → n ∉ csrHeld → d.csrWrite c n v = d)
    ∧ (∀ (d : Dev) (c n : Nat) (v : Word), (d.core c).atM c = true →
        n ∈ [0x001, 0x002, 0x003, 0x400, 0x401, 0x406, 0x801, 0x802, 0x804, 0x805] →
        (d.csrWrite c n v).csrGet c n = v)
    ∧ (∀ (d : Dev) (c : Nat) (v : Word), (d.core c).atM c = true →
        ((d.csrWrite c 0x405 v).csrGet c 0x405).toNat = v.toNat % 2 ^ 16
          ∧ ((d.csrWrite c 0x407 v).csrGet c 0x407).toNat = v.toNat % 2
          ∧ ((d.csrWrite c 0x803 v).csrGet c 0x803).toNat = v.toNat % 2 ^ 8)
    ∧ (∀ (d : Dev) (c n : Nat) (v : Word), ((d.csrWrite c n v).core c).atM c = (d.core c).atM c)
    ∧ (∀ (d : Dev) (c n k : Nat) (v : Word), k ≠ n → ((d.csrWrite c n v).core c).csrOf k = (d.core c).csrOf k)
    ∧ (∀ (d : Dev) (c n k : Nat) (v : Word), k ≠ c → (d.csrWrite c n v).core k = d.core k))

/-- Table 2-1: g0 reads 0 and p0 reads 1, and writes of them are discarded; every other register reads what was last
written, and a write of one leaves the others.
The frame of retirement (R407, R410): registers, predicates, lanes, pending faults and posts stay; RETIRED counts and
every other CSR stays; outside a loop the pc advances by the length of the instruction. -/
def Obligations.RegistersAndRetirement : Prop :=
  ((∀ (x : Core) (i j : Nat) (v : Word), (x.setG i v).getG j = if j = i ∧ i ≠ 0 then v else x.getG j)
    ∧ (∀ x : Core, x.getG 0 = 0) ∧ (∀ (x : Core) (v : Word), x.setG 0 v = x)
    ∧ (∀ (x : Core) (i j : Nat) (b : Bool), i < 8 → j < 8 →
        (x.setP i b).getP j = if j = i ∧ i ≠ 0 then b else x.getP j)
    ∧ (∀ x : Core, x.getP 0 = true)
    ∧ (∀ (x : Core) (i j n m : Nat) (v : W32), n < 128 → m < 128 →
        (x.setV i n v).getV j m = if j = i ∧ m = n then v else x.getV j m))
  ∧ (∀ (x : Core) (n : Nat),
    (∀ i, (x.retire n).getG i = x.getG i) ∧ (∀ i, (x.retire n).getP i = x.getP i) ∧ (∀ i k, (x.retire n).getV i k = x.getV i k)
      ∧ (∀ k, (x.retire n).csrOf k = if k = 0x401 then x.csrOf 0x401 + 1 else x.csrOf k)
      ∧ (x.retire n).async = x.async ∧ (x.retire n).posts = x.posts ∧ (x.retire n).entry = x.entry
      ∧ (x.retire n).frozen = x.frozen ∧ (x.retire n).run = x.run
      ∧ (x.loops = [] ∨ x.frozen = true → (x.retire n).pc = pcMask (x.pc.toNat + n) ∧ (x.retire n).loops = x.loops))

/-! ### Loads, stores, line copies, fences -/

/-- R91 to R93: an LD whose address is aligned and local, and whose bytes are at hand, writes them to g[rd], sign-extended or
zero-extended, and retires; an ST hands the low bytes of g[rd] to memory and retires. Both go through the memory as the core
reaches it.
R116, R806: at M with jva = 0 an LD reads, and an ST writes, device physical memory: up to the end of the firmware region,
where no ECC error stands in the line and no line copy of the core is still to be written there (R128). The ST stores its bytes, lowest first (R9), at the address and nowhere else; every other byte of every memory, every
other core and the rest of the device stay. -/
def Obligations.LoadsAndStores : Prop :=
  ((∀ (w : IW) (s : State) (d : Dev) (bs : List Byte), (Instr.ld w).wf = true →
    Issues s.dev (cOp 0x0C true) (decide (fld w.rs2 4 3 ≠ 3)) w →
    (let a := (s.dev.core w.core).getG w.rs1.toNat + immValue w
     let n := 2 ^ fld w.rs2 1 0
     a.toNat % n = 0 → fld a 63 48 = 0 → s.dev.coreRd w.core a.toNat n = .ok d bs →
     ∃ e, Does (.ld w) s e ∧ OnlyCore d e w.core
       (((d.core w.core).setG w.rd.toNat
         (if bitAt w.rs2 2 then sext (8 * bs.length) (leNat bs) else BitVec.ofNat 64 (leNat bs))).retire (ilenOf w))))
  ∧ (∀ (w : IW) (s : State) (d : Dev) (bs : List Byte), (Instr.st w).wf = true →
    Issues s.dev (cOp 0x0D true) (decide (fld w.rs2 4 3 ≠ 3) && !bitAt w.rs2 2) w →
    (let a := (s.dev.core w.core).getG w.rs1.toNat + immValue w
     let n := 2 ^ fld w.rs2 1 0
     a.toNat % n = 0 → fld a 63 48 = 0 →
     s.dev.coreWr w.core a.toNat (leBytes n ((s.dev.core w.core).getG w.rd.toNat).toNat) = .ok d bs →
     ∃ e, Does (.st w) s e ∧ OnlyCore d e w.core ((d.core w.core).retire (ilenOf w)))))
  ∧ ((∀ (w : IW) (s : State), (Instr.ld w).wf = true →
    Issues s.dev (cOp 0x0C true) (decide (fld w.rs2 4 3 ≠ 3)) w →
    (let x := s.dev.core w.core
     let a := x.getG w.rs1.toNat + immValue w
     let n := 2 ^ fld w.rs2 1 0
     x.atM w.core = true → bitAt (x.csrOf 0x800) 2 = false → a.toNat % n = 0 → a.toNat + n ≤ s.dev.physLimit →
     s.dev.linePending w.core a.toNat n = false → s.dev.symbols a.toNat n = 0 →
     ∃ e, Does (.ld w) s e ∧ OnlyCore s.dev e w.core
       ((x.setG w.rd.toNat
         (if bitAt w.rs2 2 then sext (8 * n) (leNat (rdBytes s.dev.mem.t1 a.toNat n))
          else BitVec.ofNat 64 (leNat (rdBytes s.dev.mem.t1 a.toNat n)))).retire (ilenOf w))))
  ∧ (∀ (w : IW) (s : State), (Instr.st w).wf = true →
    Issues s.dev (cOp 0x0D true) (decide (fld w.rs2 4 3 ≠ 3) && !bitAt w.rs2 2) w →
    (let x := s.dev.core w.core
     let a := x.getG w.rs1.toNat + immValue w
     let n := 2 ^ fld w.rs2 1 0
     x.atM w.core = true → bitAt (x.csrOf 0x800) 2 = false → a.toNat % n = 0 → a.toNat + n ≤ s.dev.physLimit →
     s.dev.linePending w.core a.toNat n = false →
     ∃ d e, Does (.st w) s e ∧ OnlyCore d e w.core (x.retire (ilenOf w))
       ∧ (∀ b, rdByte d.mem.t1 b =
           if a.toNat ≤ b ∧ b < a.toNat + n then BitVec.ofNat 8 ((x.getG w.rd.toNat).toNat / 256 ^ (b - a.toNat))
           else rdByte s.dev.mem.t1 b)
       ∧ d = { s.dev with mem := { s.dev.mem with t1 := d.mem.t1 } })))

/-- R470: the window of the issuing engine's own store. An aligned LD or ST of an engine core at J to byte o of the store, at
local address 0xFFFF_8000_0000 + o with o below 48 MiB, reads and writes those bytes of that store alone, where no earlier work
of the core still has to write there, or, for the ST, to read there (R128, R307, R323). The ST clears crc_ok of the gob slot it
writes to (R481).
Every operation that writes a byte memory keeps its canonical form, a read of a written range gives what was written, and
every byte outside it reads as before; a wiped range reads 0. -/
def Obligations.MemoryAndStore : Prop :=
  ((∀ (w : IW) (s : State), (Instr.ld w).wf = true →
    Issues s.dev (cOp 0x0C true) (decide (fld w.rs2 4 3 ≠ 3)) w →
    (let x := s.dev.core w.core
     let a := x.getG w.rs1.toNat + immValue w
     let n := 2 ^ fld w.rs2 1 0
     w.core < 32 → x.atM w.core = false → x.slot.isSome = true → a.toNat % n = 0 →
     0xFFFF80000000 ≤ a.toNat → a.toNat + n ≤ 0xFFFF83000000 → s.dev.accessWaits w.core a.toNat n = false →
     ∃ e, Does (.ld w) s e ∧ OnlyCore s.dev e w.core
       ((x.setG w.rd.toNat
         (if bitAt w.rs2 2 then sext (8 * n) (leNat (s.dev.esRead w.core (a.toNat - 0xFFFF80000000) n))
          else BitVec.ofNat 64 (leNat (s.dev.esRead w.core (a.toNat - 0xFFFF80000000) n)))).retire (ilenOf w))))
  ∧ (∀ (w : IW) (s : State), (Instr.st w).wf = true →
    Issues s.dev (cOp 0x0D true) (decide (fld w.rs2 4 3 ≠ 3) && !bitAt w.rs2 2) w →
    (let x := s.dev.core w.core
     let a := x.getG w.rs1.toNat + immValue w
     let n := 2 ^ fld w.rs2 1 0
     w.core < 32 → x.atM w.core = false → x.slot.isSome = true → a.toNat % n = 0 →
     0xFFFF80000000 ≤ a.toNat → a.toNat + n ≤ 0xFFFF83000000 → s.dev.storeWaits w.core a.toNat n = false →
     ∃ d e, Does (.st w) s e ∧ OnlyCore d e w.core (x.retire (ilenOf w))
       ∧ (∀ b, rdByte d.mem.es b =
           if w.core * 2 ^ 26 + (a.toNat - 0xFFFF80000000) ≤ b ∧ b < w.core * 2 ^ 26 + (a.toNat - 0xFFFF80000000) + n
           then BitVec.ofNat 8 ((x.getG w.rd.toNat).toNat / 256 ^ (b - (w.core * 2 ^ 26 + (a.toNat - 0xFFFF80000000))))
           else rdByte s.dev.mem.es b)
       ∧ d = { s.dev with mem := { s.dev.mem with es := d.mem.es }, eng := d.eng }
       ∧ ∀ k, d.engine k = if k = w.core then (s.dev.engine k).wrote (a.toNat - 0xFFFF80000000) n else s.dev.engine k)))
  ∧ ((∀ (m : List Host.Cell) (a : Nat) (bs : List Byte), Memory.wf m = true → Memory.wf (wrBytes m a bs) = true)
    ∧ (∀ (m : List Host.Cell) (a n : Nat), Memory.wf m = true → Memory.wf (zeroRange m a n) = true)
    ∧ (∀ (m : List Host.Cell) (a : Nat) (bs : List Byte), rdBytes (wrBytes m a bs) a bs.length = bs)
    ∧ (∀ (m : List Host.Cell) (a : Nat) (bs : List Byte) (b : Nat), b < a ∨ a + bs.length ≤ b →
        rdByte (wrBytes m a bs) b = rdByte m b)
    ∧ (∀ (m : List Host.Cell) (a n b : Nat), rdByte (zeroRange m a n) b = if a ≤ b ∧ b < a + n then 0 else rdByte m b)
    ∧ (∀ (bs : List Byte) (n : Nat), leNat (leBytes n (leNat bs)) = leNat bs % 256 ^ n)
    ∧ MemoriesCanonical State.reset.dev)

/-- R94 to R97, R131, R132: line copies at addresses that are multiples of 128. An LDL of a line of another node of the
topology, whose local line the core may write now, sends its line read and retires, or with aq = 1 waits in it; an STL whose
source line is at hand sends a line write of those 128 bytes, an STL with rl = 1 behind the writes that its core issued before,
and retires. A line of the device's own node is copied through its inbound window table, and the copy retires. The space has
not failed, and a core with its limit of remote lines outstanding (R333) or an earlier access in the way waits instead. -/
def Obligations.RemoteLineCopies : Prop :=
  (∀ (w : IW) (s : State), (Instr.ldl w).wf = true →
    Issues s.dev (cOp 0x0E false) (decide (w.rs2 = 0) && decide (fld w.fn 10 5 = 0)) w →
    (let x := s.dev.core w.core
     let g := x.getG w.rs1.toNat
     let l := x.getG w.rd.toNat
     let job := s.dev.jobId x.slotN
     g.toNat % 128 = 0 → l.toNat % 128 = 0 → l.toNat < 2 ^ 48 →
     (fld g 63 48 ≠ s.dev.node → s.dev.inTopo (fld g 63 48) = true →
       s.dev.spaceFailed { s.dev.tx 0x01 0 (fld g 63 48) job w.core with chan := fld w.fn 3 0 } = false →
       s.dev.storeWaits w.core l.toNat 128 = false → s.dev.lineRoom w.core ≠ 0 →
       (∀ (d : Dev) (f : FaultInfo), s.dev.coreWr w.core l.toNat (List.replicate 128 0#8) ≠ .fault d f) →
       ∃ e, Does (.ldl w) s e ∧
         (let d := s.dev.lineRead job w.core (fld g 63 48) (fld w.fn 3 0) (fld g 47 0)
           (.ldl w.core x.slotN l.toNat (x.phys w.core) (bitAt w.fn 4))
          OnlyCore d e w.core
            (if bitAt w.fn 4 then { d.core w.core with wait := some .acquire, ilen := ilenOf w }
             else (d.core w.core).retire (ilenOf w))))
     ∧ (∀ (sl va : Nat) (d1 d2 d3 : Dev) (bs b0 : List Byte), fld g 63 48 = s.dev.node →
       d1 = s.dev.windowSeen job (fld g 47 0) → d1.receiverCheck (d1.jobId x.slotN) (fld g 47 0) 128 false = .ok (sl, va) →
       (∃ d b, s.dev.coreWr w.core l.toNat (List.replicate 128 0#8) = .ok d b) → d1.localWaits w.core va 128 = false →
       d1.rd (coreWho w.core sl) va 128 = .ok d2 bs → d2.coreWr w.core l.toNat bs = .ok d3 b0 →
       ∃ e, Does (.ldl w) s e ∧ OnlyCore d3 e w.core ((d3.core w.core).retire (ilenOf w)))))
  ∧ (∀ (w : IW) (s : State) (d : Dev) (bs : List Byte), (Instr.stl w).wf = true →
    Issues s.dev (cOp 0x0F false) (decide (w.rs2 = 0) && decide (fld w.fn 10 6 = 0) && !bitAt w.fn 4) w →
    (let x := s.dev.core w.core
     let g := x.getG w.rs1.toNat
     let l := x.getG w.rd.toNat
     let t : Tx := { d.tx 0x03 0 (fld g 63 48) (d.jobId x.slotN) w.core with
       chan := fld w.fn 3 0, offset := fld g 47 0, lenM1 := 127, payload := bs }
     g.toNat % 128 = 0 → l.toNat % 128 = 0 → l.toNat < 2 ^ 48 →
     (bitAt w.fn 5 = true → s.dev.matrixQuiet w.core = true ∧ s.dev.linesOut w.core = false) →
     s.dev.coreRd w.core l.toNat 128 = .ok d bs →
     (fld g 63 48 ≠ d.node → d.inTopo (fld g 63 48) = true → d.spaceFailed t = false → d.lineRoom w.core ≠ 0 →
       ∃ e, Does (.stl w) s e ∧
         (let f := d.issue t (if bitAt w.fn 5 then d.gateOf w.core none else [])
          OnlyCore f e w.core ((f.core w.core).retire (ilenOf w))))
     ∧ (∀ (sl va : Nat) (d1 d2 : Dev) (b0 : List Byte), fld g 63 48 = d.node →
       (bitAt w.fn 5 = true → d.gateOpen (d.gateOf w.core none) = true) →
       d1 = d.windowSeen (d.jobId x.slotN) (fld g 47 0) →
       d1.receiverCheck (d1.jobId x.slotN) (fld g 47 0) 128 true = .ok (sl, va) →
       d1.localWaits w.core va 128 = false → d1.fillPending w.core va 128 = false →
       d1.wr (coreWho w.core sl) va bs = .ok d2 b0 →
       ∃ e, Does (.stl w) s e ∧ OnlyCore d2 e w.core ((d2.core w.core).retire (ilenOf w)))))

/-- R98, R99: a FENCE, or a FENCE.D to the node of g[rs1], completes at once where every remote write that its core issued, or
issued to that node, has been acknowledged, every line of its LDLs stands in local memory and no matrix work is in flight;
elsewhere the core waits in it. -/
def Obligations.Fences : Prop :=
  ∀ (i : Instr) (w : IW) (node : Dev → Option Nat) (legal : Bool),
    ((i = .fence w ∧ node = (fun _ => none) ∧
        legal = (decide (w.fn = 0) && decide (w.rd = 0) && decide (w.rs1 = 0) && decide (w.rs2 = 0)))
      ∨ (i = .fenceD w ∧ node = (fun d => some (fld ((d.core w.core).getG w.rs1.toNat) 63 48)) ∧
        legal = (decide (w.rd = 0) && decide (w.rs2 = 0)))) →
    ∀ s : State, i.wf = true → Issues s.dev (cOp 0x10 false) legal w →
      (s.dev.quiet w.core (node s.dev) = true → s.dev.matrixQuiet w.core = true → s.dev.linesOut w.core = false →
        ∃ e, Does i s e ∧ OnlyCore s.dev e w.core ((s.dev.core w.core).retire (ilenOf w)))
      ∧ (s.dev.quiet w.core (node s.dev) = false ∨ s.dev.matrixQuiet w.core = false ∨ s.dev.linesOut w.core = true →
        ∃ e, Does i s e ∧ OnlyCore s.dev e w.core
          { s.dev.core w.core with wait := some (.fence (node s.dev)), ilen := ilenOf w })

/-! ### Sync objects -/

/-- R104, R106, R114, R549, R552: a post whose sum stays below 2^32 and for whose object no cadence waits adds the whole count
and, with err, marks the object, which stays marked; one that would carry is not applied and leaves the object.
R104, R105, R132: a SOPOST with no matrix work in flight and no line of an LDL on the way. To an object of this device that the core may touch, with its
release met and no earlier post held: the post is applied, g[rd] takes 0 and the instruction retires; with its release not met
the post is held at the core. To another node of the topology: a post is entered in the remote-post ledger, leaves on VC4
behind the release's writes, and the ledger's identity is checked (R556); the instruction retires unless that stops its job. -/
def Obligations.Posts : Prop :=
  ((∀ (d : Dev) (i n : Nat) (err : Bool), i < 65536 → d.synCount i + n < 2 ^ 32 → d.awaiting i = [] →
    (d.postRaw i n err).2 = true ∧ (d.postRaw i n err).1.synCount i = d.synCount i + n
      ∧ (d.postRaw i n err).1.synErr i = (err || d.synErr i))
  ∧ (∀ (d : Dev) (i n : Nat) (err : Bool), 2 ^ 32 ≤ d.synCount i + n → d.postRaw i n err = (d, false)))
  ∧ (∀ (w : IW) (s : State), (Instr.sopost w).wf = true → Issues s.dev (cOp 0x14 false) true w →
    s.dev.matrixQuiet w.core = true → s.dev.linesOut w.core = false →
    (let c := w.core
     let x := s.dev.core c
     let name := x.getG w.rs1.toNat
     let i := fld name 15 0
     let n := fld (x.getG w.rs2.toNat) 31 0
     let err := bitAt w.fn 2
     let gate := if bitAt w.fn 3 then s.dev.storesOf c else s.dev.gateOf c none
     (fld name 63 48 = s.dev.node → s.dev.mayTouch c i = true →
       (s.dev.gateOpen gate = true → x.posts = [] → (s.dev.post i n err).2 = true →
         ∃ e, Does (.sopost w) s e ∧
           OnlyCore (s.dev.post i n err).1 e c ((((s.dev.post i n err).1.core c).setG w.rd.toNat 0).retire (ilenOf w)))
       ∧ (s.dev.gateOpen gate = false →
         ∃ e, Does (.sopost w) s e ∧ OnlyCore s.dev e c
           ((({ x with posts := x.posts ++ [{ name := name, count := n, err := err, gate := gate }] } : Core).setG
             w.rd.toNat 0).retire (ilenOf w))))
     ∧ (fld name 63 48 ≠ s.dev.node → s.dev.inTopo (fld name 63 48) = true →
       (let t : Tx := { s.dev.tx 0x07 4 (fld name 63 48) (s.dev.jobId x.slotN) c with offset := i + n * 2 ^ 16, err := err }
        s.dev.spaceFailed t = false →
        ∃ e, Does (.sopost w) s e ∧
          (let gate := s.dev.gateOf c (if bitAt w.fn 3 then some (fld name 63 48) else none)
           let f := ((s.dev.notePost x.slotN n).issue t gate).remoteLedgerCheck x.slotN
           if s.dev.runs x.slotN = true ∧ f.runs x.slotN = false then e = f
           else OnlyCore f e c (((f.core c).setG w.rd.toNat 0).retire (ilenOf w)))))))

/-- R107 to R112: a SOWAIT on an object of this device that its core may touch ends at once, with the status of Table 2-9 in
g[rd], where the count has reached the target or the object is marked; else the core waits, at most 2^t cycles of its clock
where t is not 0, and SOWAIT_END ends the wait once that holds or no cycle is left, without effect before. SORESET gives the count in g[rd] and resets the object. -/
def Obligations.SowaitAndSoreset : Prop :=
  (∀ (w : IW) (s : State), (Instr.sowait w).wf = true → Issues s.dev (cOp 0x14 false) true w →
    (let c := w.core
     let x := s.dev.core c
     let name := x.getG w.rs1.toNat
     let i := fld name 15 0
     let n := fld (x.getG w.rs2.toNat) 31 0
     let t := fld w.fn 8 4
     let left := if t = 0 then none else some (2 ^ t)
     fld name 63 48 = s.dev.node → s.dev.mayTouch c i = true →
       (n ≤ s.dev.synCount i ∨ s.dev.synErr i = true →
         ∃ e, Does (.sowait w) s e ∧ OnlyCore s.dev e c ((x.setG w.rd.toNat (BitVec.ofNat 64
           (s.dev.synCount i % 2 ^ 32 + b2n (decide (n ≤ s.dev.synCount i)) * 2 ^ 32 + b2n (s.dev.synErr i) * 2 ^ 33))).retire
             (ilenOf w)))
       ∧ (s.dev.waitEnd i n left = none →
         ∃ e, Does (.sowait w) s e ∧ OnlyCore s.dev e c
           { x with wait := some (.sowait w.rd.toNat i n left), ilen := ilenOf w })))
  ∧ (∀ (c rd i n : Nat) (left : Option Nat) (s : State), c < 41 → (s.dev.core c).wait = some (.sowait rd i n left) →
      (∀ v, s.dev.waitEnd i n left = some v →
        ∃ e, Does (.sowaitEnd c) s e ∧ OnlyCore s.dev e c (((s.dev.core c).setG rd v).retire (s.dev.core c).ilen))
      ∧ (s.dev.waitEnd i n left = none → Idle (.sowaitEnd c) s))
  ∧ (∀ (w : IW) (s : State), (Instr.soreset w).wf = true → Issues s.dev (cOp 0x14 false) true w →
    (let c := w.core
     let name := (s.dev.core c).getG w.rs1.toNat
     let i := fld name 15 0
     fld name 63 48 = s.dev.node → s.dev.mayTouch c i = true →
       ∃ e, Does (.soreset w) s e ∧ OnlyCore (s.dev.synReset i) e c
         ((((s.dev.synReset i).core c).setG w.rd.toNat (BitVec.ofNat 64 (s.dev.synCount i))).retire (ilenOf w))))

/-! ### Privilege and exceptions -/

/-- R126: on entry to M, XSTATUS keeps the old privilege in ppriv, sets priv and clears ie; XEPC holds the pc, XCAUSE the cause,
XTVAL the value; the core goes on at XVEC and waits for nothing; its registers and its other CSRs stay. -/
def Obligations.EntryToM : Prop :=
  ∀ (x : Core) (cause : Nat) (v : Word),
    (let y := x.enterM cause v
     bitAt (y.csrOf 0x800) 0 = true ∧ bitAt (y.csrOf 0x800) 1 = bitAt (x.csrOf 0x800) 0 ∧ bitAt (y.csrOf 0x800) 3 = false
       ∧ (∀ i, i ≠ 0 → i ≠ 1 → i ≠ 3 → bitAt (y.csrOf 0x800) i = bitAt (x.csrOf 0x800) i)
       ∧ y.csrOf 0x802 = x.pc ∧ y.csrOf 0x803 = BitVec.ofNat 64 cause ∧ y.csrOf 0x804 = v
       ∧ y.pc = pcMask (x.csrOf 0x801).toNat ∧ y.wait = none
       ∧ (∀ k, k ≠ 0x800 → k ≠ 0x802 → k ≠ 0x803 → k ≠ 0x804 → y.csrOf k = x.csrOf k)
       ∧ (∀ i, y.getG i = x.getG i) ∧ (∀ i, y.getP i = x.getP i) ∧ (∀ i k, y.getV i k = x.getV i k) ∧ y.loops = x.loops)

/-- R122, R123: a fault of a deliverable code at J, with a handler in JFVEC and none active, is recorded, the core goes on at
JFVEC with the pc, the code, the fault word and the active mark saved, its entry is marked, and the buffers that the faulted
operation held return (R531); at M a fault enters M again, and poisoned data is shown (R519).
R121, R744: a core at an instruction boundary takes the oldest unit fault that waits for it, at J or with ie = 1; a debug
halt enters M with cause 0x0A and the debug state where debug is unlocked in its scope. -/
def Obligations.FaultsTaken : Prop :=
  ((∀ (d : Dev) (c cause sl : Nat) (f : FaultInfo), (d.core c).atM c = false → (d.core c).slot = some sl →
    classOf f.code = .deliverable → (d.core c).csrOf 0x001 ≠ 0 → bitAt ((d.core c).csrOf 0x407) 0 = false →
      d.raiseCore c cause f
        = ((((d.endReads c).record sl (d.withEntry c f) true false).modCore c (fun y => y.deliver (d.withEntry c f))).entryFault c
            true).returnOwed c sl f)
  ∧ (∀ (x : Core) (f : FaultInfo), (x.deliver f).csrOf 0x002 = x.pc ∧ (x.deliver f).csrOf 0x405 = BitVec.ofNat 64 f.code
      ∧ (x.deliver f).csrOf 0x406 = f.info ∧ (x.deliver f).csrOf 0x407 = 1 ∧ (x.deliver f).pc = pcMask (x.csrOf 0x001).toNat
      ∧ (∀ i, (x.deliver f).getG i = x.getG i) ∧ (∀ i, (x.deliver f).getP i = x.getP i))
  ∧ (∀ (d : Dev) (c cause : Nat) (f : FaultInfo), (d.core c).atM c = true →
      OnlyCore (match (d.core c).slot with
          | some sl => d.seePoison sl f
          | none => d) (d.raiseCore c cause f) c
        { (d.core c).enterM cause (if cause = 8 then BitVec.ofNat 64 f.code else f.info) with frozen := true }))
  ∧ ((∀ (c : Nat) (f : FaultInfo) (fs : List FaultInfo) (s : State), c < 41 → (s.dev.core c).async = f :: fs →
    (s.dev.core c).boundary = true → (bitAt ((s.dev.core c).csrOf 0x800) 3 = true ∨ (s.dev.core c).atM c = false) →
    Does (.asyncUnitFaultTaken c) s
      ((s.dev.modCore c (fun y => { y with async := fs, wait := none, lines := [] })).raiseCore c 8 f))
  ∧ (∀ (c : Nat) (s : State), c < 41 → s.dev.sec.unlocked = true → (s.dev.core c).boundary = true →
    (c ≠ 40 ∨ s.dev.sec.scope = 3) →
    ∃ e, Does (.debugHalt c) s e ∧ OnlyCore s.dev e c { (s.dev.core c).enterM 0x0A 0 with run := .debug, frozen := true }))

/-- R76, R79, R67: an instruction whose fields are illegal, a wide form that is not legal, an instruction of the engine profile at
another core, and a word that is illegal there raise cause 0x02 at a core at M that takes instructions; the all-zero word and
the words of a reserved major are illegal, and a word that names a legal instruction raises nothing.
R115: WFI, MRET and HALT at J are illegal instructions; so is JFRET at M, and at J with no fault active.
R80: an instruction whose predicate does not hold is passed over: its core's pc moves on, and nothing else of any state that
software sees (`lines` is what a far load has at hand while it waits). -/
def Obligations.NotCarriedOut : Prop :=
  ((∀ (d : Dev) (op : Op) (legal : Bool) (w : IW) (body : Dev → Core → IRes), (d.core w.core).takes = true →
    d.rb Reg.PWR_STATUS 31 = false → (d.core w.core).atM w.core = true →
    (legal = false ∨ wideLegal op w = false ∨ (op.eOnly = true ∧ 32 ≤ w.core)) →
    OnlyCore d (d.instr op legal w body) w.core
      { (d.core w.core).enterM 2 (BitVec.ofNat 64 (wordOf op.major w)) with frozen := true })
  ∧ (∀ (c : Nat) (word : BitVec 32) (s : State), c < 41 →
    ((s.dev.core c).takes = true → s.dev.rb Reg.PWR_STATUS 31 = false → (s.dev.core c).atM c = true →
      (s.dev.core c).illegal c word = true →
      ∃ e, Does (.illegalInstruction c word) s e ∧
        OnlyCore s.dev e c { (s.dev.core c).enterM 2 (BitVec.ofNat 64 word.toNat) with frozen := true })
    ∧ ((s.dev.core c).illegal c word = false → Idle (.illegalInstruction c word) s))
  ∧ (∀ (x : Core) (c : Nat) (word : BitVec 32), word = 0 ∨ (∀ r ∈ wordForms, r.major ≠ fld word 31 26) →
      x.illegal c word = true))
  ∧ ((∀ r ∈ [Instr.wfi, Instr.mret, Instr.halt], ∀ (w : IW) (s : State), (r w).wf = true →
    Issues s.dev (cOp 0x12 false) (sysZero w) w → (s.dev.core w.core).atM w.core = false →
    ∃ e, Does (r w) s e ∧ e = (s.dev.modCore w.core (fun x => { x with lines := [] })).raiseCore w.core 2
      (illegalFault w.core (s.dev.core w.core).pc (wordOf 0x12 w)))
  ∧ (∀ (w : IW) (s : State), (Instr.jfret w).wf = true → Issues s.dev (cOp 0x12 false) (sysZero w) w →
    ((s.dev.core w.core).atM w.core = true ∨ bitAt ((s.dev.core w.core).csrOf 0x407) 0 = false) →
    ∃ e, Does (.jfret w) s e ∧ e = (s.dev.modCore w.core (fun x => { x with lines := [] })).raiseCore w.core 2
      (illegalFault w.core (s.dev.core w.core).pc (wordOf 0x12 w))))
  ∧ (∀ (d : Dev) (op : Op) (w : IW) (body : Dev → Core → IRes), (d.core w.core).takes = true → d.rb Reg.PWR_STATUS 31 = false →
    wideLegal op w = true → (op.eOnly = true → w.core < 32) → predHolds (d.core w.core) w = false →
      OnlyCore d (d.instr op true w body) w.core
        { d.core w.core with pc := pcMask ((d.core w.core).pc.toNat + ilenOf w), lines := [] })

/-- R117, R118, R124, R207, R744, R800: JCALL enters M with cause 0x06, and where a fault handler of a job asks for the job-stop
service that way, the job stops then (log 131); JFRET at J with a fault active goes on at the saved pc and
clears the mark; EBREAK with debug unlocked enters M with cause 0x07 and the debug state; at M, WFI retires, MRET restores the
privilege from ppriv and goes on at XEPC, HALT retires and the core takes no more. Each entry or return counts as the spec
says and leaves the rest of the device. -/
def Obligations.SystemInstructions : Prop :=
  (∀ (w : IW) (s : State), (Instr.jcall w).wf = true →
    Issues s.dev (cOp 0x12 false) (decide (fld w.fn 10 3 = 0) && decide (w.rs2 = 0)) w →
    ∃ e, Does (.jcall w) s e ∧ ∃ e0, OnlyCore s.dev e0 w.core
        { (s.dev.core w.core).enterM 0x06 0 with run := .running, frozen := true }
      ∧ ((s.dev.core w.core).atM w.core = true ∨ (s.dev.core w.core).slot = none ∨ (s.dev.core w.core).asksStop ((s.dev.core w.core).r1 w) = false → e = e0)
      ∧ (∀ sl, (s.dev.core w.core).atM w.core = false → (s.dev.core w.core).slot = some sl →
          (s.dev.core w.core).asksStop ((s.dev.core w.core).r1 w) = true → e = e0.stopJob sl))
  ∧ (∀ (w : IW) (s : State), (Instr.jfret w).wf = true → Issues s.dev (cOp 0x12 false) (sysZero w) w →
    (s.dev.core w.core).atM w.core = false → bitAt ((s.dev.core w.core).csrOf 0x407) 0 = true →
    ∃ e, Does (.jfret w) s e ∧ OnlyCore s.dev e w.core
      ((({ (((s.dev.core w.core).setCsr 0x407 0).setCsr 0x401 ((s.dev.core w.core).csrOf 0x401 + 1)) with
        frozen := false } : Core).goTo ((s.dev.core w.core).csrOf 0x002).toNat).resume))
  ∧ (∀ (w : IW) (s : State), (Instr.ebreak w).wf = true → Issues s.dev (cOp 0x12 false) (sysZero w) w →
    s.dev.sec.unlocked = true →
    ∃ e, Does (.ebreak w) s e ∧ OnlyCore s.dev e w.core
      { (s.dev.core w.core).enterM 0x07 0 with run := .debug, frozen := true })
  ∧ (∀ (w : IW) (s : State), (Instr.wfi w).wf = true → Issues s.dev (cOp 0x12 false) (sysZero w) w →
    (s.dev.core w.core).atM w.core = true →
    ∃ e, Does (.wfi w) s e ∧ OnlyCore s.dev e w.core ((s.dev.core w.core).retire (ilenOf w)))
  ∧ (∀ (w : IW) (s : State), (Instr.mret w).wf = true → Issues s.dev (cOp 0x12 false) (sysZero w) w →
    (s.dev.core w.core).atM w.core = true →
    ∃ e, Does (.mret w) s e ∧
      (let x := s.dev.core w.core
       OnlyCore s.dev e w.core
        ((({ ((x.setCsr 0x800 (setBit (x.csrOf 0x800) 0 (bitAt (x.csrOf 0x800) 1))).setCsr 0x401 (x.csrOf 0x401 + 1)) with
          frozen := false } : Core).goTo (x.csrOf 0x802).toNat).resume)))
  ∧ (∀ (w : IW) (s : State), (Instr.halt w).wf = true → Issues s.dev (cOp 0x12 false) (sysZero w) w →
    (s.dev.core w.core).atM w.core = true →
    ∃ e, Does (.halt w) s e ∧ OnlyCore s.dev e w.core
      (({ s.dev.core w.core with run := .halted } : Core).retire (ilenOf w)))

/-! ### Matrix instructions and the work of the array -/

/-- R383, R370 to R374: MTSTAT on a handle without unfinished work writes the tile status word to g[rd]. MANCHOR propose, with
both descriptors at hand and legal, and every gob it names, a stream's from the first one not released on (log 143), writes the proposal from the rows and the weight blocks it names to g[rd]. MANCHOR set
gives an AX96 tile of these rows its anchor, or allocates one. Each retires. -/
def Obligations.AnchorsAndStatus : Prop :=
  (∀ (w : IW) (s : State), (Instr.mtstat w).wf = true →
    Issues s.dev (mOp 0x1B) (decide (fld w.fn 10 1 = 0) && !bitAt w.rs2 4) w →
    (s.dev.engine w.core).busyHandle (fld w.rs2 3 0) = false →
    ∃ e, Does (.mtstat w) s e ∧ OnlyCore s.dev e w.core
      (((s.dev.core w.core).setG w.rd.toNat ((s.dev.engine w.core).status (fld w.rs2 3 0))).retire (ilenOf w)))
  ∧ (∀ (w : IW) (s : State) (d2 d3 : Dev) (ws vs : List Nat), (Instr.manchorPropose w).wf = true →
    Issues s.dev (mOp 0x18) (decide (fld w.fn 10 1 = 0)) w →
    s.dev.desc w.core ((s.dev.core w.core).r1 w) 8 = .ok d2 ws →
    d2.desc w.core ((s.dev.core w.core).r2 w) 4 = .ok d3 vs →
    (let a := adescOf ws
     let wd := wdescOf vs
     let q := (d3.engine w.core).streamHead wd
     let bs := (List.range a.nkb).map (fun j => d3.weightBlock w.core wd q a.kb (a.kb + j))
     a.fmtOk = true → wd.fmtOk = true → a.inStore = true → (wd.efmt = 0xA → wd.cbook * 64 + 16 ≤ storeBytes) →
     (d3.engine w.core).drains = [] → d3.linesOut w.core = false →
     (∀ j, j < a.nkb → a.kb + j < wd.nkb → (d3.engine w.core).stands wd q a.kb (a.kb + j) = true) → (∀ b ∈ bs, b.bad = 0) →
     ∃ e, Does (.manchorPropose w) s e ∧ OnlyCore d3 e w.core
       (((d3.core w.core).setG w.rd.toNat (BitVec.ofInt 64 (proposal (logOf (d3.actVals w.core a))
         (logOf (blockVals wd (d3.book w.core wd.efmt wd.cbook) bs))))).retire (ilenOf w))))
  ∧ (∀ (w : IW) (s : State), (Instr.manchorSet w).wf = true →
    Issues s.dev (mOp 0x18) (decide (fld w.fn 10 1 = 0) && !bitAt w.rd 4) w →
    (let h := fld w.rd 3 0
     let ta := sval 16 ((s.dev.core w.core).r1 w).toNat
     let rows := fld ((s.dev.core w.core).r2 w) 15 0
     let y := s.dev.engine w.core
     y.freeIssued h = false → y.busyHandle h = false →
     (∀ t, y.tile h = some t → t.fmt = .ax96 → t.rows = rows → t.promoted = false →
       ∃ e, Does (.manchorSet w) s e ∧ OnlyEngine s.dev e w.core ((s.dev.core w.core).retire (ilenOf w))
         (y.setTile h (some { t with anchor := some ta })))
     ∧ (y.tile h = none → y.full = false → y.canAlloc .ax96 rows = true →
       ∃ e, Does (.manchorSet w) s e ∧ OnlyEngine s.dev e w.core ((s.dev.core w.core).retire (ilenOf w))
         (y.alloc w.core h rows .ax96 (some ta)))))

/-- R378, R379: an MLOADW, legal, with room, and with nothing of earlier instructions still to be written where it reads, queues
one fill of its weights from kb on and retires.
R375 to R377, R353: an MSTREAM, legal, with room, queues one pass over its descriptor: without gather on the weights of the
oldest MLOADW that no pass has claimed, or on those in force; with gather on those that its descriptor names, with the
activation map that stands in memory at issue. A handle that is not live is allocated with the rows given, or the descriptor's
rows rounded up to 16; the entry in hand counts a pass. R380, R381: an MDRAIN, legal, with room, and with nothing of earlier
instructions in its way, queues one drain of its tile behind the work before it, with its rounding values where rmode is 2.
Each retires. -/
def Obligations.MatrixWorkQueues : Prop :=
  (∀ (w : IW) (s : State) (d2 : Dev) (ws : List Nat), (Instr.mloadw w).wf = true →
    Issues s.dev (mOp 0x19) (decide (fld w.fn 10 1 = 0)) w →
    s.dev.desc w.core ((s.dev.core w.core).r1 w) 4 = .ok d2 ws →
    (let wd := wdescOf ws
     let y := d2.engine w.core
     let kb := fld ((s.dev.core w.core).r2 w) 15 0
     let q := fld ((s.dev.core w.core).r2 w) 47 16
     let f : Fill :=
       { core := w.core, pc := (s.dev.core w.core).pc.toNat, wd := wd, kb := kb, q := q, rel := bitAt w.fn 0 && wd.viaStream,
         stage := 0, blocks := [], book := [], waited := false }
     wd.fmtOk = true → wd.bookPast = false → wd.past kb (fewBlocks (d2.fillPairs w.core wd q kb)) = false →
     y.full = false → y.drainHits f = false → d2.lineHits w.core f = false →
     ∃ e, Does (.mloadw w) s e
       ∧ OnlyEngine d2 e w.core ((d2.core w.core).retire (ilenOf w)) { y with fills := y.fills ++ [f] }))
  ∧ ((∀ (w : IW) (s : State) (d2 : Dev) (ws : List Nat) (fmt : AccFmt), (Instr.mstream w).wf = true →
    Issues s.dev (mOp 0x1A) (decide (fld w.fn 10 4 = 0) && !bitAt w.rd 4) w →
    s.dev.desc w.core ((s.dev.core w.core).r1 w) 8 = .ok d2 ws → accOf (fld w.fn 1 0) = some fmt →
    (let a := adescOf ws
     let h := fld w.rd 3 0
     let given := fld ((s.dev.core w.core).r2 w) 15 0
     let rows := if given = 0 then (a.m + 15) / 16 * 16 else given
     ∀ (d : Dev) (wd : Option WDesc) (gather : Option (List Byte)),
       (bitAt w.fn 2 = false ∧ d = d2 ∧ gather = none
           ∧ wd = (if bitAt w.fn 3 then (d2.engine w.core).unclaimed.head?.map (fun f => f.wd) else (d2.engine w.core).keptW))
         ∨ (bitAt w.fn 2 = true ∧ ∃ (d3 : Dev) (vs : List Nat) (bs : List Byte),
             d2.desc w.core (BitVec.ofNat 64 a.wdesc) 4 = .ok d3 vs
             ∧ d3.unitLoad w.core (a.amap + a.kb / 4) ((a.kb % 4 + a.nkb + 3) / 4) = .ok d bs
             ∧ gather = some bs ∧ wd = some (wdescOf vs)) →
       (let y := d.engine w.core
        let past := match wd with
          | some z => d.weightsPast w.core a z fmt (bitAt w.fn 3) gather.isSome
          | none => false
        y.streamFault h a wd rows fmt gather.isSome past = 0 → y.full = false → y.passes.length < 5 →
        ∃ (e : Dev) (p : Pass), Does (.mstream w) s e
          ∧ OnlyEngine d e w.core ((d.core w.core).countPass.retire (ilenOf w))
              { (if y.liveInfo h = none then y.alloc w.core h rows fmt none else y) with
                work := (if y.liveInfo h = none then y.alloc w.core h rows fmt none else y).work ++ [.pass p] }
          ∧ p.handle = h ∧ p.ad = a ∧ p.fmt = fmt ∧ p.newW = bitAt w.fn 3 ∧ p.gather = gather ∧ p.tileRows = rows
          ∧ some p.wd = wd)))
  ∧ (∀ (w : IW) (s : State) (d2 d3 : Dev) (ws : List Nat) (rnd : List Byte) (i : AccFmt × Nat), (Instr.mdrain w).wf = true →
    Issues s.dev (mOp 0x1B) (decide (fld w.fn 10 7 = 0) && !bitAt w.rd 4) w →
    s.dev.desc w.core ((s.dev.core w.core).r1 w) 8 = .ok d2 ws →
    ((fld w.fn 6 5 ≠ 2 ∧ d3 = d2 ∧ rnd = [])
      ∨ (fld w.fn 6 5 = 2 ∧ ∃ rs, d2.desc w.core (BitVec.ofNat 64 (nfld (dw ws 2) 47 0)) 6 = .ok d3 rs
          ∧ rnd = rs.flatMap (leBytes 8))) →
    (let y := d2.engine w.core
     let z := drainOf w (s.dev.core w.core) ws i.2 rnd
     y.liveInfo (fld w.rd 3 0) = some i → y.freeIssued (fld w.rd 3 0) = false →
     z.fault i.1 i.2 (nfld (dw ws 1) 31 16) = 0 → y.full = false → (∀ f ∈ y.fills, z.fillMeets y f = false) →
     (z.toVec = false → ∀ i, i < z.nrows → d3.storeLine w.core (z.obase * 64 + i * z.opitch * 64) z.rowLen = false) →
     (z.map = true → d3.lineDue w.core false z.mapVa 1 = false) →
     ∃ e, Does (.mdrain w) s e ∧ OnlyEngine d3 e w.core
       (({ d3.core w.core with
           entry := (d3.core w.core).entry.map (fun n => { n with nextUnit := n.nextUnit + 1 }) } : Core).retire (ilenOf w))
       { y with work := y.work ++ [.drain z] })))

/-- The work of the array moves on at its own commands. R304, R359: SHADOW_FILL_START begins the oldest fill, once
the passes ahead have fed their rows, and asks for the skipped gobs that a fill through a stream needs. R302, R307, R330:
SHADOW_FILL_DONE completes a fill that has begun and releases no gob: what stands then of the blocks its pass needs, and its
codebook, is read; one that lacks a gob waits and asks for it. R320: TILE_ALLOCATION_SERVED gives the
oldest allocation that waits its slabs, whatever work stands before it. R324: DRAIN_COMMIT takes the drain at the head of the work whose unit is next; with
free its handle is free afterwards. -/
def Obligations.ArrayWorkMovesOn : Prop :=
  (∀ (e : Nat) (s : State) (f : Fill) (fs : List Fill), (Instr.shadowFillStart e).wf = true →
    (s.dev.engine e).fills = f :: fs → f.stage = 0 → (s.dev.engine e).shadowFree = true →
    (let d := s.dev.setEngine e { s.dev.engine e with fills := { f with stage := 1 } :: fs }
     Does (.shadowFillStart e) s (d.fillAsk e f) ∧ (f.wd.viaStream = false → d.fillAsk e f = d)))
  ∧ (∀ (e : Nat) (s : State) (f : Fill) (fs : List Fill), (Instr.shadowFillDone e).wf = true →
    (s.dev.engine e).fills = f :: fs → f.stage = 1 →
    (let y := s.dev.engine e
     let pairs := s.dev.fillPairs e f.wd f.q f.kb
     let n := y.readable f (passBlocks f.wd.efmt f.wd.efmt .a16 pairs)
     (f.rel = false → y.fillNeed f pairs ≤ n →
       Does (.shadowFillDone e) s ((s.dev.setEngine e { y with fills :=
         { f with stage := 2, blocks := f.blocks ++ (s.dev.weights e f.wd f.q f.kb n).drop f.blocks.length
                  book := s.dev.book e f.wd.efmt f.wd.cbook } :: fs }).engMoved e))
     ∧ (n < y.fillNeed f pairs →
       Does (.shadowFillDone e) s ((s.dev.setEngine e { y with fills := { f with waited := true } :: fs }).fillAsk e f))))
  ∧ (∀ (e : Nat) (s : State) (c h rows : Nat) (fmt : AccFmt) (an : Option Int) (us ws : List MWork),
    (Instr.tileAllocationServed e).wf = true → (s.dev.engine e).work = us ++ .alloc c h rows fmt an :: ws →
    (∀ m ∈ us, ∀ c h rows fmt an, m ≠ .alloc c h rows fmt an) →
    slabsOf fmt rows ≤ (s.dev.engine e).freeSlabs →
    ∃ d : Dev, Does (.tileAllocationServed e) s (d.engMoved e) ∧ (d.engine e).work = us ++ ws
      ∧ (d.engine e).tile h = some (Tile.new fmt rows an)
      ∧ ∀ k, k ≠ h → (d.engine e).tile k = (s.dev.engine e).tile k)
  ∧ (∀ (e : Nat) (s : State) (y : Drain) (ws : List MWork) (t : Tile), (Instr.drainCommit e).wf = true →
    (s.dev.engine e).work = .drain y :: ws → (s.dev.engine e).tile y.handle = some t →
    y.unit = ((s.dev.core y.core).entry.map (fun n => n.units)).getD y.unit → y.map = false →
    (let rows := (List.range y.nrows).map (fun i => (i, t.drainRow y (y.r0 + i)))
     let out := rows.filterMap (fun r => r.2)
     let fl := flagsOf (out.flatMap (fun r => r.map (·.2)))
     let t1 := { t with cvtSat := t.cvtSat || fl.cvtSat, nanz := t.nanz || fl.nanz }
     let d1 := s.dev.setEngine e
       ({ s.dev.engine e with work := ws }.setTile y.handle (if y.free then none else some t1))
     Does (.drainCommit e) s
       (((d1.drainRows e y rows).commitUnit y.core 0 y.rowLen (out.flatMap (rowBytesOf y.ofmt))).engMoved e)))

/-- R305, R309, R311: PASS_START of a pass that keeps the weights in force runs its rows through the tile; the tile holds what
the K blocks promoted, row by row, and ENG_ROWS counts the rows fed; what waits at the engine's core is then tried again. R317: on a residue mismatch the pane row joins the engine's
repair record in flash. -/
def Obligations.PassesRun : Prop :=
  (∀ (e : Nat) (s : State) (p : Pass) (ws : List MWork) (f : Fill) (t : Tile), (Instr.passStart e none).wf = true →
    (s.dev.engine e).work = .pass p :: ws → p.gather = none → p.newW = false → (s.dev.engine e).active = some f →
    (s.dev.engine e).tile p.handle = some t → (t.fmt = .ax96 → t.anchor.isSome = true) →
    (let bs := (List.range p.ad.nkb).map (fun j =>
       (p.ad.kb + j, f.blocks.getD j { form := 0, rcd := [], bad := 0 }))
     let d1 := s.dev.setEngine e { s.dev.engine e with work := ws }
     p.ad.nkb ≤ p.takes f →
     ∃ (d : Dev) (t2 : Tile), Does (.passStart e none) s (d.engMoved e) ∧ (d.engine e).work = ws
       ∧ (d.engine e).tile p.handle = some t2
       ∧ t2.acc = (d1.runRows e p.ad (columnsOf p.wd f.book (fun _ => false) bs) (d1.fedRows e p.ad) t).acc
       ∧ (∀ h, h ≠ p.handle → (d.engine e).tile h = (s.dev.engine e).tile h)
       ∧ d.reg (Reg.ENG_ROWS e) = s.dev.reg (Reg.ENG_ROWS e) + BitVec.ofNat 64 (d1.fedRows e p.ad).length))
  ∧ (∀ (e row : Nat) (s : State), (Instr.passStart e (some row)).wf = true → s.dev.passReady e = true →
    ∃ t, exec (.passStart e (some row)) s = .next t
      ∧ t.nv = { s.nv with repair := t.nv.repair }
      ∧ ∀ k, tget (fun _ => (0 : BitVec 9)) t.nv.repair k =
          if k = e then setBit (tget (fun _ => (0 : BitVec 9)) s.nv.repair e) row true
          else tget (fun _ => (0 : BitVec 9)) s.nv.repair k)

/-! ### Pools -/

/-- R530, R539, R543: BALLOC from a pool that the core may name. When the pool serves at once, g[rd] receives the address of the
buffer; else with try g[rd] receives 0, and without try the core waits, last in the pool's queue. R532 to R534, R537: BSHARE,
BDROP and BFREE on a held buffer by a core that may do so, with no line of its own still to be written there (R536), change its
record, and the pool's operation ends (poolDone). -/
def Obligations.PoolInstructions : Prop :=
  (∀ (w : IW) (s : State), (Instr.balloc w).wf = true →
    Issues s.dev (cOp 0x15 false) (decide (fld w.fn 10 3 = 0)) w →
    (let p := fld ((s.dev.core w.core).r1 w) 15 0
     s.dev.poolNamed w.core p = true →
     (∀ i d, s.dev.allocNow p w.core = some (i, d) →
       ∃ e, Does (.balloc w) s e ∧ OnlyCore d e w.core
         (((d.core w.core).setG w.rd.toNat (BitVec.ofNat 64 (d.bufAddr p i))).retire (ilenOf w)))
     ∧ (s.dev.allocNow p w.core = none → bitAt w.fn 2 = true →
       ∃ e, Does (.balloc w) s e ∧ OnlyCore s.dev e w.core (((s.dev.core w.core).setG w.rd.toNat 0).retire (ilenOf w)))
     ∧ (s.dev.allocNow p w.core = none → bitAt w.fn 2 = false →
       ∃ e, Does (.balloc w) s e ∧ (e.core w.core).takes = false ∧ (e.core w.core).pc = (s.dev.core w.core).pc
         ∧ (e.pool p).waiters = (s.dev.pool p).waiters ++ [w.core] ∧ (e.pool p).recs = (s.dev.pool p).recs)))
  ∧ (∀ (w : IW) (s : State) (p i : Nat), (Instr.bshare w).wf = true →
    Issues s.dev (cOp 0x15 false) (decide (fld w.fn 10 3 = 0)) w →
    s.dev.bufNamed w.core ((s.dev.core w.core).r1 w).toNat = some (p, i) →
    (let r := (s.dev.pool p).recOf i
     let node := bitAt w.fn 2
     let n := fld ((s.dev.core w.core).r2 w) 15 0
     let h := if node then nodeCode n else n
     r.held = true → r.reserved = false → r.releasedBy w.core = true →
     s.dev.shareTarget (s.dev.core w.core) node n = true → (r.holders.length < 4 ∨ h ∈ r.holders) →
     (let d := (s.dev.setPool p ((s.dev.pool p).setRec i { r with
        holders := if h ∈ r.holders then r.holders else r.holders ++ [h], releaser := h, relNode := node })).poolDone p
      ∃ e, Does (.bshare w) s e ∧ OnlyCore d e w.core ((d.core w.core).retire (ilenOf w)))))
  ∧ (∀ (w : IW) (s : State) (p i : Nat), (Instr.bdrop w).wf = true →
    Issues s.dev (cOp 0x15 false) (decide (fld w.fn 10 2 = 0)) w →
    s.dev.bufNamed w.core ((s.dev.core w.core).r1 w).toNat = some (p, i) →
    (let r := (s.dev.pool p).recOf i
     r.held = true → r.reserved = false → w.core ∈ r.holders → ¬ (r.releaser = w.core ∧ r.relNode = false) →
     s.dev.bufDue w.core p i = false →
     (let d := (s.dev.setPool p ((s.dev.pool p).setRec i { r with holders := r.holders.erase w.core })).bufSettle p i
      ∃ e, Does (.bdrop w) s e ∧ OnlyCore d e w.core ((d.core w.core).retire (ilenOf w)))))
  ∧ (∀ (w : IW) (s : State) (p i : Nat), (Instr.bfree w).wf = true →
    Issues s.dev (cOp 0x15 false) (decide (fld w.fn 10 2 = 0)) w →
    s.dev.bufNamed w.core ((s.dev.core w.core).r1 w).toNat = some (p, i) →
    (let r := (s.dev.pool p).recOf i
     r.held = true → r.reserved = false → r.releasedBy w.core = true → s.dev.bufDue w.core p i = false →
     (let d := s.dev.bufRelease p i
      ∃ e, Does (.bfree w) s e ∧ OnlyCore d e w.core ((d.core w.core).retire (ilenOf w)))))

/-- R542: QUEUE_RESERVATION takes a buffer for the queue whose turn it is. R543: BALLOC_WAITER_SERVED gives the first waiter
that the level permits, a core, its buffer, with no registers or memory of others touched. R528: POOL_INIT of a quiesced pool
with no buffer held or reserved and a legal geometry makes the written number of free buffers. R545: POOL_QUIESCE_WRITE sets
the pool's quiesce bit, and where that ends the pool's quiescence, writes of the same CCLK that changed its L fields are undone
(R29); POOL_QUIESCED puts the written thresholds, quotas and alerts of a quiesced pool in force. -/
def Obligations.PoolOperations : Prop :=
  (∀ (p k i : Nat) (x : Pool) (s : State), (Instr.queueReservation p).wf = true → s.dev.nextQueue p = some k →
    (s.dev.pool p).take = some (i, x) →
    ∃ d : Dev, Does (.queueReservation p) s (d.poolDone p)
      ∧ d.pool p = { (x.setRec i { BufRec.free with reserved := true }) with lastQueue := some k }
      ∧ (d.rqueue (k / 16) (k % 16)).reserved = (s.dev.rqueue (k / 16) (k % 16)).reserved ++ [i])
  ∧ (∀ (p c i : Nat) (d : Dev) (s : State), (Instr.ballocWaiterServed p).wf = true → s.dev.nextWaiter p = some c → c < 1000 →
    (s.dev.dropWaiter p c).handOut p c = some (i, d) →
    ∃ e, Does (.ballocWaiterServed p) s e ∧ OnlyCore d e c
      (match (d.core c).wait with
       | some (.balloc rd _ _) => ((d.core c).setG rd (BitVec.ofNat 64 (d.bufAddr p i))).retire (d.core c).ilen
       | _ => d.core c))
  ∧ (∀ (p : Nat) (s : State), (Instr.poolInit p).wf = true → HostOpen s.dev (.poolInit p) bar0 false false →
    s.dev.poolQuiesced p = true → (s.dev.pool p).held = 0 → (s.dev.pool p).reserved = 0 → s.dev.geometryOk p = true →
    ∃ d : Dev, Does (.poolInit p) s (d.poolDone p) ∧ d.rb (Reg.POOL_STAT p) 35 = true
      ∧ (d.pool p).nbuf = s.dev.rf (Reg.POOL_CFG p) 55 32 + 1 ∧ (d.pool p).free = (d.pool p).nbuf
      ∧ (d.pool p).waiters = (s.dev.pool p).waiters)
  ∧ (∀ (p : Nat) (q : Bool) (s : State), (Instr.poolQuiesceWrite p q).wf = true →
    HostOpen s.dev (.poolQuiesceWrite p q) bar0 false false →
    (let d := if s.dev.poolQuiesced p = true ∧ s.dev.poolValid p = true ∧ q = false then s.dev.becomesBusy (.pool p) else s.dev
     ∃ e, Does (.poolQuiesceWrite p q) s e ∧ e.rb (Reg.POOL_CTRL p) 0 = q ∧ e = { s.dev with regs := e.regs }
       ∧ (∀ o, o ≠ Reg.POOL_CTRL p → o ≠ Reg.POOL_STAT p → o ≠ Reg.POOL_HELD p → e.reg o = d.reg o)
       ∧ ((∀ l ∈ s.dev.hst.lwrites, l.block = .pool p → l.time ≠ s.dev.now) → d = s.dev)))
  ∧ (∀ (p : Nat) (s : State), (Instr.poolQuiesced p).wf = true → s.dev.poolQuiesced p = true →
    ∃ d : Dev, Does (.poolQuiesced p) s (d.poolDone p) ∧ d = { s.dev with force := d.force }
      ∧ ∀ o hi lo, d.inf o hi lo =
          if o ∈ [Reg.POOL_THR p, Reg.POOL_QUOTA p, Reg.POOL_ALERT p] then s.dev.rf o hi lo else s.dev.inf o hi lo)

/-- R522, R524, R540, Table 11-1: the free store. Taking a buffer takes one free buffer away and returning one adds one; a store
whose returned buffers ascend and lie below the fresh ones hands out its lowest free buffer, and a return in bitmap mode keeps it
so; list mode hands out the last returned. With fewer free buffers the level is no lower. -/
def Obligations.PoolStore : Prop :=
  (∀ (x y : Pool) (i : Nat), x.fresh ≤ x.nbuf → x.take = some (i, y) →
    y.free + 1 = x.free ∧ y.fresh ≤ y.nbuf ∧ y.recs = x.recs)
  ∧ (∀ x : Pool, x.fresh ≤ x.nbuf → (x.take = none ↔ x.free = 0))
  ∧ (∀ (x : Pool) (l : Bool) (i : Nat), (x.giveBack l i).free = x.free + 1 ∧ ((x.giveBack l i).recOf i).held = false)
  ∧ (∀ (x y : Pool) (i : Nat), x.returned.Pairwise (· < ·) → (∀ j ∈ x.returned, j < x.fresh) → x.take = some (i, y) →
      ((∀ j ∈ x.returned, i ≤ j) ∧ i ≤ x.fresh) ∧ y.returned.Pairwise (· < ·) ∧ ∀ j ∈ y.returned, j < y.fresh)
  ∧ (∀ (x : Pool) (i : Nat), x.returned.Pairwise (· < ·) → i ∉ x.returned →
      (x.giveBack false i).returned.Pairwise (· < ·) ∧ ∀ j, j ∈ (x.giveBack false i).returned ↔ j = i ∨ j ∈ x.returned)
  ∧ (∀ (x : Pool) (i : Nat), ∃ y, (x.giveBack true i).take = some (i, y) ∧ y.returned = x.returned)
  ∧ (∀ w p s a b : Nat, a ≤ b → levelOf w p s b ≤ levelOf w p s a)

/-! ### Vector instructions and the encoder -/

/-- R288 to R292, R384: a vector instruction of lanes writes each lane of vd from the same lane of vs1, vs2 and the old vd, adds
the lanes' flags to the engine's sticky flags, and retires; lanes of other registers stay. -/
def Obligations.VectorLanes : Prop :=
  ∀ r ∈ vecRows, ∀ (w : IW) (s : State), (r.1 w).wf = true → Issues s.dev (mOp r.2.1) (r.2.2.1 w) w →
    NoVectorDrain s.dev w.core →
    (let x := s.dev.core w.core
     let f := fun n => r.2.2.2 w (x.getV w.rs1.toNat n) (x.getV w.rs2.toNat n) (x.getV w.rd.toNat n)
     let d := s.dev.vflags w.core (flagsOf ((List.range 128).map (fun n => (f n).2)))
     ∃ e y, Does (r.1 w) s e ∧ OnlyCore d e w.core (Core.retire y (ilenOf w)) ∧ y = { x with v := y.v }
       ∧ (∀ n, n < 128 → y.getV w.rd.toNat n = (f n).1)
       ∧ ∀ i n, n < 128 → i ≠ w.rd.toNat → y.getV i n = x.getV i n)

/-- R384 to R387: VRED puts the result of its balanced tree into lane 0 and zeros into the others; VBCAST copies g[rs1][31:0]
to every lane; VMOVG writes a lane to g[rd]; VLD loads the 128 lanes and VST stores them, at an aligned local address whose
bytes are at hand and do not pass the end of the engine's own store; VCVT narrows lanes to packed elements or widens them, with
the codebook of CB4 or the generator descriptor of stochastic rounding where it takes one and it is at hand. -/
def Obligations.VectorMoves : Prop :=
  (∀ (w : IW) (s : State), (Instr.vred w).wf = true →
    Issues s.dev (mOp 0x26) (decide (fld w.fn 10 4 = 0) && decide (fld w.fn 3 2 ≠ 3)) w → NoVectorDrain s.dev w.core →
    (let x := s.dev.core w.core
     let r := (reduceTree (redOp (fld w.fn 3 2)) 7 ((x.lanes w.rs1.toNat).map (fun l => (l, Flg.none)))).headD (0, Flg.none)
     ∃ e, Does (.vred w) s e ∧ ∀ n, n < 128 →
       (e.core w.core).getV w.rd.toNat n = if n = 0 then r.1 else 0))
  ∧ (∀ (w : IW) (s : State), (Instr.vbcast w).wf = true →
    Issues s.dev (mOp 0x26) (decide (fld w.fn 10 2 = 0)) w → NoVectorDrain s.dev w.core →
    ∃ e, Does (.vbcast w) s e ∧ ∀ n, n < 128 →
      (e.core w.core).getV w.rd.toNat n = BitVec.ofNat 32 ((s.dev.core w.core).getG w.rs1.toNat).toNat)
  ∧ (∀ (w : IW) (s : State), (Instr.vmovg w).wf = true →
    Issues s.dev (mOp 0x26) (decide (fld w.fn 10 2 = 0)) w → NoVectorDrain s.dev w.core →
    (let x := s.dev.core w.core
     ∃ e, Does (.vmovg w) s e ∧ OnlyCore s.dev e w.core ((x.setG w.rd.toNat
       (BitVec.ofNat 64 (x.getV w.rs1.toNat (fld (x.getG w.rs2.toNat) 6 0)).toNat)).retire (ilenOf w))))
  ∧ (∀ (w : IW) (s : State) (d : Dev) (bs : List Byte), (Instr.vld w).wf = true →
    Issues s.dev (mOp 0x25) (decide (fld w.fn 10 1 = 0)) w → NoVectorDrain s.dev w.core →
    (let a := (s.dev.core w.core).getG w.rs1.toNat
     a.toNat % 64 = 0 → fld a 63 48 = 0 → vectorPast w.core a.toNat = false →
     s.dev.unitLoad w.core a.toNat 512 = .ok d bs →
     ∃ e, Does (.vld w) s e ∧ OnlyCore d e w.core (((d.core w.core).setLanes w.rd.toNat 0 (lanesOf bs)).retire (ilenOf w))))
  ∧ (∀ (w : IW) (s : State) (d : Dev) (bs : List Byte), (Instr.vst w).wf = true →
    Issues s.dev (mOp 0x25) (decide (fld w.fn 10 1 = 0)) w → NoVectorDrain s.dev w.core →
    (let a := (s.dev.core w.core).getG w.rs1.toNat
     a.toNat % 64 = 0 → fld a 63 48 = 0 → vectorPast w.core a.toNat = false →
     s.dev.unitStore w.core a.toNat (laneBytes ((s.dev.core w.core).lanes w.rd.toNat)) = .ok d bs →
     ∃ e, Does (.vst w) s e ∧ OnlyCore d e w.core ((d.core w.core).retire (ilenOf w))))
  ∧ (∀ (w : IW) (s : State), (Instr.vcvt w).wf = true →
    Issues s.dev (mOp 0x24) (decide (fld w.fn 10 7 = 0)) w → NoVectorDrain s.dev w.core →
    (let fmt := fld w.fn 3 0
     let mode := fld w.fn 5 4
     let x := s.dev.core w.core
     let at2 := fld (x.r2 w) 47 0
     fmt < 0xB → mode ≠ 3 →
     ∀ (d : Dev) (rm : Nat) (desc book : List Byte),
       ((fmt = 0xA ∧ s.dev.unitLoad w.core at2 16 = .ok d book ∧ rm = 0 ∧ desc = [])
         ∨ (fmt ≠ 0xA ∧ bitAt w.fn 6 = false ∧ mode = 2 ∧ at2 % 64 = 0 ∧ s.dev.unitLoad w.core at2 48 = .ok d desc ∧ rm = 2 ∧ book = [])
         ∨ (fmt ≠ 0xA ∧ (bitAt w.fn 6 = true ∨ mode ≠ 2) ∧ d = s.dev ∧ rm = mode ∧ desc = [] ∧ book = [])) →
       (bitAt w.fn 6 = true →
         (let es := (List.range 128).map (packedElem (fmtBits fmt) (laneBytes (x.lanes w.rs1.toNat)))
          let dv := d.vflags w.core { Flg.none with invalid := es.any (isSnanElem fmt) }
          ∃ e, Does (.vcvt w) s e
            ∧ OnlyCore dv e w.core (((dv.core w.core).setLanes w.rd.toNat 0 (es.map (widenLane fmt book))).retire (ilenOf w))))
       ∧ (bitAt w.fn 6 = false →
         (let rs := (List.range 128).map (fun l =>
            narrowLane fmt book (rndOf rm desc (128 * fld (x.r2 w) 63 48 + l)) (x.getV w.rs1.toNat l))
          let bs := packElems (fmtBits fmt) (rs.map (·.1))
          let dv := d.vflags w.core (flagsOf (rs.map (·.2)))
          ∃ e, Does (.vcvt w) s e
            ∧ OnlyCore dv e w.core
              (((dv.core w.core).setLanes w.rd.toNat 0 (lanesOf (bs ++ List.replicate (512 - bs.length) 0#8))).retire
                (ilenOf w))))))

/-- R388, R389: a VSPENC whose descriptor is at hand and legal queues one operation of the encoder and retires; an encode counts
the gobs it will commit. R361, R388: at VSPENC_COMPLETION the oldest operation writes its gobs, or its map, and then posts its
object once; an encode waits for the earlier units of its entry. -/
def Obligations.Encoding : Prop :=
  (∀ (w : IW) (s : State) (d : Dev) (ws : List Nat), (Instr.vspencEncode w).wf = true →
    Issues s.dev (mOp 0x27) (decide (fld w.fn 10 2 = 0)) w →
    s.dev.desc w.core ((s.dev.core w.core).r1 w) 4 = .ok d ws → (edescOf ws).fault = 0 →
    ∃ (e : Dev) (y : EncWork), Does (.vspencEncode w) s e
      ∧ OnlyEngine d e w.core (({ d.core w.core with entry := (d.core w.core).entry.map (fun n =>
            { n with nextUnit := n.nextUnit + (edescOf ws).gobs }) } : Core).retire (ilenOf w))
          { d.engine w.core with enc := (d.engine w.core).enc ++ [y] }
      ∧ y.map = false ∧ y.desc = ws.map (BitVec.ofNat 64) ∧ y.so = (edescOf ws).so)
  ∧ (∀ (w : IW) (s : State) (d : Dev) (ws : List Nat), (Instr.vspencMap w).wf = true →
    Issues s.dev (mOp 0x27) (decide (fld w.fn 10 2 = 0)) w →
    s.dev.desc w.core ((s.dev.core w.core).r1 w) 8 = .ok d ws → (adescOf ws).fmtOk = true → (adescOf ws).inStore = true →
    ∃ (e : Dev) (y : EncWork), Does (.vspencMap w) s e
      ∧ (e.engine w.core) = { d.engine w.core with enc := (d.engine w.core).enc ++ [y] }
      ∧ y.map = true ∧ y.desc = ws.map (BitVec.ofNat 64) ∧ y.so = fld ((s.dev.core w.core).r2 w) 15 0
      ∧ (e.core w.core).getG = (d.core w.core).getG)
  ∧ (∀ (e : Nat) (s : State) (y : EncWork) (ys : List EncWork), (Instr.vspencCompletion e).wf = true →
    (s.dev.engine e).enc = y :: ys →
    (let ws := y.desc.map BitVec.toNat
     let d1 := s.dev.modEngine e (fun x => { x with enc := ys })
     (∀ d2 bs, y.map = true →
       s.dev.mapBlocks e (adescOf ws) ((List.range (adescOf ws).nkb).map (fun j => (adescOf ws).kb + j)) = .ok d2 bs →
       Does (.vspencCompletion e) s
         (((d2.modEngine e (fun x => { x with enc := ys })).unitDone y.slot e).donePost y.slot e y.so 1 false))
     ∧ (∀ d2, y.map = false → y.unit = ((s.dev.core y.core).entry.map (fun n => n.units)).getD y.unit →
         d1.encGobs e y.slot (edescOf ws) (edescOf ws).gobs 0 = (d2, none) →
         Does (.vspencCompletion e) s ((d2.unitPost y.slot y.so 1 false).engMoved e))))

/-! ### The routing engine and Marver -/

/-- R42, R140, R145, R171, R174, R181, R187, R189, R190, R390, R393: RSCORE, RSELECT, RPACK pack and RCOMBINE complete. The
descriptor is at hand, its object is one of the slot, the context is valid and has the route table, Lehr is not held and no
operation of the context waits.
RSCORE and RSELECT of H0, with no batch of the table short of route close, none that overlaps, fewer than four in the context,
the next epoch free, and a legal table and pitch: the table's state is read where it is not resident, the batch opens, and its
H0 is scored. RSCORE and RSELECT of H1 of the batch that is due: its tokens are scored, RSCORE with the words of its lookahead
table, and the operation's completion is queued.
RPACK of a half whose scoring has posted, into a pool of the slot whose buffers hold the bins, with no expert outside the job:
the half counts as packed. RCOMBINE of a half that is due records the combine operation. Each instruction retires.
One that waits behind others of its route table retires too, and waits as an operation of the context. -/
def Obligations.RoutingInstructions : Prop :=
  (∀ r ∈ ([(.rscore, 0x28, fun w => decide (fld w.fn 10 1 = 0), 0), (.rselect, 0x28, fun w => decide (fld w.fn 10 1 = 0), 1),
      (.rpackPack, 0x29, fun w => decide (fld w.fn 10 3 = 0), 2), (.rcombine, 0x29, fun w => decide (fld w.fn 10 2 = 0), 3)] :
      List ((IW → Instr) × Nat × (IW → Bool) × Nat)),
    ∀ (w : IW) (s : State) (d : Dev) (ws : List Nat), (r.1 w).wf = true →
    Issues s.dev (cOp r.2.1 false) (r.2.2.1 w) w → s.dev.rb Reg.RTE_CTRL 0 = false →
    s.dev.desc w.core ((s.dev.core w.core).r1 w) 8 = .ok d ws →
    (let sl := (s.dev.core w.core).slotN
     let c := w.core
     let ds := ws.map (BitVec.ofNat 64)
     let o := ropOf ds
     let k := r.2.2.2
     d.owns sl o.so = true → d.rctxValid sl = true → d.rtAllowed sl o.rt = true →
     ((d.rctx sl).waits = [] →
       (∀ (d0 d3 d4 : Dev) (b : Batch), k ≤ 1 → o.half = false →
         d.ownOpen o.rt = false → d.openWaits sl o.rt = false →
         (let x := rtdOf (d.rtdWords o.rt)
          d.rtdOk sl x = true → (d.rb (Reg.JOB_PROFILE sl) 0 = false ∨ x.bmode = 0 ∨ x.bsrc = true) →
          pitchOk o.pitch (scoreRow (k == 1) x) = true →
          ((d.residentAs o.rt x = true ∧ d0 = d)
            ∨ (d.residentAs o.rt x = false ∧ ∃ (d9 : Dev) (bs : List (List Byte)),
                d.rdRanges (unitWho sl 57) [(x.state, 16 * x.ecount)] [] = .ok d9 bs ∧ d0 = d9.loadTable o.rt x (bs.getD 0 []))) →
          d0.scoreReads sl (k == 1) x o ((o.ntok + 1) / 2) = .ok d3 →
          (d3.openBatch sl c o x).batchOf sl ((d3.openBatch sl c o x).rctx sl).epoch = some b → b.cancelled = false →
          pitchOk o.pitch (scoreRow (k == 1) b.table) = true →
          (d3.openBatch sl c o x).scoreReads sl (k == 1) b.table o (b.count false) = .ok d4 →
          ∃ d2 e, (d3.openBatch sl c o x).runScore sl c (k == 1) o b = .ok d2
            ∧ exec (r.1 w) s = .next { s with dev := e } ∧ OnlyCore (d2.unitDone sl 57) e c ((d2.core c).retire (ilenOf w))))
       ∧ (∀ (d1 d5 : Dev) (b : Batch) (rows : List (List Byte)) (la : List Word), k ≤ 1 → o.half = true →
         d.dueBatch sl o.rt dueH1 = some b → b.cancelled = false → pitchOk o.pitch (scoreRow (k == 1) b.table) = true →
         d.rdRanges (unitWho sl 57) (scoreRanges (k == 1) b.table o (b.count true)) [] = .ok d1 rows →
         ((k = 1 ∧ d5 = d1 ∧ la = []) ∨ (k = 0 ∧ d1.stateWords sl b.table = (d5, some la))) →
         (let e1 := d5.scoreHalf sl b true (d5.halfRaws (k == 1) b.table (b.count true) rows)
          let e2 := if k == 1 then e1 else e1.lookahead sl b.table (b.first true) (b.count true) rows la
          let d2 := (e2.modBatch sl b.epoch (fun y => { y with core := c })).addOp sl c o.so false (some (b.epoch, true)) 48 []
          ∃ e, exec (r.1 w) s = .next { s with dev := e } ∧ OnlyCore (d2.unitDone sl 57) e c ((d2.core c).retire (ilenOf w))))
       ∧ (∀ (b : Batch) (h : Half), k = 2 → d.dueBatch sl o.rt (duePack o.half) = some b → b.half o.half = some h →
         h.scored = true →
         (let cp := capacityPass b.table b.work b.ntok o.half b.used0 h.toks
          let toks := if b.cancelled then h.toks else cp.2
          let p := d.packBins sl (b.setHalf o.half (some { h with toks := toks })) o.half
          pitchOk o.pitch (b.table.rowlen64 * 64) = true → d.poolFor o.pool (some sl) = true → d.outsider sl toks = none →
          d.binsFit o.pool b p.1 p.2 = true →
          ∃ d2 e, d.runPack sl c ds b = .ok d2
            ∧ exec (r.1 w) s = .next { s with dev := e } ∧ OnlyCore (d2.unitDone sl 57) e c ((d2.core c).retire (ilenOf w))))
       ∧ (∀ (b : Batch), k = 3 → d.dueBatch sl o.rt (dueCombine o.half) = some b → pitchOk o.pitch b.table.outBytes = true →
         (let y : CombineOp := { core := c, so := o.so, buf := o.bufA, pitch := o.pitch, done := false }
          let d2 := (d.modHalf sl b.epoch o.half (fun h => { h with combine := some y })).combineHalf sl b.epoch o.half
          ∃ e, exec (r.1 w) s = .next { s with dev := e } ∧ OnlyCore (d2.unitDone sl 57) e c ((d2.core c).retire (ilenOf w)))))
     ∧ (∀ d2, d.routeIssue sl c k ds = .wait d2 →
       ∃ e, exec (r.1 w) s = .next { s with dev := e } ∧ OnlyCore (d2.addWait sl c k ds) e c
         (((d2.addWait sl c k ds).core c).retire (ilenOf w)))))

/-- R143, R167, R183, R396: RSTAT in a valid context writes the ledger block to memory and its epoch to g[rd], cancels the batch
named, takes the counts of a route table (a route close that waits for them then goes on), or marks the table for reloading. R183: a write of RCTX_CANCEL cancels too. -/
def Obligations.RouteStatus : Prop :=
  (∀ (w : IW) (s : State) (d : Dev) (bs : List Byte), (Instr.rstatReadLedger w).wf = true →
    Issues s.dev (cOp 0x29 false) (rstatLegal w) w → s.dev.rb Reg.RTE_CTRL 0 = false →
    (let sl := (s.dev.core w.core).slotN
     let ls := (List.range 8).map (fun i => s.dev.reg (Reg.LEDG sl i)) ++ [s.dev.reg (Reg.LEDG_INFO sl)]
     s.dev.rctxValid sl = true →
     ((s.dev.core w.core).r2 w).toNat < 2 ^ 48 →
     s.dev.unitStore w.core ((s.dev.core w.core).r2 w).toNat
       (ls.flatMap (fun v => leBytes 8 v.toNat)) = .ok d bs →
     ∃ e, Does (.rstatReadLedger w) s e ∧ OnlyCore d e w.core
       (((d.core w.core).setG w.rd.toNat (s.dev.reg (Reg.LEDG_INFO sl))).retire (ilenOf w))))
  ∧ (∀ (w : IW) (s : State), (Instr.rstatCancel w).wf = true →
    Issues s.dev (cOp 0x29 false) (rstatLegal w) w → s.dev.rb Reg.RTE_CTRL 0 = false →
    (let sl := (s.dev.core w.core).slotN
     let d := s.dev.cancelBatch sl (fld ((s.dev.core w.core).r1 w) 11 0)
     s.dev.rctxValid sl = true → s.dev.rb (Reg.JOB_PROFILE sl) 0 = false →
     ∃ e, Does (.rstatCancel w) s e ∧ OnlyCore d e w.core (((d.core w.core).setG w.rd.toNat 0).retire (ilenOf w))))
  ∧ (∀ (w : IW) (s : State) (d : Dev) (bs : List Byte), (Instr.rstatSupplyCounts w).wf = true →
    Issues s.dev (cOp 0x29 false) (rstatLegal w) w → s.dev.rb Reg.RTE_CTRL 0 = false →
    (let sl := (s.dev.core w.core).slotN
     let rt := fld ((s.dev.core w.core).r1 w) 7 0
     let n := (s.dev.supplyTable sl rt).ecount
     s.dev.rctxValid sl = true → s.dev.rtAllowed sl rt = true →
     ((s.dev.core w.core).r2 w).toNat % 4 = 0 → ((s.dev.core w.core).r2 w).toNat < 2 ^ 48 →
     s.dev.unitLoad w.core ((s.dev.core w.core).r2 w).toNat (4 * n) = .ok d bs →
     (let d3 := d.setSupply rt (leWords 4 n bs)
      let d4 := if (d3.closing sl rt).any (fun b => b.waitCounts.isSome) then d3.routeCloseRun sl rt else d3
      d3.supplied rt = leWords 4 n bs ∧ (∀ k, k ≠ rt → d3.supplied k = d.supplied k)
      ∧ ∃ e, Does (.rstatSupplyCounts w) s e ∧ OnlyCore d4 e w.core (((d4.core w.core).setG w.rd.toNat 0).retire (ilenOf w)))))
  ∧ (∀ (w : IW) (s : State), (Instr.rstatReload w).wf = true →
    Issues s.dev (cOp 0x29 false) (rstatLegal w) w → s.dev.rb Reg.RTE_CTRL 0 = false →
    (let sl := (s.dev.core w.core).slotN
     let rt := fld ((s.dev.core w.core).r1 w) 7 0
     s.dev.rctxValid sl = true → s.dev.rtAllowed sl rt = true →
     ∃ d e, Does (.rstatReload w) s e
       ∧ (∀ k, tget (fun _ => false) d.rte.reload k = if k = rt then true else tget (fun _ => false) s.dev.rte.reload k)
       ∧ d = { s.dev with rte := { s.dev.rte with reload := d.rte.reload } }
       ∧ OnlyCore d e w.core (((s.dev.core w.core).setG w.rd.toNat 0).retire (ilenOf w))))
  ∧ (∀ (v : Via) (sl epoch : Nat) (s : State), (Instr.rctxCancelGo v sl epoch).wf = true →
    HostOpen s.dev (.rctxCancelGo v sl epoch) v false false → viaSees v sl = true →
    s.dev.rb (Reg.JOB_PROFILE sl) 0 = false → Does (.rctxCancelGo v sl epoch) s (s.dev.cancelBatch sl epoch))

/-- R41, R165, R167: ROUTE_CLOSE of the batch that is due closes it, without the bias update when it is cancelled or the table
has none, with the supplied counts, or with the counts of its turnstiles; where counts are to be supplied and none are, it waits
for them; with no batch due it does nothing. After 100 ms without counts it closes without the update and raises 0x0308. R182: an open that has waited 100 ms for an epoch
leaves the queue and raises 0x0307; R142, R181: a single waiting operation that can run, behind no close of an older batch,
runs. -/
def Obligations.RouteCloseAndOpens : Prop :=
  (∀ (sl rt : Nat) (s : State), (Instr.routeClose sl rt).wf = true →
    (s.dev.closing sl rt = none → Idle (.routeClose sl rt) s)
    ∧ (∀ b, s.dev.closing sl rt = some b →
      (let use := fun (cs : List Nat) => if b.cancelled || decide (b.table.bmode = 0) then none else some cs
       (b.table.bsrc = false →
         Does (.routeClose sl rt) s (s.dev.finishClose sl b
           (use ((List.range b.table.ecount).map (fun e => s.dev.turnstile (b.table.ebase + e)))) id))
       ∧ (b.table.bsrc = true → s.dev.supplied rt ≠ [] →
         Does (.routeClose sl rt) s (s.dev.finishClose sl b (use (s.dev.supplied rt)) (fun a => a.setSupply rt [])))
       ∧ (b.table.bsrc = true → s.dev.supplied rt = [] → b.waitCounts = none →
         Does (.routeClose sl rt) s (s.dev.modBatch sl b.epoch (fun y => { y with waitCounts := some s.dev.now }))))))
  ∧ (∀ (sl rt t : Nat) (s : State) (b : Batch), (Instr.routeCloseCountsTimeout sl rt).wf = true →
    s.dev.closing sl rt = some b → b.waitCounts = some t → t + ms100 ≤ s.dev.now →
    ∃ f, f.code = 0x0308 ∧ Does (.routeCloseCountsTimeout sl rt) s (s.dev.finishClose sl b none (fun a => a.asyncFault b.core sl f)))
  ∧ (∀ (sl : Nat) (s : State) (y : OpenWait), (Instr.batchOpenEpochTimeout sl).wf = true →
    (s.dev.rctx sl).waits.find? OpenWait.opens = some y → (s.dev.rctx sl).epochTaken = true → y.since + ms100 ≤ s.dev.now →
    ∃ f, f.code = 0x0307 ∧ Does (.batchOpenEpochTimeout sl) s
      ((s.dev.setRctx sl { s.dev.rctx sl with waits := dropOpen (s.dev.rctx sl).waits }).asyncFault y.core sl f))
  ∧ (∀ (sl : Nat) (s : State) (y : OpenWait) (d : Dev), (Instr.batchOpenResume sl).wf = true → (s.dev.rctx sl).waits = [y] →
    (s.dev.rctx sl).heldBehind y = false → (y.opens = true → (s.dev.rctx sl).batches.length < 4) →
    (s.dev.setRctx sl { s.dev.rctx sl with waits := [] }).routeRun sl y.core y.kind y.desc = .ok d → d.runs sl = true →
    Does (.batchOpenResume sl) s ((d.unitDone sl 57).setRctx sl { d.rctx sl with waits := [] }))

/-- R189, R201, R209, R394, R531: RPACK arrive in a valid context, on a list of held bins that are at hand, those of all partners of
the last stage (R48), and whose rows fit a buffer of a pool of the slot, starts a Marver operation and retires; MARVER_RESTAGE starts one on its bins, those of all partners of
their stage, into the next stage of their direction; ROUTING_OPERATION_COMPLETE of the oldest operation of a context hands its buffers to its core and posts its
object, and after a scoring what waits for it goes on; RETURN_BIN_HANDOFF delivers the answers of a bin that its core
releases, up to the first that faults. -/
def Obligations.MarverOperations : Prop :=
  (∀ (w : IW) (s : State) (d d1 d2 : Dev) (ws : List Nat) (ls : List (List Byte)) (bs : List Bin), (Instr.rpackArrive w).wf = true →
    Issues s.dev (cOp 0x29 false) (decide (fld w.fn 10 3 = 0)) w → s.dev.rb Reg.RTE_CTRL 0 = false →
    s.dev.desc w.core ((s.dev.core w.core).r1 w) 8 = .ok d ws →
    (let sl := (s.dev.core w.core).slotN
     let ds := ws.map (BitVec.ofNat 64)
     let o := ropOf ds
     let held := (leWords 8 o.nbins (ls.getD 0 [])).map (fun a => a % 2 ^ 48)
     let y : PackOp := { id := 0, kind := 1, slot := sl, core := w.core, pool := o.pool,
                         desc := ds ++ [BitVec.ofNat 64 (d2.rf (Reg.RT_OBJ o.rt) 27 16)], held := held, stage := 0,
                         need := 1, got := [] }
     d.owns sl (nfld (ws.getD 0 0) 47 32) = true → d.rctxValid sl = true → d.rtAllowed sl o.rt = true →
     d.poolFor o.pool (some sl) = true → d.rdRanges (unitWho sl 57) [(o.bufA, 8 * o.nbins)] [] = .ok d1 ls →
     d1.readBins (unitWho sl 57) held [] = .ok d2 bs → d2.stageComplete sl (d2.lastAxis sl) bs = true →
     (mergeBins false bs).length * arrivalRow bs ≤ d2.bufSize o.pool →
     ∃ e, exec (.rpackArrive w) s = .next { s with dev := e }
       ∧ OnlyCore ((d2.addPack y).unitDone sl 57) e w.core (((d2.addPack y).core w.core).retire (ilenOf w))))
  ∧ (∀ (c pool stage sl : Nat) (held : List Nat) (s : State) (d d0 : Dev) (bs : List Bin),
    (Instr.marverRestage c pool stage held).wf = true → (s.dev.core c).slot = some sl → s.dev.runs sl = true → held ≠ [] →
    s.dev.poolFor pool (some sl) = true → s.dev.readBins (unitWho sl 57) held [] = .ok d0 bs →
    d = d0.unitDone sl 57 → d.stageNext sl stage bs = true → d.heldAll sl stage bs = true →
    (let vs := d.restageBins sl stage bs
     (∀ v ∈ vs, binSize (countList v.2).length v.2.length 0 + (v.2.map (fun (x : Copy) => x.row.length)).sum
       ≤ d.bufSize pool) →
     Does (.marverRestage c pool stage held) s
       ((d.addPack { id := 0, kind := 2, slot := sl, core := c, pool := pool, desc := [], held := held, stage := stage,
                     need := vs.length, got := [] }).packTry d.rte.nextOp)))
  ∧ (∀ (k : Nat) (s : State) (o : RouteOp), (Instr.routingOperationComplete k).wf = true →
    s.dev.rte.ops.find? (fun y => decide (y.id = k)) = some o →
    s.dev.rte.ops.find? (fun y => decide (y.slot = o.slot)) = some o →
    (let d : Dev := { s.dev with rte := { s.dev.rte with ops := s.dev.rte.ops.filter (fun y => decide (y.id ≠ k)) } }
     let d2 := (d.handAll o.slot o.core o.bufs).donePost o.slot 57 o.so 1 o.err
     (o.scores = none → Does (.routingOperationComplete k) s d2)
     ∧ (∀ h, o.scores = some h → Does (.routingOperationComplete k) s
         ((d2.modHalf o.slot h.1 h.2 (fun y => { y with scored := true })).resumeOpens o.slot))))
  ∧ (∀ (c bin sl : Nat) (s : State) (pi : Nat × Nat) (d : Dev) (bs : List Bin), (Instr.returnBinHandoff c bin).wf = true →
    (s.dev.core c).slot = some sl → s.dev.findBuf (some sl) bin = some pi → s.dev.runs sl = true →
    ((s.dev.pool pi.1).recOf pi.2).releasedBy c = true → s.dev.readBins (unitWho sl 57) [bin] [] = .ok d bs →
    (let r := ((d.unitDone sl 57).bufHand pi.1 pi.2 49).takeAnswers sl (bs.flatMap Bin.copies)
     (r.2 = none → Does (.returnBinHandoff c bin) s ((r.1.bufReturn pi.1 pi.2).settleBatches sl))
     ∧ (∀ f, r.2 = some f → Does (.returnBinHandoff c bin) s (r.1.opFails c sl f [bin]))))

/-! ### The exchange -/

/-- R397, R427: an XSEND whose descriptor passes its checks, with an object of its slot and a space that has not failed, starts a
message and retires. R397: when every byte has been acknowledged XSEND_COMPLETE posts the message's object; a message on VC2 ends
and releases its buffer, one on VC3 waits for its receipt, but for the notes of the shipped programs, which need none. A message
whose source was under repair reads it again. R243, R535: a receipt for a chunk that is complete ends it and releases its
buffer. -/
def Obligations.SendingMessages : Prop :=
  (∀ (w : IW) (s : State) (d : Dev) (ws : List Nat), (Instr.xsend w).wf = true →
    Issues s.dev (cOp 0x2A false) (decide (fld w.fn 10 2 = 0)) w →
    s.dev.desc w.core ((s.dev.core w.core).r1 w) 4 = .ok d ws →
    (let sl := (s.dev.core w.core).slotN
     let y := sendDescOf ws
     d.sendOk sl y = true → d.owns sl y.so = true →
     d.spaceFailed { d.tx 0x08 0 y.dest (d.jobId sl) w.core with chan := y.chan } = false →
     ∃ e, Does (.xsend w) s e ∧ OnlyCore (d.startMessage sl w.core y none) e w.core
       (((d.startMessage sl w.core y none).core w.core).retire (ilenOf w))))
  ∧ (∀ (m : Nat) (s : State) (y : SendMsg), (Instr.xsendComplete m).wf = true → s.dev.sendMsg m = some y →
    (y.phase = 5 → Does (.xsendComplete m) s (s.dev.sendGranted y))
    ∧ ((y.phase = 2 ∨ y.phase = 6) → y.acked = y.bytes →
      (let d := if y.body = none then s.dev.unitPost y.slot y.so 1 false else s.dev
       (y.vc = 2 → Does (.xsendComplete m) s ((d.dropMsg m).releaseSource y))
       ∧ (y.vc ≠ 2 → y.phase = 6 ∨ (y.body ≠ none ∧ y.chan = 15) → Does (.xsendComplete m) s (d.dropMsg m))
       ∧ (y.vc ≠ 2 → y.phase = 2 → (y.body = none ∨ y.chan ≠ 15) →
           Does (.xsendComplete m) s (d.putMsg { y with phase := 4 })))))
  ∧ (∀ (m : Nat) (s : State) (y : SendMsg), (Instr.chunkReceiptArrival m).wf = true → s.dev.sendMsg m = some y →
    y.vc = 3 → y.sent = y.bytes →
    (let a := match y.body with
       | some bs => s.dev.collReceipt y.core (leNat ((bs.drop 8).take 4)) y.dest
       | none => s.dev
     (y.phase = 4 → Does (.chunkReceiptArrival m) s ((a.dropMsg m).releaseSource y))
     ∧ (y.phase = 2 → Does (.chunkReceiptArrival m) s ((a.putMsg { y with phase := 6 }).releaseSource y))))

/-- R242, R398 to R400: XRECV receive takes the first whole message of its queue whose tag is the one expected: of another kind,
or a bin or chunk that passes its checks, it hands the buffer to the core and writes its address to g[rd]; with no whole message,
or with one whose lines are not all here, it waits, and beyond its limit the wait raises 0x0402. A chunk's receipt goes to its sender (R243). XRECV bind gives a queue its
pool. R401: XTAG writes the tag of the 32 bytes at g[rs1].
Collectives: R230, R231, R232: a timeout, and the first abort message for the tag in hand, abort it; one for another tag raises 0x0407 with
the committed chunks of its descriptor, whose status and object show it. R236, R237: integers of an
anchored sum add exactly within the form's range, and saturate at its ends under a fixed anchor. R221: a descriptor that fails
its checks is answered with 0x0408 in its status word, the post with the error mark, and the fault. R224: a collective ends with
done and valid and one post, and not before every chunk of its output is committed and acknowledged. -/
def Obligations.ReceivingMessages : Prop :=
  (∀ (w : IW) (s : State) (d : Dev) (ws : List Nat), (Instr.xrecvReceive w).wf = true →
    Issues s.dev (cOp 0x2A false) (decide (fld w.fn 10 2 = 0)) w →
    s.dev.desc w.core ((s.dev.core w.core).r1 w) 4 = .ok d ws →
    (let sl := (s.dev.core w.core).slotN
     let tag := ws.getD 0 0
     let q := nfld (ws.getD 1 0) 3 0
     let kind := nfld (ws.getD 1 0) 5 4
     let axis := nfld (ws.getD 1 0) 7 6
     kind ≠ 3 →
     ((d.rqueue sl q).msgs.find? (fun m => m.complete) = none →
       ∃ e, Does (.xrecvReceive w) s e ∧ (e.core w.core).takes = false ∧ (e.core w.core).pc = (d.core w.core).pc
         ∧ (e.core w.core).getG = (d.core w.core).getG ∧ e = { d with cores := e.cores })
     ∧ (∀ m, (d.rqueue sl q).msgs.find? (fun m => m.complete) = some m →
        let r := d.recvWhole sl m
        let head := r.1.recvBytes sl m 64
        let e1 := r.1.unitDone sl 60
        r.2 = true → leNat ((head.drop (if kind = 0 then 16 else 0)).take 8) = tag →
        (kind = 2 →
          ∃ e, Does (.xrecvReceive w) s e ∧ OnlyCore ((e1.dropRecv sl q m).bufHand m.pool m.buf w.core) e w.core
            (((e1.core w.core).setG w.rd.toNat (BitVec.ofNat 64 (e1.recvAddr m))).retire (ilenOf w)))
        ∧ (kind = 0 → r.1.binCode sl axis tag m = 0 →
          ∃ e, Does (.xrecvReceive w) s e ∧ e.core w.core =
              ((e1.core w.core).setG w.rd.toNat (BitVec.ofNat 64 (e1.recvAddr m))).retire (ilenOf w)
            ∧ e.rf (Reg.XCH_BINS sl) 63 0 = (e1.rf (Reg.XCH_BINS sl) 63 0 + 1) % 2 ^ 64)
        ∧ (kind = 1 →
          let idx := leNat ((head.drop 8).take 4)
          (sl, tag, idx) ∉ e1.xch.chunks → chunkOk (r.1.recvBytes sl m m.bytes) = true →
          let a : Dev := { e1 with xch := { e1.xch with chunks := (sl, tag, idx) :: e1.xch.chunks } }
          let b := if ((head.getD 15 0).toNat).testBit 1 then a.setRb (Reg.XCH_STATUS sl) 2 true else a
          let d2 := ((b.setAttempts sl tag idx 0 0).recvPost sl q).sendReceipt sl w.core tag 0 idx m.src
          let d3 := (d2.dropRecv sl q m).bufHand m.pool m.buf w.core
          ∃ e, Does (.xrecvReceive w) s e ∧ OnlyCore d3 e w.core
            (((d3.core w.core).setG w.rd.toNat (BitVec.ofNat 64 (d2.recvAddr m))).retire (ilenOf w))))))
  ∧ (∀ (c rd q kind axis limit : Nat) (tag : Word) (s : State), (Instr.xrecvTimeout c).wf = true →
    (s.dev.core c).wait = some (.recv rd q tag kind axis limit) → limit ≤ s.dev.now →
    ∃ f, f.code = 0x0402 ∧ Does (.xrecvTimeout c) s
      (Dev.finish c (s.dev.core c).ilen (.raise (s.dev.xchShow (s.dev.core c).slotN 0x0402 0) 8 f)))
  ∧ (∀ (c sl : Nat) (x : Coll) (s : State), (Instr.xrecvTimeout c).wf = true → (s.dev.core c).wait = some .coll →
    (s.dev.core c).coll = some x → (s.dev.core c).slot = some sl → x.since + x.desc.limitTime ≤ s.dev.now →
    Does (.xrecvTimeout c) s (s.dev.collAbort c sl x 0x0402 0 0))
  ∧ (∀ (w : IW) (s : State), (Instr.xrecvBind w).wf = true →
    Issues s.dev (cOp 0x2A false) (decide (fld w.fn 10 2 = 0)) w →
    (let x := s.dev.core w.core
     let p := fld (x.r2 w) 15 0
     let q := fld (x.r1 w) 3 0
     s.dev.poolNamed w.core p = true →
     (s.dev.rqueue x.slotN q).pool = none ∨ (s.dev.rqueue x.slotN q).pool = some p →
     ∃ e qs, Does (.xrecvBind w) s e
       ∧ OnlyCore { s.dev with xch := { s.dev.xch with queues := qs } } e w.core (x.retire (ilenOf w))
       ∧ e.rqueue x.slotN q = { s.dev.rqueue x.slotN q with pool := some p }))
  ∧ (∀ (w : IW) (s : State) (d : Dev) (bs : List Byte), (Instr.xtag w).wf = true →
    Issues s.dev (cOp 0x2B false) (decide (w.fn = 0)) w →
    ((s.dev.core w.core).r1 w).toNat < 2 ^ 48 →
    s.dev.unitLoad w.core ((s.dev.core w.core).r1 w).toNat 32 = .ok d bs →
    ∃ e, Does (.xtag w) s e ∧ OnlyCore d e w.core
      (((d.core w.core).setG w.rd.toNat (BitVec.ofNat 64 (tagOfBlock bs))).retire (ilenOf w)))
  ∧ (∀ (c desc sender sl : Nat) (tag : Word) (s : State), (Instr.abortMessageArrival c desc tag sender).wf = true →
    (s.dev.core c).slot = some sl → s.dev.runs sl = true → (sl, tag.toNat) ∉ s.dev.xch.aborted →
    (∀ x, (s.dev.core c).coll = some x → x.tag ≠ tag.toNat) →
    ∃ d : Dev, Does (.abortMessageArrival c desc tag sender) s
        (if s.dev.unitBusy sl 60 = true then d.addLater (.abort sl c desc tag.toNat sender)
         else d.abortSteps sl c desc tag.toNat sender)
      ∧ d.xch.aborted = (sl, tag.toNat) :: s.dev.xch.aborted ∧ d.rb (Reg.XCH_STATUS sl) 4 = true
      ∧ d = { s.dev with regs := d.regs, xch := { s.dev.xch with aborted := d.xch.aborted } })
  ∧ (∀ (d d1 : Dev) (sl c desc tag sender : Nat) (bs : List Byte), d.unitRead sl 60 desc 80 = .ok d1 bs →
    (let w := fun (i : Nat) => (leWords 8 10 bs).getD i 0
     ∃ f : FaultInfo, f.code = 0x0407 ∧ f.units = nfld (w 9) 63 32 ∧
       d.abortSteps sl c desc tag sender
         = ((d1.asyncFault c sl f).unitWrite sl 60 (desc + 72) (leBytes 8 (nset (nset (w 9) 1 0 1) 31 16 0x0407))).donePost
             sl 60 (nfld (w 6) 15 0) 1 true))
  ∧ (∀ (c desc sender sl : Nat) (tag : Word) (x : Coll) (s : State), (Instr.abortMessageArrival c desc tag sender).wf = true →
    (s.dev.core c).slot = some sl → s.dev.runs sl = true → (sl, tag.toNat) ∉ s.dev.xch.aborted →
    (s.dev.core c).wait = some .coll → (s.dev.core c).coll = some x → x.tag = tag.toNat →
    Does (.abortMessageArrival c desc tag sender) s (s.dev.collAbort c sl x 0x0407 sender 0))
  ∧ (∀ (x : CollDesc) (m : Int), x.anchored = true → x.amode = 1 →
    sval x.tbits (x.fit m).1 = max (-x.limit) (min x.limit m) ∧ ((x.fit m).2 = true ↔ x.limit < m ∨ m < -x.limit))
  ∧ (∀ (x : CollDesc) (p q : Nat), x.anchored = true → p < 2 ^ x.tbits → q < 2 ^ x.tbits →
    -x.limit ≤ sval x.tbits p + sval x.tbits q → sval x.tbits p + sval x.tbits q ≤ x.limit →
    sval x.tbits (x.joinElem p q).1 = sval x.tbits p + sval x.tbits q ∧ (x.joinElem p q).2 = false)
  ∧ (∀ (d : Dev) (c sl : Nat) (x : CollDesc) (nodes perm : List Nat), d.collOk sl x nodes perm = false →
    (d.rb (Reg.JOB_PROFILE sl) 0 && x.sums && !x.repro) = false →
    (let y := d.newColl c sl x nodes perm
     d.collBegin c sl x nodes perm = ((((d.xchShow sl 0x0408 0).collStatus sl y true false 0x0408).donePost sl 60 x.so 1 true).collRaise
       c 8 (y.fault 0x0408 c 0 0))))
  ∧ (∀ (d : Dev) (c sl : Nat) (x : Coll), (d.core c).wait = some .coll → (d.core c).coll = some x → (d.core c).slot = some sl →
    (x.complete = false → d.collEnd c = d)
    ∧ (x.complete = true → d.settled c = true →
        d.collEnd c = ((d.collStatus sl x true true 0).donePost sl 60 x.desc.so 1 false).collReturn c)
    ∧ (x.outputs.length ≤ x.committed → d.collCommit c = d))

/-! ### The fabric -/

/-- R591 to R593, R599: a transaction for this device that comes by a linked port within its credits, with a good crc, is taken by
its unit, and its credits return; with a bad crc it changes nothing but FAB_OOS and the credits. LSN and DISC act likewise: a notice
seen before does nothing, a discovery request without payload is answered when none was in the last 100 µs. One for another node
is forwarded. -/
def Obligations.ArrivalsReachTheirUnits : Prop :=
  (∀ r ∈ arrivalRows, ∀ (p : Nat) (x : Tx) (s : State), (r.1 p x).wf = true → s.dev.isHere x = true → WithinCredit s.dev p x →
    (x.crc = txCrc x → Does (r.1 p x) s ((r.2 p x (counted s.dev p x)).freeCredits p (s.dev.inKey p x) (txUnits x)))
    ∧ (x.crc ≠ txCrc x →
        Does (r.1 p x) s (((counted s.dev p x).satRf Reg.FAB_OOS 31 0 1).freeCredits p (s.dev.inKey p x) (txUnits x))))
  ∧ (∀ (p : Nat) (x : Tx) (s : State), (Instr.transitForward p x).wf = true → s.dev.isHere x = false → WithinCredit s.dev p x →
    Does (.transitForward p x) s ((counted s.dev p x).forward x (some (p, s.dev.inKey p x, txUnits x))))
  ∧ (∀ (p : Nat) (x : Tx) (s : State), (Instr.discReceive p x).wf = true → s.dev.isHere x = true → WithinCredit s.dev p x →
    x.crc = txCrc x → x.payload = [] →
    (let c := counted s.dev p x
     (c.port p).discTime = none →
     ∃ t : Tx, Does (.discReceive p x) s
         (((c.setPort p { c.port p with discTime := some c.now }).launch t).freeCredits p (s.dev.inKey p x) (txUnits x))
       ∧ t.op = 0x10 ∧ t.dst = x.src ∧ t.vc = 5))
  ∧ (∀ (p : Nat) (x : Tx) (s : State), (Instr.lsnReceive p x).wf = true → s.dev.isHere x = true → WithinCredit s.dev p x →
    x.crc = txCrc x →
    (let node := leNat (x.payload.take 2)
     let port := leNat ((x.payload.drop 2).take 1) % 8
     let n := x.offset % 65536
     let c := counted s.dev p x
     ((node, n) ∈ c.fab.seen → Does (.lsnReceive p x) s (c.freeCredits p (s.dev.inKey p x) (txUnits x)))
     ∧ ((node, n) ∉ c.fab.seen → tget (fun _ => none) c.fab.marks (node * 8 + port) = none →
       ∃ d : Dev, Does (.lsnReceive p x) s
           ((d.floodNotice x (decide (6 ≤ port)) p).freeCredits p (s.dev.inKey p x) (txUnits x))
         ∧ (node, n) ∈ d.fab.seen
         ∧ tget (fun _ => none) d.fab.marks (node * 8 + port) =
             if leNat ((x.payload.drop 3).take 1) % 2 = 1 then some n else none)))

/-- R603, R604, R622, R623, R105: what the receiving units do with a transaction. A write that is due and passes the receiver's
checks is written at the address that its window names, and accepted; one that fails a check is accepted as rejected, unwritten.
A post that is due to an object of its job is counted there. One beyond the sequence expected changes FAB_OOS alone. -/
def Obligations.ReceiversAct : Prop :=
  (∀ (d d2 : Dev) (x : Tx) (sl a : Nat) (bs : List Byte), x.seq = d.expectSeq (d.recvKey x) →
    ((d.recvSpace (d.recvKey x)).isSome = true ∨ d.fab.recv.length < maxSpaces) →
    (d.windowSeen x.job x.offset).receiverCheck x.job x.offset x.payload.length true = .ok (sl, a) →
    (d.windowSeen x.job x.offset).wr (unitWho sl 60) a x.payload = .ok d2 bs → d.takeWrite x = (d2.unitDone sl 60).accept x 0 0)
  ∧ (∀ (d : Dev) (x : Tx) (r : Nat), x.seq = d.expectSeq (d.recvKey x) → ((d.recvSpace (d.recvKey x)).isSome = true ∨ d.fab.recv.length < maxSpaces) →
    (d.windowSeen x.job x.offset).receiverCheck x.job x.offset x.payload.length true = .error r →
    d.takeWrite x = (d.windowSeen x.job x.offset).accept x 1 r)
  ∧ (∀ (d e : Dev) (x : Tx) (sl : Nat) (ok : Bool), x.seq = d.expectSeq (d.recvKey x) →
    ((d.recvSpace (d.recvKey x)).isSome = true ∨ d.fab.recv.length < maxSpaces) →
    x.core ≠ 61 → d.slotOfJob x.job = some sl → d.owner (nfld x.offset 15 0) = some sl →
    d.post (nfld x.offset 15 0) (nfld x.offset 47 16) x.err = (e, ok) →
    d.takePost x = if ok then e.accept x 0 0 else e.accept x 1 9)
  ∧ (∀ (d : Dev) (x : Tx), x.seq ≠ d.expectSeq (d.recvKey x) → seqBefore x.seq (d.expectSeq (d.recvKey x)) = false →
    d.takeWrite x = d.satRf Reg.FAB_OOS 31 0 1 ∧ d.takePost x = d.satRf Reg.FAB_OOS 31 0 1
      ∧ d.takeFragment x = d.satRf Reg.FAB_OOS 31 0 1 ∧ d.takeNotice x = d.satRf Reg.FAB_OOS 31 0 1
      ∧ d.takeRts x = d.satRf Reg.FAB_OOS 31 0 1)
  ∧ (∀ a b : Nat, seqBefore a b = true → seqBefore b a = false)

/-- R609, R611, R625 to R627, R630, R768: the timers and answers of the end-to-end protocol. A line read past its time is sent again
with its rid, and after 100 ms fails; the host's data complete a read of T3; a reserved buffer is granted to the oldest RTS; a busy
RTS is sent again after 10 µs; a message without GRANT for 100 ms fails; the unacknowledged transactions of a space are sent again
when its timer expires; a space with a write unacknowledged for 100 ms fails; a full or old bundle is sent. -/
def Obligations.FabricTimers : Prop :=
  (∀ (rid : Nat) (s : State) (r : LineRead), (Instr.rdlResend rid).wf = true →
    s.dev.fab.reads.find? (fun r => !r.host && decide (r.rid = rid) && decide (r.last ≤ s.dev.now)
      && (s.dev.space (spaceKeyOf r.tx)).waiting.all (fun w => decide (w.1.op ≠ 0x01) || decide (w.1.rid ≠ rid))) = some r →
    (r.first + 100000000 ≤ s.dev.now →
      ∃ f, f.code = 0x0504 ∧ Does (.rdlResend rid) s (((s.dev.dropRead r.k).sstat r.tx.job 1).readFails r f))
    ∧ (s.dev.now < r.first + 100000000 →
      ∃ d : Dev, Does (.rdlResend rid) s (d.launch { r.tx with retx := true })
        ∧ d.rf Reg.FAB_RETX 31 0 = min (s.dev.rf Reg.FAB_RETX 31 0 + 1) (2 ^ 32 - 1)
        ∧ d.fab.reads.length = s.dev.fab.reads.length))
  ∧ (∀ (k : Nat) (data : List Byte) (s : State) (r : LineRead), (Instr.t3ReadCompletion k data).wf = true →
    s.dev.fab.reads.find? (fun r => r.host && decide (r.k = k)) = some r → data.length = 128 →
    Does (.t3ReadCompletion k data) s ((s.dev.dropRead k).readArrives r data))
  ∧ (∀ (sl q p i : Nat) (s : State) (w : WaitRts) (ws : List WaitRts) (is : List Nat), (Instr.grantSend sl q).wf = true →
    (s.dev.rqueue sl q).pool = some p → (s.dev.rqueue sl q).rts = w :: ws → (s.dev.rqueue sl q).reserved = i :: is →
    w.bytes ≤ s.dev.bufSize p →
    ∃ (d : Dev) (m : RecvMsg), Does (.grantSend sl q) s ((d.poolDone p).sendGrant w.key q w.seq 0 0)
      ∧ (d.rqueue sl q).rts = ws ∧ (d.rqueue sl q).reserved = is ∧ (d.rqueue sl q).msgs = (s.dev.rqueue sl q).msgs ++ [m]
      ∧ m.key = w.key ∧ m.seq = w.seq ∧ m.bytes = w.bytes ∧ m.buf = i ∧ m.pool = p ∧ m.got = 0 ∧ m.complete = false
      ∧ ((d.pool p).recOf i).held = true ∧ ((d.pool p).recOf i).holders = [50])
  ∧ (∀ (m : Nat) (s : State) (y : SendMsg) (u : Sent), s.dev.sendMsg m = some y → s.dev.sentRts y = some u →
    ((Instr.rtsBusyResend m).wf = true → y.phase = 1 → y.since + 10000 ≤ s.dev.now →
      Does (.rtsBusyResend m) s ((s.dev.putMsg { y with phase := 0, since := s.dev.now }).launch { u.tx with rid := 0 }))
    ∧ ((Instr.grantTimeout m).wf = true → y.phase ≤ 1 → u.first + 100000000 ≤ s.dev.now →
      ∃ f, f.code = 0x0506 ∧ Does (.grantTimeout m) s (s.dev.sendFails y f)))
  ∧ (∀ (k : SpaceKey) (s : State) (u : Sent) (us : List Sent), (s.dev.space k).unacked = u :: us →
    (s.dev.space k).failed = false →
    ((Instr.e2eTimerExpiry k).wf = true → u.last ≤ s.dev.now →
      ∃ d : Dev, Does (.e2eTimerExpiry k) s ((u :: us).foldl (fun (a : Dev) (v : Sent) =>
          a.launch { v.tx with retx := true, rid := if v.tx.op = 0x08 then 0 else v.tx.rid }) d)
        ∧ d.rf Reg.FAB_RETX 31 0 = min (s.dev.rf Reg.FAB_RETX 31 0 + (us.length + 1)) (2 ^ 32 - 1))
    ∧ ((Instr.e2eWriteFail k).wf = true → u.tx.op ≠ 0x08 → u.first + 100000000 ≤ s.dev.now →
      Does (.e2eWriteFail k) s (s.dev.failSpace (s.dev.space k))))
  ∧ (∀ (p i : Nat) (s : State) (b : Bundle), (Instr.bundleClose p i).wf = true → (s.dev.bundles p)[i]? = some b →
    (4096 ≤ (bundleBytes b).length ∨ b.since + s.dev.rf Reg.FAB_CFG 35 24 ≤ s.dev.now) →
    Does (.bundleClose p i) s ((s.dev.setBundles p ((s.dev.bundles p).eraseIdx i)).sendBundle p b))

/-! ### The ports -/

/-- R578 to R590, R615, R618: training. A full training begins two times p ms after fabric-ready, on a retry, on a write of
retrain, and when a fast retrain takes longer than 200 µs: the port's state is training, and its sequence numbers, replay buffer and
credits start anew. Lanes that give a width send ident flits; 50 ms without success bring the port down with 0x0507. A partner's
ident that is right links the port; a wrong one marks it miswired with 0x0508. What has been held too long is discarded. -/
def Obligations.PortsTrain : Prop :=
  (∀ (p : Nat) (s : State), (Instr.portTrainStart p).wf = true → s.dev.portState p = 0 → s.dev.rb Reg.FAB_STATUS 0 = true →
    s.dev.rb Reg.FAB_NODE 16 = true → s.dev.portUsed p = true → s.dev.rb (Reg.PORT_CTRL p) 0 = true →
    (s.dev.port p).since + 2 * p * 1000000 ≤ s.dev.now →
    Does (.portTrainStart p) s ((s.dev.becomesBusy .ports).portFull p))
  ∧ (∀ (p : Nat) (s : State), (Instr.portDownRetry p).wf = true → s.dev.portState p = 7 →
    (s.dev.port p).since + s.dev.retryTime ≤ s.dev.now →
    Does (.portDownRetry p) s ((s.dev.becomesBusy .ports).portFull p))
  ∧ (∀ (p : Nat) (s : State), (Instr.fastRetrainTimeout p).wf = true → s.dev.rb (Reg.PORT_STATE p) 8 = true →
    (s.dev.port p).since + 200000 ≤ s.dev.now → Does (.fastRetrainTimeout p) s (s.dev.portFull p))
  ∧ (∀ (p : Nat) (s : State), (Instr.portCtrlRetrain p).wf = true → HostOpen s.dev (.portCtrlRetrain p) bar0 false false →
    s.dev.portState p ≠ 0 → s.dev.portState p ≠ 8 → s.dev.rb (Reg.PORT_CTRL p) 0 = true →
    Does (.portCtrlRetrain p) s (s.dev.portFull p))
  ∧ (∀ (d : Dev) (p : Nat), (d.portFull p).reg (Reg.PORT_STATE p) = 1 ∧ ((d.portFull p).port p).txNext = 0
      ∧ ((d.portFull p).port p).rxExpect = 0 ∧ ((d.portFull p).port p).replay = [] ∧ ((d.portFull p).port p).credits = []
      ∧ ((d.portFull p).port p).since = d.now)
  ∧ (∀ (p : Nat) (r : TrainResult) (s : State), (Instr.portTrainingDone p r).wf = true → s.dev.portState p = 1 →
    s.dev.minWidth p ≤ widthOf r.failed →
    ∃ e, Does (.portTrainingDone p r) s e ∧ e.portState p = 2 ∧ e.rf (Reg.PORT_STATE p) 5 4 = widthOf r.failed
      ∧ e.out.idents = (p, (s.dev.port p).rxExpect) :: s.dev.out.idents ∧ e = { s.dev with regs := e.regs, out := e.out })
  ∧ (∀ (p : Nat) (s : State), (Instr.portTrainingTimeout p).wf = true → (s.dev.portState p = 1 ∨ s.dev.portState p = 2) →
    s.dev.rb (Reg.PORT_STATE p) 8 = false → (s.dev.port p).since + 50000000 ≤ s.dev.now →
    ∃ (d : Dev) (f : FaultInfo), Does (.portTrainingTimeout p) s (d.recordAll f) ∧ f.code = 0x0507
      ∧ d.reg (Reg.PORT_STATE p) = 7)
  ∧ (∀ (p : Nat) (s : State), (Instr.fastRetrainStart p).wf = true → s.dev.portLinked p = true →
    (8 ≤ (s.dev.port p).nakCount ∨ ((s.dev.port p).replay ≠ [] ∧ (s.dev.port p).ackTime + 10000 ≤ s.dev.now)) →
    ∃ e, Does (.fastRetrainStart p) s e ∧ e.portState p = 1 ∧ e.rb (Reg.PORT_STATE p) 8 = true
      ∧ (e.port p).replay = (s.dev.port p).replay ∧ (e.port p).rxExpect = (s.dev.port p).rxExpect
      ∧ (e.port p).nakCount = 0)
  ∧ (∀ (p : Nat) (s : State), (Instr.portHoldExpiry p).wf = true → s.dev.portUp p = false →
    (let x := s.dev.port p
     let gone := x.held.filter (fun h => decide (h.since + s.dev.portHold ≤ s.dev.now))
     let d := gone.foldl (fun (a : Dev) (h : HeldTx) => a.freeOrigin h.origin)
       ((s.dev.setPort p { x with held := x.held.filter (fun h => decide (s.dev.now < h.since + s.dev.portHold)) }).satRf
         Reg.FAB_DROPS 31 0 gone.length)
     (x.downSince = none ∨ x.noticed = true → Does (.portHoldExpiry p) s d)
     ∧ (∀ t, x.downSince = some t → t + s.dev.portHold ≤ s.dev.now → x.noticed = false →
         Does (.portHoldExpiry p) s ((d.modPort p (fun y => { y with noticed := true })).sendNotice p true))))
  ∧ (∀ (p : Nat) (x : Ident) (s : State), (Instr.identFlitReceive p x).wf = true → s.dev.portState p = 2 →
    (let wrong := x.topo ≠ s.dev.rf Reg.FAB_TOPO 15 0 ∨ x.node ≠ s.dev.neighbour s.dev.node p ∨ x.port ≠ farPort p
     ¬ (x.node = s.dev.node ∧ x.port = p) →
     (wrong → ∃ (d : Dev) (f : FaultInfo), Does (.identFlitReceive p x) s (d.recordAll f) ∧ f.code = 0x0508
        ∧ d.portState p = 5 ∧ d.rf (Reg.PORT_PARTNER p) 15 0 = x.node % 65536)
     ∧ (¬ wrong → s.dev.rb (Reg.PORT_STATE p) 8 = false →
        ∃ d : Dev, d.portState p = 3 ∧ d.rf (Reg.PORT_PARTNER p) 15 0 = x.node % 65536
          ∧ Does (.identFlitReceive p x) s
              (if s.dev.ready then (d.grantVc p 5).openPort p else (d.grantVc p 5).flushPort p))))
  ∧ (∀ (p : Nat) (s : State), (Instr.miswiredIdentSend p).wf = true → s.dev.portState p = 5 →
    (s.dev.port p).since + 1000000 ≤ s.dev.now →
    ∃ e, Does (.miswiredIdentSend p) s e ∧ e.out.idents = (p, (s.dev.port p).rxExpect) :: s.dev.out.idents
      ∧ (e.port p).since = s.dev.now ∧ e.regs = s.dev.regs)

/-- R569 to R577, R587, R596: flits. At a linked port a good sequenced flit in its turn is taken, after its ack has freed the replay
buffer; a bad one is refused with one NAK that names the fseq expected; a NAK sends again every kept flit from the one it names, in
order; a heartbeat is one more sequenced control flit; at a port that trains a flit is discarded and counted. -/
def Obligations.FlitsAndRetry : Prop :=
  (∀ (p : Nat) (x : Flit) (s : State), (Instr.flitReceive p x).wf = true → s.dev.portLinked p = true →
    (let d := (s.dev.fecCount p x.errs).ackFlits p x.ack
     (flitBad x = false → flitSequenced x = true → x.fseq = (d.port p).rxExpect → Does (.flitReceive p x) s (d.takeFlit p x))
     ∧ (flitBad x = false → flitSequenced x = true → x.fseq ≠ (d.port p).rxExpect → Does (.flitReceive p x) s (d.refuseFlit p))
     ∧ (flitBad x = true → flitSequenced x = true → (s.dev.port p).nakSent = false ∨ x.fseq = (s.dev.port p).rxExpect →
        ∃ e, Does (.flitReceive p x) s e ∧ e.out.naks = (p, (s.dev.port p).rxExpect) :: s.dev.out.naks
          ∧ (e.port p).nakSent = true ∧ (e.port p).rxExpect = (s.dev.port p).rxExpect ∧ e.cores = s.dev.cores)))
  ∧ (∀ (p : Nat) (x : Flit) (s : State), (Instr.flitReceive p x).wf = true →
    (s.dev.portState p = 0 ∨ s.dev.portState p = 1 ∨ s.dev.portState p = 7 ∨ s.dev.portState p = 8) →
    Does (.flitReceive p x) s (s.dev.satRf Reg.FAB_DROPS 31 0 1))
  ∧ (∀ (p fseq : Nat) (s : State), (Instr.nakReceive p fseq).wf = true → s.dev.portLinked p = true →
    (let keep := (s.dev.port p).replay.dropWhile (fun f => decide (f.fseq ≠ fseq))
     keep ≠ [] →
     ∃ e, Does (.nakReceive p fseq) s e ∧ e.out.flits = (keep.map (fun f => (p, f))).reverse ++ s.dev.out.flits
       ∧ (e.port p).replay = (s.dev.port p).replay ∧ e.regs = s.dev.regs))
  ∧ (∀ (p : Nat) (s : State), (Instr.heartbeatSend p).wf = true → s.dev.portLinked p = true →
    (s.dev.port p).replay.length < replaySize p →
    ∃ (e : Dev) (f : Flit), Does (.heartbeatSend p) s e ∧ e.out.flits = (p, f) :: s.dev.out.flits ∧ f.kind = 3
      ∧ f.fseq = (s.dev.port p).txNext ∧ f.hb.length = 24 ∧ f.crc = flitCrc f
      ∧ (e.port p).txNext = ((s.dev.port p).txNext + 1) % 8192 ∧ (e.port p).replay = (s.dev.port p).replay ++ [f])

/-! ### Loops, digests, command lists, the scheduler -/

/-- R406 to R408: LOOPN of a legal length, with room and inside the level around it, adds a loop level; a count of 0 passes over the
body. R407: the last instruction of a level counts it down and returns to its first. R412: DIGEST folds bytes into the twin stream,
reads a half of the last digest, and sets the level of later entries; outside twin mode it reads 0 and does nothing else. -/
def Obligations.LoopsAndDigests : Prop :=
  (∀ (w : IW) (s : State), (Instr.loopn w).wf = true →
    Issues s.dev (cOp 0x2D false) (decide (w.rd = 0) && decide (fld w.rs2 4 1 = 0)) w →
    (let x := s.dev.core w.core
     let first := x.pc.toNat + ilenOf w
     let last := first + 4 * w.fn.toNat - 4
     let level := fun (d : Dev) (n : Nat) =>
       ({ d.core w.core with
          loops := { first := first, last := last, count := n } :: (d.core w.core).loops } : Core).retire (ilenOf w)
     1 ≤ w.fn.toNat → w.fn.toNat < 1024 → x.frozen = false → x.loops.length < 4 →
     (∀ l, x.loops.head? = some l → last ≤ l.last) →
     (bitAt w.rs2 0 = false → fld (x.r1 w) 63 32 = 0 →
       (fld (x.r1 w) 31 0 ≠ 0 → ∃ e, Does (.loopn w) s e ∧ OnlyCore s.dev e w.core (level s.dev (fld (x.r1 w) 31 0)))
       ∧ (fld (x.r1 w) 31 0 = 0 → ∃ e, Does (.loopn w) s e ∧ OnlyCore s.dev e w.core
           (({ x.setCsr 0x401 (x.csrOf 0x401 + 1) with frozen := false } : Core).goTo (last + 4)).resume))
     ∧ (∀ d bs, bitAt w.rs2 0 = true → (x.r1 w).toNat % 4 = 0 → fld (x.r1 w) 63 48 = 0 →
         s.dev.unitLoad w.core (x.r1 w).toNat 4 = .ok d bs → leNat bs ≠ 0 →
         ∃ e, Does (.loopn w) s e ∧ OnlyCore d e w.core (level d (leNat bs)))))
  ∧ (∀ (x : Core) (n : Nat) (l : LoopLevel) (ls : List LoopLevel), x.frozen = false → x.loops = l :: ls →
    l.last = x.pc.toNat + n - 4 → l.count - 1 ≠ 0 →
    (x.retire n).pc = pcMask l.first ∧ (x.retire n).loops = { l with count := l.count - 1 } :: ls)
  ∧ (∀ (w : IW) (s : State) (d : Dev) (bs : List Byte), (Instr.digestFold w).wf = true →
    Issues s.dev (cOp 0x2F false) (decide (fld w.fn 10 2 = 0)) w →
    (let x := s.dev.core w.core
     (s.dev.twinCore x = false →
       ∃ e, Does (.digestFold w) s e ∧ OnlyCore s.dev e w.core (x.retire (ilenOf w)))
     ∧ (s.dev.twinCore x = true → (x.r1 w).toNat < 2 ^ 48 →
         s.dev.unitLoad w.core (x.r1 w).toNat (x.r2 w).toNat = .ok d bs →
         ∃ e, Does (.digestFold w) s e ∧ OnlyCore (d.commitUnit w.core 2 4096 bs) e w.core
           (((d.commitUnit w.core 2 4096 bs).core w.core).retire (ilenOf w)))))
  ∧ (∀ (w : IW) (s : State), (Instr.digestRead w).wf = true →
    Issues s.dev (cOp 0x2F false) (decide (fld w.fn 10 3 = 0)) w →
    (let x := s.dev.core w.core
     let v := (s.dev.twinOf x.slotN).last
     ∃ e, Does (.digestRead w) s e ∧ OnlyCore s.dev e w.core ((x.setG w.rd.toNat (if s.dev.twinCore x then
       BitVec.ofNat 64 (if bitAt w.fn 2 then fld v 127 64 else fld v 63 0) else 0)).retire (ilenOf w))))
  ∧ (∀ (w : IW) (s : State), (Instr.digestLevel w).wf = true →
    Issues s.dev (cOp 0x2F false) (decide (fld w.fn 10 2 = 0)) w →
    (let x := s.dev.core w.core
     ∃ e t, Does (.digestLevel w) s e ∧ OnlyCore { s.dev with twin := t } e w.core (x.retire (ilenOf w))
       ∧ (e.twinOf x.slotN).level =
           if s.dev.twinCore x then fld (x.r1 w) 1 0 else (s.dev.twinOf x.slotN).level))

/-- R414 to R418, R435, R440, R452: lists and entries. A queue that is on, with a post at its object and room, takes the list its ring
names; the next entry enters the window with state 1; an entry with an error at a dependency leaves with state 5; one that is ready,
not preceded and placed starts on its core, and one of kind 0 completes on none; one whose affinity wait is over is so marked; one
whose core has ended and is quiet completes, and its end commits the S registers of its core and slot. -/
def Obligations.ListsAndEntries : Prop :=
  (∀ (sl q : Nat) (s : State) (d : Dev) (bs : List Byte), (Instr.submitListTake sl q).wf = true → s.dev.runs sl = true →
    s.dev.inf (Reg.SQ_CFG sl q) 32 32 ≠ 0 → tget (fun _ => false) s.dev.sch.queueStopped (sl * 4 + q) = false →
    (let obj := s.dev.inf (Reg.SQ_CFG sl q) 31 16
     let ls := s.dev.inf (Reg.SQ_CFG sl q) 3 0
     let taken := s.dev.rf (Reg.SQ_TAKEN sl q) 63 0
     s.dev.owns sl obj = true → s.dev.synCount obj ≠ 0 → (s.dev.openLists sl).length < 8 →
     (slots16.flatMap s.dev.openLists).length < 64 →
     s.dev.unitRead sl 59 (s.dev.inf (Reg.SQ_BASE sl q) 47 0 + 8 * (taken % 2 ^ (if 4 ≤ ls ∧ ls ≤ 12 then ls else 4))) 8
       = .ok d bs → nfld (leNat bs) 63 49 = 0 → nfld (leNat bs) 5 0 = 0 →
     (let d2 := ((d.lapse (ledConsumed (d.group obj))).takeObj obj).addRf (Reg.SQ_TAKEN sl q) 63 0 1
      ∃ l : CmdList, Does (.submitListTake sl q) s { d2 with sch := { d2.sch with lists := d2.sch.lists ++ [l] } }
        ∧ l.slot = sl ∧ l.queue = q ∧ l.taken = taken ∧ l.next = nfld (leNat bs) 47 0 ∧ l.serial = (leNat bs).testBit 48
        ∧ l.pos = 0 ∧ l.win = [] ∧ l.running = 0)))
  ∧ (∀ (sl q taken : Nat) (s : State) (l : CmdList) (d : Dev) (bs : List Byte), (Instr.entryEnterWindow sl q taken).wf = true →
    s.dev.listOf sl q taken = some l → s.dev.mayEnter l = true → s.dev.unitRead sl 59 l.next 64 = .ok d bs →
    ∃ e : WinEntry, e.pos = l.pos ∧ e.addr = l.next ∧ e.words = (leWords 8 8 bs).map (BitVec.ofNat 64)
      ∧ Does (.entryEnterWindow sl q taken) s ((d.putProgress sl l.next 0 1 0).modList sl q taken (fun m =>
          { m with next := m.next + 64, pos := m.pos + 1, lastIn := (entWord e.words 0).testBit 52, win := m.win ++ [e] })))
  ∧ (∀ (sl q taken pos : Nat) (s : State) (e : WinEntry), s.dev.winEntry sl q taken pos = some e →
    ((Instr.entrySkip sl q taken pos).wf = true → s.dev.runs sl = true → s.dev.depsErr e.words = true →
      Does (.entrySkip sl q taken pos) s (((s.dev.leaveWindow sl q taken pos).skipEntry sl e.addr e.words).pruneLists))
    ∧ ((Instr.entryStart sl q taken pos).wf = true → s.dev.mayStart sl = true → entryInvalid e.words = false →
        (∀ o ∈ entryObjs e.words, s.dev.owns sl o = true) → (s.dev.schCommit sl).readyEntry e = true →
        (kindOf e.words = 0 → Does (.entryStart sl q taken pos) s ((s.dev.schCommit sl).startOn sl q taken e none))
        ∧ (∀ c, kindOf e.words ≠ 0 → (s.dev.schCommit sl).preceded sl q taken e = false →
            (s.dev.schCommit sl).place sl e = some c →
            Does (.entryStart sl q taken pos) s ((s.dev.schCommit sl).startOn sl q taken e (some c))))
    ∧ (∀ t, (Instr.affinityWaitExpiry sl q taken pos).wf = true → e.met = some t →
        t + s.dev.inf (Reg.SCH_SHARE sl) 47 32 * 64 ≤ s.dev.now →
        Does (.affinityWaitExpiry sl q taken pos) s (s.dev.modList sl q taken (fun l =>
          { l with win := l.win.map (fun y => if y.pos = pos then { y with expired := true } else y) }))))
  ∧ (∀ (x : Core) (sl : Nat) (ws : List Word) (r : EntryRun),
    (let y := x.start sl ws r
     y.getG 1 = ws.getD 1 0 ∧ y.getG 2 = ws.getD 2 0 ∧ y.getG 3 = ws.getD 3 0 ∧ y.getG 31 = 0xFFFFFFFFFFFC
       ∧ y.pc = pcMask (entWord ws 0) ∧ bitAt (y.csrOf 0x800) 0 = false ∧ y.run = .running ∧ y.entry = some r ∧ y.loops = []
       ∧ ∀ i, i ≠ 1 → i ≠ 2 → i ≠ 3 → i ≠ 31 → y.getG i = x.getG i))
  ∧ (∀ (c : Nat) (s : State) (r : EntryRun), (Instr.entryComplete c).wf = true → (s.dev.core c).entry = some r →
    s.dev.coreQuiet c = true → (c < 32 → (s.dev.engine c).liveTiles = []) → (s.dev.core c).loops = [] →
    (let d := (s.dev.setCore c { s.dev.core c with entry := none }).finishEntry r c
     Does (.entryComplete c) s ((if c < 32 then d.commit (Reg.ENG_CFG c) else d).schCommit r.slot)))

/-- R428 to R432, R446 to R449, R458, R463, R666 to R669: slots, engines, cadences, twins. A free engine is given to the slot chosen,
256 CCLK later; a twin's equal digest ends its entry, another stops the job with 0x0110, and one too late with 0x0111; go admits a
job that passes its checks and else shows the check; stop stops it and records 0x0A01; a cadence is enabled, opens its period with a
post of its quota, and is disabled. -/
def Obligations.JobsAndCadences : Prop :=
  (∀ (e sl : Nat) (s : State), (Instr.engineReassign e).wf = true → s.dev.engFree e = true → s.dev.engReleased e = true →
    s.dev.chooseSlot = some sl → s.dev.engSlot e ≠ some sl →
    Does (.engineReassign e) s (s.dev.setEngine e { s.dev.engine e with moving := some (sl, s.dev.now + 256) }))
  ∧ (∀ (sl : Nat) (m : TwinMsg) (s : State) (w : TwinWait), (Instr.twinDigestCompare sl m).wf = true →
    (s.dev.twinOf sl).waits.find? (fun y => decide (y.msg.ident = m.ident)) = some w → s.dev.runs sl = true →
    s.dev.twinOn sl = true →
    (let d := s.dev.setTwin sl { s.dev.twinOf sl with waits := (s.dev.twinOf sl).waits.filter (fun y => decide (y ≠ w)) }
     (w.msg = m → Does (.twinDigestCompare sl m) s ((d.addRf (Reg.TWIN_STATUS sl) 31 0 1).entryEnds sl w.queue w.taken w.addr
        w.units w.core w.faulted w.doneEn w.doneObj w.dcount))
     ∧ (w.msg ≠ m → ∃ (d2 : Dev) (f : FaultInfo), f.code = 0x0110 ∧ Does (.twinDigestCompare sl m) s (d2.stopWith sl f)
        ∧ d2.rb (Reg.TWIN_STATUS sl) 41 = true ∧ d2.reg (Reg.TWIN_FIRST sl) = m.ident)))
  ∧ (∀ (sl : Nat) (s : State) (w : TwinWait), (Instr.twinTimeout sl).wf = true → s.dev.runs sl = true →
    s.dev.twinOn sl = true → w ∈ (s.dev.twinOf sl).waits → s.dev.rf (Reg.TWIN_CFG sl) 47 32 ≠ 0 →
    w.since + s.dev.rf (Reg.TWIN_CFG sl) 47 32 * 1000000 ≤ s.dev.now →
    ∃ f, f.code = 0x0111 ∧ Does (.twinTimeout sl) s ((s.dev.setRb (Reg.TWIN_STATUS sl) 42 true).stopWith sl f))
  ∧ (∀ (sl : Nat) (s : State), (Instr.jobAdmitGo sl).wf = true → HostOpen s.dev (.jobAdmitGo sl) bar0 false false →
    (let k := (s.dev.slotBusy sl).admitCheck sl
     let d := (if k = 0 then s.dev.slotBusy sl else s.dev).clearLog sl
     (k = 0 →
       (let d2 := ((((d.setRf (Reg.JOB_ADMIT sl) 7 4 0).setRf (Reg.JOB_ADMIT sl) 3 2 1).mapSlot sl).schCommit sl).linkRings sl
        d2.rb (Reg.TWIN_CFG sl) 19 = false → Does (.jobAdmitGo sl) s d2))
     ∧ (k ≠ 0 → k ≠ 5 → ∃ e, Does (.jobAdmitGo sl) s e ∧ e.rf (Reg.JOB_ADMIT sl) 7 4 = k ∧ e.jobState sl = d.jobState sl
        ∧ e = { d with regs := e.regs })))
  ∧ (∀ (sl : Nat) (s : State), (Instr.jobAdmitStop sl).wf = true → HostOpen s.dev (.jobAdmitStop sl) bar0 false false →
    s.dev.runs sl = true →
    ∃ f, f.code = 0x0A01 ∧ Does (.jobAdmitStop sl) s ((s.dev.stopJob sl).writeRecord sl f false true false))
  ∧ (∀ (n sl : Nat) (s : State), (Instr.cadencePeriodStart n).wf = true → s.dev.cadOwner n = some sl →
    (let x := s.dev.cadence n
     let d := s.dev.cadCommit n
     x.on = true → x.open_ = false → x.s ≤ s.dev.now → (s.dev.hasJob sl = true → s.dev.runs sl = true) →
     d.owns sl (d.inf (Reg.CAD_CFG n) 47 32) = true → d.owns sl (d.inf (Reg.CAD_CFG n) 63 48) = true →
     ∃ d2 : Dev, Does (.cadencePeriodStart n) s
         ((d2.lapse (ledConsumed (d.group (d.inf (Reg.CAD_CFG n) 63 48)))).cadenceCheck (d.inf (Reg.CAD_CFG n) 63 48))
       ∧ (d2.cadence n).open_ = true ∧ (d2.cadence n).tick = d.inf (Reg.CAD_CFG n) 47 32
       ∧ (d2.cadence n).pn = max 16 (d.inf (Reg.CAD_CFG n) 19 0) * 1000 ∧ (d2.cadence n).len ≤ (d2.cadence n).pn
       ∧ (d2.cadence n).number = x.number))
  ∧ (∀ (v : Via) (n sl : Nat) (x : Word) (s : State), (Instr.cadCfgEnableSet v n x).wf = true →
    HostOpen s.dev (.cadCfgEnableSet v n x) v false false → s.dev.viaCad v n = true → bitAt x 22 = true →
    s.dev.cadOwner n = some sl → s.dev.rb (Reg.CAD_CFG n) 22 = false → s.dev.rb (Reg.JOB_PROFILE sl) 0 = false →
    ∃ e, Does (.cadCfgEnableSet v n x) s e ∧ e.rb (Reg.CAD_CFG n) 22 = true ∧ (e.cadence n).on = true
      ∧ (e.cadence n).s = s.dev.now + 1 ∧ (e.cadence n).number = 0 ∧ (e.cadence n).debt = 0 ∧ e.reg (Reg.CAD_STATE n) = 0)
  ∧ (∀ (v : Via) (n : Nat) (x : Word) (s : State), (Instr.cadCfgEnableClear v n x).wf = true →
    HostOpen s.dev (.cadCfgEnableClear v n x) v false false → s.dev.viaCad v n = true → bitAt x 22 = false →
    s.dev.rb (Reg.CAD_CFG n) 22 = true →
    ∃ e, Does (.cadCfgEnableClear v n x) s e ∧ e.rb (Reg.CAD_CFG n) 22 = false ∧ (e.cadence n).on = false
      ∧ (e.cadence n).open_ = false)

/-! ### Streams, hints, movers -/

/-- R403 to R405, R497, R411, R699: TSTREAM on an engine core opens the stream that its descriptor names, with its map when it
has one, or closes it; TPREF asks the movers for copies where its operands name any, and else does nothing; TPIN of gobs that are
all in place or none writes how many, one that is stopped says why, one that must copy waits; PHINT sets the hints of the units
that it names, and a hint is in force from its start for 4,096 ACLK. -/
def Obligations.StreamsAndHints : Prop :=
  (∀ (w : IW) (s : State) (d : Dev) (ws : List Nat), (Instr.tstream w).wf = true →
    Issues s.dev (cOp 0x2C false) (decide (fld w.fn 10 2 = 0) && decide (fld w.rd 4 3 = 0)) w → w.core < 32 →
    s.dev.desc w.core ((s.dev.core w.core).r1 w) 4 = .ok d ws →
    (let sl := (s.dev.core w.core).slotN
     let p := streamOf sl w.core (s.dev.core w.core).pc.toNat ws []
     let i := fld w.rd 2 0
     let opens := fun (a : Dev) (n : Option PStream) => ∃ e, Does (.tstream w) s e ∧
       OnlyEngine (a.dropRing w.core (some i)) e w.core ((a.core w.core).retire (ilenOf w)) ((a.engine w.core).openStream i n)
     (p.slots = 0 → opens d none)
     ∧ (p.slots ≠ 0 → d.streamFault w.core sl p = none → p.pred = false → opens d (some p))
     ∧ (∀ d1 map, p.slots ≠ 0 → d.streamFault w.core sl p = none → p.pred = true →
         d.unitLoad w.core (nfld (dw ws 2) 47 0) ((p.nblk + 3) / 4) = .ok d1 map →
         opens d1 (some { p with pmap := map }))))
  ∧ (∀ (w : IW) (s : State), (Instr.tpref w).wf = true →
    Issues s.dev (cOp 0x2C false) (decide (fld w.fn 10 4 = 0)) w →
    (let x := s.dev.core w.core
     let va := (x.r1 w).toNat
     let n := fld (x.r2 w) 31 0
     let k := fld w.fn 3 2
     let asks := fun (dst : MoveDest) => ∃ e, Does (.tpref w) s e ∧
       OnlyCore (s.dev.askMoves .tpref x.slotN (va / 65536) dst (n - 1)) e w.core (x.retire (ilenOf w))
     (2 ≤ k ∨ n = 0 ∨ 0xFFFF00000000 < va + n * 65536 →
       ∃ e, Does (.tpref w) s e ∧ OnlyCore s.dev e w.core (x.retire (ilenOf w)))
     ∧ (k < 2 → n ≠ 0 → va + n * 65536 ≤ 0xFFFF00000000 → asks (if k = 0 then .gobCache else .t1copy))))
  ∧ (∀ (w : IW) (s : State), (Instr.tpin w).wf = true →
    Issues s.dev (cOp 0x2C false) (decide (fld w.fn 10 5 = 0)) w →
    (let x := s.dev.core w.core
     let va := (x.r1 w).toNat
     let n := fld (x.r2 w) 31 0
     let t := fld w.fn 3 2
     let answers := fun (a : Dev) (v : Word) => ∃ e, Does (.tpin w) s e ∧
       OnlyCore a e w.core (((a.core w.core).setG w.rd.toNat v).retire (ilenOf w))
     va < 2 ^ 48 → t < 2 →
     (n = 0 → answers s.dev 0)
     ∧ (∀ d, n = 1 → s.dev.pinGob w.core x.slotN (va / 65536) t (bitAt w.fn 4) false = .next d → answers d 1)
     ∧ (∀ d q f p, n ≠ 0 → s.dev.pinGob w.core x.slotN (va / 65536) t (bitAt w.fn 4) false = .stop d q f p →
         answers d (pinStatus 0 q f p))
     ∧ (∀ d, n ≠ 0 → s.dev.pinGob w.core x.slotN (va / 65536) t (bitAt w.fn 4) false = .wait d →
         ∃ e, Does (.tpin w) s e ∧ (e.core w.core).takes = false ∧ (e.core w.core).pc = (d.core w.core).pc
           ∧ (e.core w.core).wait = some (.tpin w.rd.toNat (va / 65536) n t 0 (b2n (bitAt w.fn 4))))))
  ∧ (∀ (w : IW) (s : State), (Instr.phint w).wf = true →
    Issues s.dev { major := 0x2E, takesImm := false, branch := false, eOnly := false }
      (!bitAt w.fn 10 && decide (w.rd = 0) && decide (w.rs1 = 0)) w →
    ∃ e h t, Does (.phint w) s e
      ∧ OnlyCore { s.dev with pwr := { s.dev.pwr with hints := h, dies := t } } e w.core ((s.dev.core w.core).retire (ilenOf w))
      ∧ (∀ u, u < 5 → bitAt w.rs2 u = true → tget (fun _ => 4) e.pwr.dies u = dieOfCore w.core)
      ∧ ∀ u, tfind e.pwr.hints u = if u < 5 ∧ bitAt w.rs2 u = true then
          some (fld w.fn 5 0, s.dev.pwr.aclks + 64 * 2 ^ fld w.fn 9 6, false) else tfind s.dev.pwr.hints u)
  ∧ (∀ (u lv t : Nat) (s : State),
    ((Instr.phintBoostStart u).wf = true → tfind s.dev.pwr.hints u = some (lv, t, false) → t ≤ s.dev.pwr.aclks →
      ∃ e, Does (.phintBoostStart u) s e ∧ tfind e.pwr.hints u = some (lv, t, true)
        ∧ e = { s.dev with pwr := { s.dev.pwr with hints := e.pwr.hints } })
    ∧ ((Instr.phintBoostEnd u).wf = true → tfind s.dev.pwr.hints u = some (lv, t, true) →
      t + 4096 ≤ s.dev.pwr.aclks →
      ∃ e, Does (.phintBoostEnd u) s e ∧ tfind e.pwr.hints u = none
        ∧ e = { s.dev with pwr := { s.dev.pwr with hints := e.pwr.hints } }))

/-- R329, R330, R357, R358, R404, R489 to R491, R493: a stream asks for its next gob while its ring has room and the engine's
limit is not reached, or skips one that its map says is zero; a gob whose read by a mover is over stands in its ring slot. A free
mover takes the highest work: a copy for the gob cache and the read of a stream gob begin with the first line, a refetch with its
first replica. A copy whose payload stands
here and verifies is placed, and those that wait for it go on. -/
def Obligations.PrefetchAndCopies : Prop :=
  (∀ (e i : Nat) (s : State) (p : PStream), (Instr.prefetchRefill e i).wf = true →
    (let d := s.dev.modEngine e (fun x => x.settleStream i)
     (d.engine e).pstream i = some p → p.closing = false → p.next < p.ngobs → (d.engine e).slotFree i p p.next = true →
     (p.predictedZero p.next = true → Does (.prefetchRefill e i) s ((d.modEngine e (fun x => x.setPstream i (some { p.advance with
         skipped := tput (fun _ => false) p.advance.skipped p.next true }))).addRf (Reg.ENG_PFSKIP e) 63 0 1))
     ∧ (p.predictedZero p.next = false → (d.engine e).inflight < d.pfLimit e →
         Does (.prefetchRefill e i) s ((d.modEngine e (fun x => x.setPstream i (some { p.advance with
           asked := p.asked ++ [p.next] }))).askMove .stream p.slot (p.src / 65536 + p.next) (.ring e i p.next)))))
  ∧ (∀ (e i q : Nat) (r : MoveReq) (s : State) (p : PStream) (d : Dev) (bs : List Byte),
    (Instr.prefetchGobArrival e i).wf = true → (s.dev.engine e).pstream i = some p →
    s.dev.ringDone e i p.asked = (d, some (q, r, .ok d bs)) → d.ringCrc r bs = none →
    (let at_ := p.slot0 + q % p.slots
     let gob := p.src / 65536 + q
     let d1 := (d.streamCopy p.slot gob bs).endMove r.id
     p.dirOk q bs = true → (gob < 0xFFFF0000 → d.formOk p.slot gob bs = true) →
     ∃ pairs, Does (.prefetchGobArrival e i) s
      ((((d1.modEngine e (fun x => x.noteWaits pairs)).esWrite e (at_ * 65536) bs).modEngine e (fun x =>
        { x with heads := tput (fun _ => none) x.heads at_ none }.setPstream i (some
          { p with asked := p.asked.filter (fun y => decide (y ≠ q)), present := tput (fun _ => false) p.present q true,
                   fetched := p.fetched + 1 }))).engMoved e)))
  ∧ (∀ (s : State) (r : MoveReq), Instr.moverTakeWork.wf = true →
    (let d := s.dev.retryRepairs
     d.tir.busy.length < 16 → bestWork (d.tir.queue.filter d.takable) = some r →
     (∀ a w0 w1, r.kind ≠ .refetch → r.kind ≠ .editMove → r.toRing = false → (d.popWork r).destOf r = .gobCache →
       (d.popWork r).walk r.slot r.gob false = .leaf a w0 w1 → w0.testBit 5 = false → (d.popWork r).policyLets r = true →
       (d.popWork r).gcFind r.slot r.gob = none →
       Does .moverTakeWork s (((d.popWork r).beginMove r).askLine { r with buf := [] }))
     ∧ (∀ e i q p, r.kind ≠ .refetch → r.kind ≠ .editMove → r.dest = .ring e i q →
       ((d.popWork r).engine e).pstream i = some p → p.slot = r.slot → q ∈ p.asked →
       Does .moverTakeWork s (((d.popWork r).beginMove r).askLine { r with buf := [] }))
     ∧ (r.kind = .refetch → (d.popWork r).underRepair r.slot r.gob = true →
       Does .moverTakeWork s (((d.popWork r).beginMove r).nextReplica
         { r with more := 0, since := ((d.popWork r).beginMove r).now, buf := [], hdr := [] } 0))))
  ∧ (∀ rs : List MoveReq, ∀ r, bestWork rs = some r → r ∈ rs ∧ ∀ x ∈ rs, r.kind.rank ≤ x.kind.rank)
  ∧ (∀ (k : Nat) (s : State) (r : MoveReq) (a w0 w1 : Nat) (bs hd : List Byte), (Instr.moverCopyComplete k).wf = true →
    s.dev.moveInHand k = some r → r.kind ≠ .refetch → r.kind ≠ .editMove → r.toRing = false →
    (let d := s.dev.sweepCopy r.slot r.gob
     d.walk r.slot r.gob false = .leaf a w0 w1 → d.payload r w0 w1 = some (bs, hd) → d.heldByBatch r = false →
     w0.testBit 5 = false → (leafTier w0 = 1 → d.t1Bad (nfld w1 21 0 * 65536) 65536 = false) → crcBad hd bs = false →
     Does (.moverCopyComplete k) s
       (((((d.readSeen r w0 w1).placeCopy r a w0 bs hd).endMove k).retryMemory r.slot r.gob).tpinOn r.slot r.gob
         (match r.dest with
          | .keyStore _ => true
          | _ => false))))

/-- R475 to R477, R490, R492, R508, R514, R516: TIR_EDIT writes a leaf, reads one, starts the move of a home and reads the tables
again; a move whose payload stands here and verifies ends with the new home in the leaf; a replica not read in 100 ms gives way to
the next, and a frame not found in 100 ms ends the repair; a write of WINDOW without layers changes that register alone; patrol
scrub reads one frame and goes on to the next. -/
def Obligations.EditsMovesScrub : Prop :=
  (∀ (s : State) (a : Nat), s.dev.rb Reg.TIR_EDIT_OP 3 = false →
    (let d := s.dev.setRb Reg.TIR_EDIT_OP 3 true
     let va := (s.dev.reg Reg.TIR_EDIT_VA).toNat
     let w0 := (s.dev.reg Reg.TIR_EDIT_W0).toNat
     let w1 := (s.dev.reg Reg.TIR_EDIT_W1).toNat
     let sl := nfld va 51 48
     let gob := nfld va 47 16
     let free : Dev := { d with tir := { d.tir with edit := none } }
     d.leafAddr sl gob = .ok a →
     (HostOpen s.dev .tirEditReadLeaf bar0 false false →
       ∃ e, Does .tirEditReadLeaf s e ∧ (e.reg Reg.TIR_EDIT_W0).toNat = d.t1w a % 2 ^ 64
         ∧ (e.reg Reg.TIR_EDIT_W1).toNat = d.t1w (a + 8) % 2 ^ 64 ∧ e.rb Reg.TIR_EDIT_OP 3 = false
         ∧ e.rf Reg.TIR_EDIT_OP 11 8 = 0 ∧ e = { s.dev with regs := e.regs })
     ∧ (HostOpen s.dev .tirEditWriteLeaf bar0 false false → (d.t1w a).testBit 6 = false →
       Does .tirEditWriteLeaf s (free.editWrite va w0 w1)
       ∧ (w0.testBit 0 = true → leafTier w0 ≠ 1 → d.editTarget w0 w1 = 0 →
           ∃ d2 : Dev, free.editWrite va w0 w1 =
             (((d2.setLeaf a (nfld w0 2 0 + nfld w0 4 3 * 8 + nfld w0 47 32 * 2 ^ 32) w1).declare sl gob false).editDone 0).resumeGob
               sl gob))
     ∧ (HostOpen s.dev .tirEditMove bar0 false false → (d.t1w a).testBit 6 = false →
       Does .tirEditMove s (free.editMoveStart va w0 w1)
       ∧ (malformedLeaf d.frames (d.t1w a) (d.t1w (a + 8)) = false → (d.t1w a).testBit 0 = true → leafTier w0 ≠ 1 →
           d.editTarget w0 w1 = 0 → free.editMoveStart va w0 w1 =
             (free.setLeaf0 a (nset (free.t1w a) 6 6 1)).askMove .editMove sl gob (.home (leafTier w0) w1)))))
  ∧ (∀ s : State, HostOpen s.dev .tirEditInvalidate bar0 false false → s.dev.rb Reg.TIR_EDIT_OP 3 = false →
    (let d := s.dev.setRb Reg.TIR_EDIT_OP 3 true
     let sl := nfld (s.dev.reg Reg.TIR_EDIT_VA).toNat 51 48
     Does .tirEditInvalidate s ((if d.hasJob sl then d.rereadTables sl else d).editDone 0)
     ∧ (d.rereadTables sl).rf (Reg.USAGE sl) 21 0
         = (d.rf (Reg.USAGE sl) 21 0 + (d.tableFrames sl).length - (d.tablesKept sl).length) % 2 ^ 22
     ∧ (d.rereadTables sl).tablesKept sl = d.tableFrames sl))
  ∧ (∀ (k a tier w1 : Nat) (s : State) (r : MoveReq) (bs hd : List Byte), (Instr.moveComplete k).wf = true →
    s.dev.moveInHand k = some r → r.dest = .home tier w1 → s.dev.leafAddr r.slot r.gob = .ok a →
    (let o0 := s.dev.t1w a
     let o1 := s.dev.t1w (a + 8)
     s.dev.payload r o0 o1 = some (bs, hd) → s.dev.underRepair r.slot r.gob = false →
     (r.gate = none → o0.testBit 5 = false → (leafTier o0 = 1 → s.dev.t1Bad (nfld o1 21 0 * 65536) 65536 = false) →
       crcBad hd bs = false →
       (tier = 2 → Does (.moveComplete k) s ((s.dev.readSeen r o0 o1).sendHome r w1 bs))
       ∧ (tier ≠ 2 → Does (.moveComplete k) s (((s.dev.readSeen r o0 o1).writeHome tier w1 bs hd).moveEnds r a tier w1 hd)))
     ∧ (∀ g, r.gate = some g → (s.dev.space (s.dev.moverSpace r.slot (nfld w1 63 48))).failed = false → s.dev.gateOpen g = true →
       Does (.moveComplete k) s (s.dev.moveEnds r a tier w1 hd))))
  ∧ (∀ (d : Dev) (r : MoveReq) (a tier w1 : Nat) (hd : List Byte), leafTier (d.t1w a) ≠ 1 →
    (let n0 := nset (nset (d.t1w a) 4 3 tier) 6 6 0
     let d2 := d.setLeaf a n0 w1
     d.moveEnds r a tier w1 hd =
       (((((match d2.headerAddr r.slot r.gob n0 w1 with
           | some h => { d2 with mem := { d2.mem with t1 := wrBytes d2.mem.t1 h hd } }
           | none => d2).editDone 0).endMove r.id).resumeGob r.slot r.gob)).nextEdit d.tir.edit))
  ∧ (∀ (k : Nat) (s : State) (r : MoveReq), s.dev.moveInHand k = some r → r.since + 100000000 ≤ s.dev.now →
    ((Instr.replicaReadTimeout k).wf = true → r.kind = .refetch → r.waitFrame = false →
      ∃ fab, Does (.replicaReadTimeout k) s ((({ s.dev with fab := fab } : Dev)).nextReplica r (r.replica + 1)))
    ∧ ((Instr.refetchFrameWaitTimeout k).wf = true → s.dev.retryRepairs = s.dev → r.waitFrame = true →
      ∀ o x, s.dev.objOfGob r.slot r.gob = some (o, x) →
        Does (.refetchFrameWaitTimeout k) s (s.dev.unrecoverable r o x)))
  ∧ (∀ (v : Via) (sl : Nat) (x : Word) (s : State), (Instr.windowWrite v sl x).wf = true →
    HostOpen s.dev (.windowWrite v sl x) v false false → viaSees v sl = true →
    (let d := s.dev.setReg (Reg.WINDOW sl) (BitVec.ofNat 64 (fld x 36 0))
     (fld x 31 16 = 0 → Does (.windowWrite v sl x) s d)
     ∧ (fld x 31 16 ≠ 0 →
       (let d1 : Dev := { d with tir := { d.tir with queue := d.tir.queue.filter (fun (r : MoveReq) =>
          !(decide (r.kind = .window) && decide (r.slot = sl))) } }
        Does (.windowWrite v sl x) s
          ((List.range (min (fld x 35 32) (fld x 31 16 - 1) + 1)).foldl (fun (a : Dev) n =>
            (a.windowObjs sl n).foldl (fun (b : Dev) ox => b.windowAsk sl ox) a) d1)))))
  ∧ (∀ s : State, Instr.patrolScrub.wf = true → s.dev.rf Reg.MEM_CFG 7 0 ≠ 0 → s.dev.rb Reg.TIR_CTRL 0 = false →
    s.dev.tir.busy.length < 16 → (∀ r ∈ s.dev.tir.queue, s.dev.takable r = false) → s.dev.tir.scrubAt ≤ s.dev.now →
    (let f := s.dev.rf Reg.MEM_SCRUB 21 0
     let d : Dev := { s.dev with tir := { s.dev.tir with scrubAt := s.dev.tir.scrubAt + s.dev.scrubPeriod } }
     s.dev.t1Bad (f * 65536) 65536 = false →
     (f + 1 < s.dev.frames → Does .patrolScrub s ((d.correct (f * 65536) 65536).setRf Reg.MEM_SCRUB 21 0 (f + 1)))
     ∧ (s.dev.frames ≤ f + 1 → ∃ e, Does .patrolScrub s e ∧ e.rf Reg.MEM_SCRUB 21 0 = 0))
    ∧ s.dev.scrubPeriod = s.dev.rf Reg.MEM_CFG 7 0 * 3600000000000 / max 1 s.dev.frames)

/-! ### Host accesses -/

/-- R14, R18, R26, R723, R772, R774, R776, R779: what the host's accesses do. A read completes with the register's value and clears
its RC fields; a write gives RW fields their value, clears W1C fields by ones, leaves an L field whose block is busy, and triggers
what follows; no job view names a P register, and through one a JR register takes no write. An access through an aperture reads or
writes the slot's memory. SYN_POST, SYN_RESET, HMB_SEND and HMB_ACK act on objects of their slot. SYN_RANGE of a slot with a job is
ignored and flagged. The sweep shows the standing sum of a group that agrees with its ledger. -/
def Obligations.HostAccesses : Prop :=
  (∀ (v : Via) (o : Nat) (s : State), (Instr.registerRcRead v o).wf = true → s.dev.failedRead v o = false →
    HostOpen s.dev (.registerRcRead v o) v (secBlock v o) false →
    (∀ y, s.dev.regOf v o = some y → y.2.1.base ≠ Reg.HMB_OUT 0 0 →
      (let d := s.dev.ledgerReads (shownLedger y.2.1 (y.2.2.headD 0))
       Does (.registerRcRead v o) s
         ((d.complete (.ok (leBytes 8 (d.regValue y.1 y.2.1 y.2.2).toNat))).clearRc y.1 y.2.1.fields)))
    ∧ (s.dev.regOf v o = none →
      Does (.registerRcRead v o) s (s.dev.complete (.ok (leBytes 8 (s.dev.otherRead v o).toNat)))))
  ∧ (∀ (v : Via) (o : Nat) (s : State), (Instr.registerRcRead v o).wf = true → s.dev.failedRead v o = true →
    Does (.registerRcRead v o) s (s.dev.complete (.ok (List.replicate 8 0#8))))
  ∧ (∀ (v : Via) (o : Nat) (x : Word) (s : State) (off : Nat) (r : RDesc) (is : List Nat),
    (Instr.registerWrite v o x).wf = true → HostOpen s.dev (.registerWrite v o x) v (secBlock v o) (s.dev.postsObject v o) →
    (o = Reg.SEC_RESET → v.slot ≠ none) → s.dev.regOf v o = some (off, r, is) →
    r.base ∉ [Reg.SEC_CMD, Reg.SEC_RESET, Reg.SEC_JRESET, Reg.SEC_MEXT, Reg.SYN_POST, Reg.SYN_RESET, Reg.SYN_RANGE 0,
      Reg.WINDOW 0, Reg.CAD_CFG 0, Reg.CAD_QUOTA 0] →
    ((v.slot ≠ none ∧ r.view = .jr) → Idle (.registerWrite v o x) s)
    ∧ (¬ (v.slot ≠ none ∧ r.view = .jr) → r.base ≠ Reg.SYN_CTL 0 →
        Does (.registerWrite v o x) s ((s.dev.writeFields off r is x).regTrigger r (is.headD 0) x))
    ∧ (¬ (v.slot ≠ none ∧ r.view = .jr) → r.base = Reg.SYN_CTL 0 →
        (let d := s.dev.writeFields off r is x
         let i := is.headD 0
         Does (.registerWrite v o x) s
           (if s.dev.rb (Reg.SYN_CTL i) 5 = true ∧ d.rb (Reg.SYN_CTL i) 5 = false then d.synIrq i else d))))
  ∧ (∀ (d : Dev) (v : Via) (o : Nat) (y : Nat × RDesc × List Nat), d.regOf v o = some y → v.slot ≠ none → y.2.1.view ≠ .p)
  ∧ (∀ (d : Dev) (off : Nat) (busy : Bool) (x : Word) (f : RField), f.hi < 64 → f.lo ≤ f.hi →
    (f.acc = .rw → ¬ (f.cls = .l ∧ busy = true) → (d.writeField off busy x f).rf off f.hi f.lo = fld x f.hi f.lo)
    ∧ (f.acc = .rw → f.cls = .l → busy = true → d.writeField off busy x f = d)
    ∧ (f.acc = .w1c → ∀ i, f.lo ≤ i → i ≤ f.hi →
        (d.writeField off busy x f).rb off i = (d.rb off i && !bitAt x i))
    ∧ (f.acc = .ro ∨ f.acc = .rc ∨ f.acc = .wo → d.writeField off busy x f = d))
  ∧ (∀ (a : Bar4) (s : State), (Instr.bar4Access a).wf = true →
    HostOpen s.dev (.bar4Access a) { slot := some a.slot, ide := a.ide } false false →
    (let va := s.dev.rf (Reg.HST_APER a.slot) 47 16 * 65536 + a.off
     (∀ d bs, a.write = none → s.dev.rb (Reg.HST_APER a.slot) 0 = true → va + a.len ≤ 2 ^ 48 →
       s.dev.rd (unitWho a.slot 56) va a.len = .ok d bs → Does (.bar4Access a) s ((d.unitDone a.slot 56).complete (.ok bs)))
     ∧ (∀ d bs xs, a.write = some bs → s.dev.rb (Reg.HST_APER a.slot) 0 = true → s.dev.rb (Reg.HST_APER a.slot) 1 = true →
       va + bs.length ≤ 2 ^ 48 → s.dev.wr (unitWho a.slot 56) va bs = .ok d xs → Does (.bar4Access a) s (d.unitDone a.slot 56))
     ∧ (s.dev.rb (Reg.HST_APER a.slot) 0 = false →
       (a.write = none → Does (.bar4Access a) s ((s.dev.satRf Reg.HST_HERR 31 0 1).complete (.ok (List.replicate a.len 0#8))))
       ∧ (∀ bs, a.write = some bs → Does (.bar4Access a) s (s.dev.satRf Reg.HST_HERR 31 0 1)))))
  ∧ (∀ (v : Via) (x : Word) (s : State) (e : Dev),
    (∀ sl, s.dev.hostRejects v (fld x 15 0) = some sl →
      ((Instr.synPost v x).wf = true → HostOpen s.dev (.synPost v x) v false true →
        Does (.synPost v x) s (s.dev.satRf (Reg.SYN_HREJ sl) 31 0 1))
      ∧ ((Instr.synReset v x).wf = true → HostOpen s.dev (.synReset v x) v false false →
        Does (.synReset v x) s (s.dev.satRf (Reg.SYN_HREJ sl) 31 0 1)))
    ∧ (s.dev.hostRejects v (fld x 15 0) = none →
      ((Instr.synPost v x).wf = true → HostOpen s.dev (.synPost v x) v false true →
        s.dev.post (fld x 15 0) (fld x 63 32) (bitAt x 16) = (e, true) → Does (.synPost v x) s e)
      ∧ ((Instr.synReset v x).wf = true → HostOpen s.dev (.synReset v x) v false false →
        Does (.synReset v x) s (s.dev.synReset (fld x 15 0)))))
  ∧ (∀ (sl : Nat) (x : Word) (s : State), (Instr.synRangeWrite sl x).wf = true →
    HostOpen s.dev (.synRangeWrite sl x) bar0 false false →
    (let w : Word := BitVec.ofNat 64 (fld x 32 0)
     let d := s.dev.setReg (Reg.SYN_RANGE sl) w
     (w ≠ s.dev.reg (Reg.SYN_RANGE sl) → s.dev.hasJob sl = true →
       Does (.synRangeWrite sl x) s (s.dev.setRb Reg.SYN_STATUS 1 true))
     ∧ (w ≠ s.dev.reg (Reg.SYN_RANGE sl) → s.dev.hasJob sl = false → takesFromJob s.dev d = false → s.dev.standing = [] →
       d.overlapping = false →
       ∃ e, Does (.synRangeWrite sl x) s e ∧ e = { d with hst := { d.hst with lwrites := e.hst.lwrites } })))
  ∧ (∀ s : State, Does .syncSweep s ((List.range 17).foldl Dev.sweepGroup s.dev))
  ∧ (∀ (d : Dev) (g : Nat),
    (let d2 := (((d.lapse (ledApplied g)).lapse (ledConsumed g)).ledgerRepair (ledApplied g)).ledgerRepair (ledConsumed g)
     let d3 := if g < 16 then d2.setReg (Reg.LSYN_STANDING g) (d.groupSum g) else d2
     (d.groupSum g = d3.ledgerVal (ledApplied g) - d3.ledgerVal (ledConsumed g) → d.sweepGroup g = d3)
     ∧ (d.groupSum g ≠ d3.ledgerVal (ledApplied g) - d3.ledgerVal (ledConsumed g) →
         d.sweepGroup g = d3.ledgerStop 0x0B01 3 g (d.groupSum g) (d3.ledgerVal (ledApplied g) - d3.ledgerVal (ledConsumed g))
           (d3.groupSlots g))))
  ∧ (∀ (v : Via) (sl n : Nat) (s : State), (Instr.hmbSend v sl n).wf = true → HostOpen s.dev (.hmbSend v sl n) v false true →
    viaSees v sl = true → s.dev.rb (Reg.HMB_CFG sl) 0 = true →
    (let o := s.dev.rf (Reg.HMB_OBJ sl) 15 0
     s.dev.owner o = some sl →
     (n < 8 ∨ 2040 < n ∨ n % 8 ≠ 0 → Does (.hmbSend v sl n) s (s.dev.setRb (Reg.HMB_STATUS sl) 1 true))
     ∧ (8 ≤ n → n ≤ 2040 → n % 8 = 0 →
       (s.dev.synCount o ≠ 0 → Does (.hmbSend v sl n) s (s.dev.setRb (Reg.HMB_STATUS sl) 0 true))
       ∧ (∀ d xs, s.dev.synCount o = 0 →
         s.dev.wr (unitWho sl 56) (s.dev.rf (Reg.HMB_CFG sl) 47 12 * 4096)
           (leBytes 8 n ++ (List.range (n / 8)).flatMap (fun i => leBytes 8 (s.dev.reg (Reg.HMB_DATA sl i)).toNat)) = .ok d xs →
         Does (.hmbSend v sl n) s ((d.unitDone sl 56).donePost sl 56 o 1 false)))))
  ∧ (∀ (v : Via) (sl : Nat) (s : State), (Instr.hmbAck v sl).wf = true → HostOpen s.dev (.hmbAck v sl) v false false →
    viaSees v sl = true → s.dev.rb (Reg.HMB_CFG sl) 0 = true →
    (let out := s.dev.rf (Reg.HMB_OBJ sl) 31 16
     let ack := s.dev.rf (Reg.HMB_OBJ sl) 47 32
     s.dev.owner out = some sl → s.dev.owner ack = some sl →
     Does (.hmbAck v sl) s ((s.dev.synReset out).post ack 1 false).1))

/-- R720, R749, R752, R753, R761, R768, R769, R771: what the surroundings do. A voltage beyond the ratings has no meaning here; one
that ends the input loses all but flash, fuses and host memory; an overcurrent turns the input stage off, three within 60 s for
good, and 1 s later it goes on again. Open contacts set the current limit. A link that trains is shown; a configuration request is
answered from the end of start-up, before it with Retry Status; D3hot is entered and left; a failed request or read is counted. -/
def Obligations.EdgeEvents : Prop :=
  (∀ (dv : Int) (us : Nat) (s : State),
    (dv < -700 ∨ 800 < dv → exec (.inputVoltageChange dv us) s = .fault .beyondRatings)
    ∧ (-700 ≤ dv → dv ≤ 800 → (Instr.inputVoltageChange dv us).wf = true →
      (inputEnds dv us = false → s.dev.hst.stayOff = false → Does (.inputVoltageChange dv us) s (s.dev.showInput dv))
      ∧ (inputEnds dv us = true → s.dev.sec.inputGood = true →
        ∃ e, Does (.inputVoltageChange dv us) s e ∧ e.sec.inputGood = false ∧ e.cores = [] ∧ e.eng = []
          ∧ e.mem = { Dev.reset.mem with t3 := s.dev.mem.t3 } ∧ ∀ o, o ≠ Reg.HST_INPUT → e.reg o = resetVal o)))
  ∧ (∀ (dv : Int) (us : Nat), inputEnds dv us = true ↔
      dv < -5 ∨ (dv < 540 ∧ 1000 ≤ us) ∨ (740 < dv ∧ 100 ≤ us))
  ∧ (∀ (ma us : Nat) (s : State), (Instr.inputOvercurrentTrip ma us).wf = true → s.dev.hst.stageOn = true →
    (42000 < ma ∧ 100 ≤ us) ∨ 60000 < ma →
    ∃ e, Does (.inputOvercurrentTrip ma us) s e ∧ e.sec.inputGood = false ∧ e.hst.stageOn = false
      ∧ e.rf Reg.HST_INPUT 35 32 = min 15 (fld s.dev.hst.input 35 32 + 1)
      ∧ e.hst.stayOff = threeTrips (((s.dev.hst.clock + s.dev.now) :: s.dev.hst.trips).take 3))
  ∧ (∀ s : State, s.dev.hst.stageOn = false → s.dev.hst.stayOff = false →
    Does .inputStageRestart s
      { s.dev with hst := { s.dev.hst with stageOn := true, clock := s.dev.hst.clock + 1000000000 } })
  ∧ (∀ (rtn : Bool) (mask : BitVec 8) (s : State), (Instr.inputContactOpen rtn mask).wf = true →
    (let w := if rtn then setFld s.dev.hst.input 31 24 mask.toNat else setFld s.dev.hst.input 23 16 mask.toNat
     let d := if rtn then s.dev.setRf Reg.HST_INPUT 31 24 mask.toNat else s.dev.setRf Reg.HST_INPUT 23 16 mask.toNat
     let n := max (openCount (fld w 23 16)) (openCount (fld w 31 24))
     Does (.inputContactOpen rtn mask) s
       { d with hst := { d.hst with input := w, limitMa := if 2 < n then some (7000 * (8 - n)) else none } }))
  ∧ (∀ s : State, s.dev.sec.inputGood = true →
    (∃ e, Does .refclkLoss s e ∧ e.rb Reg.HST_STATUS 9 = true ∧ e.sec.extLost = true
      ∧ e = { s.dev with sec := { s.dev.sec with extLost := true }, regs := e.regs })
    ∧ (s.dev.sec.perst = false →
      (∀ speed width, (Instr.pcieLinkTrainingDone speed width).wf = true → s.dev.rf Reg.SEC_BOOT 3 0 ≠ 1 →
        1 ≤ speed → speed ≤ 7 → width ∈ [1, 2, 4, 8, 16] →
        ∃ e, Does (.pcieLinkTrainingDone speed width) s e ∧ e.rf Reg.HST_STATUS 3 0 = speed
          ∧ e.rf Reg.HST_STATUS 8 4 = width ∧ e = { s.dev with regs := e.regs, hst := { s.dev.hst with link := speed + width * 16 } })
      ∧ (s.dev.rb Reg.PWR_STATUS 31 = false →
        Does .pcieConfigRequest s (s.dev.answer (if s.dev.bootOver then
          .configOk (if s.dev.board.memPop then 0x3A30 else 0x3A31) 0x120000 else .configRetry)))))
  ∧ (∀ s : State, s.dev.sec.perst = true → Does .perstDeassert s { s.dev with sec := { s.dev.sec with perst := false } })
  ∧ (∀ s : State, s.dev.bootOver = true → Does .d3hotEntry s { s.dev with hst := { s.dev.hst with d3hot := true } })
  ∧ (∀ s : State, Does .d0Return s (s.dev.hst.msixPending.foldl Dev.msix
      { s.dev with hst := { s.dev.hst with d3hot := false, msixPending := [] } }))
  ∧ (∀ (bar off : Nat) (s : State), (Instr.ideIntegrityFailure bar off).wf = true → s.dev.bootOver = true →
    (let d := s.dev.satRf Reg.HST_IDE 31 0 1
     (barSlot bar off < 16 → d.hasJob (barSlot bar off) = true →
       ∃ f, f.code = 0x0A02 ∧ Does (.ideIntegrityFailure bar off) s (d.recordOnly (barSlot bar off) f))
     ∧ (¬ (barSlot bar off < 16 ∧ d.hasJob (barSlot bar off) = true) → Does (.ideIntegrityFailure bar off) s d)))
  ∧ (∀ (k : Nat) (s : State) (r : LineRead), (Instr.t3RequestFailure k).wf = true →
    s.dev.fab.reads.find? (fun y => y.host && decide (y.k = k)) = some r →
    (let d := (s.dev.dropRead k).satRf Reg.HST_T3ERR 31 0 1
     (∀ m i, r.use = .mover m i → Does (.t3RequestFailure k) s (d.moverPoisoned m (readFault r 0x0601 0)))
     ∧ ((∀ m i, r.use ≠ .mover m i) → Does (.t3RequestFailure k) s (d.readPoisoned r))))

/-! ### Power -/

/-- R690 to R693, R697, R698, R702 to R705: power windows and sense wires. A window shows its measurement and estimate; the goal of a
share that is within its limits is to issue freely, of one beyond them less; the issue falls to its goal at once and rises by at most
8 in 256 ACLK; eight windows far apart raise the guard by 10 mV up to 80 and record
0x0903, and 64 near ones end that. The estimator lowers the issue of a share beyond its limit. A sense wire out of range fails with 0x0904 and is
good again after 640 samples.
R706 to R708: a thermal sample shows every sensor and the hottest junction; below 100 °C nothing is throttled, from there the
die's share issues less and 0x0901 is recorded once, and at 115 °C the device trips with 0x0902. -/
def Obligations.PowerAndThermal : Prop :=
  ((∀ (r : PowerReading) (s : State), (Instr.powerWindowEnd r).wf = true →
    (let d := (s.dev.modPwr (fun x => x.window r)).showWindow r
     Does (.powerWindowEnd r) s (d.regate.compareWindow r)
     ∧ d.rf Reg.PWR_MEAS 15 0 = r.moduleMeas % 2 ^ 16 ∧ d.rf Reg.PWR_MEAS 31 16 = r.moduleEst % 2 ^ 16
     ∧ d.pwr.windows.head? = some (if s.dev.pwr.senseBad then (r.moduleEst * 110 + 99) / 100 else r.moduleMeas)
     ∧ d.pwr.windows.length ≤ 100
     ∧ ∀ h, h < 4 → d.rb Reg.PWR_STATUS 26 = false →
         (d.overLimit h = false → d.regate.rf Reg.PWR_GATE (8 * h + 6) (8 * h) = d.approach h 64)
         ∧ (d.overLimit h = true → d.regate.rf Reg.PWR_GATE (8 * h + 6) (8 * h) < 64
              ∧ (d.gateNow h ≠ 0 → d.regate.rf Reg.PWR_GATE (8 * h + 6) (8 * h) ≠ 0))))
  ∧ (∀ (d : Dev) (h goal : Nat), (goal ≤ d.gateNow h → d.approach h goal = goal) ∧ (d.gateNow h < goal →
      d.gateNow h ≤ d.approach h goal ∧ d.approach h goal ≤ goal
      ∧ (h ≠ 3 → d.hintLift h ≤ d.gateNow h → d.approach h goal ≤ d.gateNow h + 8
          ∧ (d.now < d.pwr.rampAt + d.aclk 256 → d.approach h goal = d.gateNow h))))
  ∧ (∀ (d : Dev) (r : PowerReading), d.pwr.senseBad = false →
    (let gap := max r.moduleMeas r.moduleEst - min r.moduleMeas r.moduleEst
     (15 * r.moduleMeas < 100 * gap → d.pwr.divRun = 7 → d.rb Reg.PWR_STATUS 24 = false →
       ∃ (e : Dev) (f : FaultInfo), f.code = 0x0903 ∧ d.compareWindow r = e.recordAll f ∧ e.rb Reg.PWR_STATUS 24 = true
         ∧ e.rf Reg.PWR_GUARD 7 0 = (if 80 ≤ d.rf Reg.PWR_GUARD 7 0 then d.rf Reg.PWR_GUARD 7 0
             else d.rf Reg.PWR_GUARD 7 0 + 10) ∧ e.pwr.divRun = 0)
     ∧ (100 * gap ≤ 5 * r.moduleMeas → d.rb Reg.PWR_STATUS 24 = true → 63 ≤ d.pwr.quiet →
       (d.compareWindow r).rb Reg.PWR_STATUS 24 = false ∧ (d.compareWindow r).rf Reg.PWR_GUARD 7 0 = 50)))
  ∧ (∀ (r : PowerReading) (s : State), (Instr.estimatorUpdate r).wf = true →
    ∃ e, Does (.estimatorUpdate r) s e ∧ (∀ o, o ≠ Reg.PWR_GATE → e.reg o = s.dev.reg o)
      ∧ ∀ h, h < 4 →
        (s.dev.shareLimit h < r.est.getD h 0 ∨ s.dev.capW < r.moduleEst →
          e.rf Reg.PWR_GATE (8 * h + 6) (8 * h) < 64 ∧ e.rf Reg.PWR_GATE (8 * h + 6) (8 * h) ≤ s.dev.gateNow h)
        ∧ (r.est.getD h 0 ≤ s.dev.shareLimit h → r.moduleEst ≤ s.dev.capW → s.dev.pwr.goals.getD h 64 ≤ 64 →
          e.rf Reg.PWR_GATE (8 * h + 6) (8 * h) = s.dev.approach h (s.dev.pwr.goals.getD h 64)))
  ∧ (∀ (r : SenseReading) (s : State), (Instr.senseSample r).wf = true →
    (senseOk r = false → s.dev.pwr.senseBad = false →
      ∃ (d : Dev) (ks : List Nat), Does (.senseSample r) s ((0 :: ks).foldl (fun (a : Dev) k =>
          (a.satRf Reg.PWR_EVENTS 63 48 1).recordAll (a.powerFault 0x0904 k)) d)
        ∧ d.pwr.senseBad = true ∧ d.rb Reg.PWR_STATUS 25 = true)
    ∧ (senseOk r = true → s.dev.pwr.senseBad = true → 639 ≤ s.dev.pwr.senseQuiet →
      ∃ (d : Dev) (ks : List Nat), Does (.senseSample r) s (ks.foldl (fun (a : Dev) k =>
          (a.satRf Reg.PWR_EVENTS 63 48 1).recordAll (a.powerFault 0x0904 k)) d)
        ∧ 0 ∉ ks ∧ d.pwr.senseBad = false)))
  ∧ (∀ (temps : List Int) (s : State) (n : Nat) (t : Int), (Instr.thermalSample temps).wf = true →
    hottest (junctions temps) = some (n, t) →
    (t < 1000 → ∃ e, Does (.thermalSample temps) s e ∧ e.rb Reg.PWR_STATUS 26 = false
      ∧ e.rf Reg.PWR_THERM 15 0 = temp16 t ∧ e.rf Reg.PWR_THERM 21 16 = n
      ∧ (∀ i, i < 40 → e.reg (Reg.PWR_TSENS i) =
          BitVec.ofNat 64 (temp16 (temps.getD i (-1000)) + b2n (tempValid (temps.getD i (-1000))) * 2 ^ 16))
      ∧ e.rf Reg.PWR_GATE 31 0 = s.dev.rf Reg.PWR_GATE 31 0)
    ∧ (1000 ≤ t → t < 1150 → s.dev.pwr.hotRecorded = true →
      (let h := dieOf n
       ∃ e, Does (.thermalSample temps) s e ∧ e.rb Reg.PWR_STATUS 26 = true
        ∧ (1 < s.dev.rf Reg.PWR_GATE (8 * h + 6) (8 * h) →
            e.rf Reg.PWR_GATE (8 * h + 6) (8 * h) < s.dev.rf Reg.PWR_GATE (8 * h + 6) (8 * h))
        ∧ e.rf Reg.PWR_GATE (8 * h + 6) (8 * h) ≠ 0))
    ∧ (1000 ≤ t → t < 1150 → s.dev.pwr.hotRecorded = false →
      ∃ (d : Dev) (f : FaultInfo), f.code = 0x0901 ∧ Does (.thermalSample temps) s (d.recordAll f)
        ∧ d.rb Reg.PWR_STATUS 26 = true ∧ d.pwr.hotRecorded = true)
    ∧ (1150 ≤ t → s.dev.rb Reg.PWR_STATUS 31 = false → s.dev.pwr.hotRecorded = true →
      ∃ (d : Dev) (f : FaultInfo), f.code = 0x0902 ∧ Does (.thermalSample temps) s (d.deviceStop f)
        ∧ d.rb Reg.PWR_STATUS 31 = true))

/-- R676, R677, R682 to R687, R711, R712: a pace epoch. At 250 µs the device proposes a bin from dmin to 64, agreed at once where it
is bound to no tree; with every child's post a member tells its parent and a leader settles the agreement, which the leader sends
down at 500 µs; a member that hears nothing by 950 µs runs at 64 and records 0x0905. At the boundary the agreed bin is in force and
the next epoch begins. After 168 hours with too little slack the ageing offset rises by 5 mV, or dtop by one with 0x0906. -/
def Obligations.PaceEpochs : Prop :=
  (∀ s : State, 250000 ≤ s.dev.epochTime → s.dev.pwr.own = none →
    (let k := s.dev.proposal
     ∃ e, Does .localProposal s e ∧ e.pwr.own = some k ∧ e.rf Reg.PWR_STATUS 22 16 = k % 2 ^ 7
       ∧ (s.dev.paceBound = false → e.pwr.agreed = some k ∧ e.rf Reg.PWR_STATUS 14 8 = k % 2 ^ 7)
       ∧ (s.dev.paceBound = true → e.pwr.agreed = s.dev.pwr.agreed)))
  ∧ (∀ d : Dev, d.proposal ≤ 64 ∧ d.dmin ≤ d.proposal)
  ∧ (∀ (s : State) (own : Nat), s.dev.pwr.own = some own → s.dev.pwr.upDone = false →
    ((List.range s.dev.paceKids).all (fun j => (tfind s.dev.pwr.ups j).isSome) = true
      ∨ (if s.dev.paceRole = 2 then 480000 else 400000) ≤ s.dev.epochTime) →
    (let r := s.dev.subtree own
     let d := s.dev.modPwr (fun x => { x with upDone := true })
     (s.dev.paceRole = 1 → Does .paceUpPost s (d.pacePost (s.dev.rf Reg.PWR_PACE 31 16) (0xFF00 + s.dev.rf Reg.PWR_PACE 5 2)
         (paceCount r.1 r.2 d.treeEpoch)))
     ∧ (s.dev.paceRole = 2 → r.2 = false → s.dev.paceBound = true →
         ∃ e, Does .paceUpPost s e ∧ e.pwr.agreed = some r.1 ∧ e.pwr.own = some r.1
           ∧ e.rf Reg.PWR_STATUS 14 8 = r.1 % 2 ^ 7 ∧ e = { s.dev with regs := e.regs, pwr := e.pwr })
     ∧ (s.dev.paceRole = 2 → r.2 = true → s.dev.paceBound = true →
         Does .paceUpPost s ((d.paceLate.modPwr (fun x => { x with agreed := some 64, own := some 64 })).setRf
           Reg.PWR_STATUS 14 8 64))))
  ∧ (∀ (d : Dev) (own : Nat), own ≤ (d.subtree own).1 ∧ ∀ j p, j < d.paceKids → tfind d.pwr.ups j = some p → p.1 ≤ (d.subtree own).1)
  ∧ (∀ (s : State) (k : Nat), s.dev.pwr.own = some k → s.dev.paceRole = 2 → s.dev.pwr.upDone = true →
    s.dev.pwr.downDone = false → 500000 ≤ s.dev.epochTime →
    Does .paceDownPost s ((s.dev.modPwr (fun x => { x with downDone := true })).postDown k
      (s.dev.modPwr (fun x => { x with downDone := true })).treeEpoch))
  ∧ (∀ s : State, s.dev.paceRole = 1 → s.dev.anyJob = true → s.dev.pwr.downDone = false → 950000 ≤ s.dev.epochTime →
    ∃ (d : Dev) (f : FaultInfo), f.code = 0x0905 ∧ Does .paceDownMissing s (d.recordAll f) ∧ d.pwr.agreed = some 64
      ∧ d.pwr.downDone = true ∧ d.rf Reg.PWR_STATUS 14 8 = 64 ∧ d.rb Reg.PWR_STATUS 28 = true)
  ∧ (∀ s : State, s.dev.pwr.boundary ≤ s.dev.now →
    (let k := (if s.dev.paceBound then s.dev.pwr.agreed else none).getD (s.dev.rf Reg.PWR_STATUS 22 16)
     ∃ e, Does .paceEpochBoundary s e ∧ e.rf Reg.PWR_STATUS 6 0 = k % 2 ^ 7
       ∧ e.rf Reg.PWR_STATUS 63 32 = (s.dev.rf Reg.PWR_STATUS 63 32 + 1) % 2 ^ 32
       ∧ e.pwr.start = s.dev.pwr.boundary ∧ e.pwr.boundary = s.dev.pwr.boundary + 1000000 ∧ e.pwr.agreed = none
       ∧ e.pwr.own = none ∧ e.pwr.divider = k))
  ∧ (∀ s : State, (s.dev.now < s.dev.pwr.hours168 + 168 * 3600 * 10 ^ 9 → Idle .ageingEvaluation s)
    ∧ (s.dev.pwr.hours168 + 168 * 3600 * 10 ^ 9 ≤ s.dev.now →
      ∃ t, exec .ageingEvaluation s = .next t ∧ t.nv.jHours = s.nv.jHours + 168 ∧ t.pending = s.pending
        ∧ (s.dev.inf Reg.PWR_AGE 23 16 ≤ s.dev.pwr.minSlack → t.nv.jOffset = s.nv.jOffset ∧ t.nv.jDtop = s.nv.jDtop)
        ∧ (s.dev.pwr.minSlack < s.dev.inf Reg.PWR_AGE 23 16 → s.nv.jOffset < 60 →
            t.nv.jOffset = s.nv.jOffset + 5 ∧ t.dev.pwr.offset = s.nv.jOffset + 5)
        ∧ (s.dev.pwr.minSlack < s.dev.inf Reg.PWR_AGE 23 16 → 60 ≤ s.nv.jOffset →
            t.nv.jOffset = s.nv.jOffset ∧ t.nv.jDtop = min 64 (s.nv.jDtop + 1))))

/-! ### Start-up, resets, the root core -/

/-- R16, R69, R724 to R727, R768: resets. A reset with the input good, or of a device that has started, wipes the memories of the
device, frees every core and engine, gives every register its Reset value but for those that the board, the flash or the world
fill, and starts at step 1 or 2. Input good is a cold reset; PERST# that is asserted a warm one; SEC_RESET and a function-level
reset a device reset, which is refused while a tripped device is hot. -/
def Obligations.Resets : Prop :=
  (∀ (d : Dev) (nv : NonVol) (k : ResetKind),
    (let e := d.startReset nv k
     e.mem = { Dev.reset.mem with t3 := d.mem.t3 } ∧ e.cores = [] ∧ e.eng = [] ∧ e.sch = Dev.reset.sch ∧ e.rte = Dev.reset.rte
     ∧ e.xch = Dev.reset.xch ∧ e.fab = Dev.reset.fab ∧ e.cul = Dev.reset.cul ∧ e.twin = [] ∧ e.force = []
     ∧ e.sec.running = true ∧ e.sec.inputGood = true
     ∧ (e.rf Reg.SEC_BOOT 3 0 = if k = .cold ∨ (d.sec.running = true ∧ d.rf Reg.SEC_BOOT 3 0 = 1) then 1 else 2)
     ∧ e.reg Reg.FAB_NODE = nv.fabNode ∧ e.reg Reg.FAB_TOPO = nv.fabTopo
     ∧ ∀ o, o ∉ [Reg.MODULE_ID, Reg.MEM_FRAMES, Reg.MEM_STATUS, Reg.FAB_NODE, Reg.FAB_TOPO, Reg.SEC_LC, Reg.SEC_BOOT] → o ∉ (List.range 33).map Reg.PWR_VF → e.reg o = resetVal o))
  ∧ (∀ s : State,
    (s.dev.sec.inputGood = false → s.dev.hst.stageOn = true → s.dev.hst.stayOff = false →
      Does .inputGood s (s.dev.startReset s.nv .cold))
    ∧ (s.dev.sec.perst = false → s.dev.sec.inputGood = true → s.dev.resetRefused = false →
      (let y : Sec := { s.dev.sec with perst := true }
       Does .perstAssert s (({ s.dev with sec := y } : Dev).startReset s.nv .warm)))
    ∧ (s.dev.bootOver = true → s.dev.resetRefused = false →
      Does .functionLevelReset s (s.dev.startReset s.nv .device)
      ∧ (s.dev.hst.d3hot = false → Does .secResetGo s (s.dev.startReset s.nv .device)))
    ∧ (s.dev.bootOver = true → s.dev.resetRefused = true → Idle .functionLevelReset s))

/-- R716, R717, R722, R725, R735 to R740: the end of a step of start-up. With readable flash, a device that is not retired and a
slot that verifies, step 2 boots that slot; else start-up fails with the reason. Step 3 fails where memory does not train. Step 4
wipes; step 5 ends with the fabric ready and, of a cold reset, with an ageing evaluation (R711), step 6 with the device ready. A
measurement register is extended by SHAKE256. -/
def Obligations.StartUpSteps : Prop :=
  (∀ (r : BootResult) (s : State), s.dev.sec.running = true →
    (let k := s.dev.rf Reg.SEC_BOOT 3 0
     let d := s.dev.stepTime k r.ms
     (k = 1 → ∃ e, Does (.powerUpStepEnd r) s e ∧ e.rf Reg.SEC_BOOT 3 0 = 2 ∧ e.now = 0)
     ∧ (k = 2 → ∀ reason, (r.readable = false ∧ reason = 3)
          ∨ (r.readable = true ∧ lcOf s.nv.rows = 4 ∧ reason = 4)
          ∨ (r.readable = true ∧ lcOf s.nv.rows ≠ 4 ∧ s.nv.bootSlot = none ∧ reason = 1) →
         Does (.powerUpStepEnd r) s (d.bootFail reason))
     ∧ (∀ sl, k = 2 → r.readable = true → lcOf s.nv.rows ≠ 4 → s.nv.bootSlot = some sl →
         ∃ e, Does (.powerUpStepEnd r) s e ∧ e.rf Reg.SEC_BOOT 3 0 = 3 ∧ e.reg Reg.SEC_FW = fwWord s.nv sl
           ∧ e.rb Reg.SEC_BOOT 4 = decide (sl = 1) ∧ e.rb Reg.SEC_BOOT 5 = decide (sl ≠ s.nv.preferred % 2) ∧ e.sec.fwSlot = sl
           ∧ ∀ i, i < 4 → (e.reg (Reg.SEC_NONCE i)).toNat = r.nonce.toNat / 2 ^ (64 * i) % 2 ^ 64)
     ∧ (k = 3 → (s.dev.sec.train = false ∨ r.trained = BitVec.allOnes 32) →
         ∃ e, Does (.powerUpStepEnd r) s e ∧ e.rf Reg.SEC_BOOT 3 0 = 4 ∧ e.rf Reg.MEM_STATUS 31 0 = 2 ^ 32 - 1)
     ∧ (k = 3 → s.dev.sec.train = true → r.trained ≠ BitVec.allOnes 32 →
         ∃ e, Does (.powerUpStepEnd r) s e ∧ e.rf Reg.SEC_BOOT 3 0 = 8 ∧ e.rf Reg.SEC_BOOT 11 8 = 2 ∧ e.sec.running = false)
     ∧ (k = 4 → ∃ e, Does (.powerUpStepEnd r) s e ∧ e.rf Reg.SEC_BOOT 3 0 = 5
         ∧ e.mem = { Dev.reset.mem with t3 := s.dev.mem.t3 })
     ∧ (k = 5 → ∃ e : Dev, e.rf Reg.SEC_BOOT 3 0 = 6 ∧ e.rb Reg.FAB_STATUS 0 = true
          ∧ (s.dev.pwr.ageDue = false → Does (.powerUpStepEnd r) s e)
          ∧ (s.dev.pwr.ageDue = true →
              (let t := ({ s with dev := e } : State).coldAgeing s.dev.pwr
               exec (.powerUpStepEnd r) s = .next t ∧ t.pending = s.pending ∧ t.dev.pwr.ageDue = false
               ∧ t.nv.jHours = s.nv.jHours + s.dev.pwr.powered / (3600 * 10 ^ 9))))
     ∧ (k = 6 → ∃ d2 : Dev, Does (.powerUpStepEnd r) s ((List.range 8).foldl Dev.openPort d2) ∧ d2.rf Reg.SEC_BOOT 3 0 = 7
         ∧ d2.rb Reg.FAB_STATUS 1 = true ∧ d2.sec.running = false)))
  ∧ (∀ (d : Dev) (reason : Nat), reason < 16 → (d.bootFail reason).rf Reg.SEC_BOOT 3 0 = 8
      ∧ (d.bootFail reason).rf Reg.SEC_BOOT 11 8 = reason ∧ (d.bootFail reason).sec.running = false)
  ∧ (∀ (nv : NonVol) (sl : Nat), nv.bootSlot = some sl → nv.verifies sl = true
      ∧ (sl = nv.preferred % 2 ∨ (nv.verifies (nv.preferred % 2) = false ∧ sl = 1 - nv.preferred % 2)))
  ∧ (∀ (nv : NonVol) (sl : Nat), nv.verifies sl = true → nv.minSvn ≤ nv.field sl 8 4 ∧ nv.field sl 0 1 = 1
      ∧ nv.keyUsable (nv.field sl 1 1) = true ∧ (nv.field sl 2 1).testBit (lcOf nv.rows) = true)
  ∧ (∀ (d : Dev) (m w : Nat) (bs : List Byte), m < 16 → w < 8 →
      (d.extend m bs).reg (Reg.SEC_MREG m w) = BitVec.ofNat 64 ((leWords 8 8 (shake256 64 (d.mreg m ++ bs))).getD w 0))
  ∧ (∀ (n : Nat) (s : State), (Instr.secMextGo n).wf = true → HostOpen s.dev (.secMextGo n) bar0 true false → 8 ≤ n → n < 16 →
    (let d := s.dev.setRf Reg.SEC_MEXT 3 0 n
     Does (.secMextGo n) s (d.extend n (d.mbox 0 64))))

/-- R731 to R735, R738, R743, R745, R747: commands to the root core, when the host reaches SEC_CMD. With a job admitted, or a token
that does not verify, is not of this device or does not fit, a command fails with its code and changes nothing else. A transition
burns a row and resets the device; retiring burns every row; debug changes wait for the next device reset; an image chunk goes to
the slot that does not run; a slot that verifies can be preferred; min_svn rises to that of the running image; settings are saved. -/
def Obligations.RootCommands : Prop :=
  (∀ s : State, HostOpen s.dev .secCmdTransition bar0 true false →
    (s.dev.jobAdmitted = true → exec .secCmdTransition s = .next (s.cmdFails 7))
    ∧ (s.dev.jobAdmitted = false → s.dev.tokenError s.nv ≠ 0 →
        exec .secCmdTransition s = .next (s.cmdFails (s.dev.tokenError s.nv)))
    ∧ (s.dev.jobAdmitted = false → s.dev.tokenError s.nv = 0 → leNat (s.dev.mbox 0 1) = 1 →
        transitionAllowed (lcOf s.nv.rows) (leNat (s.dev.mbox 1 1)) = true → s.nv.rows < 15 →
        ∃ t, exec .secCmdTransition s = .next t ∧ t.nv.rows = s.nv.rows + 1
          ∧ t.dev = (s.dev.cmdResult 0).startReset t.nv .device ∧ t.nv = { s.nv with rows := t.nv.rows, uds := t.nv.uds }))
  ∧ (∀ s : State, HostOpen s.dev .secCmdRetire bar0 true false → s.dev.jobAdmitted = false →
    (lcOf s.nv.rows ≠ 0 → lcOf s.nv.rows ≠ 4 →
      ∃ t, exec .secCmdRetire s = .next t ∧ t.nv = { s.nv with rows := 16, uds := none, udsBlown := true }
        ∧ t.dev = (s.dev.cmdResult 0).startReset t.nv .device)
    ∧ (lcOf s.nv.rows = 0 ∨ lcOf s.nv.rows = 4 → exec .secCmdRetire s = .next (s.cmdFails 3)))
  ∧ (∀ s : State, HostOpen s.dev .secCmdDebugUnlock bar0 true false → s.dev.jobAdmitted = false → s.dev.tokenError s.nv = 0 →
    (let scope := leNat (s.dev.mbox 1 1)
     let ok := leNat (s.dev.mbox 0 1) = 2 ∧ (lcOf s.nv.rows = 1 ∨ lcOf s.nv.rows = 3) ∧ (scope = 1 ∨ scope = 3)
     (ok → ∃ e, Does .secCmdDebugUnlock s e ∧ e.sec = { s.dev.sec with pendingDebug := some scope }
        ∧ e.rb Reg.SEC_CMD 9 = false ∧ e.rf Reg.SEC_CMD 15 12 = 0 ∧ e.reg Reg.SEC_LC = lcWord s.nv e.sec)
     ∧ (¬ ok → exec .secCmdDebugUnlock s = .next (s.cmdFails 3))))
  ∧ (∀ s : State, HostOpen s.dev .secCmdDebugLock bar0 true false →
    ∃ e, Does .secCmdDebugLock s e ∧ e.sec = { s.dev.sec with pendingDebug := some 0 } ∧ e.rb Reg.SEC_CMD 9 = false)
  ∧ (∀ s : State, HostOpen s.dev .secCmdWriteImageChunk bar0 true false →
    (let off := leNat (s.dev.mbox 0 8)
     let bs := s.dev.mbox 64 2048
     (4096 + 2 ^ 25 < off + 2048 → exec .secCmdWriteImageChunk s = .next (s.cmdFails 5))
     ∧ (off + 2048 ≤ 4096 + 2 ^ 25 → s.dev.sec.fwSlot = 0 → exec .secCmdWriteImageChunk s =
          .next { s with nv := { s.nv with imageB := wrBytes s.nv.imageB off bs }, dev := s.dev.cmdResult 0 })
     ∧ (off + 2048 ≤ 4096 + 2 ^ 25 → s.dev.sec.fwSlot ≠ 0 → exec .secCmdWriteImageChunk s =
          .next { s with nv := { s.nv with imageA := wrBytes s.nv.imageA off bs }, dev := s.dev.cmdResult 0 })))
  ∧ (∀ s : State, HostOpen s.dev .secCmdSelectSlot bar0 true false →
    (let sl := leNat (s.dev.mbox 0 1)
     (sl < 2 → s.nv.verifies sl = true → exec .secCmdSelectSlot s =
        .next { s with nv := { s.nv with preferred := sl }, dev := s.dev.cmdResult 0 })
     ∧ (2 ≤ sl ∨ s.nv.verifies sl = false → exec .secCmdSelectSlot s = .next (s.cmdFails 6))))
  ∧ (∀ s : State, HostOpen s.dev .secCmdCommitSvn bar0 true false → s.dev.rf Reg.SEC_BOOT 3 0 = 7 →
    ∃ t, exec .secCmdCommitSvn s = .next t ∧ t.nv.minSvn = max s.nv.minSvn (min 64 (s.dev.rf Reg.SEC_FW 47 32))
      ∧ t.nv = { s.nv with minSvn := t.nv.minSvn } ∧ t.dev.rf Reg.SEC_FW 63 48 = t.nv.minSvn % 2 ^ 16)
  ∧ (∀ s : State, HostOpen s.dev .secCmdSaveSettings bar0 true false →
    (let n := leNat (s.dev.mbox 0 2)
     (s.dev.jobAdmitted = true → exec .secCmdSaveSettings s = .next (s.cmdFails 7))
     ∧ (s.dev.jobAdmitted = false → n ≤ 255 →
        ∃ t, exec .secCmdSaveSettings s = .next t ∧ t.dev = s.dev.cmdResult 0 ∧ t.nv = { s.nv with settings := t.nv.settings }
          ∧ t.nv.settings.length = n
          ∧ ∀ i, i < n → t.nv.settings[i]? = some (leNat (s.dev.mbox (16 + 16 * i) 8),
              BitVec.ofNat 64 (leNat (s.dev.mbox (24 + 16 * i) 8))))))
  ∧ (∀ (s : State) (k : Nat), 0 < k → k < 16 → (s.cmdFails k).nv = s.nv ∧ (s.cmdFails k).dev.rb Reg.SEC_CMD 9 = true
      ∧ (s.cmdFails k).dev.rf Reg.SEC_CMD 15 12 = k
      ∧ ∀ o, o ≠ Reg.SEC_CMD → (s.cmdFails k).dev.reg o = s.dev.reg o)

/-- R17, R728 to R730: SEC_JRESET of a slot, from device-ready and while no job reset is busy, stops its job and is busy; else err is
set. At its end the slot holds no job, its sends, lists and sequence spaces are gone, and done is set. -/
def Obligations.JobReset : Prop :=
  (∀ (sl : Nat) (s : State), (Instr.secJresetGo sl).wf = true → HostOpen s.dev (.secJresetGo sl) bar0 true false →
    (s.dev.rf Reg.SEC_BOOT 3 0 ≠ 7 ∨ s.dev.rb Reg.SEC_JRESET 5 = true →
      Does (.secJresetGo sl) s (s.dev.setRb Reg.SEC_JRESET 7 true))
    ∧ (s.dev.rf Reg.SEC_BOOT 3 0 = 7 → s.dev.rb Reg.SEC_JRESET 5 = false →
      ∃ d : Dev, Does (.secJresetGo sl) s (d.operatorStop sl) ∧ d.rf Reg.SEC_JRESET 3 0 = sl ∧ d.rb Reg.SEC_JRESET 5 = true
        ∧ d.sec = { s.dev.sec with jreset := some sl } ∧ ∀ o, o ≠ Reg.SEC_JRESET → d.reg o = s.dev.reg o))
  ∧ (∀ (sl : Nat) (s : State), s.dev.sec.jreset = some sl → sl < 16 →
    ∃ e, Does .jobResetComplete s e ∧ e.sec.jreset = none ∧ e.jobState sl = 0 ∧ e.rb Reg.SEC_JRESET 5 = false
      ∧ e.rb Reg.SEC_JRESET 6 = true ∧ (∀ x ∈ e.fab.send, x.key.job ≠ s.dev.jobId sl)
      ∧ (∀ x ∈ e.fab.recv, x.key.job ≠ s.dev.jobId sl))
  ∧ (∀ (d : Dev) (sl job : Nat), (∀ l ∈ (d.dropWork sl job).sch.lists, l.slot ≠ sl)
      ∧ (∀ m ∈ (d.dropWork sl job).xch.sends, m.slot ≠ sl) ∧ (∀ m ∈ (d.dropWork sl job).tir.queue, m.slot ≠ sl)
      ∧ (d.dropWork sl job).cores = d.cores ∧ (d.dropWork sl job).regs = d.regs)

/-! ### Management, attestation, reset -/

/-- R721, R763, R765 to R767: management. From 20 ms after input good it answers: the rows of pldmRows, a sensor's reading and a write
of the power cap, held within 800 to 1,800 W, once the device is ready, and before that that it is not; a control request tells
the status; the FRU data are read at any time; an address assigned on I3C is kept. -/
def Obligations.Management : Prop :=
  (∀ s : State, s.dev.awake = true →
    (∀ r ∈ pldmRows, (s.dev.serves = true → Does r.1 s (s.dev.answer r.2))
      ∧ (s.dev.serves = false → Does r.1 s (s.dev.answer .errorNotReady)))
    ∧ (∀ id, (Instr.pldmSensorRead id).wf = true →
      (s.dev.serves = true → Does (.pldmSensorRead id) s (s.dev.answer (.sensor id (s.dev.sensor id))))
      ∧ (s.dev.serves = false → Does (.pldmSensorRead id) s (s.dev.answer .errorNotReady)))
    ∧ (∀ watts, (Instr.powerCapEffecterWrite watts).wf = true → s.dev.serves = true →
      ∃ e, Does (.powerCapEffecterWrite watts) s e ∧ e.rf Reg.PWR_CAP 10 0 = max 800 (min 1800 watts)
        ∧ e.out = { s.dev.out with resp := .status "success" :: s.dev.out.resp }
        ∧ ∀ o, o ≠ Reg.PWR_CAP → e.reg o = s.dev.reg o)
    ∧ (∀ q, (Instr.mctpControlRequest q).wf = true →
      (s.dev.serves = true → Does (.mctpControlRequest q) s (s.dev.answer (.mctp 0 (Config.mctpBody 0 q))))
      ∧ (s.dev.serves = false → Does (.mctpControlRequest q) s (s.dev.answer (.status s.dev.statusName))))
    ∧ (∀ addr, (Instr.dynamicAddressAssignment addr).wf = true →
      Does (.dynamicAddressAssignment addr) s { s.dev with hst := { s.dev.hst with i3cAddr := some addr } }))
  ∧ (∀ (off len : Nat) (s : State), (Instr.fruRead off len).wf = true →
    ∃ bs : List Byte, Does (.fruRead off len) s (s.dev.answer (.fru s.dev.board.fru bs)) ∧ bs.length = len
      ∧ (s.dev.board.fru).part = if s.dev.board.memPop then "CMN3-256" else "CMN3-128")
  ∧ (∀ s : State, s.dev.awake = false → ∀ r ∈ pldmRows, Idle r.1 s)

/-- R721, R723, R740 to R742: SPDM. A device that is ready answers a request with the response of its code, signed by the attestation
key over its whole body where it carries a signature; a measurement response holds the registers that its index names; before it is
ready it is Busy, and before the fabric is ready it is silent. One that attests is refused in BLANK and RETIRED. A change of the
secure streams extends MREG6. -/
def Obligations.Attestation : Prop :=
  (∀ r ∈ spdmRows, ∀ (req : List Byte) (s : State), (r.1 req).wf = true → s.dev.sec.inputGood = true →
    s.dev.rb Reg.FAB_STATUS 0 = true →
    (s.dev.serves = true → (r.2.2.1 = true → s.dev.attests = true) →
      ∃ body : List Byte, Does (r.1 req) s (({ s.dev with free := s.dev.free + 1 } : Dev).answer
        (.spdm r.2.1 body (if r.2.2.2 then Config.falconSign s.dev.sec.attKey body else []))))
    ∧ (s.dev.serves = true → r.2.2.1 = true → s.dev.attests = false →
      ∃ body : List Byte, Does (r.1 req) s (({ s.dev with free := s.dev.free + 1 } : Dev).answer (.spdm 0x7F body [])))
    ∧ (s.dev.serves = false → s.dev.rf Reg.SEC_BOOT 3 0 ≠ 8 → Does (r.1 req) s (s.dev.answer .spdmBusy)))
  ∧ (∀ r ∈ spdmRows, ∀ (req : List Byte) (s : State), (r.1 req).wf = true → s.dev.rb Reg.FAB_STATUS 0 = false → Idle (r.1 req) s)
  ∧ (∀ (req : List Byte) (s : State), (Instr.getMeasurements req).wf = true → s.dev.sec.inputGood = true →
    s.dev.rb Reg.FAB_STATUS 0 = true → s.dev.serves = true → s.dev.attests = true →
    (let i := (req.getD 3 0).toNat
     ∃ rest : List Byte,
       (let body := (if i = 0xFF then (List.range 16).flatMap s.dev.mreg
          else if 1 ≤ i ∧ i ≤ 16 then s.dev.mreg (i - 1) else []) ++ rest
        Does (.getMeasurements req) s (({ s.dev with free := s.dev.free + 1 } : Dev).answer
          (.spdm 0xE0 body (if bitAt (req.getD 2 0) 0 then Config.falconSign s.dev.sec.attKey body else []))))))
  ∧ (∀ (req : List Byte) (s : State), (Instr.vendorDefinedRequest req).wf = true → s.dev.sec.inputGood = true →
    s.dev.rb Reg.FAB_STATUS 0 = true → s.dev.serves = true → s.dev.attests = true →
    (let old := s.dev.rf Reg.HST_STATUS 14 10
     let new := Config.ideStreams old req % 32
     ∃ (d : Dev) (body : List Byte),
       Does (.vendorDefinedRequest req) s (({ d with free := d.free + 1 } : Dev).answer (.spdm 0xFE body []))
       ∧ (new = old → d = s.dev)
       ∧ (new ≠ old → d = (s.dev.setRf Reg.HST_STATUS 14 10 new).extend 6 (Config.ideDigest req))))

/-- R16: what stands right after reset, where the spec's register maps give a Reset value, and in what the spec wipes or frees at a
reset: no command waits, memories are in canonical form and list nothing, no slot holds a job, every port is OFF. -/
def Obligations.ResetState : Prop :=
  State.reset.pending = [] ∧ MemoriesCanonical State.reset.dev ∧ State.reset.dev.mem.t1 = [] ∧ State.reset.dev.mem.ks = []
  ∧ State.reset.dev.cores = [] ∧ State.reset.dev.eng = []
  ∧ (∀ c i, (State.reset.dev.core c).getG i = 0 ∧ (State.reset.dev.core c).loops = [])
  ∧ (∀ sl, sl < 16 → State.reset.dev.jobState sl = 0) ∧ (∀ p, p < 8 → State.reset.dev.portState p = 0)
  ∧ State.reset.dev.reg Reg.TOP_ID = 0x30001 ∧ State.reset.dev.reg Reg.PWR_CAP = 1600 ∧ State.reset.dev.reg Reg.PWR_GUARD = 50
  ∧ State.reset.dev.reg Reg.PWR_GATE = 0x40404040 ∧ State.reset.dev.reg Reg.PWR_LIMIT = 32
  ∧ State.reset.dev.reg Reg.FAB_CFG = 0x000A3E81F40A0014

/-- R69: after any reset every core reads 0 in its registers and has no loop level, and every tile handle of every engine is free;
so does an engine that the device assigns to a job slot, which happens when the time of its move has come, and a control core whose
slot changes. -/
def Obligations.CoresStartClear : Prop :=
  (∀ (d : Dev) (nv : NonVol) (k : ResetKind) (c : Nat), Cleared ((d.startReset nv k).core c)
    ∧ ∀ h, ((d.startReset nv k).engine c).tile h = none)
  ∧ (∀ (d : Dev) (e sl : Nat), Cleared ((d.engAssign e sl).core e) ∧ ∀ h, ((d.engAssign e sl).engine e).tile h = none)
  ∧ (∀ (d : Dev) (e sl t : Nat), e < 32 → (d.engine e).moving = some (sl, t) → t ≤ d.now →
      Cleared (d.engMoves.core e) ∧ ∀ h, (d.engMoves.engine e).tile h = none)
  ∧ (∀ (d : Dev) (i : Nat), i < 8 → (d.ccAssign.core (32 + i)).slot ≠ (d.core (32 + i)).slot → Cleared (d.ccAssign.core (32 + i)))
end

