-- ==== Sys2Proof/Laws/Sparse.lean ====
section
/-! SUPPORT. Laws of sparse maps and of byte memories: a read after a write, and that every operation keeps the canonical
form. -/

namespace Sys2Proof.Machine

variable {α : Type}

/-! ### Reading -/

@[simp] theorem tfind_nil (k : Nat) : tfind ([] : Tab α) k = none := rfl

/-- A key that was taken out is not listed. -/
@[simp] theorem tfind_tdel_self (t : Tab α) (k : Nat) : tfind (tdel t k) k = none := by
  induction t with
  | nil => rfl
  | cons e t ih =>
    by_cases h : e.1 = k
    · simpa [tdel, h] using ih
    · simpa [tdel, h, tfind] using ih

/-- Taking a key out leaves the others. -/
theorem tfind_tdel_ne (t : Tab α) {k j : Nat} (h : j ≠ k) : tfind (tdel t k) j = tfind t j := by
  induction t with
  | nil => rfl
  | cons e t ih =>
    by_cases hk : e.1 = k
    · have : e.1 ≠ j := by omega
      simpa [tdel, hk, tfind, this, Ne.symm h] using ih
    · by_cases hj : e.1 = j
      · simp [tdel, tfind, hj, h]
      · simpa [tdel, hk, tfind, hj] using ih

/-- An inserted entry is found where its key was not listed. -/
theorem tfind_tins_self {t : Tab α} {k : Nat} (v : α) (h : tfind t k = none) : tfind (tins t k v) k = some v := by
  induction t with
  | nil => simp [tins, tfind]
  | cons e t ih =>
    obtain ⟨j, x⟩ := e
    by_cases hj : j = k
    · simp [tfind, hj] at h
    · simp only [tfind, hj, if_false] at h
      by_cases hl : j < k
      · simp [tins, hl, tfind, hj, ih h]
      · simp [tins, hl, tfind]

/-- Inserting an entry leaves the other keys. -/
theorem tfind_tins_ne (t : Tab α) {k j : Nat} (v : α) (h : j ≠ k) : tfind (tins t k v) j = tfind t j := by
  induction t with
  | nil => simp [tins, tfind, Ne.symm h]
  | cons e t ih =>
    obtain ⟨i, x⟩ := e
    by_cases hl : i < k
    · by_cases hi : i = j
      · subst hi; simp [tins, hl, tfind]
      · simp [tins, hl, tfind, hi, ih]
    · simp [tins, hl, tfind, Ne.symm h]

/-- A read after a write of the same key. -/
@[simp] theorem tget_tput_self [DecidableEq α] (df : Nat → α) (t : Tab α) (k : Nat) (v : α) :
    tget df (tput df t k v) k = v := by
  unfold tput tget
  split
  · simp_all
  · simp [tfind_tins_self v (tfind_tdel_self t k)]

/-- A write leaves every other key. -/
theorem tget_tput_ne [DecidableEq α] (df : Nat → α) (t : Tab α) {k j : Nat} (v : α) (h : j ≠ k) :
    tget df (tput df t k v) j = tget df t j := by
  unfold tput tget
  split
  · rw [tfind_tdel_ne t h]
  · rw [tfind_tins_ne _ v h, tfind_tdel_ne t h]

/-- A read after a write, of any key. -/
theorem tget_tput [DecidableEq α] (df : Nat → α) (t : Tab α) (k j : Nat) (v : α) :
    tget df (tput df t k v) j = if j = k then v else tget df t j := by
  split
  · subst_vars; simp
  · exact tget_tput_ne df t v (by assumption)

/-! ### The canonical form -/

/-- A lower bound may be lowered. -/
theorem twfFrom_mono [DecidableEq α] (df : Nat → α) {n m : Nat} (h : m ≤ n) (t : Tab α) (ht : twfFrom df n t = true) :
    twfFrom df m t = true := by
  cases t with
  | nil => rfl
  | cons e t =>
    obtain ⟨k, v⟩ := e
    simp only [twfFrom, Bool.and_eq_true, decide_eq_true_eq] at ht ⊢
    exact ⟨⟨by omega, ht.1.2⟩, ht.2⟩

/-- Leaving entries out keeps the canonical form. -/
theorem twfFrom_filter [DecidableEq α] (df : Nat → α) (p : Nat × α → Bool) :
    ∀ (n : Nat) (t : Tab α), twfFrom df n t = true → twfFrom df n (t.filter p) = true
  | _, [], _ => rfl
  | n, (k, v) :: t, h => by
    simp only [twfFrom, Bool.and_eq_true, decide_eq_true_eq] at h
    have ih := twfFrom_filter df p (k + 1) t h.2
    by_cases hp : p (k, v) = true
    · simp [hp, twfFrom, h.1.1, h.1.2, ih]
    · simp only [List.filter_cons, hp, if_false, Bool.false_eq_true]
      exact twfFrom_mono df (by omega) _ ih

/-- Inserting a value other than the default keeps the canonical form where the key is not listed. -/
theorem twfFrom_tins [DecidableEq α] (df : Nat → α) {k : Nat} {v : α} (hv : v ≠ df k) :
    ∀ (n : Nat) (t : Tab α), n ≤ k → twfFrom df n t = true → tfind t k = none → twfFrom df n (tins t k v) = true
  | _, [], hn, _, _ => by simp [tins, twfFrom, hn, hv]
  | n, (j, x) :: t, hn, h, hf => by
    simp only [twfFrom, Bool.and_eq_true, decide_eq_true_eq] at h
    have hj : j ≠ k := by
      intro e; simp [tfind, e] at hf
    simp only [tfind, hj, if_false] at hf
    by_cases hl : j < k
    · have ih := twfFrom_tins df hv (j + 1) t (by omega) h.2 hf
      simp [tins, hl, twfFrom, h.1.1, h.1.2, ih]
    · have h2 : k + 1 ≤ j := by omega
      simp [tins, hl, twfFrom, hn, hv, h.1.2, h2, h.2]

/-- A write keeps the canonical form. -/
theorem twf_tput [DecidableEq α] (df : Nat → α) (t : Tab α) (k : Nat) (v : α) (h : twf df t = true) :
    twf df (tput df t k v) = true := by
  have hd : twfFrom df 0 (tdel t k) = true := twfFrom_filter df _ 0 t h
  unfold tput twf
  split
  · exact hd
  · exact twfFrom_tins df (by assumption) 0 _ (Nat.zero_le _) hd (tfind_tdel_self t k)

/-! ### Byte memories -/

theorem Memory.wf_nil : Memory.wf [] = true := rfl

theorem Memory.wf_wrByte (m : List Host.Cell) (a : Nat) (b : Byte) (h : Memory.wf m = true) :
    Memory.wf (wrByte m a b) = true := twf_tput _ m a b h

theorem Memory.wf_wrBytes (m : List Host.Cell) (a : Nat) (bs : List Byte) (h : Memory.wf m = true) :
    Memory.wf (wrBytes m a bs) = true := by
  induction bs generalizing m a with
  | nil => exact h
  | cons b bs ih => exact ih _ _ (Memory.wf_wrByte m a b h)

theorem Memory.wf_zeroRange (m : List Host.Cell) (a n : Nat) (h : Memory.wf m = true) :
    Memory.wf (zeroRange m a n) = true := twfFrom_filter _ _ 0 m h

/-- A byte read after a byte write. -/
theorem rdByte_wrByte (m : List Host.Cell) (a b : Nat) (v : Byte) :
    rdByte (wrByte m a v) b = if b = a then v else rdByte m b := tget_tput _ m a b v

/-- Bytes outside a stored range read as before. -/
theorem rdByte_wrBytes_outside (m : List Host.Cell) (a : Nat) (bs : List Byte) (b : Nat)
    (h : b < a ∨ a + bs.length ≤ b) : rdByte (wrBytes m a bs) b = rdByte m b := by
  induction bs generalizing m a with
  | nil => rfl
  | cons v bs ih =>
    simp only [List.length_cons] at h
    rw [wrBytes, ih _ _ (by omega), rdByte_wrByte, if_neg (by omega)]

/-- A byte inside a stored range reads as stored. -/
theorem rdByte_wrBytes_inside (m : List Host.Cell) (a : Nat) (bs : List Byte) (i : Nat) (h : i < bs.length) :
    rdByte (wrBytes m a bs) (a + i) = bs[i] := by
  induction bs generalizing m a i with
  | nil => simp at h
  | cons v bs ih =>
    cases i with
    | zero => rw [wrBytes, rdByte_wrBytes_outside _ _ _ _ (by omega), rdByte_wrByte]; simp
    | succ i =>
      have := ih (wrByte m a v) (a + 1) i (by simpa using h)
      simpa [wrBytes, Nat.add_assoc, Nat.add_comm 1] using this

/-- A read of the bytes that were stored gives them. -/
theorem rdBytes_wrBytes (m : List Host.Cell) (a : Nat) (bs : List Byte) : rdBytes (wrBytes m a bs) a bs.length = bs := by
  induction bs generalizing m a with
  | nil => rfl
  | cons v bs ih =>
    simp only [List.length_cons, rdBytes, wrBytes]
    rw [ih, rdByte_wrBytes_outside _ _ _ _ (by omega), rdByte_wrByte]
    simp

/-- A wiped range reads 0, and every other byte as before. -/
theorem rdByte_zeroRange (m : List Host.Cell) (a n b : Nat) :
    rdByte (zeroRange m a n) b = if a ≤ b ∧ b < a + n then 0 else rdByte m b := by
  have key : ∀ m : List Host.Cell, tfind (zeroRange m a n) b = if a ≤ b ∧ b < a + n then none else tfind m b := by
    intro m
    induction m with
    | nil => simp [zeroRange]
    | cons e m ih =>
      obtain ⟨k, v⟩ := e
      unfold zeroRange at ih ⊢
      by_cases hk : k < a ∨ a + n ≤ k
      · have : (decide (k < a) || decide (a + n ≤ k)) = true := by simpa using hk
        simp only [List.filter_cons, this, if_true, tfind, ih]
        by_cases hb : k = b
        · have : ¬(a ≤ b ∧ b < a + n) := by omega
          simp [hb, this]
        · simp [hb]
      · have : (decide (k < a) || decide (a + n ≤ k)) = false := by simpa using hk
        simp only [List.filter_cons, this, Bool.false_eq_true, if_false, tfind, ih]
        by_cases hb : k = b
        · have : a ≤ b ∧ b < a + n := by omega
          simp [this]
        · simp [hb]
  unfold rdByte tget
  rw [key]
  split <;> simp [unlistedByte]

end Sys2Proof.Machine
end

