-- ==== Sys2Proof/Laws/State.lean ====
section
/-! SUPPORT. What each named update of the device, of a core and of the state leaves alone: one lemma per field. -/

namespace Sys2Proof.Machine

/-! ### setCore -/

@[simp] theorem Dev.setCore_now (d : Dev) (c : Nat) (x : Core) : (d.setCore c x).now = d.now := rfl
@[simp] theorem Dev.setCore_free (d : Dev) (c : Nat) (x : Core) : (d.setCore c x).free = d.free := rfl
@[simp] theorem Dev.setCore_board (d : Dev) (c : Nat) (x : Core) : (d.setCore c x).board = d.board := rfl
@[simp] theorem Dev.setCore_regs (d : Dev) (c : Nat) (x : Core) : (d.setCore c x).regs = d.regs := rfl
@[simp] theorem Dev.setCore_force (d : Dev) (c : Nat) (x : Core) : (d.setCore c x).force = d.force := rfl
@[simp] theorem Dev.setCore_mem (d : Dev) (c : Nat) (x : Core) : (d.setCore c x).mem = d.mem := rfl
@[simp] theorem Dev.setCore_eng (d : Dev) (c : Nat) (x : Core) : (d.setCore c x).eng = d.eng := rfl
@[simp] theorem Dev.setCore_sch (d : Dev) (c : Nat) (x : Core) : (d.setCore c x).sch = d.sch := rfl
@[simp] theorem Dev.setCore_rte (d : Dev) (c : Nat) (x : Core) : (d.setCore c x).rte = d.rte := rfl
@[simp] theorem Dev.setCore_xch (d : Dev) (c : Nat) (x : Core) : (d.setCore c x).xch = d.xch := rfl
@[simp] theorem Dev.setCore_fab (d : Dev) (c : Nat) (x : Core) : (d.setCore c x).fab = d.fab := rfl
@[simp] theorem Dev.setCore_tir (d : Dev) (c : Nat) (x : Core) : (d.setCore c x).tir = d.tir := rfl
@[simp] theorem Dev.setCore_cul (d : Dev) (c : Nat) (x : Core) : (d.setCore c x).cul = d.cul := rfl
@[simp] theorem Dev.setCore_pwr (d : Dev) (c : Nat) (x : Core) : (d.setCore c x).pwr = d.pwr := rfl
@[simp] theorem Dev.setCore_sec (d : Dev) (c : Nat) (x : Core) : (d.setCore c x).sec = d.sec := rfl
@[simp] theorem Dev.setCore_hst (d : Dev) (c : Nat) (x : Core) : (d.setCore c x).hst = d.hst := rfl
@[simp] theorem Dev.setCore_twin (d : Dev) (c : Nat) (x : Core) : (d.setCore c x).twin = d.twin := rfl
@[simp] theorem Dev.setCore_out (d : Dev) (c : Nat) (x : Core) : (d.setCore c x).out = d.out := rfl

/-! ### modCore -/

@[simp] theorem Dev.modCore_now (d : Dev) (c : Nat) (f : Core → Core) : (d.modCore c f).now = d.now := rfl
@[simp] theorem Dev.modCore_free (d : Dev) (c : Nat) (f : Core → Core) : (d.modCore c f).free = d.free := rfl
@[simp] theorem Dev.modCore_board (d : Dev) (c : Nat) (f : Core → Core) : (d.modCore c f).board = d.board := rfl
@[simp] theorem Dev.modCore_regs (d : Dev) (c : Nat) (f : Core → Core) : (d.modCore c f).regs = d.regs := rfl
@[simp] theorem Dev.modCore_force (d : Dev) (c : Nat) (f : Core → Core) : (d.modCore c f).force = d.force := rfl
@[simp] theorem Dev.modCore_mem (d : Dev) (c : Nat) (f : Core → Core) : (d.modCore c f).mem = d.mem := rfl
@[simp] theorem Dev.modCore_eng (d : Dev) (c : Nat) (f : Core → Core) : (d.modCore c f).eng = d.eng := rfl
@[simp] theorem Dev.modCore_sch (d : Dev) (c : Nat) (f : Core → Core) : (d.modCore c f).sch = d.sch := rfl
@[simp] theorem Dev.modCore_rte (d : Dev) (c : Nat) (f : Core → Core) : (d.modCore c f).rte = d.rte := rfl
@[simp] theorem Dev.modCore_xch (d : Dev) (c : Nat) (f : Core → Core) : (d.modCore c f).xch = d.xch := rfl
@[simp] theorem Dev.modCore_fab (d : Dev) (c : Nat) (f : Core → Core) : (d.modCore c f).fab = d.fab := rfl
@[simp] theorem Dev.modCore_tir (d : Dev) (c : Nat) (f : Core → Core) : (d.modCore c f).tir = d.tir := rfl
@[simp] theorem Dev.modCore_cul (d : Dev) (c : Nat) (f : Core → Core) : (d.modCore c f).cul = d.cul := rfl
@[simp] theorem Dev.modCore_pwr (d : Dev) (c : Nat) (f : Core → Core) : (d.modCore c f).pwr = d.pwr := rfl
@[simp] theorem Dev.modCore_sec (d : Dev) (c : Nat) (f : Core → Core) : (d.modCore c f).sec = d.sec := rfl
@[simp] theorem Dev.modCore_hst (d : Dev) (c : Nat) (f : Core → Core) : (d.modCore c f).hst = d.hst := rfl
@[simp] theorem Dev.modCore_twin (d : Dev) (c : Nat) (f : Core → Core) : (d.modCore c f).twin = d.twin := rfl
@[simp] theorem Dev.modCore_out (d : Dev) (c : Nat) (f : Core → Core) : (d.modCore c f).out = d.out := rfl

/-! ### setEngine -/

@[simp] theorem Dev.setEngine_now (d : Dev) (e : Nat) (x : Eng) : (d.setEngine e x).now = d.now := rfl
@[simp] theorem Dev.setEngine_free (d : Dev) (e : Nat) (x : Eng) : (d.setEngine e x).free = d.free := rfl
@[simp] theorem Dev.setEngine_board (d : Dev) (e : Nat) (x : Eng) : (d.setEngine e x).board = d.board := rfl
@[simp] theorem Dev.setEngine_regs (d : Dev) (e : Nat) (x : Eng) : (d.setEngine e x).regs = d.regs := rfl
@[simp] theorem Dev.setEngine_force (d : Dev) (e : Nat) (x : Eng) : (d.setEngine e x).force = d.force := rfl
@[simp] theorem Dev.setEngine_mem (d : Dev) (e : Nat) (x : Eng) : (d.setEngine e x).mem = d.mem := rfl
@[simp] theorem Dev.setEngine_cores (d : Dev) (e : Nat) (x : Eng) : (d.setEngine e x).cores = d.cores := rfl
@[simp] theorem Dev.setEngine_sch (d : Dev) (e : Nat) (x : Eng) : (d.setEngine e x).sch = d.sch := rfl
@[simp] theorem Dev.setEngine_rte (d : Dev) (e : Nat) (x : Eng) : (d.setEngine e x).rte = d.rte := rfl
@[simp] theorem Dev.setEngine_xch (d : Dev) (e : Nat) (x : Eng) : (d.setEngine e x).xch = d.xch := rfl
@[simp] theorem Dev.setEngine_fab (d : Dev) (e : Nat) (x : Eng) : (d.setEngine e x).fab = d.fab := rfl
@[simp] theorem Dev.setEngine_tir (d : Dev) (e : Nat) (x : Eng) : (d.setEngine e x).tir = d.tir := rfl
@[simp] theorem Dev.setEngine_cul (d : Dev) (e : Nat) (x : Eng) : (d.setEngine e x).cul = d.cul := rfl
@[simp] theorem Dev.setEngine_pwr (d : Dev) (e : Nat) (x : Eng) : (d.setEngine e x).pwr = d.pwr := rfl
@[simp] theorem Dev.setEngine_sec (d : Dev) (e : Nat) (x : Eng) : (d.setEngine e x).sec = d.sec := rfl
@[simp] theorem Dev.setEngine_hst (d : Dev) (e : Nat) (x : Eng) : (d.setEngine e x).hst = d.hst := rfl
@[simp] theorem Dev.setEngine_twin (d : Dev) (e : Nat) (x : Eng) : (d.setEngine e x).twin = d.twin := rfl
@[simp] theorem Dev.setEngine_out (d : Dev) (e : Nat) (x : Eng) : (d.setEngine e x).out = d.out := rfl

/-! ### modEngine -/

@[simp] theorem Dev.modEngine_now (d : Dev) (e : Nat) (f : Eng → Eng) : (d.modEngine e f).now = d.now := rfl
@[simp] theorem Dev.modEngine_free (d : Dev) (e : Nat) (f : Eng → Eng) : (d.modEngine e f).free = d.free := rfl
@[simp] theorem Dev.modEngine_board (d : Dev) (e : Nat) (f : Eng → Eng) : (d.modEngine e f).board = d.board := rfl
@[simp] theorem Dev.modEngine_regs (d : Dev) (e : Nat) (f : Eng → Eng) : (d.modEngine e f).regs = d.regs := rfl
@[simp] theorem Dev.modEngine_force (d : Dev) (e : Nat) (f : Eng → Eng) : (d.modEngine e f).force = d.force := rfl
@[simp] theorem Dev.modEngine_mem (d : Dev) (e : Nat) (f : Eng → Eng) : (d.modEngine e f).mem = d.mem := rfl
@[simp] theorem Dev.modEngine_cores (d : Dev) (e : Nat) (f : Eng → Eng) : (d.modEngine e f).cores = d.cores := rfl
@[simp] theorem Dev.modEngine_sch (d : Dev) (e : Nat) (f : Eng → Eng) : (d.modEngine e f).sch = d.sch := rfl
@[simp] theorem Dev.modEngine_rte (d : Dev) (e : Nat) (f : Eng → Eng) : (d.modEngine e f).rte = d.rte := rfl
@[simp] theorem Dev.modEngine_xch (d : Dev) (e : Nat) (f : Eng → Eng) : (d.modEngine e f).xch = d.xch := rfl
@[simp] theorem Dev.modEngine_fab (d : Dev) (e : Nat) (f : Eng → Eng) : (d.modEngine e f).fab = d.fab := rfl
@[simp] theorem Dev.modEngine_tir (d : Dev) (e : Nat) (f : Eng → Eng) : (d.modEngine e f).tir = d.tir := rfl
@[simp] theorem Dev.modEngine_cul (d : Dev) (e : Nat) (f : Eng → Eng) : (d.modEngine e f).cul = d.cul := rfl
@[simp] theorem Dev.modEngine_pwr (d : Dev) (e : Nat) (f : Eng → Eng) : (d.modEngine e f).pwr = d.pwr := rfl
@[simp] theorem Dev.modEngine_sec (d : Dev) (e : Nat) (f : Eng → Eng) : (d.modEngine e f).sec = d.sec := rfl
@[simp] theorem Dev.modEngine_hst (d : Dev) (e : Nat) (f : Eng → Eng) : (d.modEngine e f).hst = d.hst := rfl
@[simp] theorem Dev.modEngine_twin (d : Dev) (e : Nat) (f : Eng → Eng) : (d.modEngine e f).twin = d.twin := rfl
@[simp] theorem Dev.modEngine_out (d : Dev) (e : Nat) (f : Eng → Eng) : (d.modEngine e f).out = d.out := rfl

/-! ### setPort -/

@[simp] theorem Dev.setPort_now (d : Dev) (p : Nat) (x : Port) : (d.setPort p x).now = d.now := rfl
@[simp] theorem Dev.setPort_free (d : Dev) (p : Nat) (x : Port) : (d.setPort p x).free = d.free := rfl
@[simp] theorem Dev.setPort_board (d : Dev) (p : Nat) (x : Port) : (d.setPort p x).board = d.board := rfl
@[simp] theorem Dev.setPort_regs (d : Dev) (p : Nat) (x : Port) : (d.setPort p x).regs = d.regs := rfl
@[simp] theorem Dev.setPort_force (d : Dev) (p : Nat) (x : Port) : (d.setPort p x).force = d.force := rfl
@[simp] theorem Dev.setPort_mem (d : Dev) (p : Nat) (x : Port) : (d.setPort p x).mem = d.mem := rfl
@[simp] theorem Dev.setPort_cores (d : Dev) (p : Nat) (x : Port) : (d.setPort p x).cores = d.cores := rfl
@[simp] theorem Dev.setPort_eng (d : Dev) (p : Nat) (x : Port) : (d.setPort p x).eng = d.eng := rfl
@[simp] theorem Dev.setPort_sch (d : Dev) (p : Nat) (x : Port) : (d.setPort p x).sch = d.sch := rfl
@[simp] theorem Dev.setPort_rte (d : Dev) (p : Nat) (x : Port) : (d.setPort p x).rte = d.rte := rfl
@[simp] theorem Dev.setPort_xch (d : Dev) (p : Nat) (x : Port) : (d.setPort p x).xch = d.xch := rfl
@[simp] theorem Dev.setPort_tir (d : Dev) (p : Nat) (x : Port) : (d.setPort p x).tir = d.tir := rfl
@[simp] theorem Dev.setPort_cul (d : Dev) (p : Nat) (x : Port) : (d.setPort p x).cul = d.cul := rfl
@[simp] theorem Dev.setPort_pwr (d : Dev) (p : Nat) (x : Port) : (d.setPort p x).pwr = d.pwr := rfl
@[simp] theorem Dev.setPort_sec (d : Dev) (p : Nat) (x : Port) : (d.setPort p x).sec = d.sec := rfl
@[simp] theorem Dev.setPort_hst (d : Dev) (p : Nat) (x : Port) : (d.setPort p x).hst = d.hst := rfl
@[simp] theorem Dev.setPort_twin (d : Dev) (p : Nat) (x : Port) : (d.setPort p x).twin = d.twin := rfl
@[simp] theorem Dev.setPort_out (d : Dev) (p : Nat) (x : Port) : (d.setPort p x).out = d.out := rfl

/-! ### modPort -/

@[simp] theorem Dev.modPort_now (d : Dev) (p : Nat) (f : Port → Port) : (d.modPort p f).now = d.now := rfl
@[simp] theorem Dev.modPort_free (d : Dev) (p : Nat) (f : Port → Port) : (d.modPort p f).free = d.free := rfl
@[simp] theorem Dev.modPort_board (d : Dev) (p : Nat) (f : Port → Port) : (d.modPort p f).board = d.board := rfl
@[simp] theorem Dev.modPort_regs (d : Dev) (p : Nat) (f : Port → Port) : (d.modPort p f).regs = d.regs := rfl
@[simp] theorem Dev.modPort_force (d : Dev) (p : Nat) (f : Port → Port) : (d.modPort p f).force = d.force := rfl
@[simp] theorem Dev.modPort_mem (d : Dev) (p : Nat) (f : Port → Port) : (d.modPort p f).mem = d.mem := rfl
@[simp] theorem Dev.modPort_cores (d : Dev) (p : Nat) (f : Port → Port) : (d.modPort p f).cores = d.cores := rfl
@[simp] theorem Dev.modPort_eng (d : Dev) (p : Nat) (f : Port → Port) : (d.modPort p f).eng = d.eng := rfl
@[simp] theorem Dev.modPort_sch (d : Dev) (p : Nat) (f : Port → Port) : (d.modPort p f).sch = d.sch := rfl
@[simp] theorem Dev.modPort_rte (d : Dev) (p : Nat) (f : Port → Port) : (d.modPort p f).rte = d.rte := rfl
@[simp] theorem Dev.modPort_xch (d : Dev) (p : Nat) (f : Port → Port) : (d.modPort p f).xch = d.xch := rfl
@[simp] theorem Dev.modPort_tir (d : Dev) (p : Nat) (f : Port → Port) : (d.modPort p f).tir = d.tir := rfl
@[simp] theorem Dev.modPort_cul (d : Dev) (p : Nat) (f : Port → Port) : (d.modPort p f).cul = d.cul := rfl
@[simp] theorem Dev.modPort_pwr (d : Dev) (p : Nat) (f : Port → Port) : (d.modPort p f).pwr = d.pwr := rfl
@[simp] theorem Dev.modPort_sec (d : Dev) (p : Nat) (f : Port → Port) : (d.modPort p f).sec = d.sec := rfl
@[simp] theorem Dev.modPort_hst (d : Dev) (p : Nat) (f : Port → Port) : (d.modPort p f).hst = d.hst := rfl
@[simp] theorem Dev.modPort_twin (d : Dev) (p : Nat) (f : Port → Port) : (d.modPort p f).twin = d.twin := rfl
@[simp] theorem Dev.modPort_out (d : Dev) (p : Nat) (f : Port → Port) : (d.modPort p f).out = d.out := rfl

/-! ### setPool -/

@[simp] theorem Dev.setPool_now (d : Dev) (p : Nat) (x : Pool) : (d.setPool p x).now = d.now := rfl
@[simp] theorem Dev.setPool_free (d : Dev) (p : Nat) (x : Pool) : (d.setPool p x).free = d.free := rfl
@[simp] theorem Dev.setPool_board (d : Dev) (p : Nat) (x : Pool) : (d.setPool p x).board = d.board := rfl
@[simp] theorem Dev.setPool_regs (d : Dev) (p : Nat) (x : Pool) : (d.setPool p x).regs = d.regs := rfl
@[simp] theorem Dev.setPool_force (d : Dev) (p : Nat) (x : Pool) : (d.setPool p x).force = d.force := rfl
@[simp] theorem Dev.setPool_mem (d : Dev) (p : Nat) (x : Pool) : (d.setPool p x).mem = d.mem := rfl
@[simp] theorem Dev.setPool_cores (d : Dev) (p : Nat) (x : Pool) : (d.setPool p x).cores = d.cores := rfl
@[simp] theorem Dev.setPool_eng (d : Dev) (p : Nat) (x : Pool) : (d.setPool p x).eng = d.eng := rfl
@[simp] theorem Dev.setPool_sch (d : Dev) (p : Nat) (x : Pool) : (d.setPool p x).sch = d.sch := rfl
@[simp] theorem Dev.setPool_rte (d : Dev) (p : Nat) (x : Pool) : (d.setPool p x).rte = d.rte := rfl
@[simp] theorem Dev.setPool_xch (d : Dev) (p : Nat) (x : Pool) : (d.setPool p x).xch = d.xch := rfl
@[simp] theorem Dev.setPool_fab (d : Dev) (p : Nat) (x : Pool) : (d.setPool p x).fab = d.fab := rfl
@[simp] theorem Dev.setPool_tir (d : Dev) (p : Nat) (x : Pool) : (d.setPool p x).tir = d.tir := rfl
@[simp] theorem Dev.setPool_pwr (d : Dev) (p : Nat) (x : Pool) : (d.setPool p x).pwr = d.pwr := rfl
@[simp] theorem Dev.setPool_sec (d : Dev) (p : Nat) (x : Pool) : (d.setPool p x).sec = d.sec := rfl
@[simp] theorem Dev.setPool_hst (d : Dev) (p : Nat) (x : Pool) : (d.setPool p x).hst = d.hst := rfl
@[simp] theorem Dev.setPool_twin (d : Dev) (p : Nat) (x : Pool) : (d.setPool p x).twin = d.twin := rfl
@[simp] theorem Dev.setPool_out (d : Dev) (p : Nat) (x : Pool) : (d.setPool p x).out = d.out := rfl

/-! ### setRctx -/

@[simp] theorem Dev.setRctx_now (d : Dev) (n : Nat) (x : RouteCtx) : (d.setRctx n x).now = d.now := rfl
@[simp] theorem Dev.setRctx_free (d : Dev) (n : Nat) (x : RouteCtx) : (d.setRctx n x).free = d.free := rfl
@[simp] theorem Dev.setRctx_board (d : Dev) (n : Nat) (x : RouteCtx) : (d.setRctx n x).board = d.board := rfl
@[simp] theorem Dev.setRctx_regs (d : Dev) (n : Nat) (x : RouteCtx) : (d.setRctx n x).regs = d.regs := rfl
@[simp] theorem Dev.setRctx_force (d : Dev) (n : Nat) (x : RouteCtx) : (d.setRctx n x).force = d.force := rfl
@[simp] theorem Dev.setRctx_mem (d : Dev) (n : Nat) (x : RouteCtx) : (d.setRctx n x).mem = d.mem := rfl
@[simp] theorem Dev.setRctx_cores (d : Dev) (n : Nat) (x : RouteCtx) : (d.setRctx n x).cores = d.cores := rfl
@[simp] theorem Dev.setRctx_eng (d : Dev) (n : Nat) (x : RouteCtx) : (d.setRctx n x).eng = d.eng := rfl
@[simp] theorem Dev.setRctx_sch (d : Dev) (n : Nat) (x : RouteCtx) : (d.setRctx n x).sch = d.sch := rfl
@[simp] theorem Dev.setRctx_xch (d : Dev) (n : Nat) (x : RouteCtx) : (d.setRctx n x).xch = d.xch := rfl
@[simp] theorem Dev.setRctx_fab (d : Dev) (n : Nat) (x : RouteCtx) : (d.setRctx n x).fab = d.fab := rfl
@[simp] theorem Dev.setRctx_tir (d : Dev) (n : Nat) (x : RouteCtx) : (d.setRctx n x).tir = d.tir := rfl
@[simp] theorem Dev.setRctx_cul (d : Dev) (n : Nat) (x : RouteCtx) : (d.setRctx n x).cul = d.cul := rfl
@[simp] theorem Dev.setRctx_pwr (d : Dev) (n : Nat) (x : RouteCtx) : (d.setRctx n x).pwr = d.pwr := rfl
@[simp] theorem Dev.setRctx_sec (d : Dev) (n : Nat) (x : RouteCtx) : (d.setRctx n x).sec = d.sec := rfl
@[simp] theorem Dev.setRctx_hst (d : Dev) (n : Nat) (x : RouteCtx) : (d.setRctx n x).hst = d.hst := rfl
@[simp] theorem Dev.setRctx_twin (d : Dev) (n : Nat) (x : RouteCtx) : (d.setRctx n x).twin = d.twin := rfl
@[simp] theorem Dev.setRctx_out (d : Dev) (n : Nat) (x : RouteCtx) : (d.setRctx n x).out = d.out := rfl

/-! ### setRqueue -/

@[simp] theorem Dev.setRqueue_now (d : Dev) (n q : Nat) (x : RecvQueue) : (d.setRqueue n q x).now = d.now := rfl
@[simp] theorem Dev.setRqueue_free (d : Dev) (n q : Nat) (x : RecvQueue) : (d.setRqueue n q x).free = d.free := rfl
@[simp] theorem Dev.setRqueue_board (d : Dev) (n q : Nat) (x : RecvQueue) : (d.setRqueue n q x).board = d.board := rfl
@[simp] theorem Dev.setRqueue_regs (d : Dev) (n q : Nat) (x : RecvQueue) : (d.setRqueue n q x).regs = d.regs := rfl
@[simp] theorem Dev.setRqueue_force (d : Dev) (n q : Nat) (x : RecvQueue) : (d.setRqueue n q x).force = d.force := rfl
@[simp] theorem Dev.setRqueue_mem (d : Dev) (n q : Nat) (x : RecvQueue) : (d.setRqueue n q x).mem = d.mem := rfl
@[simp] theorem Dev.setRqueue_cores (d : Dev) (n q : Nat) (x : RecvQueue) : (d.setRqueue n q x).cores = d.cores := rfl
@[simp] theorem Dev.setRqueue_eng (d : Dev) (n q : Nat) (x : RecvQueue) : (d.setRqueue n q x).eng = d.eng := rfl
@[simp] theorem Dev.setRqueue_sch (d : Dev) (n q : Nat) (x : RecvQueue) : (d.setRqueue n q x).sch = d.sch := rfl
@[simp] theorem Dev.setRqueue_rte (d : Dev) (n q : Nat) (x : RecvQueue) : (d.setRqueue n q x).rte = d.rte := rfl
@[simp] theorem Dev.setRqueue_fab (d : Dev) (n q : Nat) (x : RecvQueue) : (d.setRqueue n q x).fab = d.fab := rfl
@[simp] theorem Dev.setRqueue_tir (d : Dev) (n q : Nat) (x : RecvQueue) : (d.setRqueue n q x).tir = d.tir := rfl
@[simp] theorem Dev.setRqueue_cul (d : Dev) (n q : Nat) (x : RecvQueue) : (d.setRqueue n q x).cul = d.cul := rfl
@[simp] theorem Dev.setRqueue_pwr (d : Dev) (n q : Nat) (x : RecvQueue) : (d.setRqueue n q x).pwr = d.pwr := rfl
@[simp] theorem Dev.setRqueue_sec (d : Dev) (n q : Nat) (x : RecvQueue) : (d.setRqueue n q x).sec = d.sec := rfl
@[simp] theorem Dev.setRqueue_hst (d : Dev) (n q : Nat) (x : RecvQueue) : (d.setRqueue n q x).hst = d.hst := rfl
@[simp] theorem Dev.setRqueue_twin (d : Dev) (n q : Nat) (x : RecvQueue) : (d.setRqueue n q x).twin = d.twin := rfl
@[simp] theorem Dev.setRqueue_out (d : Dev) (n q : Nat) (x : RecvQueue) : (d.setRqueue n q x).out = d.out := rfl

/-! ### setCadence -/

@[simp] theorem Dev.setCadence_now (d : Dev) (n : Nat) (x : Cadence) : (d.setCadence n x).now = d.now := rfl
@[simp] theorem Dev.setCadence_free (d : Dev) (n : Nat) (x : Cadence) : (d.setCadence n x).free = d.free := rfl
@[simp] theorem Dev.setCadence_board (d : Dev) (n : Nat) (x : Cadence) : (d.setCadence n x).board = d.board := rfl
@[simp] theorem Dev.setCadence_regs (d : Dev) (n : Nat) (x : Cadence) : (d.setCadence n x).regs = d.regs := rfl
@[simp] theorem Dev.setCadence_force (d : Dev) (n : Nat) (x : Cadence) : (d.setCadence n x).force = d.force := rfl
@[simp] theorem Dev.setCadence_mem (d : Dev) (n : Nat) (x : Cadence) : (d.setCadence n x).mem = d.mem := rfl
@[simp] theorem Dev.setCadence_cores (d : Dev) (n : Nat) (x : Cadence) : (d.setCadence n x).cores = d.cores := rfl
@[simp] theorem Dev.setCadence_eng (d : Dev) (n : Nat) (x : Cadence) : (d.setCadence n x).eng = d.eng := rfl
@[simp] theorem Dev.setCadence_rte (d : Dev) (n : Nat) (x : Cadence) : (d.setCadence n x).rte = d.rte := rfl
@[simp] theorem Dev.setCadence_xch (d : Dev) (n : Nat) (x : Cadence) : (d.setCadence n x).xch = d.xch := rfl
@[simp] theorem Dev.setCadence_fab (d : Dev) (n : Nat) (x : Cadence) : (d.setCadence n x).fab = d.fab := rfl
@[simp] theorem Dev.setCadence_tir (d : Dev) (n : Nat) (x : Cadence) : (d.setCadence n x).tir = d.tir := rfl
@[simp] theorem Dev.setCadence_cul (d : Dev) (n : Nat) (x : Cadence) : (d.setCadence n x).cul = d.cul := rfl
@[simp] theorem Dev.setCadence_pwr (d : Dev) (n : Nat) (x : Cadence) : (d.setCadence n x).pwr = d.pwr := rfl
@[simp] theorem Dev.setCadence_sec (d : Dev) (n : Nat) (x : Cadence) : (d.setCadence n x).sec = d.sec := rfl
@[simp] theorem Dev.setCadence_hst (d : Dev) (n : Nat) (x : Cadence) : (d.setCadence n x).hst = d.hst := rfl
@[simp] theorem Dev.setCadence_twin (d : Dev) (n : Nat) (x : Cadence) : (d.setCadence n x).twin = d.twin := rfl
@[simp] theorem Dev.setCadence_out (d : Dev) (n : Nat) (x : Cadence) : (d.setCadence n x).out = d.out := rfl

/-! ### setTwin -/

@[simp] theorem Dev.setTwin_now (d : Dev) (n : Nat) (x : Twin) : (d.setTwin n x).now = d.now := rfl
@[simp] theorem Dev.setTwin_free (d : Dev) (n : Nat) (x : Twin) : (d.setTwin n x).free = d.free := rfl
@[simp] theorem Dev.setTwin_board (d : Dev) (n : Nat) (x : Twin) : (d.setTwin n x).board = d.board := rfl
@[simp] theorem Dev.setTwin_regs (d : Dev) (n : Nat) (x : Twin) : (d.setTwin n x).regs = d.regs := rfl
@[simp] theorem Dev.setTwin_force (d : Dev) (n : Nat) (x : Twin) : (d.setTwin n x).force = d.force := rfl
@[simp] theorem Dev.setTwin_mem (d : Dev) (n : Nat) (x : Twin) : (d.setTwin n x).mem = d.mem := rfl
@[simp] theorem Dev.setTwin_cores (d : Dev) (n : Nat) (x : Twin) : (d.setTwin n x).cores = d.cores := rfl
@[simp] theorem Dev.setTwin_eng (d : Dev) (n : Nat) (x : Twin) : (d.setTwin n x).eng = d.eng := rfl
@[simp] theorem Dev.setTwin_sch (d : Dev) (n : Nat) (x : Twin) : (d.setTwin n x).sch = d.sch := rfl
@[simp] theorem Dev.setTwin_rte (d : Dev) (n : Nat) (x : Twin) : (d.setTwin n x).rte = d.rte := rfl
@[simp] theorem Dev.setTwin_xch (d : Dev) (n : Nat) (x : Twin) : (d.setTwin n x).xch = d.xch := rfl
@[simp] theorem Dev.setTwin_fab (d : Dev) (n : Nat) (x : Twin) : (d.setTwin n x).fab = d.fab := rfl
@[simp] theorem Dev.setTwin_tir (d : Dev) (n : Nat) (x : Twin) : (d.setTwin n x).tir = d.tir := rfl
@[simp] theorem Dev.setTwin_cul (d : Dev) (n : Nat) (x : Twin) : (d.setTwin n x).cul = d.cul := rfl
@[simp] theorem Dev.setTwin_pwr (d : Dev) (n : Nat) (x : Twin) : (d.setTwin n x).pwr = d.pwr := rfl
@[simp] theorem Dev.setTwin_sec (d : Dev) (n : Nat) (x : Twin) : (d.setTwin n x).sec = d.sec := rfl
@[simp] theorem Dev.setTwin_hst (d : Dev) (n : Nat) (x : Twin) : (d.setTwin n x).hst = d.hst := rfl
@[simp] theorem Dev.setTwin_out (d : Dev) (n : Nat) (x : Twin) : (d.setTwin n x).out = d.out := rfl

/-! ### setReg -/

@[simp] theorem Dev.setReg_now (d : Dev) (o : Nat) (w : Word) : (d.setReg o w).now = d.now := rfl
@[simp] theorem Dev.setReg_free (d : Dev) (o : Nat) (w : Word) : (d.setReg o w).free = d.free := rfl
@[simp] theorem Dev.setReg_board (d : Dev) (o : Nat) (w : Word) : (d.setReg o w).board = d.board := rfl
@[simp] theorem Dev.setReg_force (d : Dev) (o : Nat) (w : Word) : (d.setReg o w).force = d.force := rfl
@[simp] theorem Dev.setReg_mem (d : Dev) (o : Nat) (w : Word) : (d.setReg o w).mem = d.mem := rfl
@[simp] theorem Dev.setReg_cores (d : Dev) (o : Nat) (w : Word) : (d.setReg o w).cores = d.cores := rfl
@[simp] theorem Dev.setReg_eng (d : Dev) (o : Nat) (w : Word) : (d.setReg o w).eng = d.eng := rfl
@[simp] theorem Dev.setReg_sch (d : Dev) (o : Nat) (w : Word) : (d.setReg o w).sch = d.sch := rfl
@[simp] theorem Dev.setReg_rte (d : Dev) (o : Nat) (w : Word) : (d.setReg o w).rte = d.rte := rfl
@[simp] theorem Dev.setReg_xch (d : Dev) (o : Nat) (w : Word) : (d.setReg o w).xch = d.xch := rfl
@[simp] theorem Dev.setReg_fab (d : Dev) (o : Nat) (w : Word) : (d.setReg o w).fab = d.fab := rfl
@[simp] theorem Dev.setReg_tir (d : Dev) (o : Nat) (w : Word) : (d.setReg o w).tir = d.tir := rfl
@[simp] theorem Dev.setReg_cul (d : Dev) (o : Nat) (w : Word) : (d.setReg o w).cul = d.cul := rfl
@[simp] theorem Dev.setReg_pwr (d : Dev) (o : Nat) (w : Word) : (d.setReg o w).pwr = d.pwr := rfl
@[simp] theorem Dev.setReg_sec (d : Dev) (o : Nat) (w : Word) : (d.setReg o w).sec = d.sec := rfl
@[simp] theorem Dev.setReg_hst (d : Dev) (o : Nat) (w : Word) : (d.setReg o w).hst = d.hst := rfl
@[simp] theorem Dev.setReg_twin (d : Dev) (o : Nat) (w : Word) : (d.setReg o w).twin = d.twin := rfl
@[simp] theorem Dev.setReg_out (d : Dev) (o : Nat) (w : Word) : (d.setReg o w).out = d.out := rfl

/-! ### setRf -/

@[simp] theorem Dev.setRf_now (d : Dev) (o hi lo x : Nat) : (d.setRf o hi lo x).now = d.now := rfl
@[simp] theorem Dev.setRf_free (d : Dev) (o hi lo x : Nat) : (d.setRf o hi lo x).free = d.free := rfl
@[simp] theorem Dev.setRf_board (d : Dev) (o hi lo x : Nat) : (d.setRf o hi lo x).board = d.board := rfl
@[simp] theorem Dev.setRf_force (d : Dev) (o hi lo x : Nat) : (d.setRf o hi lo x).force = d.force := rfl
@[simp] theorem Dev.setRf_mem (d : Dev) (o hi lo x : Nat) : (d.setRf o hi lo x).mem = d.mem := rfl
@[simp] theorem Dev.setRf_cores (d : Dev) (o hi lo x : Nat) : (d.setRf o hi lo x).cores = d.cores := rfl
@[simp] theorem Dev.setRf_eng (d : Dev) (o hi lo x : Nat) : (d.setRf o hi lo x).eng = d.eng := rfl
@[simp] theorem Dev.setRf_sch (d : Dev) (o hi lo x : Nat) : (d.setRf o hi lo x).sch = d.sch := rfl
@[simp] theorem Dev.setRf_rte (d : Dev) (o hi lo x : Nat) : (d.setRf o hi lo x).rte = d.rte := rfl
@[simp] theorem Dev.setRf_xch (d : Dev) (o hi lo x : Nat) : (d.setRf o hi lo x).xch = d.xch := rfl
@[simp] theorem Dev.setRf_fab (d : Dev) (o hi lo x : Nat) : (d.setRf o hi lo x).fab = d.fab := rfl
@[simp] theorem Dev.setRf_tir (d : Dev) (o hi lo x : Nat) : (d.setRf o hi lo x).tir = d.tir := rfl
@[simp] theorem Dev.setRf_cul (d : Dev) (o hi lo x : Nat) : (d.setRf o hi lo x).cul = d.cul := rfl
@[simp] theorem Dev.setRf_pwr (d : Dev) (o hi lo x : Nat) : (d.setRf o hi lo x).pwr = d.pwr := rfl
@[simp] theorem Dev.setRf_sec (d : Dev) (o hi lo x : Nat) : (d.setRf o hi lo x).sec = d.sec := rfl
@[simp] theorem Dev.setRf_hst (d : Dev) (o hi lo x : Nat) : (d.setRf o hi lo x).hst = d.hst := rfl
@[simp] theorem Dev.setRf_twin (d : Dev) (o hi lo x : Nat) : (d.setRf o hi lo x).twin = d.twin := rfl
@[simp] theorem Dev.setRf_out (d : Dev) (o hi lo x : Nat) : (d.setRf o hi lo x).out = d.out := rfl

/-! ### setRb -/

@[simp] theorem Dev.setRb_now (d : Dev) (o i : Nat) (b : Bool) : (d.setRb o i b).now = d.now := rfl
@[simp] theorem Dev.setRb_free (d : Dev) (o i : Nat) (b : Bool) : (d.setRb o i b).free = d.free := rfl
@[simp] theorem Dev.setRb_board (d : Dev) (o i : Nat) (b : Bool) : (d.setRb o i b).board = d.board := rfl
@[simp] theorem Dev.setRb_force (d : Dev) (o i : Nat) (b : Bool) : (d.setRb o i b).force = d.force := rfl
@[simp] theorem Dev.setRb_mem (d : Dev) (o i : Nat) (b : Bool) : (d.setRb o i b).mem = d.mem := rfl
@[simp] theorem Dev.setRb_cores (d : Dev) (o i : Nat) (b : Bool) : (d.setRb o i b).cores = d.cores := rfl
@[simp] theorem Dev.setRb_eng (d : Dev) (o i : Nat) (b : Bool) : (d.setRb o i b).eng = d.eng := rfl
@[simp] theorem Dev.setRb_sch (d : Dev) (o i : Nat) (b : Bool) : (d.setRb o i b).sch = d.sch := rfl
@[simp] theorem Dev.setRb_rte (d : Dev) (o i : Nat) (b : Bool) : (d.setRb o i b).rte = d.rte := rfl
@[simp] theorem Dev.setRb_xch (d : Dev) (o i : Nat) (b : Bool) : (d.setRb o i b).xch = d.xch := rfl
@[simp] theorem Dev.setRb_fab (d : Dev) (o i : Nat) (b : Bool) : (d.setRb o i b).fab = d.fab := rfl
@[simp] theorem Dev.setRb_tir (d : Dev) (o i : Nat) (b : Bool) : (d.setRb o i b).tir = d.tir := rfl
@[simp] theorem Dev.setRb_cul (d : Dev) (o i : Nat) (b : Bool) : (d.setRb o i b).cul = d.cul := rfl
@[simp] theorem Dev.setRb_pwr (d : Dev) (o i : Nat) (b : Bool) : (d.setRb o i b).pwr = d.pwr := rfl
@[simp] theorem Dev.setRb_sec (d : Dev) (o i : Nat) (b : Bool) : (d.setRb o i b).sec = d.sec := rfl
@[simp] theorem Dev.setRb_hst (d : Dev) (o i : Nat) (b : Bool) : (d.setRb o i b).hst = d.hst := rfl
@[simp] theorem Dev.setRb_twin (d : Dev) (o i : Nat) (b : Bool) : (d.setRb o i b).twin = d.twin := rfl
@[simp] theorem Dev.setRb_out (d : Dev) (o i : Nat) (b : Bool) : (d.setRb o i b).out = d.out := rfl

/-! ### addRf -/

@[simp] theorem Dev.addRf_now (d : Dev) (o hi lo n : Nat) : (d.addRf o hi lo n).now = d.now := rfl
@[simp] theorem Dev.addRf_free (d : Dev) (o hi lo n : Nat) : (d.addRf o hi lo n).free = d.free := rfl
@[simp] theorem Dev.addRf_board (d : Dev) (o hi lo n : Nat) : (d.addRf o hi lo n).board = d.board := rfl
@[simp] theorem Dev.addRf_force (d : Dev) (o hi lo n : Nat) : (d.addRf o hi lo n).force = d.force := rfl
@[simp] theorem Dev.addRf_mem (d : Dev) (o hi lo n : Nat) : (d.addRf o hi lo n).mem = d.mem := rfl
@[simp] theorem Dev.addRf_cores (d : Dev) (o hi lo n : Nat) : (d.addRf o hi lo n).cores = d.cores := rfl
@[simp] theorem Dev.addRf_eng (d : Dev) (o hi lo n : Nat) : (d.addRf o hi lo n).eng = d.eng := rfl
@[simp] theorem Dev.addRf_sch (d : Dev) (o hi lo n : Nat) : (d.addRf o hi lo n).sch = d.sch := rfl
@[simp] theorem Dev.addRf_rte (d : Dev) (o hi lo n : Nat) : (d.addRf o hi lo n).rte = d.rte := rfl
@[simp] theorem Dev.addRf_xch (d : Dev) (o hi lo n : Nat) : (d.addRf o hi lo n).xch = d.xch := rfl
@[simp] theorem Dev.addRf_fab (d : Dev) (o hi lo n : Nat) : (d.addRf o hi lo n).fab = d.fab := rfl
@[simp] theorem Dev.addRf_tir (d : Dev) (o hi lo n : Nat) : (d.addRf o hi lo n).tir = d.tir := rfl
@[simp] theorem Dev.addRf_cul (d : Dev) (o hi lo n : Nat) : (d.addRf o hi lo n).cul = d.cul := rfl
@[simp] theorem Dev.addRf_pwr (d : Dev) (o hi lo n : Nat) : (d.addRf o hi lo n).pwr = d.pwr := rfl
@[simp] theorem Dev.addRf_sec (d : Dev) (o hi lo n : Nat) : (d.addRf o hi lo n).sec = d.sec := rfl
@[simp] theorem Dev.addRf_hst (d : Dev) (o hi lo n : Nat) : (d.addRf o hi lo n).hst = d.hst := rfl
@[simp] theorem Dev.addRf_twin (d : Dev) (o hi lo n : Nat) : (d.addRf o hi lo n).twin = d.twin := rfl
@[simp] theorem Dev.addRf_out (d : Dev) (o hi lo n : Nat) : (d.addRf o hi lo n).out = d.out := rfl

/-! ### satRf -/

@[simp] theorem Dev.satRf_now (d : Dev) (o hi lo n : Nat) : (d.satRf o hi lo n).now = d.now := rfl
@[simp] theorem Dev.satRf_free (d : Dev) (o hi lo n : Nat) : (d.satRf o hi lo n).free = d.free := rfl
@[simp] theorem Dev.satRf_board (d : Dev) (o hi lo n : Nat) : (d.satRf o hi lo n).board = d.board := rfl
@[simp] theorem Dev.satRf_force (d : Dev) (o hi lo n : Nat) : (d.satRf o hi lo n).force = d.force := rfl
@[simp] theorem Dev.satRf_mem (d : Dev) (o hi lo n : Nat) : (d.satRf o hi lo n).mem = d.mem := rfl
@[simp] theorem Dev.satRf_cores (d : Dev) (o hi lo n : Nat) : (d.satRf o hi lo n).cores = d.cores := rfl
@[simp] theorem Dev.satRf_eng (d : Dev) (o hi lo n : Nat) : (d.satRf o hi lo n).eng = d.eng := rfl
@[simp] theorem Dev.satRf_sch (d : Dev) (o hi lo n : Nat) : (d.satRf o hi lo n).sch = d.sch := rfl
@[simp] theorem Dev.satRf_rte (d : Dev) (o hi lo n : Nat) : (d.satRf o hi lo n).rte = d.rte := rfl
@[simp] theorem Dev.satRf_xch (d : Dev) (o hi lo n : Nat) : (d.satRf o hi lo n).xch = d.xch := rfl
@[simp] theorem Dev.satRf_fab (d : Dev) (o hi lo n : Nat) : (d.satRf o hi lo n).fab = d.fab := rfl
@[simp] theorem Dev.satRf_tir (d : Dev) (o hi lo n : Nat) : (d.satRf o hi lo n).tir = d.tir := rfl
@[simp] theorem Dev.satRf_cul (d : Dev) (o hi lo n : Nat) : (d.satRf o hi lo n).cul = d.cul := rfl
@[simp] theorem Dev.satRf_pwr (d : Dev) (o hi lo n : Nat) : (d.satRf o hi lo n).pwr = d.pwr := rfl
@[simp] theorem Dev.satRf_sec (d : Dev) (o hi lo n : Nat) : (d.satRf o hi lo n).sec = d.sec := rfl
@[simp] theorem Dev.satRf_hst (d : Dev) (o hi lo n : Nat) : (d.satRf o hi lo n).hst = d.hst := rfl
@[simp] theorem Dev.satRf_twin (d : Dev) (o hi lo n : Nat) : (d.satRf o hi lo n).twin = d.twin := rfl
@[simp] theorem Dev.satRf_out (d : Dev) (o hi lo n : Nat) : (d.satRf o hi lo n).out = d.out := rfl

/-! ### commit -/

@[simp] theorem Dev.commit_now (d : Dev) (o : Nat) : (d.commit o).now = d.now := rfl
@[simp] theorem Dev.commit_free (d : Dev) (o : Nat) : (d.commit o).free = d.free := rfl
@[simp] theorem Dev.commit_board (d : Dev) (o : Nat) : (d.commit o).board = d.board := rfl
@[simp] theorem Dev.commit_regs (d : Dev) (o : Nat) : (d.commit o).regs = d.regs := rfl
@[simp] theorem Dev.commit_mem (d : Dev) (o : Nat) : (d.commit o).mem = d.mem := rfl
@[simp] theorem Dev.commit_cores (d : Dev) (o : Nat) : (d.commit o).cores = d.cores := rfl
@[simp] theorem Dev.commit_eng (d : Dev) (o : Nat) : (d.commit o).eng = d.eng := rfl
@[simp] theorem Dev.commit_sch (d : Dev) (o : Nat) : (d.commit o).sch = d.sch := rfl
@[simp] theorem Dev.commit_rte (d : Dev) (o : Nat) : (d.commit o).rte = d.rte := rfl
@[simp] theorem Dev.commit_xch (d : Dev) (o : Nat) : (d.commit o).xch = d.xch := rfl
@[simp] theorem Dev.commit_fab (d : Dev) (o : Nat) : (d.commit o).fab = d.fab := rfl
@[simp] theorem Dev.commit_tir (d : Dev) (o : Nat) : (d.commit o).tir = d.tir := rfl
@[simp] theorem Dev.commit_cul (d : Dev) (o : Nat) : (d.commit o).cul = d.cul := rfl
@[simp] theorem Dev.commit_pwr (d : Dev) (o : Nat) : (d.commit o).pwr = d.pwr := rfl
@[simp] theorem Dev.commit_sec (d : Dev) (o : Nat) : (d.commit o).sec = d.sec := rfl
@[simp] theorem Dev.commit_hst (d : Dev) (o : Nat) : (d.commit o).hst = d.hst := rfl
@[simp] theorem Dev.commit_twin (d : Dev) (o : Nat) : (d.commit o).twin = d.twin := rfl
@[simp] theorem Dev.commit_out (d : Dev) (o : Nat) : (d.commit o).out = d.out := rfl

/-! ### complete -/

@[simp] theorem Dev.complete_now (d : Dev) (r : Completion) : (d.complete r).now = d.now := rfl
@[simp] theorem Dev.complete_free (d : Dev) (r : Completion) : (d.complete r).free = d.free := rfl
@[simp] theorem Dev.complete_board (d : Dev) (r : Completion) : (d.complete r).board = d.board := rfl
@[simp] theorem Dev.complete_regs (d : Dev) (r : Completion) : (d.complete r).regs = d.regs := rfl
@[simp] theorem Dev.complete_force (d : Dev) (r : Completion) : (d.complete r).force = d.force := rfl
@[simp] theorem Dev.complete_mem (d : Dev) (r : Completion) : (d.complete r).mem = d.mem := rfl
@[simp] theorem Dev.complete_cores (d : Dev) (r : Completion) : (d.complete r).cores = d.cores := rfl
@[simp] theorem Dev.complete_eng (d : Dev) (r : Completion) : (d.complete r).eng = d.eng := rfl
@[simp] theorem Dev.complete_sch (d : Dev) (r : Completion) : (d.complete r).sch = d.sch := rfl
@[simp] theorem Dev.complete_rte (d : Dev) (r : Completion) : (d.complete r).rte = d.rte := rfl
@[simp] theorem Dev.complete_xch (d : Dev) (r : Completion) : (d.complete r).xch = d.xch := rfl
@[simp] theorem Dev.complete_fab (d : Dev) (r : Completion) : (d.complete r).fab = d.fab := rfl
@[simp] theorem Dev.complete_tir (d : Dev) (r : Completion) : (d.complete r).tir = d.tir := rfl
@[simp] theorem Dev.complete_cul (d : Dev) (r : Completion) : (d.complete r).cul = d.cul := rfl
@[simp] theorem Dev.complete_pwr (d : Dev) (r : Completion) : (d.complete r).pwr = d.pwr := rfl
@[simp] theorem Dev.complete_sec (d : Dev) (r : Completion) : (d.complete r).sec = d.sec := rfl
@[simp] theorem Dev.complete_hst (d : Dev) (r : Completion) : (d.complete r).hst = d.hst := rfl
@[simp] theorem Dev.complete_twin (d : Dev) (r : Completion) : (d.complete r).twin = d.twin := rfl

/-! ### hold -/

@[simp] theorem Dev.hold_now (d : Dev) (c : Instr) : (d.hold c).now = d.now := rfl
@[simp] theorem Dev.hold_free (d : Dev) (c : Instr) : (d.hold c).free = d.free := rfl
@[simp] theorem Dev.hold_board (d : Dev) (c : Instr) : (d.hold c).board = d.board := rfl
@[simp] theorem Dev.hold_regs (d : Dev) (c : Instr) : (d.hold c).regs = d.regs := rfl
@[simp] theorem Dev.hold_force (d : Dev) (c : Instr) : (d.hold c).force = d.force := rfl
@[simp] theorem Dev.hold_mem (d : Dev) (c : Instr) : (d.hold c).mem = d.mem := rfl
@[simp] theorem Dev.hold_cores (d : Dev) (c : Instr) : (d.hold c).cores = d.cores := rfl
@[simp] theorem Dev.hold_eng (d : Dev) (c : Instr) : (d.hold c).eng = d.eng := rfl
@[simp] theorem Dev.hold_sch (d : Dev) (c : Instr) : (d.hold c).sch = d.sch := rfl
@[simp] theorem Dev.hold_rte (d : Dev) (c : Instr) : (d.hold c).rte = d.rte := rfl
@[simp] theorem Dev.hold_xch (d : Dev) (c : Instr) : (d.hold c).xch = d.xch := rfl
@[simp] theorem Dev.hold_fab (d : Dev) (c : Instr) : (d.hold c).fab = d.fab := rfl
@[simp] theorem Dev.hold_tir (d : Dev) (c : Instr) : (d.hold c).tir = d.tir := rfl
@[simp] theorem Dev.hold_cul (d : Dev) (c : Instr) : (d.hold c).cul = d.cul := rfl
@[simp] theorem Dev.hold_pwr (d : Dev) (c : Instr) : (d.hold c).pwr = d.pwr := rfl
@[simp] theorem Dev.hold_sec (d : Dev) (c : Instr) : (d.hold c).sec = d.sec := rfl
@[simp] theorem Dev.hold_twin (d : Dev) (c : Instr) : (d.hold c).twin = d.twin := rfl
@[simp] theorem Dev.hold_out (d : Dev) (c : Instr) : (d.hold c).out = d.out := rfl

/-! ### modPwr -/

@[simp] theorem Dev.modPwr_now (d : Dev) (f : Pwr → Pwr) : (d.modPwr f).now = d.now := rfl
@[simp] theorem Dev.modPwr_free (d : Dev) (f : Pwr → Pwr) : (d.modPwr f).free = d.free := rfl
@[simp] theorem Dev.modPwr_board (d : Dev) (f : Pwr → Pwr) : (d.modPwr f).board = d.board := rfl
@[simp] theorem Dev.modPwr_regs (d : Dev) (f : Pwr → Pwr) : (d.modPwr f).regs = d.regs := rfl
@[simp] theorem Dev.modPwr_force (d : Dev) (f : Pwr → Pwr) : (d.modPwr f).force = d.force := rfl
@[simp] theorem Dev.modPwr_mem (d : Dev) (f : Pwr → Pwr) : (d.modPwr f).mem = d.mem := rfl
@[simp] theorem Dev.modPwr_cores (d : Dev) (f : Pwr → Pwr) : (d.modPwr f).cores = d.cores := rfl
@[simp] theorem Dev.modPwr_eng (d : Dev) (f : Pwr → Pwr) : (d.modPwr f).eng = d.eng := rfl
@[simp] theorem Dev.modPwr_sch (d : Dev) (f : Pwr → Pwr) : (d.modPwr f).sch = d.sch := rfl
@[simp] theorem Dev.modPwr_rte (d : Dev) (f : Pwr → Pwr) : (d.modPwr f).rte = d.rte := rfl
@[simp] theorem Dev.modPwr_xch (d : Dev) (f : Pwr → Pwr) : (d.modPwr f).xch = d.xch := rfl
@[simp] theorem Dev.modPwr_fab (d : Dev) (f : Pwr → Pwr) : (d.modPwr f).fab = d.fab := rfl
@[simp] theorem Dev.modPwr_tir (d : Dev) (f : Pwr → Pwr) : (d.modPwr f).tir = d.tir := rfl
@[simp] theorem Dev.modPwr_cul (d : Dev) (f : Pwr → Pwr) : (d.modPwr f).cul = d.cul := rfl
@[simp] theorem Dev.modPwr_sec (d : Dev) (f : Pwr → Pwr) : (d.modPwr f).sec = d.sec := rfl
@[simp] theorem Dev.modPwr_hst (d : Dev) (f : Pwr → Pwr) : (d.modPwr f).hst = d.hst := rfl
@[simp] theorem Dev.modPwr_twin (d : Dev) (f : Pwr → Pwr) : (d.modPwr f).twin = d.twin := rfl
@[simp] theorem Dev.modPwr_out (d : Dev) (f : Pwr → Pwr) : (d.modPwr f).out = d.out := rfl

/-! ### Cores -/

@[simp] theorem Core.setV_pc (x : Core) (i k : Nat) (w : W32) : (x.setV i k w).pc = x.pc := rfl
@[simp] theorem Core.setV_g (x : Core) (i k : Nat) (w : W32) : (x.setV i k w).g = x.g := rfl
@[simp] theorem Core.setV_p (x : Core) (i k : Nat) (w : W32) : (x.setV i k w).p = x.p := rfl
@[simp] theorem Core.setV_loops (x : Core) (i k : Nat) (w : W32) : (x.setV i k w).loops = x.loops := rfl
@[simp] theorem Core.setV_frozen (x : Core) (i k : Nat) (w : W32) : (x.setV i k w).frozen = x.frozen := rfl
@[simp] theorem Core.setV_csr (x : Core) (i k : Nat) (w : W32) : (x.setV i k w).csr = x.csr := rfl
@[simp] theorem Core.setV_wait (x : Core) (i k : Nat) (w : W32) : (x.setV i k w).wait = x.wait := rfl
@[simp] theorem Core.setV_lines (x : Core) (i k : Nat) (w : W32) : (x.setV i k w).lines = x.lines := rfl
@[simp] theorem Core.setV_arrived (x : Core) (i k : Nat) (w : W32) : (x.setV i k w).arrived = x.arrived := rfl
@[simp] theorem Core.setV_ilen (x : Core) (i k : Nat) (w : W32) : (x.setV i k w).ilen = x.ilen := rfl
@[simp] theorem Core.setV_run (x : Core) (i k : Nat) (w : W32) : (x.setV i k w).run = x.run := rfl
@[simp] theorem Core.setV_async (x : Core) (i k : Nat) (w : W32) : (x.setV i k w).async = x.async := rfl
@[simp] theorem Core.setV_owed (x : Core) (i k : Nat) (w : W32) : (x.setV i k w).owed = x.owed := rfl
@[simp] theorem Core.setV_posts (x : Core) (i k : Nat) (w : W32) : (x.setV i k w).posts = x.posts := rfl
@[simp] theorem Core.setV_entry (x : Core) (i k : Nat) (w : W32) : (x.setV i k w).entry = x.entry := rfl
@[simp] theorem Core.setV_coll (x : Core) (i k : Nat) (w : W32) : (x.setV i k w).coll = x.coll := rfl
@[simp] theorem Core.setV_phase (x : Core) (i k : Nat) (w : W32) : (x.setV i k w).phase = x.phase := rfl

@[simp] theorem Core.setCsr_pc (x : Core) (n : Nat) (w : Word) : (x.setCsr n w).pc = x.pc := rfl
@[simp] theorem Core.setCsr_g (x : Core) (n : Nat) (w : Word) : (x.setCsr n w).g = x.g := rfl
@[simp] theorem Core.setCsr_p (x : Core) (n : Nat) (w : Word) : (x.setCsr n w).p = x.p := rfl
@[simp] theorem Core.setCsr_v (x : Core) (n : Nat) (w : Word) : (x.setCsr n w).v = x.v := rfl
@[simp] theorem Core.setCsr_loops (x : Core) (n : Nat) (w : Word) : (x.setCsr n w).loops = x.loops := rfl
@[simp] theorem Core.setCsr_frozen (x : Core) (n : Nat) (w : Word) : (x.setCsr n w).frozen = x.frozen := rfl
@[simp] theorem Core.setCsr_wait (x : Core) (n : Nat) (w : Word) : (x.setCsr n w).wait = x.wait := rfl
@[simp] theorem Core.setCsr_lines (x : Core) (n : Nat) (w : Word) : (x.setCsr n w).lines = x.lines := rfl
@[simp] theorem Core.setCsr_arrived (x : Core) (n : Nat) (w : Word) : (x.setCsr n w).arrived = x.arrived := rfl
@[simp] theorem Core.setCsr_ilen (x : Core) (n : Nat) (w : Word) : (x.setCsr n w).ilen = x.ilen := rfl
@[simp] theorem Core.setCsr_run (x : Core) (n : Nat) (w : Word) : (x.setCsr n w).run = x.run := rfl
@[simp] theorem Core.setCsr_async (x : Core) (n : Nat) (w : Word) : (x.setCsr n w).async = x.async := rfl
@[simp] theorem Core.setCsr_owed (x : Core) (n : Nat) (w : Word) : (x.setCsr n w).owed = x.owed := rfl
@[simp] theorem Core.setCsr_posts (x : Core) (n : Nat) (w : Word) : (x.setCsr n w).posts = x.posts := rfl
@[simp] theorem Core.setCsr_entry (x : Core) (n : Nat) (w : Word) : (x.setCsr n w).entry = x.entry := rfl
@[simp] theorem Core.setCsr_coll (x : Core) (n : Nat) (w : Word) : (x.setCsr n w).coll = x.coll := rfl
@[simp] theorem Core.setCsr_phase (x : Core) (n : Nat) (w : Word) : (x.setCsr n w).phase = x.phase := rfl

@[simp] theorem Core.setG_pc (x : Core) (i : Nat) (w : Word) : (x.setG i w).pc = x.pc := by
  unfold Core.setG; split <;> rfl
@[simp] theorem Core.setG_p (x : Core) (i : Nat) (w : Word) : (x.setG i w).p = x.p := by
  unfold Core.setG; split <;> rfl
@[simp] theorem Core.setG_v (x : Core) (i : Nat) (w : Word) : (x.setG i w).v = x.v := by
  unfold Core.setG; split <;> rfl
@[simp] theorem Core.setG_loops (x : Core) (i : Nat) (w : Word) : (x.setG i w).loops = x.loops := by
  unfold Core.setG; split <;> rfl
@[simp] theorem Core.setG_frozen (x : Core) (i : Nat) (w : Word) : (x.setG i w).frozen = x.frozen := by
  unfold Core.setG; split <;> rfl
@[simp] theorem Core.setG_csr (x : Core) (i : Nat) (w : Word) : (x.setG i w).csr = x.csr := by
  unfold Core.setG; split <;> rfl
@[simp] theorem Core.setG_wait (x : Core) (i : Nat) (w : Word) : (x.setG i w).wait = x.wait := by
  unfold Core.setG; split <;> rfl
@[simp] theorem Core.setG_lines (x : Core) (i : Nat) (w : Word) : (x.setG i w).lines = x.lines := by
  unfold Core.setG; split <;> rfl
@[simp] theorem Core.setG_arrived (x : Core) (i : Nat) (w : Word) : (x.setG i w).arrived = x.arrived := by
  unfold Core.setG; split <;> rfl
@[simp] theorem Core.setG_ilen (x : Core) (i : Nat) (w : Word) : (x.setG i w).ilen = x.ilen := by
  unfold Core.setG; split <;> rfl
@[simp] theorem Core.setG_run (x : Core) (i : Nat) (w : Word) : (x.setG i w).run = x.run := by
  unfold Core.setG; split <;> rfl
@[simp] theorem Core.setG_async (x : Core) (i : Nat) (w : Word) : (x.setG i w).async = x.async := by
  unfold Core.setG; split <;> rfl
@[simp] theorem Core.setG_owed (x : Core) (i : Nat) (w : Word) : (x.setG i w).owed = x.owed := by
  unfold Core.setG; split <;> rfl
@[simp] theorem Core.setG_posts (x : Core) (i : Nat) (w : Word) : (x.setG i w).posts = x.posts := by
  unfold Core.setG; split <;> rfl
@[simp] theorem Core.setG_entry (x : Core) (i : Nat) (w : Word) : (x.setG i w).entry = x.entry := by
  unfold Core.setG; split <;> rfl
@[simp] theorem Core.setG_coll (x : Core) (i : Nat) (w : Word) : (x.setG i w).coll = x.coll := by
  unfold Core.setG; split <;> rfl
@[simp] theorem Core.setG_phase (x : Core) (i : Nat) (w : Word) : (x.setG i w).phase = x.phase := by
  unfold Core.setG; split <;> rfl

@[simp] theorem Core.setP_pc (x : Core) (i : Nat) (b : Bool) : (x.setP i b).pc = x.pc := by
  unfold Core.setP; split <;> rfl
@[simp] theorem Core.setP_g (x : Core) (i : Nat) (b : Bool) : (x.setP i b).g = x.g := by
  unfold Core.setP; split <;> rfl
@[simp] theorem Core.setP_v (x : Core) (i : Nat) (b : Bool) : (x.setP i b).v = x.v := by
  unfold Core.setP; split <;> rfl
@[simp] theorem Core.setP_loops (x : Core) (i : Nat) (b : Bool) : (x.setP i b).loops = x.loops := by
  unfold Core.setP; split <;> rfl
@[simp] theorem Core.setP_frozen (x : Core) (i : Nat) (b : Bool) : (x.setP i b).frozen = x.frozen := by
  unfold Core.setP; split <;> rfl
@[simp] theorem Core.setP_csr (x : Core) (i : Nat) (b : Bool) : (x.setP i b).csr = x.csr := by
  unfold Core.setP; split <;> rfl
@[simp] theorem Core.setP_wait (x : Core) (i : Nat) (b : Bool) : (x.setP i b).wait = x.wait := by
  unfold Core.setP; split <;> rfl
@[simp] theorem Core.setP_lines (x : Core) (i : Nat) (b : Bool) : (x.setP i b).lines = x.lines := by
  unfold Core.setP; split <;> rfl
@[simp] theorem Core.setP_arrived (x : Core) (i : Nat) (b : Bool) : (x.setP i b).arrived = x.arrived := by
  unfold Core.setP; split <;> rfl
@[simp] theorem Core.setP_ilen (x : Core) (i : Nat) (b : Bool) : (x.setP i b).ilen = x.ilen := by
  unfold Core.setP; split <;> rfl
@[simp] theorem Core.setP_run (x : Core) (i : Nat) (b : Bool) : (x.setP i b).run = x.run := by
  unfold Core.setP; split <;> rfl
@[simp] theorem Core.setP_async (x : Core) (i : Nat) (b : Bool) : (x.setP i b).async = x.async := by
  unfold Core.setP; split <;> rfl
@[simp] theorem Core.setP_owed (x : Core) (i : Nat) (b : Bool) : (x.setP i b).owed = x.owed := by
  unfold Core.setP; split <;> rfl
@[simp] theorem Core.setP_posts (x : Core) (i : Nat) (b : Bool) : (x.setP i b).posts = x.posts := by
  unfold Core.setP; split <;> rfl
@[simp] theorem Core.setP_entry (x : Core) (i : Nat) (b : Bool) : (x.setP i b).entry = x.entry := by
  unfold Core.setP; split <;> rfl
@[simp] theorem Core.setP_coll (x : Core) (i : Nat) (b : Bool) : (x.setP i b).coll = x.coll := by
  unfold Core.setP; split <;> rfl
@[simp] theorem Core.setP_phase (x : Core) (i : Nat) (b : Bool) : (x.setP i b).phase = x.phase := by
  unfold Core.setP; split <;> rfl

end Sys2Proof.Machine
end

