-- ==== Sys2Proof/Laws/Registers.lean ====
section
/-! SUPPORT. Reads of registers, cores and register files after writes of them: fields and bits of words, BAR0 registers,
cores, general and predicate registers, lanes, CSRs. -/

namespace Sys2Proof.Machine

/-! ### Fields of words -/

/-- One bit of a word whose field was set. -/
theorem bitAt_setFld {n : Nat} (w : BitVec n) (hi lo x i : Nat) (hn : i < n) :
    bitAt (setFld w hi lo x) i = if lo ≤ i ∧ i < lo + (hi + 1 - lo) then x.testBit (i - lo) else bitAt w i := by
  unfold bitAt setFld
  simp only [BitVec.toNat_ofNat, Nat.testBit_mod_two_pow, Nat.testBit_or, Nat.testBit_and, Nat.testBit_xor,
    Nat.testBit_shiftLeft, Nat.testBit_two_pow_sub_one, hn, decide_true, Bool.true_and]
  by_cases h1 : lo ≤ i
  · by_cases h2 : i < lo + (hi + 1 - lo)
    · have h3 : i - lo < hi + 1 - lo := by omega
      simp [h1, h2, h3]
    · have h3 : ¬ (i - lo < hi + 1 - lo) := by omega
      simp [h1, h2, h3]
  · simp [h1]

/-- One bit of a word after one bit was set. -/
theorem bitAt_setBit {n : Nat} (w : BitVec n) (i j : Nat) (b : Bool) (hn : j < n) :
    bitAt (setBit w i b) j = if j = i then b else bitAt w j := by
  unfold setBit
  rw [bitAt_setFld w i i (b2n b) j hn]
  by_cases h : j = i
  · subst h
    have : j ≤ j ∧ j < j + (j + 1 - j) := by omega
    simp only [this, and_self, if_true, Nat.sub_self]
    cases b <;> simp [b2n]
  · have : ¬ (i ≤ j ∧ j < i + (i + 1 - i)) := by omega
    rw [if_neg this, if_neg h]

/-- One bit of a field. -/
theorem testBit_fld {n : Nat} (w : BitVec n) (hi lo i : Nat) :
    (fld w hi lo).testBit i = (decide (i < hi + 1 - lo) && bitAt w (lo + i)) := by
  simp [fld, nfld, bitAt, Nat.testBit_mod_two_pow, Nat.testBit_shiftRight]

/-- A bit beyond the width is 0. -/
theorem bitAt_ge {n : Nat} (w : BitVec n) (i : Nat) (h : n ≤ i) : bitAt w i = false :=
  Nat.testBit_lt_two_pow (Nat.lt_of_lt_of_le w.isLt (Nat.pow_le_pow_right (by omega) h))

/-- A field after it was set. -/
theorem fld_setFld {n : Nat} (w : BitVec n) (hi lo x : Nat) (h : hi < n) :
    fld (setFld w hi lo x) hi lo = x % 2 ^ (hi + 1 - lo) := by
  apply Nat.eq_of_testBit_eq
  intro i
  rw [testBit_fld, Nat.testBit_mod_two_pow]
  by_cases hi' : i < hi + 1 - lo
  · rw [bitAt_setFld w hi lo x _ (by omega)]
    have : lo ≤ lo + i ∧ lo + i < lo + (hi + 1 - lo) := by omega
    simp [hi', this]
  · simp [hi']

/-- A field that does not overlap the one that was set. -/
theorem fld_setFld_apart {n : Nat} (w : BitVec n) (hi lo x a b : Nat) (h : a < lo ∨ hi < b) :
    fld (setFld w hi lo x) a b = fld w a b := by
  apply Nat.eq_of_testBit_eq
  intro i
  rw [testBit_fld, testBit_fld]
  by_cases hi' : i < a + 1 - b
  · by_cases hn : b + i < n
    · rw [bitAt_setFld w hi lo x _ hn]
      have : ¬ (lo ≤ b + i ∧ b + i < lo + (hi + 1 - lo)) := by omega
      simp [this]
    · rw [bitAt_ge _ _ (by omega), bitAt_ge _ _ (by omega)]
  · simp [hi']

/-- A bit outside the field that was set. -/
theorem bitAt_setFld_apart {n : Nat} (w : BitVec n) (hi lo x i : Nat) (h : i < lo ∨ hi < i) :
    bitAt (setFld w hi lo x) i = bitAt w i := by
  by_cases hn : i < n
  · rw [bitAt_setFld w hi lo x i hn]
    have : ¬ (lo ≤ i ∧ i < lo + (hi + 1 - lo)) := by omega
    simp [this]
  · rw [bitAt_ge _ _ (by omega), bitAt_ge _ _ (by omega)]

/-- A field that does not hold the bit that was set. -/
theorem fld_setBit_apart {n : Nat} (w : BitVec n) (i : Nat) (b : Bool) (a l : Nat) (h : a < i ∨ i < l) :
    fld (setBit w i b) a l = fld w a l := fld_setFld_apart w i i _ a l h

/-! ### BAR0 registers -/

theorem Dev.reg_setReg (d : Dev) (o p : Nat) (w : Word) : (d.setReg o w).reg p = if p = o then w else d.reg p :=
  tget_tput _ _ _ _ _

@[simp] theorem Dev.reg_setReg_self (d : Dev) (o : Nat) (w : Word) : (d.setReg o w).reg o = w := by
  simp [Dev.reg_setReg]

theorem Dev.reg_setReg_ne (d : Dev) {o p : Nat} (w : Word) (h : p ≠ o) : (d.setReg o w).reg p = d.reg p := by
  simp [Dev.reg_setReg, h]

theorem Dev.reg_setRf_ne (d : Dev) {o p : Nat} (hi lo x : Nat) (h : p ≠ o) : (d.setRf o hi lo x).reg p = d.reg p :=
  Dev.reg_setReg_ne d _ h

theorem Dev.reg_setRb_ne (d : Dev) {o p : Nat} (i : Nat) (b : Bool) (h : p ≠ o) : (d.setRb o i b).reg p = d.reg p :=
  Dev.reg_setReg_ne d _ h

theorem Dev.reg_satRf_ne (d : Dev) {o p : Nat} (hi lo n : Nat) (h : p ≠ o) : (d.satRf o hi lo n).reg p = d.reg p :=
  Dev.reg_setReg_ne d _ h

theorem Dev.rf_setRf_self (d : Dev) (o hi lo x : Nat) (h : hi < 64) :
    (d.setRf o hi lo x).rf o hi lo = x % 2 ^ (hi + 1 - lo) := by
  simp [Dev.setRf, Dev.rf, fld_setFld _ _ _ _ h]

theorem Dev.rb_setRb_self (d : Dev) (o i : Nat) (b : Bool) (h : i < 64) : (d.setRb o i b).rb o i = b := by
  simp [Dev.setRb, Dev.rb, bitAt_setBit _ _ _ _ h]

/-! ### Cores -/

theorem Dev.core_setCore (d : Dev) (c k : Nat) (x : Core) : (d.setCore c x).core k = if k = c then x else d.core k :=
  tget_tput _ _ _ _ _

@[simp] theorem Dev.core_setCore_self (d : Dev) (c : Nat) (x : Core) : (d.setCore c x).core c = x := by
  simp [Dev.core_setCore]

theorem Dev.core_modCore (d : Dev) (c k : Nat) (f : Core → Core) :
    (d.modCore c f).core k = if k = c then f (d.core c) else d.core k := Dev.core_setCore d c k _

@[simp] theorem Dev.core_modCore_self (d : Dev) (c : Nat) (f : Core → Core) : (d.modCore c f).core c = f (d.core c) := by
  simp [Dev.core_modCore]

/-- Setting a core twice is setting it once. -/
@[simp] theorem tput_tput {α : Type} [DecidableEq α] (df : Nat → α) (t : Tab α) (k : Nat) (v u : α) :
    tput df (tput df t k v) k u = tput df t k u := by
  have h1 : ∀ t : Tab α, tdel (tdel t k) k = tdel t k := by
    intro t; simp [tdel, List.filter_filter]
  have h2 : ∀ (t : Tab α), tdel (tins t k v) k = tdel t k := by
    intro t
    induction t with
    | nil => simp [tins, tdel]
    | cons e t ih =>
      obtain ⟨j, x⟩ := e
      unfold tins
      split
      · by_cases hj : j = k
        · omega
        · simpa [tdel, hj] using ih
      · simp [tdel]
  have h3 : tdel (tput df t k v) k = tdel t k := by
    unfold tput; split
    · exact h1 t
    · rw [h2, h1]
  show (if u = df k then tdel (tput df t k v) k else tins (tdel (tput df t k v) k) k u) = _
  rw [h3]
  rfl

@[simp] theorem Dev.setCore_setCore (d : Dev) (c : Nat) (x y : Core) : (d.setCore c x).setCore c y = d.setCore c y := by
  simp [Dev.setCore]

@[simp] theorem Dev.modCore_modCore (d : Dev) (c : Nat) (f g : Core → Core) :
    (d.modCore c f).modCore c g = d.modCore c (fun x => g (f x)) := by
  simp [Dev.modCore]

/-! ### Engines, ports, pools -/

theorem Dev.engine_setEngine (d : Dev) (e k : Nat) (x : Eng) :
    (d.setEngine e x).engine k = if k = e then x else d.engine k := tget_tput _ _ _ _ _

@[simp] theorem Dev.engine_setEngine_self (d : Dev) (e : Nat) (x : Eng) : (d.setEngine e x).engine e = x := by
  simp [Dev.engine_setEngine]

theorem Dev.port_setPort (d : Dev) (p k : Nat) (x : Port) : (d.setPort p x).port k = if k = p then x else d.port k :=
  tget_tput _ _ _ _ _

@[simp] theorem Dev.port_setPort_self (d : Dev) (p : Nat) (x : Port) : (d.setPort p x).port p = x := by
  simp [Dev.port_setPort]

theorem Dev.pool_setPool (d : Dev) (p k : Nat) (x : Pool) : (d.setPool p x).pool k = if k = p then x else d.pool k :=
  tget_tput _ _ _ _ _

@[simp] theorem Dev.pool_setPool_self (d : Dev) (p : Nat) (x : Pool) : (d.setPool p x).pool p = x := by
  simp [Dev.pool_setPool]

/-! ### Register files -/

theorem Core.getG_setG (x : Core) (i j : Nat) (w : Word) :
    (x.setG i w).getG j = if j = i ∧ i ≠ 0 then w else x.getG j := by
  unfold Core.setG Core.getG
  by_cases hi : i = 0
  · simp [hi]
  · by_cases hj : j = 0
    · have : ¬ (j = i) := by omega
      simp [hi, hj, Ne.symm hi]
    · simp [hi, hj, tget_tput]

theorem Core.getV_setV (x : Core) (i n j m : Nat) (w : W32) (h : n < 128) (hm : m < 128) :
    (x.setV i n w).getV j m = if j = i ∧ m = n then w else x.getV j m := by
  unfold Core.setV Core.getV
  rw [tget_tput]
  by_cases hk : j = i ∧ m = n
  · simp [hk]
  · have : ¬ (j * 128 + m = i * 128 + n) := by omega
    simp [hk, this]

theorem Core.csrOf_setCsr (x : Core) (n k : Nat) (w : Word) :
    (x.setCsr n w).csrOf k = if k = n then w else x.csrOf k := tget_tput _ _ _ _ _

@[simp] theorem Core.csrOf_setCsr_self (x : Core) (n : Nat) (w : Word) : (x.setCsr n w).csrOf n = w := by
  simp [Core.csrOf_setCsr]

@[simp] theorem Core.csrOf_setG (x : Core) (i n : Nat) (w : Word) : (x.setG i w).csrOf n = x.csrOf n := by
  simp [Core.csrOf]

@[simp] theorem Core.getG_setCsr (x : Core) (n i : Nat) (w : Word) : (x.setCsr n w).getG i = x.getG i := by
  simp [Core.getG]

/-! ### Tables apart -/

@[simp] theorem Dev.engine_modCore (d : Dev) (c e : Nat) (f : Core → Core) : (d.modCore c f).engine e = d.engine e := rfl
@[simp] theorem Dev.engine_setCore (d : Dev) (c e : Nat) (x : Core) : (d.setCore c x).engine e = d.engine e := rfl
@[simp] theorem Dev.core_setEngine (d : Dev) (c e : Nat) (x : Eng) : (d.setEngine e x).core c = d.core c := rfl
@[simp] theorem Dev.core_setReg (d : Dev) (o c : Nat) (w : Word) : (d.setReg o w).core c = d.core c := rfl
@[simp] theorem Dev.engine_setReg (d : Dev) (o e : Nat) (w : Word) : (d.setReg o w).engine e = d.engine e := rfl
@[simp] theorem Dev.pool_setReg (d : Dev) (o p : Nat) (w : Word) : (d.setReg o w).pool p = d.pool p := rfl
@[simp] theorem Dev.pool_modCore (d : Dev) (c p : Nat) (f : Core → Core) : (d.modCore c f).pool p = d.pool p := rfl
@[simp] theorem Dev.port_setReg (d : Dev) (o p : Nat) (w : Word) : (d.setReg o w).port p = d.port p := rfl
@[simp] theorem Dev.reg_modCore (d : Dev) (c o : Nat) (f : Core → Core) : (d.modCore c f).reg o = d.reg o := rfl
@[simp] theorem Dev.reg_setCore (d : Dev) (c o : Nat) (x : Core) : (d.setCore c x).reg o = d.reg o := rfl
@[simp] theorem Dev.reg_setEngine (d : Dev) (e o : Nat) (x : Eng) : (d.setEngine e x).reg o = d.reg o := rfl
@[simp] theorem Dev.reg_setPool (d : Dev) (p o : Nat) (x : Pool) : (d.setPool p x).reg o = d.reg o := rfl
@[simp] theorem Dev.reg_setPort (d : Dev) (p o : Nat) (x : Port) : (d.setPort p x).reg o = d.reg o := rfl
@[simp] theorem Dev.core_setPool (d : Dev) (p c : Nat) (x : Pool) : (d.setPool p x).core c = d.core c := rfl

/-! ### Fields and bits of other registers, and of other fields of one register, after a write -/

theorem Dev.rf_setReg_ne (d : Dev) {o p : Nat} (w : Word) (a b : Nat) (h : p ≠ o) : (d.setReg o w).rf p a b = d.rf p a b := by
  simp [Dev.rf, Dev.reg_setReg_ne d w h]

theorem Dev.rb_setReg_ne (d : Dev) {o p : Nat} (w : Word) (i : Nat) (h : p ≠ o) : (d.setReg o w).rb p i = d.rb p i := by
  simp [Dev.rb, Dev.reg_setReg_ne d w h]

theorem Dev.rf_setRf_ne (d : Dev) {o p : Nat} (hi lo x a b : Nat) (h : p ≠ o) : (d.setRf o hi lo x).rf p a b = d.rf p a b :=
  Dev.rf_setReg_ne d _ a b h

theorem Dev.rf_setRf_apart (d : Dev) (o hi lo x a b : Nat) (h : a < lo ∨ hi < b) :
    (d.setRf o hi lo x).rf o a b = d.rf o a b := by
  simp [Dev.rf, Dev.setRf, fld_setFld_apart _ _ _ _ _ _ h]

theorem Dev.rb_setRf_ne (d : Dev) {o p : Nat} (hi lo x i : Nat) (h : p ≠ o) : (d.setRf o hi lo x).rb p i = d.rb p i :=
  Dev.rb_setReg_ne d _ i h

theorem Dev.rb_setRf_apart (d : Dev) (o hi lo x i : Nat) (h : i < lo ∨ hi < i) :
    (d.setRf o hi lo x).rb o i = d.rb o i := by
  simp [Dev.rb, Dev.setRf, bitAt_setFld_apart _ _ _ _ _ h]

theorem Dev.rf_setRb_ne (d : Dev) {o p : Nat} (i : Nat) (v : Bool) (a b : Nat) (h : p ≠ o) : (d.setRb o i v).rf p a b = d.rf p a b :=
  Dev.rf_setReg_ne d _ a b h

theorem Dev.rf_setRb_apart (d : Dev) (o i : Nat) (v : Bool) (a b : Nat) (h : a < i ∨ i < b) :
    (d.setRb o i v).rf o a b = d.rf o a b := by
  simp [Dev.rf, Dev.setRb, fld_setBit_apart _ _ _ _ _ h]

theorem Dev.rb_setRb_ne (d : Dev) {o p : Nat} (i : Nat) (v : Bool) (j : Nat) (h : p ≠ o) : (d.setRb o i v).rb p j = d.rb p j :=
  Dev.rb_setReg_ne d _ j h

theorem Dev.rb_setRb_apart (d : Dev) (o i : Nat) (v : Bool) (j : Nat) (h : j ≠ i) (hj : j < 64) :
    (d.setRb o i v).rb o j = d.rb o j := by
  simp [Dev.rb, Dev.setRb, bitAt_setBit _ _ _ _ hj, h]

/-- Registers set in a row read as before elsewhere. -/
theorem Dev.reg_foldl_setReg (f : Nat → Nat) (g : Dev → Nat → Word) (ks : List Nat) (d : Dev) (p : Nat) (h : ∀ k ∈ ks, p ≠ f k) :
    (ks.foldl (fun a k => a.setReg (f k) (g a k)) d).reg p = d.reg p := by
  induction ks generalizing d with
  | nil => rfl
  | cons k ks ih =>
    rw [List.foldl_cons, ih _ (fun j hj => h j (List.mem_cons_of_mem _ hj)), Dev.reg_setReg_ne _ _ (h k List.mem_cons_self)]

end Sys2Proof.Machine
end

