-- ==== Sys2Proof/Laws/Issue.lean ====
section
/-! SUPPORT. What the shared operations of commands can do: `run`, `host`, `Dev.instr`, `Dev.finish`, retirement. -/

namespace Sys2Proof.Machine

open Sys2Proof.Safety

/-- A well-formed command that changes the device completes. -/
theorem run_wf {i : Instr} {f : Dev → Dev} {s : State} (h : i.wf = true) : run i f s = .next { s with dev := f s.dev } := by
  simp [run, h, onDev]

/-- All that a command that changes the device can do. -/
theorem run_next {i : Instr} {f : Dev → Dev} {s t : State} (h : run i f s = .next t) :
    i.wf = true ∧ t = { s with dev := f s.dev } := by
  unfold run at h
  split at h
  · simp only [onDev, Host.Outcome.next.injEq] at h; exact ⟨by assumption, h.symm⟩
  · cases h

/-- A host access that is not held back has its effect. -/
theorem host_open {c : Instr} {v : Via} {sec post : Bool} {f : Dev → Dev} {s : State} (h : c.wf = true)
    (ho : HostOpen s.dev c v sec post) : host c v sec post f s = .next { s with dev := f s.dev } := by
  unfold host
  rw [run_wf h]
  unfold HostOpen at ho
  simp [Dev.barAccess, ho]

/-- An instruction that issues does what its body says. -/
theorem Dev.instr_issues {d : Dev} {op : Op} {legal : Bool} {w : IW} {body : Dev → Core → IRes}
    (h : Issues d op legal w) : d.instr op legal w body = Dev.finish w.core (ilenOf w) (body d (d.core w.core)) := by
  obtain ⟨h1, h2, h3, h4, h5, h6⟩ := h
  have h7 : ¬ (op.eOnly = true ∧ 32 ≤ w.core) := fun ⟨a, b⟩ => by have := h5 a; omega
  simp [Dev.instr, h1, h2, h3, h4, h6]
  intro a b
  exact absurd ⟨a, b⟩ h7

/-- The end of a core's line reads changes the reads on their way and nothing else. -/
theorem Dev.endReads_eq (d : Dev) (c : Nat) : d.endReads c = { d with fab := { d.fab with reads := (d.endReads c).fab.reads } } := by
  unfold Dev.endReads
  split <;> rfl

@[simp] theorem Dev.endReads_cores (d : Dev) (c : Nat) : (d.endReads c).cores = d.cores := by rw [Dev.endReads_eq]

@[simp] theorem Dev.endReads_eng (d : Dev) (c : Nat) : (d.endReads c).eng = d.eng := by rw [Dev.endReads_eq]

@[simp] theorem Dev.endReads_core (d : Dev) (c k : Nat) : (d.endReads c).core k = d.core k := by
  simp [Dev.core]

@[simp] theorem Dev.endReads_engine (d : Dev) (c k : Nat) : (d.endReads c).engine k = d.engine k := by
  simp [Dev.engine]

/-- The end of line reads and a change of the cores commute. -/
theorem Dev.endReads_withCores (d : Dev) (c : Nat) (t : Tab Core) :
    ({ d with cores := t } : Dev).endReads c = { d.endReads c with cores := t } := by
  unfold Dev.endReads
  dsimp only
  split <;> rfl

/-- The end of line reads and a change of the engines commute. -/
theorem Dev.endReads_withEng (d : Dev) (c : Nat) (t : Tab Eng) :
    ({ d with eng := t } : Dev).endReads c = { d.endReads c with eng := t } := by
  unfold Dev.endReads
  dsimp only
  split <;> rfl

/-- Where no line read of the core is on its way, its end changes nothing. -/
theorem Dev.endReads_none {d : Dev} {c : Nat}
    (h : ∀ r ∈ d.fab.reads, ∀ k l, r.use = .core k l → k ≠ c) : d.endReads c = d := by
  unfold Dev.endReads
  rw [if_neg]
  rw [List.any_eq_true]
  rintro ⟨r, hr, hu⟩
  split at hu
  · rename_i k l he
    exact h r hr k l he (of_decide_eq_true hu)
  · cases hu

/-- Line reads that have ended have ended. -/
@[simp] theorem Dev.endReads_idem (d : Dev) (c : Nat) : (d.endReads c).endReads c = d.endReads c := by
  apply Dev.endReads_none
  intro r hr k l he hk
  unfold Dev.endReads at hr
  split at hr
  · simp only [List.mem_map] at hr
    obtain ⟨q, _, rfl⟩ := hr
    split at he
    · split at he
      · cases he
      · rename_i j m hj hn
        rw [hj] at he
        injection he with h1
        exact hn (h1.trans hk)
    · rename_i hq
      exact hq k l he
  · rename_i hn
    apply hn
    rw [List.any_eq_true]
    exact ⟨r, hr, by rw [he]; simpa using hk⟩

@[simp] theorem Dev.finish_done (c n : Nat) (d : Dev) : Dev.finish c n (.done d) = (d.endReads c).modCore c (fun x => x.retire n) := rfl

@[simp] theorem Dev.finish_stall (c n : Nat) (d : Dev) (w : Wait) :
    Dev.finish c n (.stall d w) = d.modCore c (fun x => { x with wait := some w, ilen := n }) := rfl

@[simp] theorem Dev.finish_jump (c n t : Nat) (d : Dev) : Dev.finish c n (.jump d t) = (d.endReads c).jumpTo c t := rfl

/-- Changing core c changes only core c. -/
theorem onlyCore_modCore (d : Dev) (c : Nat) (f : Core → Core) : OnlyCore d (d.modCore c f) c (f (d.core c)) :=
  ⟨⟨false, rfl⟩, fun k => Dev.core_modCore d c k f⟩

theorem onlyCore_setCore (d : Dev) (c : Nat) (x : Core) : OnlyCore d (d.setCore c x) c x :=
  ⟨⟨false, rfl⟩, fun k => Dev.core_setCore d c k x⟩

/-- The end of a core's line reads changes no core. -/
theorem onlyCore_endReads (d : Dev) (c : Nat) : OnlyCore d (d.endReads c) c (d.core c) :=
  ⟨⟨true, rfl⟩, fun k => by rw [Dev.endReads_core]; split <;> simp_all⟩

/-- Changes of one core, one after another, change only that core. -/
theorem onlyCore_trans {d e f : Dev} {c : Nat} {x y : Core} (h1 : OnlyCore d e c x) (h2 : OnlyCore e f c y) :
    OnlyCore d f c y := by
  obtain ⟨⟨p, a1⟩, b1⟩ := h1
  obtain ⟨⟨q, a2⟩, b2⟩ := h2
  refine ⟨⟨p || q, ?_⟩, fun k => ?_⟩
  · obtain ⟨t, rfl⟩ : ∃ t, e = { ended d c p with cores := t } := ⟨_, a1⟩
    cases q
    · rw [Bool.or_false]
      exact a2
    · refine a2.trans ?_
      rw [Bool.or_true]
      cases p
      · rw [show ended { ended d c false with cores := t } c true = { d.endReads c with cores := t } from
          Dev.endReads_withCores d c t]
        rfl
      · rw [show ended { ended d c true with cores := t } c true = { (d.endReads c).endReads c with cores := t } from
          Dev.endReads_withCores (d.endReads c) c t, Dev.endReads_idem]
        rfl
  · rw [b2, b1]; split <;> rfl

/-- Completion of an instruction changes only its core, which retires. -/
theorem onlyCore_done (d : Dev) (c n : Nat) : OnlyCore d (Dev.finish c n (.done d)) c ((d.core c).retire n) := by
  have h := onlyCore_trans (onlyCore_endReads d c) (onlyCore_modCore (d.endReads c) c (fun x => x.retire n))
  rwa [Dev.endReads_core] at h

/-- Completion with a result in the core: a change of the core, then retirement. -/
theorem onlyCore_done_mod (d : Dev) (c n : Nat) (f : Core → Core) :
    OnlyCore d (Dev.finish c n (.done (d.modCore c f))) c ((f (d.core c)).retire n) := by
  have h := onlyCore_trans (onlyCore_modCore d c f) (onlyCore_done (d.modCore c f) c n)
  rwa [Dev.core_modCore, if_pos rfl] at h

/-- A stall: the core waits. -/
theorem onlyCore_stall (d : Dev) (c n : Nat) (w : Wait) :
    OnlyCore d (Dev.finish c n (.stall d w)) c { d.core c with wait := some w, ilen := n } :=
  onlyCore_modCore d c (fun x => { x with wait := some w, ilen := n })

/-- An entry to M without a fault. -/
theorem onlyCore_enter (d : Dev) (c n cause : Nat) (r : RunState) :
    OnlyCore d (Dev.finish c n (.enter d cause r)) c { (d.core c).enterM cause 0 with run := r, frozen := true } :=
  onlyCore_modCore d c (fun x => { x.enterM cause 0 with run := r, frozen := true })

/-- Completion of an instruction that changes its engine. -/
theorem onlyEngine_done (d : Dev) (c n : Nat) (y : Eng) :
    OnlyEngine d (Dev.finish c n (.done (d.setEngine c y))) c ((d.core c).retire n) y := by
  refine ⟨⟨true, ?_⟩, fun k => ?_, fun k => ?_⟩
  · rw [Dev.finish_done]
    unfold Dev.setEngine
    rw [Dev.endReads_withEng]
    rfl
  · simp [Dev.core_modCore]
  · simp [Dev.engine_setEngine]

/-- Tiles: a handle reads what was last set. -/
theorem Eng.tile_setTile (x : Eng) (h k : Nat) (t : Option Tile) :
    (x.setTile h t).tile k = if k = h then t else x.tile k := tget_tput _ _ _ _ _

/-- A target in range: the core goes on there, and runs a shipped program that begins there. -/
theorem Dev.jumpTo_inside (d : Dev) (c t : Nat) (h : t < 2 ^ 48) :
    d.jumpTo c t = (d.setCore c (jumped (d.core c) t)).enterRings c := by
  have h1 : t % 2 ^ 64 = t := Nat.mod_eq_of_lt (by omega)
  have h2 : t % 2 ^ 64 / 2 ^ 48 = 0 := by rw [h1]; exact Nat.div_eq_of_lt h
  unfold Dev.jumpTo jumped
  simp only
  rw [if_pos h2, h1]

/-- Where no shipped program begins at the pc, `enterRings` leaves the device. -/
theorem Dev.enterRings_plain (d : Dev) (c : Nat) (h : NoProgramAt d c (d.core c).pc.toNat) : d.enterRings c = d := by
  unfold Dev.enterRings
  unfold NoProgramAt at h
  dsimp only
  split
  · rfl
  · rename_i s hs
    split
    · rfl
    · rename_i r hr
      have := h s r hs hr
      simp [this.1, this.2]

/-! ### Faults at cores -/

/-- The entry and unit counts that a core adds to a fault leave its code and its fault word. -/
@[simp] theorem Dev.withEntry_code (d : Dev) (c : Nat) (f : FaultInfo) : (d.withEntry c f).code = f.code := by
  unfold Dev.withEntry
  split
  · rfl
  · dsimp only; split
    · rfl
    · split
      · rfl
      · split <;> rfl

@[simp] theorem Dev.withEntry_info (d : Dev) (c : Nat) (f : FaultInfo) : (d.withEntry c f).info = f.info := by
  unfold Dev.withEntry
  split
  · rfl
  · dsimp only; split
    · rfl
    · split
      · rfl
      · split <;> rfl

/-! ### Retirement (R407, R410) -/

@[simp] theorem Core.retire_g (x : Core) (n : Nat) : (x.retire n).g = x.g := rfl
@[simp] theorem Core.retire_p (x : Core) (n : Nat) : (x.retire n).p = x.p := rfl
@[simp] theorem Core.retire_v (x : Core) (n : Nat) : (x.retire n).v = x.v := rfl
@[simp] theorem Core.retire_run (x : Core) (n : Nat) : (x.retire n).run = x.run := rfl
@[simp] theorem Core.retire_frozen (x : Core) (n : Nat) : (x.retire n).frozen = x.frozen := rfl
@[simp] theorem Core.retire_async (x : Core) (n : Nat) : (x.retire n).async = x.async := rfl
@[simp] theorem Core.retire_posts (x : Core) (n : Nat) : (x.retire n).posts = x.posts := rfl
@[simp] theorem Core.retire_entry (x : Core) (n : Nat) : (x.retire n).entry = x.entry := rfl
@[simp] theorem Core.retire_arrived (x : Core) (n : Nat) : (x.retire n).arrived = x.arrived := rfl
@[simp] theorem Core.retire_coll (x : Core) (n : Nat) : (x.retire n).coll = x.coll := rfl
@[simp] theorem Core.retire_wait (x : Core) (n : Nat) : (x.retire n).wait = none := rfl

/-- RETIRED counts, every other CSR stays. -/
theorem Core.retire_csrOf (x : Core) (n k : Nat) :
    (x.retire n).csrOf k = if k = 0x401 then x.csrOf 0x401 + 1 else x.csrOf k := Core.csrOf_setCsr x 0x401 k _

/-- Without a loop level the pc advances by the length of the instruction. -/
theorem Core.retire_pc (x : Core) (n : Nat) (h : x.loops = []) : (x.retire n).pc = pcMask (x.pc.toNat + n) := by
  unfold Core.retire
  split <;> simp_all [loopEnd]

@[simp] theorem Core.getG_retire (x : Core) (n i : Nat) : (x.retire n).getG i = x.getG i := rfl
@[simp] theorem Core.getP_retire (x : Core) (n i : Nat) : (x.retire n).getP i = x.getP i := rfl

/-! ### What is passed over, waits of loads and stores, writes of CSRs (R80, R128, R323, R70, R71) -/

/-- An instruction passed over changes the pc, and RETIRED and the loop levels stay. -/
theorem Core.skip_frame (x : Core) (n : Nat) : x.skip n = { x with pc := (x.skip n).pc, lines := [] } := rfl

/-- A core whose work is all in local memory waits with no load of it. -/
theorem Dev.linePending_none (d : Dev) (c va n : Nat) (h : d.linesOut c = false) : d.linePending c va n = false := by
  unfold Dev.linesOut at h
  rw [Bool.or_eq_false_iff] at h
  have ha : (d.core c).arrived = [] := by simpa using h.2
  simp only [Dev.linePending, Dev.lineDue, ha, List.any_nil, Bool.or_false, List.any_eq_false]
  intro r hr hu
  have hl := List.any_eq_false.mp h.1 r hr
  unfold LineRead.isLdl at hl
  split at hu
  · rename_i heq; simp only [heq] at hl; simp_all
  · cases hu

/-- A write of a CSR reaches the core's own CSRs or its predicates, and only where the core may write it. -/
theorem Dev.csrWrite_cases (d : Dev) (c n : Nat) (v : Word) :
    (csrWritable ((d.core c).atM c) n = false ∧ d.csrWrite c n v = d)
      ∨ (csrWritable ((d.core c).atM c) n = true ∧ ((n = 0 ∧ d.csrWrite c n v =
          d.setCore c { d.core c with p := setBit (BitVec.ofNat 8 v.toNat) 0 false })
        ∨ (n ≠ 0 ∧ d.csrWrite c n v = d.setCore c ((d.core c).setCsr n ((d.core c).csrNew n v))))) := by
  unfold Dev.csrWrite
  by_cases h : csrWritable ((d.core c).atM c) n = false
  · exact .inl ⟨h, by simp [h]⟩
  · by_cases h0 : n = 0
    · exact .inr ⟨by simpa using h, .inl ⟨h0, by rw [if_neg h, if_pos h0]⟩⟩
    · exact .inr ⟨by simpa using h, .inr ⟨h0, by rw [if_neg h, if_neg h0]⟩⟩

end Sys2Proof.Machine
end

