-- ==== Sys2Proof/Laws/Commands.lean ====
section
/-! SUPPORT. The commands that change nothing but the device: fuses, flash and the queue stay as they are. The others are
those of the power-up sequence, of SEC_CMD, of resets, register writes that may start one, the ageing evaluation, a pass that
finds a residue mismatch, and the input voltage. -/

namespace Sys2Proof.Machine

/-- A command changes the device alone, or is refused where it is not well-formed. -/
def DeviceOnly (c : Instr) : Prop := ∀ s, ∃ f : Dev → Dev, exec c s = run c f s

/-- All that such a command can do. -/
theorem DeviceOnly.next {c : Instr} (h : DeviceOnly c) {s t : State} (e : exec c s = .next t) :
    c.wf = true ∧ t.pending = s.pending ∧ t.nv = s.nv := by
  obtain ⟨f, hf⟩ := h s
  rw [hf] at e
  obtain ⟨h1, h2⟩ := run_next e
  subst h2
  exact ⟨h1, rfl, rfl⟩

/-- It completes where it is well-formed. -/
theorem DeviceOnly.completes {c : Instr} (h : DeviceOnly c) (s : State) (hw : c.wf = true) : Sys2Proof.Safety.Completes c s := by
  obtain ⟨f, hf⟩ := h s
  exact ⟨_, hf.trans (run_wf hw)⟩

/-- It is refused where it is not. -/
theorem DeviceOnly.refused {c : Instr} (h : DeviceOnly c) (s : State) (hw : c.wf = false) : exec c s = .refused .illFormed := by
  obtain ⟨f, hf⟩ := h s
  rw [hf]; simp [run, hw]

theorem deviceOnly_add (i : Bool) (w : IW) : DeviceOnly (.add i w) :=
  fun _ => ⟨_, by unfold exec execAdd; rfl⟩
theorem deviceOnly_sub (i : Bool) (w : IW) : DeviceOnly (.sub i w) :=
  fun _ => ⟨_, by unfold exec execSub; rfl⟩
theorem deviceOnly_and (i : Bool) (w : IW) : DeviceOnly (.and i w) :=
  fun _ => ⟨_, by unfold exec execAnd; rfl⟩
theorem deviceOnly_or (i : Bool) (w : IW) : DeviceOnly (.or i w) :=
  fun _ => ⟨_, by unfold exec execOr; rfl⟩
theorem deviceOnly_xor (i : Bool) (w : IW) : DeviceOnly (.xor i w) :=
  fun _ => ⟨_, by unfold exec execXor; rfl⟩
theorem deviceOnly_sll (i : Bool) (w : IW) : DeviceOnly (.sll i w) :=
  fun _ => ⟨_, by unfold exec execSll; rfl⟩
theorem deviceOnly_srl (i : Bool) (w : IW) : DeviceOnly (.srl i w) :=
  fun _ => ⟨_, by unfold exec execSrl; rfl⟩
theorem deviceOnly_sra (i : Bool) (w : IW) : DeviceOnly (.sra i w) :=
  fun _ => ⟨_, by unfold exec execSra; rfl⟩
theorem deviceOnly_min (i : Bool) (w : IW) : DeviceOnly (.min i w) :=
  fun _ => ⟨_, by unfold exec execMin; rfl⟩
theorem deviceOnly_max (i : Bool) (w : IW) : DeviceOnly (.max i w) :=
  fun _ => ⟨_, by unfold exec execMax; rfl⟩
theorem deviceOnly_minu (i : Bool) (w : IW) : DeviceOnly (.minu i w) :=
  fun _ => ⟨_, by unfold exec execMinu; rfl⟩
theorem deviceOnly_maxu (i : Bool) (w : IW) : DeviceOnly (.maxu i w) :=
  fun _ => ⟨_, by unfold exec execMaxu; rfl⟩
theorem deviceOnly_mul (i : Bool) (w : IW) : DeviceOnly (.mul i w) :=
  fun _ => ⟨_, by unfold exec execMul; rfl⟩
theorem deviceOnly_mulh (i : Bool) (w : IW) : DeviceOnly (.mulh i w) :=
  fun _ => ⟨_, by unfold exec execMulh; rfl⟩
theorem deviceOnly_mulhu (i : Bool) (w : IW) : DeviceOnly (.mulhu i w) :=
  fun _ => ⟨_, by unfold exec execMulhu; rfl⟩
theorem deviceOnly_div (i : Bool) (w : IW) : DeviceOnly (.div i w) :=
  fun _ => ⟨_, by unfold exec execDiv; rfl⟩
theorem deviceOnly_divu (i : Bool) (w : IW) : DeviceOnly (.divu i w) :=
  fun _ => ⟨_, by unfold exec execDivu; rfl⟩
theorem deviceOnly_rem (i : Bool) (w : IW) : DeviceOnly (.rem i w) :=
  fun _ => ⟨_, by unfold exec execRem; rfl⟩
theorem deviceOnly_remu (i : Bool) (w : IW) : DeviceOnly (.remu i w) :=
  fun _ => ⟨_, by unfold exec execRemu; rfl⟩
theorem deviceOnly_popc (i : Bool) (w : IW) : DeviceOnly (.popc i w) :=
  fun _ => ⟨_, by unfold exec execPopc; rfl⟩
theorem deviceOnly_clz (i : Bool) (w : IW) : DeviceOnly (.clz i w) :=
  fun _ => ⟨_, by unfold exec execClz; rfl⟩
theorem deviceOnly_ctz (i : Bool) (w : IW) : DeviceOnly (.ctz i w) :=
  fun _ => ⟨_, by unfold exec execCtz; rfl⟩
theorem deviceOnly_luh (w : IW) : DeviceOnly (.luh w) :=
  fun _ => ⟨_, by unfold exec execLuh; rfl⟩
theorem deviceOnly_cmp (w : IW) : DeviceOnly (.cmp w) :=
  fun _ => ⟨_, by unfold exec execCmp; rfl⟩
theorem deviceOnly_cmpi (w : IW) : DeviceOnly (.cmpi w) :=
  fun _ => ⟨_, by unfold exec execCmpi; rfl⟩
theorem deviceOnly_pand (w : IW) : DeviceOnly (.pand w) :=
  fun _ => ⟨_, by unfold exec execPand; rfl⟩
theorem deviceOnly_por (w : IW) : DeviceOnly (.por w) :=
  fun _ => ⟨_, by unfold exec execPor; rfl⟩
theorem deviceOnly_pxor (w : IW) : DeviceOnly (.pxor w) :=
  fun _ => ⟨_, by unfold exec execPxor; rfl⟩
theorem deviceOnly_pandn (w : IW) : DeviceOnly (.pandn w) :=
  fun _ => ⟨_, by unfold exec execPandn; rfl⟩
theorem deviceOnly_bp (w : IW) : DeviceOnly (.bp w) :=
  fun _ => ⟨_, by unfold exec execBp; rfl⟩
theorem deviceOnly_jal (w : IW) : DeviceOnly (.jal w) :=
  fun _ => ⟨_, by unfold exec execJal; rfl⟩
theorem deviceOnly_jalr (w : IW) : DeviceOnly (.jalr w) :=
  fun _ => ⟨_, by unfold exec execJalr; rfl⟩
theorem deviceOnly_ld (w : IW) : DeviceOnly (.ld w) :=
  fun _ => ⟨_, by unfold exec execLd; rfl⟩
theorem deviceOnly_st (w : IW) : DeviceOnly (.st w) :=
  fun _ => ⟨_, by unfold exec execSt; rfl⟩
theorem deviceOnly_ldl (w : IW) : DeviceOnly (.ldl w) :=
  fun _ => ⟨_, by unfold exec execLdl; rfl⟩
theorem deviceOnly_stl (w : IW) : DeviceOnly (.stl w) :=
  fun _ => ⟨_, by unfold exec execStl; rfl⟩
theorem deviceOnly_fence (w : IW) : DeviceOnly (.fence w) :=
  fun _ => ⟨_, by unfold exec execFence; rfl⟩
theorem deviceOnly_fenceD (w : IW) : DeviceOnly (.fenceD w) :=
  fun _ => ⟨_, by unfold exec execFenceD; rfl⟩
theorem deviceOnly_csrr (w : IW) : DeviceOnly (.csrr w) :=
  fun _ => ⟨_, by unfold exec execCsrr; rfl⟩
theorem deviceOnly_csrw (w : IW) : DeviceOnly (.csrw w) :=
  fun _ => ⟨_, by unfold exec execCsrw; rfl⟩
theorem deviceOnly_csrs (w : IW) : DeviceOnly (.csrs w) :=
  fun _ => ⟨_, by unfold exec execCsrs; rfl⟩
theorem deviceOnly_csrc (w : IW) : DeviceOnly (.csrc w) :=
  fun _ => ⟨_, by unfold exec execCsrc; rfl⟩
theorem deviceOnly_jcall (w : IW) : DeviceOnly (.jcall w) :=
  fun _ => ⟨_, by unfold exec execJcall; rfl⟩
theorem deviceOnly_jfret (w : IW) : DeviceOnly (.jfret w) :=
  fun _ => ⟨_, by unfold exec execJfret; rfl⟩
theorem deviceOnly_ebreak (w : IW) : DeviceOnly (.ebreak w) :=
  fun _ => ⟨_, by unfold exec execEbreak; rfl⟩
theorem deviceOnly_wfi (w : IW) : DeviceOnly (.wfi w) :=
  fun _ => ⟨_, by unfold exec execWfi; rfl⟩
theorem deviceOnly_mret (w : IW) : DeviceOnly (.mret w) :=
  fun _ => ⟨_, by unfold exec execMret; rfl⟩
theorem deviceOnly_halt (w : IW) : DeviceOnly (.halt w) :=
  fun _ => ⟨_, by unfold exec execHalt; rfl⟩
theorem deviceOnly_sopost (w : IW) : DeviceOnly (.sopost w) :=
  fun _ => ⟨_, by unfold exec execSopost; rfl⟩
theorem deviceOnly_sowait (w : IW) : DeviceOnly (.sowait w) :=
  fun _ => ⟨_, by unfold exec execSowait; rfl⟩
theorem deviceOnly_sowaitEnd (c : Nat) : DeviceOnly (.sowaitEnd c) :=
  fun _ => ⟨_, by unfold exec execSowaitEnd; rfl⟩
theorem deviceOnly_soreset (w : IW) : DeviceOnly (.soreset w) :=
  fun _ => ⟨_, by unfold exec execSoreset; rfl⟩
theorem deviceOnly_asyncUnitFaultTaken (c : Nat) : DeviceOnly (.asyncUnitFaultTaken c) :=
  fun _ => ⟨_, by unfold exec execAsyncUnitFaultTaken; rfl⟩
theorem deviceOnly_debugHalt (c : Nat) : DeviceOnly (.debugHalt c) :=
  fun _ => ⟨_, by unfold exec execDebugHalt; rfl⟩
theorem deviceOnly_manchorPropose (w : IW) : DeviceOnly (.manchorPropose w) :=
  fun _ => ⟨_, by unfold exec execManchorPropose; rfl⟩
theorem deviceOnly_manchorSet (w : IW) : DeviceOnly (.manchorSet w) :=
  fun _ => ⟨_, by unfold exec execManchorSet; rfl⟩
theorem deviceOnly_mloadw (w : IW) : DeviceOnly (.mloadw w) :=
  fun _ => ⟨_, by unfold exec execMloadw; rfl⟩
theorem deviceOnly_shadowFillStart (e : Nat) : DeviceOnly (.shadowFillStart e) :=
  fun _ => ⟨_, by unfold exec execShadowFillStart; rfl⟩
theorem deviceOnly_shadowFillDone (e : Nat) : DeviceOnly (.shadowFillDone e) :=
  fun _ => ⟨_, by unfold exec execShadowFillDone; rfl⟩
theorem deviceOnly_mstream (w : IW) : DeviceOnly (.mstream w) :=
  fun _ => ⟨_, by unfold exec execMstream; rfl⟩
theorem deviceOnly_tileAllocationServed (e : Nat) : DeviceOnly (.tileAllocationServed e) :=
  fun _ => ⟨_, by unfold exec execTileAllocationServed; rfl⟩
theorem deviceOnly_mdrain (w : IW) : DeviceOnly (.mdrain w) :=
  fun _ => ⟨_, by unfold exec execMdrain; rfl⟩
theorem deviceOnly_drainCommit (e : Nat) : DeviceOnly (.drainCommit e) :=
  fun _ => ⟨_, by unfold exec execDrainCommit; rfl⟩
theorem deviceOnly_mtstat (w : IW) : DeviceOnly (.mtstat w) :=
  fun _ => ⟨_, by unfold exec execMtstat; rfl⟩
theorem deviceOnly_vadd (w : IW) : DeviceOnly (.vadd w) :=
  fun _ => ⟨_, by unfold exec execVadd; rfl⟩
theorem deviceOnly_vsub (w : IW) : DeviceOnly (.vsub w) :=
  fun _ => ⟨_, by unfold exec execVsub; rfl⟩
theorem deviceOnly_vmul (w : IW) : DeviceOnly (.vmul w) :=
  fun _ => ⟨_, by unfold exec execVmul; rfl⟩
theorem deviceOnly_vmin (w : IW) : DeviceOnly (.vmin w) :=
  fun _ => ⟨_, by unfold exec execVmin; rfl⟩
theorem deviceOnly_vmax (w : IW) : DeviceOnly (.vmax w) :=
  fun _ => ⟨_, by unfold exec execVmax; rfl⟩
theorem deviceOnly_vdiv (w : IW) : DeviceOnly (.vdiv w) :=
  fun _ => ⟨_, by unfold exec execVdiv; rfl⟩
theorem deviceOnly_vsqrt (w : IW) : DeviceOnly (.vsqrt w) :=
  fun _ => ⟨_, by unfold exec execVsqrt; rfl⟩
theorem deviceOnly_vexp2 (w : IW) : DeviceOnly (.vexp2 w) :=
  fun _ => ⟨_, by unfold exec execVexp2; rfl⟩
theorem deviceOnly_vlog2 (w : IW) : DeviceOnly (.vlog2 w) :=
  fun _ => ⟨_, by unfold exec execVlog2; rfl⟩
theorem deviceOnly_vrcp (w : IW) : DeviceOnly (.vrcp w) :=
  fun _ => ⟨_, by unfold exec execVrcp; rfl⟩
theorem deviceOnly_vrsq (w : IW) : DeviceOnly (.vrsq w) :=
  fun _ => ⟨_, by unfold exec execVrsq; rfl⟩
theorem deviceOnly_vfma (w : IW) : DeviceOnly (.vfma w) :=
  fun _ => ⟨_, by unfold exec execVfma; rfl⟩
theorem deviceOnly_vfms (w : IW) : DeviceOnly (.vfms w) :=
  fun _ => ⟨_, by unfold exec execVfms; rfl⟩
theorem deviceOnly_vcmp (w : IW) : DeviceOnly (.vcmp w) :=
  fun _ => ⟨_, by unfold exec execVcmp; rfl⟩
theorem deviceOnly_vand (w : IW) : DeviceOnly (.vand w) :=
  fun _ => ⟨_, by unfold exec execVand; rfl⟩
theorem deviceOnly_vor (w : IW) : DeviceOnly (.vor w) :=
  fun _ => ⟨_, by unfold exec execVor; rfl⟩
theorem deviceOnly_vxor (w : IW) : DeviceOnly (.vxor w) :=
  fun _ => ⟨_, by unfold exec execVxor; rfl⟩
theorem deviceOnly_viadd (w : IW) : DeviceOnly (.viadd w) :=
  fun _ => ⟨_, by unfold exec execViadd; rfl⟩
theorem deviceOnly_vsel (w : IW) : DeviceOnly (.vsel w) :=
  fun _ => ⟨_, by unfold exec execVsel; rfl⟩
theorem deviceOnly_vshl (w : IW) : DeviceOnly (.vshl w) :=
  fun _ => ⟨_, by unfold exec execVshl; rfl⟩
theorem deviceOnly_vshr (w : IW) : DeviceOnly (.vshr w) :=
  fun _ => ⟨_, by unfold exec execVshr; rfl⟩
theorem deviceOnly_vcvt (w : IW) : DeviceOnly (.vcvt w) :=
  fun _ => ⟨_, by unfold exec execVcvt; rfl⟩
theorem deviceOnly_vld (w : IW) : DeviceOnly (.vld w) :=
  fun _ => ⟨_, by unfold exec execVld; rfl⟩
theorem deviceOnly_vst (w : IW) : DeviceOnly (.vst w) :=
  fun _ => ⟨_, by unfold exec execVst; rfl⟩
theorem deviceOnly_vred (w : IW) : DeviceOnly (.vred w) :=
  fun _ => ⟨_, by unfold exec execVred; rfl⟩
theorem deviceOnly_vbcast (w : IW) : DeviceOnly (.vbcast w) :=
  fun _ => ⟨_, by unfold exec execVbcast; rfl⟩
theorem deviceOnly_vmovg (w : IW) : DeviceOnly (.vmovg w) :=
  fun _ => ⟨_, by unfold exec execVmovg; rfl⟩
theorem deviceOnly_vspencEncode (w : IW) : DeviceOnly (.vspencEncode w) :=
  fun _ => ⟨_, by unfold exec execVspencEncode; rfl⟩
theorem deviceOnly_vspencMap (w : IW) : DeviceOnly (.vspencMap w) :=
  fun _ => ⟨_, by unfold exec execVspencMap; rfl⟩
theorem deviceOnly_rscore (w : IW) : DeviceOnly (.rscore w) :=
  fun _ => ⟨_, by unfold exec execRscore; rfl⟩
theorem deviceOnly_batchOpenResume (s : Nat) : DeviceOnly (.batchOpenResume s) :=
  fun _ => ⟨_, by unfold exec execBatchOpenResume; rfl⟩
theorem deviceOnly_batchOpenEpochTimeout (s : Nat) : DeviceOnly (.batchOpenEpochTimeout s) :=
  fun _ => ⟨_, by unfold exec execBatchOpenEpochTimeout; rfl⟩
theorem deviceOnly_rselect (w : IW) : DeviceOnly (.rselect w) :=
  fun _ => ⟨_, by unfold exec execRselect; rfl⟩
theorem deviceOnly_routeClose (s rt : Nat) : DeviceOnly (.routeClose s rt) :=
  fun _ => ⟨_, by unfold exec execRouteClose; rfl⟩
theorem deviceOnly_routeCloseCountsTimeout (s rt : Nat) : DeviceOnly (.routeCloseCountsTimeout s rt) :=
  fun _ => ⟨_, by unfold exec execRouteCloseCountsTimeout; rfl⟩
theorem deviceOnly_rpackPack (w : IW) : DeviceOnly (.rpackPack w) :=
  fun _ => ⟨_, by unfold exec execRpackPack; rfl⟩
theorem deviceOnly_rpackArrive (w : IW) : DeviceOnly (.rpackArrive w) :=
  fun _ => ⟨_, by unfold exec execRpackArrive; rfl⟩
theorem deviceOnly_marverRestage (c pool : Nat) (stage : Nat) (held : List Nat) : DeviceOnly (.marverRestage c pool stage held) :=
  fun _ => ⟨_, by unfold exec execMarverRestage; rfl⟩
theorem deviceOnly_rcombine (w : IW) : DeviceOnly (.rcombine w) :=
  fun _ => ⟨_, by unfold exec execRcombine; rfl⟩
theorem deviceOnly_returnBinHandoff (c : Nat) (bin : Nat) : DeviceOnly (.returnBinHandoff c bin) :=
  fun _ => ⟨_, by unfold exec execReturnBinHandoff; rfl⟩
theorem deviceOnly_rstatReadLedger (w : IW) : DeviceOnly (.rstatReadLedger w) :=
  fun _ => ⟨_, by unfold exec execRstatReadLedger; rfl⟩
theorem deviceOnly_rstatCancel (w : IW) : DeviceOnly (.rstatCancel w) :=
  fun _ => ⟨_, by unfold exec execRstatCancel; rfl⟩
theorem deviceOnly_rstatSupplyCounts (w : IW) : DeviceOnly (.rstatSupplyCounts w) :=
  fun _ => ⟨_, by unfold exec execRstatSupplyCounts; rfl⟩
theorem deviceOnly_rstatReload (w : IW) : DeviceOnly (.rstatReload w) :=
  fun _ => ⟨_, by unfold exec execRstatReload; rfl⟩
theorem deviceOnly_xsend (w : IW) : DeviceOnly (.xsend w) :=
  fun _ => ⟨_, by unfold exec execXsend; rfl⟩
theorem deviceOnly_xsendComplete (m : Nat) : DeviceOnly (.xsendComplete m) :=
  fun _ => ⟨_, by unfold exec execXsendComplete; rfl⟩
theorem deviceOnly_xrecvReceive (w : IW) : DeviceOnly (.xrecvReceive w) :=
  fun _ => ⟨_, by unfold exec execXrecvReceive; rfl⟩
theorem deviceOnly_xrecvTimeout (c : Nat) : DeviceOnly (.xrecvTimeout c) :=
  fun _ => ⟨_, by unfold exec execXrecvTimeout; rfl⟩
theorem deviceOnly_xrecvBind (w : IW) : DeviceOnly (.xrecvBind w) :=
  fun _ => ⟨_, by unfold exec execXrecvBind; rfl⟩
theorem deviceOnly_xtag (w : IW) : DeviceOnly (.xtag w) :=
  fun _ => ⟨_, by unfold exec execXtag; rfl⟩
theorem deviceOnly_chunkReceiptArrival (m : Nat) : DeviceOnly (.chunkReceiptArrival m) :=
  fun _ => ⟨_, by unfold exec execChunkReceiptArrival; rfl⟩
theorem deviceOnly_abortMessageArrival (c : Nat) (desc : Nat) (tag : BitVec 64) (sender : Nat) : DeviceOnly (.abortMessageArrival c desc tag sender) :=
  fun _ => ⟨_, by unfold exec execAbortMessageArrival; rfl⟩
theorem deviceOnly_balloc (w : IW) : DeviceOnly (.balloc w) :=
  fun _ => ⟨_, by unfold exec execBalloc; rfl⟩
theorem deviceOnly_ballocWaiterServed (p : Nat) : DeviceOnly (.ballocWaiterServed p) :=
  fun _ => ⟨_, by unfold exec execBallocWaiterServed; rfl⟩
theorem deviceOnly_bshare (w : IW) : DeviceOnly (.bshare w) :=
  fun _ => ⟨_, by unfold exec execBshare; rfl⟩
theorem deviceOnly_bdrop (w : IW) : DeviceOnly (.bdrop w) :=
  fun _ => ⟨_, by unfold exec execBdrop; rfl⟩
theorem deviceOnly_bfree (w : IW) : DeviceOnly (.bfree w) :=
  fun _ => ⟨_, by unfold exec execBfree; rfl⟩
theorem deviceOnly_queueReservation (p : Nat) : DeviceOnly (.queueReservation p) :=
  fun _ => ⟨_, by unfold exec execQueueReservation; rfl⟩
theorem deviceOnly_tpref (w : IW) : DeviceOnly (.tpref w) :=
  fun _ => ⟨_, by unfold exec execTpref; rfl⟩
theorem deviceOnly_tstream (w : IW) : DeviceOnly (.tstream w) :=
  fun _ => ⟨_, by unfold exec execTstream; rfl⟩
theorem deviceOnly_prefetchGobArrival (e i : Nat) : DeviceOnly (.prefetchGobArrival e i) :=
  fun _ => ⟨_, by unfold exec execPrefetchGobArrival; rfl⟩
theorem deviceOnly_prefetchRefill (e i : Nat) : DeviceOnly (.prefetchRefill e i) :=
  fun _ => ⟨_, by unfold exec execPrefetchRefill; rfl⟩
theorem deviceOnly_tpin (w : IW) : DeviceOnly (.tpin w) :=
  fun _ => ⟨_, by unfold exec execTpin; rfl⟩
theorem deviceOnly_loopn (w : IW) : DeviceOnly (.loopn w) :=
  fun _ => ⟨_, by unfold exec execLoopn; rfl⟩
theorem deviceOnly_phint (w : IW) : DeviceOnly (.phint w) :=
  fun _ => ⟨_, by unfold exec execPhint; rfl⟩
theorem deviceOnly_phintBoostStart (u : Nat) : DeviceOnly (.phintBoostStart u) :=
  fun _ => ⟨_, by unfold exec execPhintBoostStart; rfl⟩
theorem deviceOnly_phintBoostEnd (u : Nat) : DeviceOnly (.phintBoostEnd u) :=
  fun _ => ⟨_, by unfold exec execPhintBoostEnd; rfl⟩
theorem deviceOnly_digestFold (w : IW) : DeviceOnly (.digestFold w) :=
  fun _ => ⟨_, by unfold exec execDigestFold; rfl⟩
theorem deviceOnly_digestRead (w : IW) : DeviceOnly (.digestRead w) :=
  fun _ => ⟨_, by unfold exec execDigestRead; rfl⟩
theorem deviceOnly_digestLevel (w : IW) : DeviceOnly (.digestLevel w) :=
  fun _ => ⟨_, by unfold exec execDigestLevel; rfl⟩
theorem deviceOnly_submitListTake (s q : Nat) : DeviceOnly (.submitListTake s q) :=
  fun _ => ⟨_, by unfold exec execSubmitListTake; rfl⟩
theorem deviceOnly_entryEnterWindow (s q taken : Nat) : DeviceOnly (.entryEnterWindow s q taken) :=
  fun _ => ⟨_, by unfold exec execEntryEnterWindow; rfl⟩
theorem deviceOnly_entryStart (s q taken pos : Nat) : DeviceOnly (.entryStart s q taken pos) :=
  fun _ => ⟨_, by unfold exec execEntryStart; rfl⟩
theorem deviceOnly_affinityWaitExpiry (s q taken pos : Nat) : DeviceOnly (.affinityWaitExpiry s q taken pos) :=
  fun _ => ⟨_, by unfold exec execAffinityWaitExpiry; rfl⟩
theorem deviceOnly_entrySkip (s q taken pos : Nat) : DeviceOnly (.entrySkip s q taken pos) :=
  fun _ => ⟨_, by unfold exec execEntrySkip; rfl⟩
theorem deviceOnly_entryComplete (c : Nat) : DeviceOnly (.entryComplete c) :=
  fun _ => ⟨_, by unfold exec execEntryComplete; rfl⟩
theorem deviceOnly_engineReassign (e : Nat) : DeviceOnly (.engineReassign e) :=
  fun _ => ⟨_, by unfold exec execEngineReassign; rfl⟩
theorem deviceOnly_cadencePeriodStart (n : Nat) : DeviceOnly (.cadencePeriodStart n) :=
  fun _ => ⟨_, by unfold exec execCadencePeriodStart; rfl⟩
theorem deviceOnly_cadCfgEnableSet (v : Via) (n : Nat) (x : BitVec 64) : DeviceOnly (.cadCfgEnableSet v n x) :=
  fun _ => ⟨_, by unfold exec execCadCfgEnableSet; rfl⟩
theorem deviceOnly_cadCfgEnableClear (v : Via) (n : Nat) (x : BitVec 64) : DeviceOnly (.cadCfgEnableClear v n x) :=
  fun _ => ⟨_, by unfold exec execCadCfgEnableClear; rfl⟩
theorem deviceOnly_jobAdmitGo (s : Nat) : DeviceOnly (.jobAdmitGo s) :=
  fun _ => ⟨_, by unfold exec execJobAdmitGo; rfl⟩
theorem deviceOnly_jobAdmitStop (s : Nat) : DeviceOnly (.jobAdmitStop s) :=
  fun _ => ⟨_, by unfold exec execJobAdmitStop; rfl⟩
theorem deviceOnly_rctxCancelGo (v : Via) (s epoch : Nat) : DeviceOnly (.rctxCancelGo v s epoch) :=
  fun _ => ⟨_, by unfold exec execRctxCancelGo; rfl⟩
theorem deviceOnly_moveComplete (k : Nat) : DeviceOnly (.moveComplete k) :=
  fun _ => ⟨_, by unfold exec execMoveComplete; rfl⟩
theorem deviceOnly_windowWrite (v : Via) (s : Nat) (x : BitVec 64) : DeviceOnly (.windowWrite v s x) :=
  fun _ => ⟨_, by unfold exec execWindowWrite; rfl⟩
theorem deviceOnly_replicaReadTimeout (k : Nat) : DeviceOnly (.replicaReadTimeout k) :=
  fun _ => ⟨_, by unfold exec execReplicaReadTimeout; rfl⟩
theorem deviceOnly_refetchFrameWaitTimeout (k : Nat) : DeviceOnly (.refetchFrameWaitTimeout k) :=
  fun _ => ⟨_, by unfold exec execRefetchFrameWaitTimeout; rfl⟩
theorem deviceOnly_poolInit (p : Nat) : DeviceOnly (.poolInit p) :=
  fun _ => ⟨_, by unfold exec execPoolInit; rfl⟩
theorem deviceOnly_poolQuiesceWrite (p : Nat) (q : Bool) : DeviceOnly (.poolQuiesceWrite p q) :=
  fun _ => ⟨_, by unfold exec execPoolQuiesceWrite; rfl⟩
theorem deviceOnly_poolQuiesced (p : Nat) : DeviceOnly (.poolQuiesced p) :=
  fun _ => ⟨_, by unfold exec execPoolQuiesced; rfl⟩
theorem deviceOnly_synPost (v : Via) (x : BitVec 64) : DeviceOnly (.synPost v x) :=
  fun _ => ⟨_, by unfold exec execSynPost; rfl⟩
theorem deviceOnly_synReset (v : Via) (x : BitVec 64) : DeviceOnly (.synReset v x) :=
  fun _ => ⟨_, by unfold exec execSynReset; rfl⟩
theorem deviceOnly_synRangeWrite (s : Nat) (x : BitVec 64) : DeviceOnly (.synRangeWrite s x) :=
  fun _ => ⟨_, by unfold exec execSynRangeWrite; rfl⟩
theorem deviceOnly_portTrainStart (p : Nat) : DeviceOnly (.portTrainStart p) :=
  fun _ => ⟨_, by unfold exec execPortTrainStart; rfl⟩
theorem deviceOnly_portTrainingDone (p : Nat) (r : TrainResult) : DeviceOnly (.portTrainingDone p r) :=
  fun _ => ⟨_, by unfold exec execPortTrainingDone; rfl⟩
theorem deviceOnly_portTrainingTimeout (p : Nat) : DeviceOnly (.portTrainingTimeout p) :=
  fun _ => ⟨_, by unfold exec execPortTrainingTimeout; rfl⟩
theorem deviceOnly_portDownRetry (p : Nat) : DeviceOnly (.portDownRetry p) :=
  fun _ => ⟨_, by unfold exec execPortDownRetry; rfl⟩
theorem deviceOnly_fastRetrainStart (p : Nat) : DeviceOnly (.fastRetrainStart p) :=
  fun _ => ⟨_, by unfold exec execFastRetrainStart; rfl⟩
theorem deviceOnly_fastRetrainTimeout (p : Nat) : DeviceOnly (.fastRetrainTimeout p) :=
  fun _ => ⟨_, by unfold exec execFastRetrainTimeout; rfl⟩
theorem deviceOnly_identFlitReceive (p : Nat) (x : Ident) : DeviceOnly (.identFlitReceive p x) :=
  fun _ => ⟨_, by unfold exec execIdentFlitReceive; rfl⟩
theorem deviceOnly_flitReceive (p : Nat) (x : Flit) : DeviceOnly (.flitReceive p x) :=
  fun _ => ⟨_, by unfold exec execFlitReceive; rfl⟩
theorem deviceOnly_nakReceive (p fseq : Nat) : DeviceOnly (.nakReceive p fseq) :=
  fun _ => ⟨_, by unfold exec execNakReceive; rfl⟩
theorem deviceOnly_heartbeatSend (p : Nat) : DeviceOnly (.heartbeatSend p) :=
  fun _ => ⟨_, by unfold exec execHeartbeatSend; rfl⟩
theorem deviceOnly_portHoldExpiry (p : Nat) : DeviceOnly (.portHoldExpiry p) :=
  fun _ => ⟨_, by unfold exec execPortHoldExpiry; rfl⟩
theorem deviceOnly_transitForward (p : Nat) (x : Tx) : DeviceOnly (.transitForward p x) :=
  fun _ => ⟨_, by unfold exec execTransitForward; rfl⟩
theorem deviceOnly_rdlReceive (p : Nat) (x : Tx) : DeviceOnly (.rdlReceive p x) :=
  fun _ => ⟨_, by unfold exec execRdlReceive; rfl⟩
theorem deviceOnly_rdrReceive (p : Nat) (x : Tx) : DeviceOnly (.rdrReceive p x) :=
  fun _ => ⟨_, by unfold exec execRdrReceive; rfl⟩
theorem deviceOnly_wrlReceive (p : Nat) (x : Tx) : DeviceOnly (.wrlReceive p x) :=
  fun _ => ⟨_, by unfold exec execWrlReceive; rfl⟩
theorem deviceOnly_blkReceive (p : Nat) (x : Tx) : DeviceOnly (.blkReceive p x) :=
  fun _ => ⟨_, by unfold exec execBlkReceive; rfl⟩
theorem deviceOnly_msgReceive (p : Nat) (x : Tx) : DeviceOnly (.msgReceive p x) :=
  fun _ => ⟨_, by unfold exec execMsgReceive; rfl⟩
theorem deviceOnly_ackReceive (p : Nat) (x : Tx) : DeviceOnly (.ackReceive p x) :=
  fun _ => ⟨_, by unfold exec execAckReceive; rfl⟩
theorem deviceOnly_postReceive (p : Nat) (x : Tx) : DeviceOnly (.postReceive p x) :=
  fun _ => ⟨_, by unfold exec execPostReceive; rfl⟩
theorem deviceOnly_rtsReceive (p : Nat) (x : Tx) : DeviceOnly (.rtsReceive p x) :=
  fun _ => ⟨_, by unfold exec execRtsReceive; rfl⟩
theorem deviceOnly_grantSend (s q : Nat) : DeviceOnly (.grantSend s q) :=
  fun _ => ⟨_, by unfold exec execGrantSend; rfl⟩
theorem deviceOnly_grantReceive (p : Nat) (x : Tx) : DeviceOnly (.grantReceive p x) :=
  fun _ => ⟨_, by unfold exec execGrantReceive; rfl⟩
theorem deviceOnly_hintReceive (p : Nat) (x : Tx) : DeviceOnly (.hintReceive p x) :=
  fun _ => ⟨_, by unfold exec execHintReceive; rfl⟩
theorem deviceOnly_qnotReceive (p : Nat) (x : Tx) : DeviceOnly (.qnotReceive p x) :=
  fun _ => ⟨_, by unfold exec execQnotReceive; rfl⟩
theorem deviceOnly_bundleReceive (p : Nat) (x : Tx) : DeviceOnly (.bundleReceive p x) :=
  fun _ => ⟨_, by unfold exec execBundleReceive; rfl⟩
theorem deviceOnly_discReceive (p : Nat) (x : Tx) : DeviceOnly (.discReceive p x) :=
  fun _ => ⟨_, by unfold exec execDiscReceive; rfl⟩
theorem deviceOnly_lsnReceive (p : Nat) (x : Tx) : DeviceOnly (.lsnReceive p x) :=
  fun _ => ⟨_, by unfold exec execLsnReceive; rfl⟩
theorem deviceOnly_reservedOpReceive (p : Nat) (x : Tx) : DeviceOnly (.reservedOpReceive p x) :=
  fun _ => ⟨_, by unfold exec execReservedOpReceive; rfl⟩
theorem deviceOnly_e2eTimerExpiry (k : SpaceKey) : DeviceOnly (.e2eTimerExpiry k) :=
  fun _ => ⟨_, by unfold exec execE2eTimerExpiry; rfl⟩
theorem deviceOnly_e2eWriteFail (k : SpaceKey) : DeviceOnly (.e2eWriteFail k) :=
  fun _ => ⟨_, by unfold exec execE2eWriteFail; rfl⟩
theorem deviceOnly_rdlResend (rid : Nat) : DeviceOnly (.rdlResend rid) :=
  fun _ => ⟨_, by unfold exec execRdlResend; rfl⟩
theorem deviceOnly_rtsBusyResend (m : Nat) : DeviceOnly (.rtsBusyResend m) :=
  fun _ => ⟨_, by unfold exec execRtsBusyResend; rfl⟩
theorem deviceOnly_grantTimeout (m : Nat) : DeviceOnly (.grantTimeout m) :=
  fun _ => ⟨_, by unfold exec execGrantTimeout; rfl⟩
theorem deviceOnly_bundleClose (p i : Nat) : DeviceOnly (.bundleClose p i) :=
  fun _ => ⟨_, by unfold exec execBundleClose; rfl⟩
theorem deviceOnly_portCtrlRetrain (p : Nat) : DeviceOnly (.portCtrlRetrain p) :=
  fun _ => ⟨_, by unfold exec execPortCtrlRetrain; rfl⟩
theorem deviceOnly_powerWindowEnd (r : PowerReading) : DeviceOnly (.powerWindowEnd r) :=
  fun _ => ⟨_, by unfold exec execPowerWindowEnd; rfl⟩
theorem deviceOnly_senseSample (r : SenseReading) : DeviceOnly (.senseSample r) :=
  fun _ => ⟨_, by unfold exec execSenseSample; rfl⟩
theorem deviceOnly_estimatorUpdate (r : PowerReading) : DeviceOnly (.estimatorUpdate r) :=
  fun _ => ⟨_, by unfold exec execEstimatorUpdate; rfl⟩
theorem deviceOnly_thermalSample (temps : List Int) : DeviceOnly (.thermalSample temps) :=
  fun _ => ⟨_, by unfold exec execThermalSample; rfl⟩
theorem deviceOnly_twinDigestCompare (s : Nat) (d : TwinMsg) : DeviceOnly (.twinDigestCompare s d) :=
  fun _ => ⟨_, by unfold exec execTwinDigestCompare; rfl⟩
theorem deviceOnly_twinTimeout (s : Nat) : DeviceOnly (.twinTimeout s) :=
  fun _ => ⟨_, by unfold exec execTwinTimeout; rfl⟩
theorem deviceOnly_inputOvercurrentTrip (ma us : Nat) : DeviceOnly (.inputOvercurrentTrip ma us) :=
  fun _ => ⟨_, by unfold exec execInputOvercurrentTrip; rfl⟩
theorem deviceOnly_bar4Access (a : Bar4) : DeviceOnly (.bar4Access a) :=
  fun _ => ⟨_, by unfold exec execBar4Access; rfl⟩
theorem deviceOnly_ideIntegrityFailure (bar off : Nat) : DeviceOnly (.ideIntegrityFailure bar off) :=
  fun _ => ⟨_, by unfold exec execIdeIntegrityFailure; rfl⟩
theorem deviceOnly_t3RequestFailure (k : Nat) : DeviceOnly (.t3RequestFailure k) :=
  fun _ => ⟨_, by unfold exec execT3RequestFailure; rfl⟩
theorem deviceOnly_hmbSend (v : Via) (s : Nat) (len : Nat) : DeviceOnly (.hmbSend v s len) :=
  fun _ => ⟨_, by unfold exec execHmbSend; rfl⟩
theorem deviceOnly_hmbAck (v : Via) (s : Nat) : DeviceOnly (.hmbAck v s) :=
  fun _ => ⟨_, by unfold exec execHmbAck; rfl⟩
theorem deviceOnly_secJresetGo (s : Nat) : DeviceOnly (.secJresetGo s) :=
  fun _ => ⟨_, by unfold exec execSecJresetGo; rfl⟩
theorem deviceOnly_secMextGo (reg : Nat) : DeviceOnly (.secMextGo reg) :=
  fun _ => ⟨_, by unfold exec execSecMextGo; rfl⟩
theorem deviceOnly_getVersion (req : List (BitVec 8)) : DeviceOnly (.getVersion req) :=
  fun _ => ⟨_, by unfold exec execGetVersion; rfl⟩
theorem deviceOnly_getCapabilities (req : List (BitVec 8)) : DeviceOnly (.getCapabilities req) :=
  fun _ => ⟨_, by unfold exec execGetCapabilities; rfl⟩
theorem deviceOnly_negotiateAlgorithms (req : List (BitVec 8)) : DeviceOnly (.negotiateAlgorithms req) :=
  fun _ => ⟨_, by unfold exec execNegotiateAlgorithms; rfl⟩
theorem deviceOnly_getDigests (req : List (BitVec 8)) : DeviceOnly (.getDigests req) :=
  fun _ => ⟨_, by unfold exec execGetDigests; rfl⟩
theorem deviceOnly_getCertificate (req : List (BitVec 8)) : DeviceOnly (.getCertificate req) :=
  fun _ => ⟨_, by unfold exec execGetCertificate; rfl⟩
theorem deviceOnly_challenge (req : List (BitVec 8)) : DeviceOnly (.challenge req) :=
  fun _ => ⟨_, by unfold exec execChallenge; rfl⟩
theorem deviceOnly_getMeasurements (req : List (BitVec 8)) : DeviceOnly (.getMeasurements req) :=
  fun _ => ⟨_, by unfold exec execGetMeasurements; rfl⟩
theorem deviceOnly_keyExchange (req : List (BitVec 8)) : DeviceOnly (.keyExchange req) :=
  fun _ => ⟨_, by unfold exec execKeyExchange; rfl⟩
theorem deviceOnly_finish (req : List (BitVec 8)) : DeviceOnly (.finish req) :=
  fun _ => ⟨_, by unfold exec execFinish; rfl⟩
theorem deviceOnly_keyUpdate (req : List (BitVec 8)) : DeviceOnly (.keyUpdate req) :=
  fun _ => ⟨_, by unfold exec execKeyUpdate; rfl⟩
theorem deviceOnly_heartbeat (req : List (BitVec 8)) : DeviceOnly (.heartbeat req) :=
  fun _ => ⟨_, by unfold exec execHeartbeat; rfl⟩
theorem deviceOnly_endSession (req : List (BitVec 8)) : DeviceOnly (.endSession req) :=
  fun _ => ⟨_, by unfold exec execEndSession; rfl⟩
theorem deviceOnly_chunkGet (req : List (BitVec 8)) : DeviceOnly (.chunkGet req) :=
  fun _ => ⟨_, by unfold exec execChunkGet; rfl⟩
theorem deviceOnly_vendorDefinedRequest (req : List (BitVec 8)) : DeviceOnly (.vendorDefinedRequest req) :=
  fun _ => ⟨_, by unfold exec execVendorDefinedRequest; rfl⟩
theorem deviceOnly_mctpControlRequest (q : Nat) : DeviceOnly (.mctpControlRequest q) :=
  fun _ => ⟨_, by unfold exec execMctpControlRequest; rfl⟩
theorem deviceOnly_pldmSensorRead (id : Nat) : DeviceOnly (.pldmSensorRead id) :=
  fun _ => ⟨_, by unfold exec execPldmSensorRead; rfl⟩
theorem deviceOnly_powerCapEffecterWrite (watts : Nat) : DeviceOnly (.powerCapEffecterWrite watts) :=
  fun _ => ⟨_, by unfold exec execPowerCapEffecterWrite; rfl⟩
theorem deviceOnly_fruRead (off len : Nat) : DeviceOnly (.fruRead off len) :=
  fun _ => ⟨_, by unfold exec execFruRead; rfl⟩
theorem deviceOnly_registerRcRead (v : Via) (off : Nat) : DeviceOnly (.registerRcRead v off) :=
  fun _ => ⟨_, by unfold exec execRegisterRcRead; rfl⟩
theorem deviceOnly_illegalInstruction (c : Nat) (word : BitVec 32) : DeviceOnly (.illegalInstruction c word) :=
  fun _ => ⟨_, by unfold exec execIllegalInstruction; rfl⟩
theorem deviceOnly_routingOperationComplete (k : Nat) : DeviceOnly (.routingOperationComplete k) :=
  fun _ => ⟨_, by unfold exec execRoutingOperationComplete; rfl⟩
theorem deviceOnly_vspencCompletion (e : Nat) : DeviceOnly (.vspencCompletion e) :=
  fun _ => ⟨_, by unfold exec execVspencCompletion; rfl⟩
theorem deviceOnly_moverCopyComplete (k : Nat) : DeviceOnly (.moverCopyComplete k) :=
  fun _ => ⟨_, by unfold exec execMoverCopyComplete; rfl⟩
theorem deviceOnly_t3ReadCompletion (k : Nat) (data : List (BitVec 8)) : DeviceOnly (.t3ReadCompletion k data) :=
  fun _ => ⟨_, by unfold exec execT3ReadCompletion; rfl⟩
theorem deviceOnly_pcieLinkTrainingDone (speed width : Nat) : DeviceOnly (.pcieLinkTrainingDone speed width) :=
  fun _ => ⟨_, by unfold exec execPcieLinkTrainingDone; rfl⟩
theorem deviceOnly_dynamicAddressAssignment (addr : Nat) : DeviceOnly (.dynamicAddressAssignment addr) :=
  fun _ => ⟨_, by unfold exec execDynamicAddressAssignment; rfl⟩
theorem deviceOnly_miswiredIdentSend (p : Nat) : DeviceOnly (.miswiredIdentSend p) :=
  fun _ => ⟨_, by unfold exec execMiswiredIdentSend; rfl⟩
theorem deviceOnly_inputContactOpen (rtn : Bool) (mask : BitVec 8) : DeviceOnly (.inputContactOpen rtn mask) :=
  fun _ => ⟨_, by unfold exec execInputContactOpen; rfl⟩
theorem deviceOnly_tirEditWriteLeaf : DeviceOnly (.tirEditWriteLeaf) :=
  fun _ => ⟨_, by unfold exec execTirEditWriteLeaf; rfl⟩
theorem deviceOnly_tirEditReadLeaf : DeviceOnly (.tirEditReadLeaf) :=
  fun _ => ⟨_, by unfold exec execTirEditReadLeaf; rfl⟩
theorem deviceOnly_tirEditMove : DeviceOnly (.tirEditMove) :=
  fun _ => ⟨_, by unfold exec execTirEditMove; rfl⟩
theorem deviceOnly_tirEditInvalidate : DeviceOnly (.tirEditInvalidate) :=
  fun _ => ⟨_, by unfold exec execTirEditInvalidate; rfl⟩
theorem deviceOnly_moverTakeWork : DeviceOnly (.moverTakeWork) :=
  fun _ => ⟨_, by unfold exec execMoverTakeWork; rfl⟩
theorem deviceOnly_patrolScrub : DeviceOnly (.patrolScrub) :=
  fun _ => ⟨_, by unfold exec execPatrolScrub; rfl⟩
theorem deviceOnly_syncSweep : DeviceOnly (.syncSweep) :=
  fun _ => ⟨_, by unfold exec execSyncSweep; rfl⟩
theorem deviceOnly_paceEpochBoundary : DeviceOnly (.paceEpochBoundary) :=
  fun _ => ⟨_, by unfold exec execPaceEpochBoundary; rfl⟩
theorem deviceOnly_localProposal : DeviceOnly (.localProposal) :=
  fun _ => ⟨_, by unfold exec execLocalProposal; rfl⟩
theorem deviceOnly_paceUpPost : DeviceOnly (.paceUpPost) :=
  fun _ => ⟨_, by unfold exec execPaceUpPost; rfl⟩
theorem deviceOnly_paceDownPost : DeviceOnly (.paceDownPost) :=
  fun _ => ⟨_, by unfold exec execPaceDownPost; rfl⟩
theorem deviceOnly_paceDownMissing : DeviceOnly (.paceDownMissing) :=
  fun _ => ⟨_, by unfold exec execPaceDownMissing; rfl⟩
theorem deviceOnly_inputStageRestart : DeviceOnly (.inputStageRestart) :=
  fun _ => ⟨_, by unfold exec execInputStageRestart; rfl⟩
theorem deviceOnly_refclkLoss : DeviceOnly (.refclkLoss) :=
  fun _ => ⟨_, by unfold exec execRefclkLoss; rfl⟩
theorem deviceOnly_perstDeassert : DeviceOnly (.perstDeassert) :=
  fun _ => ⟨_, by unfold exec execPerstDeassert; rfl⟩
theorem deviceOnly_pcieConfigRequest : DeviceOnly (.pcieConfigRequest) :=
  fun _ => ⟨_, by unfold exec execPcieConfigRequest; rfl⟩
theorem deviceOnly_d3hotEntry : DeviceOnly (.d3hotEntry) :=
  fun _ => ⟨_, by unfold exec execD3hotEntry; rfl⟩
theorem deviceOnly_d0Return : DeviceOnly (.d0Return) :=
  fun _ => ⟨_, by unfold exec execD0Return; rfl⟩
theorem deviceOnly_jobResetComplete : DeviceOnly (.jobResetComplete) :=
  fun _ => ⟨_, by unfold exec execJobResetComplete; rfl⟩
theorem deviceOnly_getTid : DeviceOnly (.getTid) :=
  fun _ => ⟨_, by unfold exec execGetTid; rfl⟩
theorem deviceOnly_getPldmVersion : DeviceOnly (.getPldmVersion) :=
  fun _ => ⟨_, by unfold exec execGetPldmVersion; rfl⟩
theorem deviceOnly_getPldmTypes : DeviceOnly (.getPldmTypes) :=
  fun _ => ⟨_, by unfold exec execGetPldmTypes; rfl⟩
theorem deviceOnly_getPldmCommands : DeviceOnly (.getPldmCommands) :=
  fun _ => ⟨_, by unfold exec execGetPldmCommands; rfl⟩

end Sys2Proof.Machine
end

