-- ==== Sys2Proof/Laws/Memory.lean ====
section
/-! SUPPORT. What the memory operations answer in their plain cases: lengths, single pieces, the window of the issuing engine's
store, physical memory without errors. -/

namespace Sys2Proof.Machine

@[simp] theorem rdBytes_length (m : List Host.Cell) (a n : Nat) : (rdBytes m a n).length = n := by
  induction n generalizing a with
  | zero => rfl
  | succ n ih => simp [rdBytes, ih]

@[simp] theorem leBytes_length (n x : Nat) : (leBytes n x).length = n := by
  induction n generalizing x with
  | zero => rfl
  | succ n ih => simp [leBytes, ih]

theorem leBytes_getElem (n x i : Nat) (h : i < (leBytes n x).length) :
    (leBytes n x)[i] = BitVec.ofNat 8 (x / 256 ^ i) := by
  induction n generalizing x i with
  | zero => simp [leBytes] at h
  | succ n ih =>
    cases i with
    | zero => simp [leBytes]
    | succ i =>
      have := ih (x / 256) i (by simpa [leBytes] using h)
      simp only [leBytes, List.getElem_cons_succ, this]
      rw [Nat.div_div_eq_div_mul, Nat.pow_succ, Nat.mul_comm]

/-- A byte after a little-endian number was stored (R9). -/
theorem rdByte_wrBytes_leBytes (m : List Host.Cell) (a n v b : Nat) :
    rdByte (wrBytes m a (leBytes n v)) b
      = if a ≤ b ∧ b < a + n then BitVec.ofNat 8 (v / 256 ^ (b - a)) else rdByte m b := by
  split
  · rename_i h
    have := rdByte_wrBytes_inside m a (leBytes n v) (b - a) (by rw [leBytes_length]; omega)
    rw [show a + (b - a) = b by omega] at this
    rw [this, leBytes_getElem]
  · rw [rdByte_wrBytes_outside _ _ _ _ (by rw [leBytes_length]; omega)]

/-- A range within one gob is one piece. -/
theorem piecesOf_within (va n : Nat) (h0 : 0 < n) (h : va % 65536 + n ≤ 65536) : piecesOf va n = [(va, n)] := by
  unfold piecesOf pieces
  have : ¬ n = 0 := by omega
  have h2 : min n (65536 - va % 65536) = n := by omega
  simp only [this, if_false, h2, Nat.sub_self]
  cases n / 65536 + 1 <;> simp [pieces]

/-- The window of the issuing engine's own store (R470). -/
theorem Dev.window_own (d : Dev) (w : Who) (e va : Nat) (he : w.eng = some e) (h1 : 0xFFFF80000000 ≤ va)
    (h2 : va < 0xFFFF83000000) : d.window w va = .ok (e, va - 0xFFFF80000000) := by
  unfold Dev.window
  have b2 : ¬ (va - 0xFFFF00000000 < 0x80000000) := by omega
  have b3 : va - 0xFFFF00000000 - 0x80000000 < 0x3000000 := by omega
  have b4 : va - 0xFFFF00000000 - 0x80000000 = va - 0xFFFF80000000 := by omega
  dsimp only
  rw [if_neg b2, he]
  dsimp only
  rw [if_pos b3, b4]

theorem Dev.rdPiece_own (d : Dev) (w : Who) (e va n : Nat) (he : w.eng = some e) (h1 : 0xFFFF80000000 ≤ va)
    (h2 : va < 0xFFFF83000000) : d.rdPiece w va n = .ok d (d.esRead e (va - 0xFFFF80000000) n) := by
  unfold Dev.rdPiece
  rw [if_pos (by omega), Dev.window_own d w e va he h1 h2]

theorem Dev.wrPiece_own (d : Dev) (w : Who) (e va : Nat) (bs : List Byte) (he : w.eng = some e)
    (h1 : 0xFFFF80000000 ≤ va) (h2 : va < 0xFFFF83000000) :
    d.wrPiece w va bs = d.esWrite e (va - 0xFFFF80000000) bs := by
  unfold Dev.wrPiece
  rw [if_pos (by omega), Dev.window_own d w e va he h1 h2]

/-- A write to the issuing engine's own store within one gob: it is performed, and changes that store alone (R470). -/
theorem Dev.wr_own (d : Dev) (w : Who) (e va : Nat) (bs : List Byte) (he : w.eng = some e) (h0 : bs ≠ [])
    (h1 : 0xFFFF80000000 ≤ va) (h2 : va < 0xFFFF83000000) (h3 : va % 65536 + bs.length ≤ 65536) :
    d.wr w va bs = .ok (d.esWrite e (va - 0xFFFF80000000) bs) [] := by
  have hr : d.wrReady w va bs.length = .ok d [] := by
    unfold Dev.wrReady
    rw [if_pos (by omega), Dev.window_own d w e va he h1 h2]
  unfold Dev.wr
  rw [piecesOf_within va bs.length (List.length_pos_iff.mpr h0) h3]
  simp only [Dev.wrReadies, hr, Dev.wrPieces, List.take_length, Dev.wrPiece_own d w e va bs he h1 h2]

/-- A fold that changes nothing. -/
theorem foldl_fixed {α β : Type} (f : α → β → α) (l : List β) (a : α) (h : ∀ b ∈ l, f a b = a) : l.foldl f a = a := by
  induction l with
  | nil => rfl
  | cons b l ih => rw [List.foldl_cons, h b (by simp)]; exact ih (fun b hb => h b (by simp [hb]))

theorem foldl_max_zero (l : List Nat) (k : Nat) (h : l.foldl max k = 0) : ∀ b ∈ l, b = 0 := by
  have ge : ∀ (l : List Nat) (k : Nat), k ≤ l.foldl max k := by
    intro l
    induction l with
    | nil => intro k; simp
    | cons b l ih => intro k; exact Nat.le_trans (Nat.le_max_left k b) (ih _)
  induction l generalizing k with
  | nil => simp
  | cons b l ih =>
    intro c hc
    rw [List.foldl_cons] at h
    have h1 := ge l (max k b)
    rcases List.mem_cons.mp hc with rfl | hc
    · have := Nat.le_max_right k c; omega
    · exact ih _ h c hc

/-- Where no symbol is in error nothing is corrected (R507). -/
theorem Dev.correct_clean (d : Dev) (pa n : Nat) (h : d.symbols pa n = 0) : d.correct pa n = d := by
  unfold Dev.correct
  apply foldl_fixed
  intro i hi
  have := foldl_max_zero _ _ h (tget (fun _ => 0) d.mem.t1err (pa / 128 + i)) (List.mem_map.mpr ⟨i, hi, rfl⟩)
  simp [this]

/-- No drain can be in the way where the core's engine has none in its FIFO. -/
theorem Dev.drainPending_none (d : Dev) (c va n : Nat) (h : (d.engine c).drains = []) : d.drainPending c va n = false := by
  simp [Dev.drainPending, h]

end Sys2Proof.Machine
end

