-- ==== Sys2Proof/Laws/PerInstr.lean ====
section
/-! SUPPORT. A statement made of each instruction by name: a well-formed instruction word names a core of the device. -/

namespace Sys2Proof

/-- The instruction word of a command that is an instruction of a core. -/
def Instr.word : Instr → Option IW
  | .add _ w => some w
  | .sub _ w => some w
  | .and _ w => some w
  | .or _ w => some w
  | .xor _ w => some w
  | .sll _ w => some w
  | .srl _ w => some w
  | .sra _ w => some w
  | .min _ w => some w
  | .max _ w => some w
  | .minu _ w => some w
  | .maxu _ w => some w
  | .mul _ w => some w
  | .mulh _ w => some w
  | .mulhu _ w => some w
  | .div _ w => some w
  | .divu _ w => some w
  | .rem _ w => some w
  | .remu _ w => some w
  | .popc _ w => some w
  | .clz _ w => some w
  | .ctz _ w => some w
  | .luh w => some w
  | .cmp w => some w
  | .cmpi w => some w
  | .pand w => some w
  | .por w => some w
  | .pxor w => some w
  | .pandn w => some w
  | .bp w => some w
  | .jal w => some w
  | .jalr w => some w
  | .ld w => some w
  | .st w => some w
  | .ldl w => some w
  | .stl w => some w
  | .fence w => some w
  | .fenceD w => some w
  | .csrr w => some w
  | .csrw w => some w
  | .csrs w => some w
  | .csrc w => some w
  | .jcall w => some w
  | .jfret w => some w
  | .ebreak w => some w
  | .wfi w => some w
  | .mret w => some w
  | .halt w => some w
  | .sopost w => some w
  | .sowait w => some w
  | .sowaitEnd _ => none
  | .soreset w => some w
  | .asyncUnitFaultTaken _ => none
  | .debugHalt _ => none
  | .manchorPropose w => some w
  | .manchorSet w => some w
  | .mloadw w => some w
  | .shadowFillStart _ => none
  | .shadowFillDone _ => none
  | .mstream w => some w
  | .passStart _ _ => none
  | .tileAllocationServed _ => none
  | .mdrain w => some w
  | .drainCommit _ => none
  | .mtstat w => some w
  | .vadd w => some w
  | .vsub w => some w
  | .vmul w => some w
  | .vmin w => some w
  | .vmax w => some w
  | .vdiv w => some w
  | .vsqrt w => some w
  | .vexp2 w => some w
  | .vlog2 w => some w
  | .vrcp w => some w
  | .vrsq w => some w
  | .vfma w => some w
  | .vfms w => some w
  | .vcmp w => some w
  | .vand w => some w
  | .vor w => some w
  | .vxor w => some w
  | .viadd w => some w
  | .vsel w => some w
  | .vshl w => some w
  | .vshr w => some w
  | .vcvt w => some w
  | .vld w => some w
  | .vst w => some w
  | .vred w => some w
  | .vbcast w => some w
  | .vmovg w => some w
  | .vspencEncode w => some w
  | .vspencMap w => some w
  | .rscore w => some w
  | .batchOpenResume _ => none
  | .batchOpenEpochTimeout _ => none
  | .rselect w => some w
  | .routeClose _ _ => none
  | .routeCloseCountsTimeout _ _ => none
  | .rpackPack w => some w
  | .rpackArrive w => some w
  | .marverRestage _ _ _ _ => none
  | .rcombine w => some w
  | .returnBinHandoff _ _ => none
  | .rstatReadLedger w => some w
  | .rstatCancel w => some w
  | .rstatSupplyCounts w => some w
  | .rstatReload w => some w
  | .xsend w => some w
  | .xsendComplete _ => none
  | .xrecvReceive w => some w
  | .xrecvTimeout _ => none
  | .xrecvBind w => some w
  | .xtag w => some w
  | .chunkReceiptArrival _ => none
  | .abortMessageArrival _ _ _ _ => none
  | .balloc w => some w
  | .ballocWaiterServed _ => none
  | .bshare w => some w
  | .bdrop w => some w
  | .bfree w => some w
  | .queueReservation _ => none
  | .tpref w => some w
  | .tstream w => some w
  | .prefetchGobArrival _ _ => none
  | .prefetchRefill _ _ => none
  | .tpin w => some w
  | .loopn w => some w
  | .phint w => some w
  | .phintBoostStart _ => none
  | .phintBoostEnd _ => none
  | .digestFold w => some w
  | .digestRead w => some w
  | .digestLevel w => some w
  | .submitListTake _ _ => none
  | .entryEnterWindow _ _ _ => none
  | .entryStart _ _ _ _ => none
  | .affinityWaitExpiry _ _ _ _ => none
  | .entrySkip _ _ _ _ => none
  | .entryComplete _ => none
  | .engineReassign _ => none
  | .cadencePeriodStart _ => none
  | .cadCfgEnableSet _ _ _ => none
  | .cadCfgEnableClear _ _ _ => none
  | .jobAdmitGo _ => none
  | .jobAdmitStop _ => none
  | .rctxCancelGo _ _ _ => none
  | .moveComplete _ => none
  | .windowWrite _ _ _ => none
  | .replicaReadTimeout _ => none
  | .refetchFrameWaitTimeout _ => none
  | .poolInit _ => none
  | .poolQuiesceWrite _ _ => none
  | .poolQuiesced _ => none
  | .synPost _ _ => none
  | .synReset _ _ => none
  | .synRangeWrite _ _ => none
  | .portTrainStart _ => none
  | .portTrainingDone _ _ => none
  | .portTrainingTimeout _ => none
  | .portDownRetry _ => none
  | .fastRetrainStart _ => none
  | .fastRetrainTimeout _ => none
  | .identFlitReceive _ _ => none
  | .flitReceive _ _ => none
  | .nakReceive _ _ => none
  | .heartbeatSend _ => none
  | .portHoldExpiry _ => none
  | .transitForward _ _ => none
  | .rdlReceive _ _ => none
  | .rdrReceive _ _ => none
  | .wrlReceive _ _ => none
  | .blkReceive _ _ => none
  | .msgReceive _ _ => none
  | .ackReceive _ _ => none
  | .postReceive _ _ => none
  | .rtsReceive _ _ => none
  | .grantSend _ _ => none
  | .grantReceive _ _ => none
  | .hintReceive _ _ => none
  | .qnotReceive _ _ => none
  | .bundleReceive _ _ => none
  | .discReceive _ _ => none
  | .lsnReceive _ _ => none
  | .reservedOpReceive _ _ => none
  | .e2eTimerExpiry _ => none
  | .e2eWriteFail _ => none
  | .rdlResend _ => none
  | .rtsBusyResend _ => none
  | .grantTimeout _ => none
  | .bundleClose _ _ => none
  | .portCtrlRetrain _ => none
  | .powerWindowEnd _ => none
  | .senseSample _ => none
  | .estimatorUpdate _ => none
  | .thermalSample _ => none
  | .twinDigestCompare _ _ => none
  | .twinTimeout _ => none
  | .powerUpStepEnd _ => none
  | .inputVoltageChange _ _ => none
  | .inputOvercurrentTrip _ _ => none
  | .bar4Access _ => none
  | .ideIntegrityFailure _ _ => none
  | .t3RequestFailure _ => none
  | .hmbSend _ _ _ => none
  | .hmbAck _ _ => none
  | .secJresetGo _ => none
  | .secMextGo _ => none
  | .getVersion _ => none
  | .getCapabilities _ => none
  | .negotiateAlgorithms _ => none
  | .getDigests _ => none
  | .getCertificate _ => none
  | .challenge _ => none
  | .getMeasurements _ => none
  | .keyExchange _ => none
  | .finish _ => none
  | .keyUpdate _ => none
  | .heartbeat _ => none
  | .endSession _ => none
  | .chunkGet _ => none
  | .vendorDefinedRequest _ => none
  | .mctpControlRequest _ => none
  | .pldmSensorRead _ => none
  | .powerCapEffecterWrite _ => none
  | .fruRead _ _ => none
  | .registerRcRead _ _ => none
  | .registerWrite _ _ _ => none
  | .illegalInstruction _ _ => none
  | .routingOperationComplete _ => none
  | .vspencCompletion _ => none
  | .moverCopyComplete _ => none
  | .t3ReadCompletion _ _ => none
  | .pcieLinkTrainingDone _ _ => none
  | .dynamicAddressAssignment _ => none
  | .miswiredIdentSend _ => none
  | .inputContactOpen _ _ => none
  | .tirEditWriteLeaf => none
  | .tirEditReadLeaf => none
  | .tirEditMove => none
  | .tirEditInvalidate => none
  | .moverTakeWork => none
  | .patrolScrub => none
  | .syncSweep => none
  | .paceEpochBoundary => none
  | .localProposal => none
  | .paceUpPost => none
  | .paceDownPost => none
  | .paceDownMissing => none
  | .ageingEvaluation => none
  | .inputGood => none
  | .inputStageRestart => none
  | .refclkLoss => none
  | .perstAssert => none
  | .perstDeassert => none
  | .pcieConfigRequest => none
  | .functionLevelReset => none
  | .d3hotEntry => none
  | .d0Return => none
  | .secCmdTransition => none
  | .secCmdDebugUnlock => none
  | .secCmdDebugLock => none
  | .secCmdWriteImageChunk => none
  | .secCmdSelectSlot => none
  | .secCmdCommitSvn => none
  | .secCmdSaveSettings => none
  | .secCmdRetire => none
  | .secResetGo => none
  | .jobResetComplete => none
  | .getTid => none
  | .getPldmVersion => none
  | .getPldmTypes => none
  | .getPldmCommands => none

/-- A well-formed instruction names one of the 41 cores (COREID, Table 2-2). -/
def Laws.F.Statement (i : Instr) : Prop := i.wf = true → ∀ w, i.word = some w → w.core ≤ 40

/-- A core number that a conjunction starts with. -/
theorem coreOk_and {c : Nat} {b : Bool} (h : (coreOk c && b) = true) : c ≤ 40 := by
  simp [coreOk] at h
  exact h.1

/-- A core number alone. -/
theorem coreOk_le {c : Nat} (h : coreOk c = true) : c ≤ 40 := by
  simpa [coreOk] using h

theorem Laws.F.add (i : Bool) (w : IW) : Laws.F.Statement (.add i w) := by
  intro h w' e
  cases e
  exact coreOk_and h

theorem Laws.F.sub (i : Bool) (w : IW) : Laws.F.Statement (.sub i w) := by
  intro h w' e
  cases e
  exact coreOk_and h

theorem Laws.F.and (i : Bool) (w : IW) : Laws.F.Statement (.and i w) := by
  intro h w' e
  cases e
  exact coreOk_and h

theorem Laws.F.or (i : Bool) (w : IW) : Laws.F.Statement (.or i w) := by
  intro h w' e
  cases e
  exact coreOk_and h

theorem Laws.F.xor (i : Bool) (w : IW) : Laws.F.Statement (.xor i w) := by
  intro h w' e
  cases e
  exact coreOk_and h

theorem Laws.F.sll (i : Bool) (w : IW) : Laws.F.Statement (.sll i w) := by
  intro h w' e
  cases e
  exact coreOk_and h

theorem Laws.F.srl (i : Bool) (w : IW) : Laws.F.Statement (.srl i w) := by
  intro h w' e
  cases e
  exact coreOk_and h

theorem Laws.F.sra (i : Bool) (w : IW) : Laws.F.Statement (.sra i w) := by
  intro h w' e
  cases e
  exact coreOk_and h

theorem Laws.F.min (i : Bool) (w : IW) : Laws.F.Statement (.min i w) := by
  intro h w' e
  cases e
  exact coreOk_and h

theorem Laws.F.max (i : Bool) (w : IW) : Laws.F.Statement (.max i w) := by
  intro h w' e
  cases e
  exact coreOk_and h

theorem Laws.F.minu (i : Bool) (w : IW) : Laws.F.Statement (.minu i w) := by
  intro h w' e
  cases e
  exact coreOk_and h

theorem Laws.F.maxu (i : Bool) (w : IW) : Laws.F.Statement (.maxu i w) := by
  intro h w' e
  cases e
  exact coreOk_and h

theorem Laws.F.mul (i : Bool) (w : IW) : Laws.F.Statement (.mul i w) := by
  intro h w' e
  cases e
  exact coreOk_and h

theorem Laws.F.mulh (i : Bool) (w : IW) : Laws.F.Statement (.mulh i w) := by
  intro h w' e
  cases e
  exact coreOk_and h

theorem Laws.F.mulhu (i : Bool) (w : IW) : Laws.F.Statement (.mulhu i w) := by
  intro h w' e
  cases e
  exact coreOk_and h

theorem Laws.F.div (i : Bool) (w : IW) : Laws.F.Statement (.div i w) := by
  intro h w' e
  cases e
  exact coreOk_and h

theorem Laws.F.divu (i : Bool) (w : IW) : Laws.F.Statement (.divu i w) := by
  intro h w' e
  cases e
  exact coreOk_and h

theorem Laws.F.rem (i : Bool) (w : IW) : Laws.F.Statement (.rem i w) := by
  intro h w' e
  cases e
  exact coreOk_and h

theorem Laws.F.remu (i : Bool) (w : IW) : Laws.F.Statement (.remu i w) := by
  intro h w' e
  cases e
  exact coreOk_and h

theorem Laws.F.popc (i : Bool) (w : IW) : Laws.F.Statement (.popc i w) := by
  intro h w' e
  cases e
  exact coreOk_and h

theorem Laws.F.clz (i : Bool) (w : IW) : Laws.F.Statement (.clz i w) := by
  intro h w' e
  cases e
  exact coreOk_and h

theorem Laws.F.ctz (i : Bool) (w : IW) : Laws.F.Statement (.ctz i w) := by
  intro h w' e
  cases e
  exact coreOk_and h

theorem Laws.F.luh (w : IW) : Laws.F.Statement (.luh w) := by
  intro h w' e
  cases e
  exact coreOk_le h

theorem Laws.F.cmp (w : IW) : Laws.F.Statement (.cmp w) := by
  intro h w' e
  cases e
  exact coreOk_le h

theorem Laws.F.cmpi (w : IW) : Laws.F.Statement (.cmpi w) := by
  intro h w' e
  cases e
  exact coreOk_le h

theorem Laws.F.pand (w : IW) : Laws.F.Statement (.pand w) := by
  intro h w' e
  cases e
  exact coreOk_and h

theorem Laws.F.por (w : IW) : Laws.F.Statement (.por w) := by
  intro h w' e
  cases e
  exact coreOk_and h

theorem Laws.F.pxor (w : IW) : Laws.F.Statement (.pxor w) := by
  intro h w' e
  cases e
  exact coreOk_and h

theorem Laws.F.pandn (w : IW) : Laws.F.Statement (.pandn w) := by
  intro h w' e
  cases e
  exact coreOk_and h

theorem Laws.F.bp (w : IW) : Laws.F.Statement (.bp w) := by
  intro h w' e
  cases e
  exact coreOk_le h

theorem Laws.F.jal (w : IW) : Laws.F.Statement (.jal w) := by
  intro h w' e
  cases e
  exact coreOk_le h

theorem Laws.F.jalr (w : IW) : Laws.F.Statement (.jalr w) := by
  intro h w' e
  cases e
  exact coreOk_le h

theorem Laws.F.ld (w : IW) : Laws.F.Statement (.ld w) := by
  intro h w' e
  cases e
  exact coreOk_le h

theorem Laws.F.st (w : IW) : Laws.F.Statement (.st w) := by
  intro h w' e
  cases e
  exact coreOk_le h

theorem Laws.F.ldl (w : IW) : Laws.F.Statement (.ldl w) := by
  intro h w' e
  cases e
  exact coreOk_le h

theorem Laws.F.stl (w : IW) : Laws.F.Statement (.stl w) := by
  intro h w' e
  cases e
  exact coreOk_le h

theorem Laws.F.fence (w : IW) : Laws.F.Statement (.fence w) := by
  intro h w' e
  cases e
  exact coreOk_and h

theorem Laws.F.fenceD (w : IW) : Laws.F.Statement (.fenceD w) := by
  intro h w' e
  cases e
  exact coreOk_and h

theorem Laws.F.csrr (w : IW) : Laws.F.Statement (.csrr w) := by
  intro h w' e
  cases e
  exact coreOk_and h

theorem Laws.F.csrw (w : IW) : Laws.F.Statement (.csrw w) := by
  intro h w' e
  cases e
  exact coreOk_and h

theorem Laws.F.csrs (w : IW) : Laws.F.Statement (.csrs w) := by
  intro h w' e
  cases e
  exact coreOk_and h

theorem Laws.F.csrc (w : IW) : Laws.F.Statement (.csrc w) := by
  intro h w' e
  cases e
  exact coreOk_and h

theorem Laws.F.jcall (w : IW) : Laws.F.Statement (.jcall w) := by
  intro h w' e
  cases e
  exact coreOk_and h

theorem Laws.F.jfret (w : IW) : Laws.F.Statement (.jfret w) := by
  intro h w' e
  cases e
  exact coreOk_and h

theorem Laws.F.ebreak (w : IW) : Laws.F.Statement (.ebreak w) := by
  intro h w' e
  cases e
  exact coreOk_and h

theorem Laws.F.wfi (w : IW) : Laws.F.Statement (.wfi w) := by
  intro h w' e
  cases e
  exact coreOk_and h

theorem Laws.F.mret (w : IW) : Laws.F.Statement (.mret w) := by
  intro h w' e
  cases e
  exact coreOk_and h

theorem Laws.F.halt (w : IW) : Laws.F.Statement (.halt w) := by
  intro h w' e
  cases e
  exact coreOk_and h

theorem Laws.F.sopost (w : IW) : Laws.F.Statement (.sopost w) := by
  intro h w' e
  cases e
  exact coreOk_and h

theorem Laws.F.sowait (w : IW) : Laws.F.Statement (.sowait w) := by
  intro h w' e
  cases e
  exact coreOk_and h

theorem Laws.F.sowaitEnd (c : Nat) : Laws.F.Statement (.sowaitEnd c) := by
  intro _ _ e
  cases e

theorem Laws.F.soreset (w : IW) : Laws.F.Statement (.soreset w) := by
  intro h w' e
  cases e
  exact coreOk_and h

theorem Laws.F.asyncUnitFaultTaken (c : Nat) : Laws.F.Statement (.asyncUnitFaultTaken c) := by
  intro _ _ e
  cases e

theorem Laws.F.debugHalt (c : Nat) : Laws.F.Statement (.debugHalt c) := by
  intro _ _ e
  cases e

theorem Laws.F.manchorPropose (w : IW) : Laws.F.Statement (.manchorPropose w) := by
  intro h w' e
  cases e
  exact coreOk_and h

theorem Laws.F.manchorSet (w : IW) : Laws.F.Statement (.manchorSet w) := by
  intro h w' e
  cases e
  exact coreOk_and h

theorem Laws.F.mloadw (w : IW) : Laws.F.Statement (.mloadw w) := by
  intro h w' e
  cases e
  exact coreOk_le h

theorem Laws.F.shadowFillStart (e : Nat) : Laws.F.Statement (.shadowFillStart e) := by
  intro _ _ e
  cases e

theorem Laws.F.shadowFillDone (e : Nat) : Laws.F.Statement (.shadowFillDone e) := by
  intro _ _ e
  cases e

theorem Laws.F.mstream (w : IW) : Laws.F.Statement (.mstream w) := by
  intro h w' e
  cases e
  exact coreOk_le h

theorem Laws.F.passStart (e : Nat) (mismatch : Option Nat) : Laws.F.Statement (.passStart e mismatch) := by
  intro _ _ e
  cases e

theorem Laws.F.tileAllocationServed (e : Nat) : Laws.F.Statement (.tileAllocationServed e) := by
  intro _ _ e
  cases e

theorem Laws.F.mdrain (w : IW) : Laws.F.Statement (.mdrain w) := by
  intro h w' e
  cases e
  exact coreOk_and h

theorem Laws.F.drainCommit (e : Nat) : Laws.F.Statement (.drainCommit e) := by
  intro _ _ e
  cases e

theorem Laws.F.mtstat (w : IW) : Laws.F.Statement (.mtstat w) := by
  intro h w' e
  cases e
  exact coreOk_and h

theorem Laws.F.vadd (w : IW) : Laws.F.Statement (.vadd w) := by
  intro h w' e
  cases e
  exact coreOk_and h

theorem Laws.F.vsub (w : IW) : Laws.F.Statement (.vsub w) := by
  intro h w' e
  cases e
  exact coreOk_and h

theorem Laws.F.vmul (w : IW) : Laws.F.Statement (.vmul w) := by
  intro h w' e
  cases e
  exact coreOk_and h

theorem Laws.F.vmin (w : IW) : Laws.F.Statement (.vmin w) := by
  intro h w' e
  cases e
  exact coreOk_and h

theorem Laws.F.vmax (w : IW) : Laws.F.Statement (.vmax w) := by
  intro h w' e
  cases e
  exact coreOk_and h

theorem Laws.F.vdiv (w : IW) : Laws.F.Statement (.vdiv w) := by
  intro h w' e
  cases e
  exact coreOk_and h

theorem Laws.F.vsqrt (w : IW) : Laws.F.Statement (.vsqrt w) := by
  intro h w' e
  cases e
  exact coreOk_and h

theorem Laws.F.vexp2 (w : IW) : Laws.F.Statement (.vexp2 w) := by
  intro h w' e
  cases e
  exact coreOk_and h

theorem Laws.F.vlog2 (w : IW) : Laws.F.Statement (.vlog2 w) := by
  intro h w' e
  cases e
  exact coreOk_and h

theorem Laws.F.vrcp (w : IW) : Laws.F.Statement (.vrcp w) := by
  intro h w' e
  cases e
  exact coreOk_and h

theorem Laws.F.vrsq (w : IW) : Laws.F.Statement (.vrsq w) := by
  intro h w' e
  cases e
  exact coreOk_and h

theorem Laws.F.vfma (w : IW) : Laws.F.Statement (.vfma w) := by
  intro h w' e
  cases e
  exact coreOk_and h

theorem Laws.F.vfms (w : IW) : Laws.F.Statement (.vfms w) := by
  intro h w' e
  cases e
  exact coreOk_and h

theorem Laws.F.vcmp (w : IW) : Laws.F.Statement (.vcmp w) := by
  intro h w' e
  cases e
  exact coreOk_le h

theorem Laws.F.vand (w : IW) : Laws.F.Statement (.vand w) := by
  intro h w' e
  cases e
  exact coreOk_and h

theorem Laws.F.vor (w : IW) : Laws.F.Statement (.vor w) := by
  intro h w' e
  cases e
  exact coreOk_and h

theorem Laws.F.vxor (w : IW) : Laws.F.Statement (.vxor w) := by
  intro h w' e
  cases e
  exact coreOk_and h

theorem Laws.F.viadd (w : IW) : Laws.F.Statement (.viadd w) := by
  intro h w' e
  cases e
  exact coreOk_and h

theorem Laws.F.vsel (w : IW) : Laws.F.Statement (.vsel w) := by
  intro h w' e
  cases e
  exact coreOk_and h

theorem Laws.F.vshl (w : IW) : Laws.F.Statement (.vshl w) := by
  intro h w' e
  cases e
  exact coreOk_and h

theorem Laws.F.vshr (w : IW) : Laws.F.Statement (.vshr w) := by
  intro h w' e
  cases e
  exact coreOk_and h

theorem Laws.F.vcvt (w : IW) : Laws.F.Statement (.vcvt w) := by
  intro h w' e
  cases e
  exact coreOk_le h

theorem Laws.F.vld (w : IW) : Laws.F.Statement (.vld w) := by
  intro h w' e
  cases e
  exact coreOk_and h

theorem Laws.F.vst (w : IW) : Laws.F.Statement (.vst w) := by
  intro h w' e
  cases e
  exact coreOk_and h

theorem Laws.F.vred (w : IW) : Laws.F.Statement (.vred w) := by
  intro h w' e
  cases e
  exact coreOk_and h

theorem Laws.F.vbcast (w : IW) : Laws.F.Statement (.vbcast w) := by
  intro h w' e
  cases e
  exact coreOk_and h

theorem Laws.F.vmovg (w : IW) : Laws.F.Statement (.vmovg w) := by
  intro h w' e
  cases e
  exact coreOk_and h

theorem Laws.F.vspencEncode (w : IW) : Laws.F.Statement (.vspencEncode w) := by
  intro h w' e
  cases e
  exact coreOk_and h

theorem Laws.F.vspencMap (w : IW) : Laws.F.Statement (.vspencMap w) := by
  intro h w' e
  cases e
  exact coreOk_and h

theorem Laws.F.rscore (w : IW) : Laws.F.Statement (.rscore w) := by
  intro h w' e
  cases e
  exact coreOk_and h

theorem Laws.F.batchOpenResume (s : Nat) : Laws.F.Statement (.batchOpenResume s) := by
  intro _ _ e
  cases e

theorem Laws.F.batchOpenEpochTimeout (s : Nat) : Laws.F.Statement (.batchOpenEpochTimeout s) := by
  intro _ _ e
  cases e

theorem Laws.F.rselect (w : IW) : Laws.F.Statement (.rselect w) := by
  intro h w' e
  cases e
  exact coreOk_and h

theorem Laws.F.routeClose (s : Nat) (rt : Nat) : Laws.F.Statement (.routeClose s rt) := by
  intro _ _ e
  cases e

theorem Laws.F.routeCloseCountsTimeout (s : Nat) (rt : Nat) : Laws.F.Statement (.routeCloseCountsTimeout s rt) := by
  intro _ _ e
  cases e

theorem Laws.F.rpackPack (w : IW) : Laws.F.Statement (.rpackPack w) := by
  intro h w' e
  cases e
  exact coreOk_and h

theorem Laws.F.rpackArrive (w : IW) : Laws.F.Statement (.rpackArrive w) := by
  intro h w' e
  cases e
  exact coreOk_and h

theorem Laws.F.marverRestage (c : Nat) (pool : Nat) (stage : Nat) (held : List Nat) : Laws.F.Statement (.marverRestage c pool stage held) := by
  intro _ _ e
  cases e

theorem Laws.F.rcombine (w : IW) : Laws.F.Statement (.rcombine w) := by
  intro h w' e
  cases e
  exact coreOk_and h

theorem Laws.F.returnBinHandoff (c : Nat) (bin : Nat) : Laws.F.Statement (.returnBinHandoff c bin) := by
  intro _ _ e
  cases e

theorem Laws.F.rstatReadLedger (w : IW) : Laws.F.Statement (.rstatReadLedger w) := by
  intro h w' e
  cases e
  exact coreOk_and ((Bool.and_eq_true_iff.mp h).1)

theorem Laws.F.rstatCancel (w : IW) : Laws.F.Statement (.rstatCancel w) := by
  intro h w' e
  cases e
  exact coreOk_and ((Bool.and_eq_true_iff.mp h).1)

theorem Laws.F.rstatSupplyCounts (w : IW) : Laws.F.Statement (.rstatSupplyCounts w) := by
  intro h w' e
  cases e
  exact coreOk_and ((Bool.and_eq_true_iff.mp h).1)

theorem Laws.F.rstatReload (w : IW) : Laws.F.Statement (.rstatReload w) := by
  intro h w' e
  cases e
  exact coreOk_and ((Bool.and_eq_true_iff.mp h).1)

theorem Laws.F.xsend (w : IW) : Laws.F.Statement (.xsend w) := by
  intro h w' e
  cases e
  exact coreOk_and h

theorem Laws.F.xsendComplete (m : Nat) : Laws.F.Statement (.xsendComplete m) := by
  intro _ _ e
  cases e

theorem Laws.F.xrecvReceive (w : IW) : Laws.F.Statement (.xrecvReceive w) := by
  intro h w' e
  cases e
  exact coreOk_and h

theorem Laws.F.xrecvTimeout (c : Nat) : Laws.F.Statement (.xrecvTimeout c) := by
  intro _ _ e
  cases e

theorem Laws.F.xrecvBind (w : IW) : Laws.F.Statement (.xrecvBind w) := by
  intro h w' e
  cases e
  exact coreOk_and h

theorem Laws.F.xtag (w : IW) : Laws.F.Statement (.xtag w) := by
  intro h w' e
  cases e
  exact coreOk_le h

theorem Laws.F.chunkReceiptArrival (m : Nat) : Laws.F.Statement (.chunkReceiptArrival m) := by
  intro _ _ e
  cases e

theorem Laws.F.abortMessageArrival (c : Nat) (desc : Nat) (tag : BitVec 64) (sender : Nat) : Laws.F.Statement (.abortMessageArrival c desc tag sender) := by
  intro _ _ e
  cases e

theorem Laws.F.balloc (w : IW) : Laws.F.Statement (.balloc w) := by
  intro h w' e
  cases e
  exact coreOk_and h

theorem Laws.F.ballocWaiterServed (p : Nat) : Laws.F.Statement (.ballocWaiterServed p) := by
  intro _ _ e
  cases e

theorem Laws.F.bshare (w : IW) : Laws.F.Statement (.bshare w) := by
  intro h w' e
  cases e
  exact coreOk_and h

theorem Laws.F.bdrop (w : IW) : Laws.F.Statement (.bdrop w) := by
  intro h w' e
  cases e
  exact coreOk_and h

theorem Laws.F.bfree (w : IW) : Laws.F.Statement (.bfree w) := by
  intro h w' e
  cases e
  exact coreOk_and h

theorem Laws.F.queueReservation (p : Nat) : Laws.F.Statement (.queueReservation p) := by
  intro _ _ e
  cases e

theorem Laws.F.tpref (w : IW) : Laws.F.Statement (.tpref w) := by
  intro h w' e
  cases e
  exact coreOk_and h

theorem Laws.F.tstream (w : IW) : Laws.F.Statement (.tstream w) := by
  intro h w' e
  cases e
  exact coreOk_and h

theorem Laws.F.prefetchGobArrival (e : Nat) (i : Nat) : Laws.F.Statement (.prefetchGobArrival e i) := by
  intro _ _ e
  cases e

theorem Laws.F.prefetchRefill (e : Nat) (i : Nat) : Laws.F.Statement (.prefetchRefill e i) := by
  intro _ _ e
  cases e

theorem Laws.F.tpin (w : IW) : Laws.F.Statement (.tpin w) := by
  intro h w' e
  cases e
  exact coreOk_and h

theorem Laws.F.loopn (w : IW) : Laws.F.Statement (.loopn w) := by
  intro h w' e
  cases e
  exact coreOk_le h

theorem Laws.F.phint (w : IW) : Laws.F.Statement (.phint w) := by
  intro h w' e
  cases e
  exact coreOk_le h

theorem Laws.F.phintBoostStart (u : Nat) : Laws.F.Statement (.phintBoostStart u) := by
  intro _ _ e
  cases e

theorem Laws.F.phintBoostEnd (u : Nat) : Laws.F.Statement (.phintBoostEnd u) := by
  intro _ _ e
  cases e

theorem Laws.F.digestFold (w : IW) : Laws.F.Statement (.digestFold w) := by
  intro h w' e
  cases e
  exact coreOk_and h

theorem Laws.F.digestRead (w : IW) : Laws.F.Statement (.digestRead w) := by
  intro h w' e
  cases e
  exact coreOk_and h

theorem Laws.F.digestLevel (w : IW) : Laws.F.Statement (.digestLevel w) := by
  intro h w' e
  cases e
  exact coreOk_and h

theorem Laws.F.submitListTake (s : Nat) (q : Nat) : Laws.F.Statement (.submitListTake s q) := by
  intro _ _ e
  cases e

theorem Laws.F.entryEnterWindow (s : Nat) (q : Nat) (taken : Nat) : Laws.F.Statement (.entryEnterWindow s q taken) := by
  intro _ _ e
  cases e

theorem Laws.F.entryStart (s : Nat) (q : Nat) (taken : Nat) (pos : Nat) : Laws.F.Statement (.entryStart s q taken pos) := by
  intro _ _ e
  cases e

theorem Laws.F.affinityWaitExpiry (s : Nat) (q : Nat) (taken : Nat) (pos : Nat) : Laws.F.Statement (.affinityWaitExpiry s q taken pos) := by
  intro _ _ e
  cases e

theorem Laws.F.entrySkip (s : Nat) (q : Nat) (taken : Nat) (pos : Nat) : Laws.F.Statement (.entrySkip s q taken pos) := by
  intro _ _ e
  cases e

theorem Laws.F.entryComplete (c : Nat) : Laws.F.Statement (.entryComplete c) := by
  intro _ _ e
  cases e

theorem Laws.F.engineReassign (e : Nat) : Laws.F.Statement (.engineReassign e) := by
  intro _ _ e
  cases e

theorem Laws.F.cadencePeriodStart (n : Nat) : Laws.F.Statement (.cadencePeriodStart n) := by
  intro _ _ e
  cases e

theorem Laws.F.cadCfgEnableSet (v : Via) (n : Nat) (x : BitVec 64) : Laws.F.Statement (.cadCfgEnableSet v n x) := by
  intro _ _ e
  cases e

theorem Laws.F.cadCfgEnableClear (v : Via) (n : Nat) (x : BitVec 64) : Laws.F.Statement (.cadCfgEnableClear v n x) := by
  intro _ _ e
  cases e

theorem Laws.F.jobAdmitGo (s : Nat) : Laws.F.Statement (.jobAdmitGo s) := by
  intro _ _ e
  cases e

theorem Laws.F.jobAdmitStop (s : Nat) : Laws.F.Statement (.jobAdmitStop s) := by
  intro _ _ e
  cases e

theorem Laws.F.rctxCancelGo (v : Via) (s : Nat) (epoch : Nat) : Laws.F.Statement (.rctxCancelGo v s epoch) := by
  intro _ _ e
  cases e

theorem Laws.F.moveComplete (k : Nat) : Laws.F.Statement (.moveComplete k) := by
  intro _ _ e
  cases e

theorem Laws.F.windowWrite (v : Via) (s : Nat) (x : BitVec 64) : Laws.F.Statement (.windowWrite v s x) := by
  intro _ _ e
  cases e

theorem Laws.F.replicaReadTimeout (k : Nat) : Laws.F.Statement (.replicaReadTimeout k) := by
  intro _ _ e
  cases e

theorem Laws.F.refetchFrameWaitTimeout (k : Nat) : Laws.F.Statement (.refetchFrameWaitTimeout k) := by
  intro _ _ e
  cases e

theorem Laws.F.poolInit (p : Nat) : Laws.F.Statement (.poolInit p) := by
  intro _ _ e
  cases e

theorem Laws.F.poolQuiesceWrite (p : Nat) (q : Bool) : Laws.F.Statement (.poolQuiesceWrite p q) := by
  intro _ _ e
  cases e

theorem Laws.F.poolQuiesced (p : Nat) : Laws.F.Statement (.poolQuiesced p) := by
  intro _ _ e
  cases e

theorem Laws.F.synPost (v : Via) (x : BitVec 64) : Laws.F.Statement (.synPost v x) := by
  intro _ _ e
  cases e

theorem Laws.F.synReset (v : Via) (x : BitVec 64) : Laws.F.Statement (.synReset v x) := by
  intro _ _ e
  cases e

theorem Laws.F.synRangeWrite (s : Nat) (x : BitVec 64) : Laws.F.Statement (.synRangeWrite s x) := by
  intro _ _ e
  cases e

theorem Laws.F.portTrainStart (p : Nat) : Laws.F.Statement (.portTrainStart p) := by
  intro _ _ e
  cases e

theorem Laws.F.portTrainingDone (p : Nat) (r : TrainResult) : Laws.F.Statement (.portTrainingDone p r) := by
  intro _ _ e
  cases e

theorem Laws.F.portTrainingTimeout (p : Nat) : Laws.F.Statement (.portTrainingTimeout p) := by
  intro _ _ e
  cases e

theorem Laws.F.portDownRetry (p : Nat) : Laws.F.Statement (.portDownRetry p) := by
  intro _ _ e
  cases e

theorem Laws.F.fastRetrainStart (p : Nat) : Laws.F.Statement (.fastRetrainStart p) := by
  intro _ _ e
  cases e

theorem Laws.F.fastRetrainTimeout (p : Nat) : Laws.F.Statement (.fastRetrainTimeout p) := by
  intro _ _ e
  cases e

theorem Laws.F.identFlitReceive (p : Nat) (x : Ident) : Laws.F.Statement (.identFlitReceive p x) := by
  intro _ _ e
  cases e

theorem Laws.F.flitReceive (p : Nat) (x : Flit) : Laws.F.Statement (.flitReceive p x) := by
  intro _ _ e
  cases e

theorem Laws.F.nakReceive (p : Nat) (fseq : Nat) : Laws.F.Statement (.nakReceive p fseq) := by
  intro _ _ e
  cases e

theorem Laws.F.heartbeatSend (p : Nat) : Laws.F.Statement (.heartbeatSend p) := by
  intro _ _ e
  cases e

theorem Laws.F.portHoldExpiry (p : Nat) : Laws.F.Statement (.portHoldExpiry p) := by
  intro _ _ e
  cases e

theorem Laws.F.transitForward (p : Nat) (x : Tx) : Laws.F.Statement (.transitForward p x) := by
  intro _ _ e
  cases e

theorem Laws.F.rdlReceive (p : Nat) (x : Tx) : Laws.F.Statement (.rdlReceive p x) := by
  intro _ _ e
  cases e

theorem Laws.F.rdrReceive (p : Nat) (x : Tx) : Laws.F.Statement (.rdrReceive p x) := by
  intro _ _ e
  cases e

theorem Laws.F.wrlReceive (p : Nat) (x : Tx) : Laws.F.Statement (.wrlReceive p x) := by
  intro _ _ e
  cases e

theorem Laws.F.blkReceive (p : Nat) (x : Tx) : Laws.F.Statement (.blkReceive p x) := by
  intro _ _ e
  cases e

theorem Laws.F.msgReceive (p : Nat) (x : Tx) : Laws.F.Statement (.msgReceive p x) := by
  intro _ _ e
  cases e

theorem Laws.F.ackReceive (p : Nat) (x : Tx) : Laws.F.Statement (.ackReceive p x) := by
  intro _ _ e
  cases e

theorem Laws.F.postReceive (p : Nat) (x : Tx) : Laws.F.Statement (.postReceive p x) := by
  intro _ _ e
  cases e

theorem Laws.F.rtsReceive (p : Nat) (x : Tx) : Laws.F.Statement (.rtsReceive p x) := by
  intro _ _ e
  cases e

theorem Laws.F.grantSend (s : Nat) (q : Nat) : Laws.F.Statement (.grantSend s q) := by
  intro _ _ e
  cases e

theorem Laws.F.grantReceive (p : Nat) (x : Tx) : Laws.F.Statement (.grantReceive p x) := by
  intro _ _ e
  cases e

theorem Laws.F.hintReceive (p : Nat) (x : Tx) : Laws.F.Statement (.hintReceive p x) := by
  intro _ _ e
  cases e

theorem Laws.F.qnotReceive (p : Nat) (x : Tx) : Laws.F.Statement (.qnotReceive p x) := by
  intro _ _ e
  cases e

theorem Laws.F.bundleReceive (p : Nat) (x : Tx) : Laws.F.Statement (.bundleReceive p x) := by
  intro _ _ e
  cases e

theorem Laws.F.discReceive (p : Nat) (x : Tx) : Laws.F.Statement (.discReceive p x) := by
  intro _ _ e
  cases e

theorem Laws.F.lsnReceive (p : Nat) (x : Tx) : Laws.F.Statement (.lsnReceive p x) := by
  intro _ _ e
  cases e

theorem Laws.F.reservedOpReceive (p : Nat) (x : Tx) : Laws.F.Statement (.reservedOpReceive p x) := by
  intro _ _ e
  cases e

theorem Laws.F.e2eTimerExpiry (k : SpaceKey) : Laws.F.Statement (.e2eTimerExpiry k) := by
  intro _ _ e
  cases e

theorem Laws.F.e2eWriteFail (k : SpaceKey) : Laws.F.Statement (.e2eWriteFail k) := by
  intro _ _ e
  cases e

theorem Laws.F.rdlResend (rid : Nat) : Laws.F.Statement (.rdlResend rid) := by
  intro _ _ e
  cases e

theorem Laws.F.rtsBusyResend (m : Nat) : Laws.F.Statement (.rtsBusyResend m) := by
  intro _ _ e
  cases e

theorem Laws.F.grantTimeout (m : Nat) : Laws.F.Statement (.grantTimeout m) := by
  intro _ _ e
  cases e

theorem Laws.F.bundleClose (p : Nat) (i : Nat) : Laws.F.Statement (.bundleClose p i) := by
  intro _ _ e
  cases e

theorem Laws.F.portCtrlRetrain (p : Nat) : Laws.F.Statement (.portCtrlRetrain p) := by
  intro _ _ e
  cases e

theorem Laws.F.powerWindowEnd (r : PowerReading) : Laws.F.Statement (.powerWindowEnd r) := by
  intro _ _ e
  cases e

theorem Laws.F.senseSample (r : SenseReading) : Laws.F.Statement (.senseSample r) := by
  intro _ _ e
  cases e

theorem Laws.F.estimatorUpdate (r : PowerReading) : Laws.F.Statement (.estimatorUpdate r) := by
  intro _ _ e
  cases e

theorem Laws.F.thermalSample (temps : List Int) : Laws.F.Statement (.thermalSample temps) := by
  intro _ _ e
  cases e

theorem Laws.F.twinDigestCompare (s : Nat) (d : TwinMsg) : Laws.F.Statement (.twinDigestCompare s d) := by
  intro _ _ e
  cases e

theorem Laws.F.twinTimeout (s : Nat) : Laws.F.Statement (.twinTimeout s) := by
  intro _ _ e
  cases e

theorem Laws.F.powerUpStepEnd (r : BootResult) : Laws.F.Statement (.powerUpStepEnd r) := by
  intro _ _ e
  cases e

theorem Laws.F.inputVoltageChange (dv : Int) (us : Nat) : Laws.F.Statement (.inputVoltageChange dv us) := by
  intro _ _ e
  cases e

theorem Laws.F.inputOvercurrentTrip (ma : Nat) (us : Nat) : Laws.F.Statement (.inputOvercurrentTrip ma us) := by
  intro _ _ e
  cases e

theorem Laws.F.bar4Access (a : Bar4) : Laws.F.Statement (.bar4Access a) := by
  intro _ _ e
  cases e

theorem Laws.F.ideIntegrityFailure (bar : Nat) (off : Nat) : Laws.F.Statement (.ideIntegrityFailure bar off) := by
  intro _ _ e
  cases e

theorem Laws.F.t3RequestFailure (k : Nat) : Laws.F.Statement (.t3RequestFailure k) := by
  intro _ _ e
  cases e

theorem Laws.F.hmbSend (v : Via) (s : Nat) (len : Nat) : Laws.F.Statement (.hmbSend v s len) := by
  intro _ _ e
  cases e

theorem Laws.F.hmbAck (v : Via) (s : Nat) : Laws.F.Statement (.hmbAck v s) := by
  intro _ _ e
  cases e

theorem Laws.F.secJresetGo (s : Nat) : Laws.F.Statement (.secJresetGo s) := by
  intro _ _ e
  cases e

theorem Laws.F.secMextGo (reg : Nat) : Laws.F.Statement (.secMextGo reg) := by
  intro _ _ e
  cases e

theorem Laws.F.getVersion (req : List (BitVec 8)) : Laws.F.Statement (.getVersion req) := by
  intro _ _ e
  cases e

theorem Laws.F.getCapabilities (req : List (BitVec 8)) : Laws.F.Statement (.getCapabilities req) := by
  intro _ _ e
  cases e

theorem Laws.F.negotiateAlgorithms (req : List (BitVec 8)) : Laws.F.Statement (.negotiateAlgorithms req) := by
  intro _ _ e
  cases e

theorem Laws.F.getDigests (req : List (BitVec 8)) : Laws.F.Statement (.getDigests req) := by
  intro _ _ e
  cases e

theorem Laws.F.getCertificate (req : List (BitVec 8)) : Laws.F.Statement (.getCertificate req) := by
  intro _ _ e
  cases e

theorem Laws.F.challenge (req : List (BitVec 8)) : Laws.F.Statement (.challenge req) := by
  intro _ _ e
  cases e

theorem Laws.F.getMeasurements (req : List (BitVec 8)) : Laws.F.Statement (.getMeasurements req) := by
  intro _ _ e
  cases e

theorem Laws.F.keyExchange (req : List (BitVec 8)) : Laws.F.Statement (.keyExchange req) := by
  intro _ _ e
  cases e

theorem Laws.F.finish (req : List (BitVec 8)) : Laws.F.Statement (.finish req) := by
  intro _ _ e
  cases e

theorem Laws.F.keyUpdate (req : List (BitVec 8)) : Laws.F.Statement (.keyUpdate req) := by
  intro _ _ e
  cases e

theorem Laws.F.heartbeat (req : List (BitVec 8)) : Laws.F.Statement (.heartbeat req) := by
  intro _ _ e
  cases e

theorem Laws.F.endSession (req : List (BitVec 8)) : Laws.F.Statement (.endSession req) := by
  intro _ _ e
  cases e

theorem Laws.F.chunkGet (req : List (BitVec 8)) : Laws.F.Statement (.chunkGet req) := by
  intro _ _ e
  cases e

theorem Laws.F.vendorDefinedRequest (req : List (BitVec 8)) : Laws.F.Statement (.vendorDefinedRequest req) := by
  intro _ _ e
  cases e

theorem Laws.F.mctpControlRequest (q : Nat) : Laws.F.Statement (.mctpControlRequest q) := by
  intro _ _ e
  cases e

theorem Laws.F.pldmSensorRead (id : Nat) : Laws.F.Statement (.pldmSensorRead id) := by
  intro _ _ e
  cases e

theorem Laws.F.powerCapEffecterWrite (watts : Nat) : Laws.F.Statement (.powerCapEffecterWrite watts) := by
  intro _ _ e
  cases e

theorem Laws.F.fruRead (off : Nat) (len : Nat) : Laws.F.Statement (.fruRead off len) := by
  intro _ _ e
  cases e

theorem Laws.F.registerRcRead (v : Via) (off : Nat) : Laws.F.Statement (.registerRcRead v off) := by
  intro _ _ e
  cases e

theorem Laws.F.registerWrite (v : Via) (off : Nat) (x : BitVec 64) : Laws.F.Statement (.registerWrite v off x) := by
  intro _ _ e
  cases e

theorem Laws.F.illegalInstruction (c : Nat) (word : BitVec 32) : Laws.F.Statement (.illegalInstruction c word) := by
  intro _ _ e
  cases e

theorem Laws.F.routingOperationComplete (k : Nat) : Laws.F.Statement (.routingOperationComplete k) := by
  intro _ _ e
  cases e

theorem Laws.F.vspencCompletion (e : Nat) : Laws.F.Statement (.vspencCompletion e) := by
  intro _ _ e
  cases e

theorem Laws.F.moverCopyComplete (k : Nat) : Laws.F.Statement (.moverCopyComplete k) := by
  intro _ _ e
  cases e

theorem Laws.F.t3ReadCompletion (k : Nat) (data : List (BitVec 8)) : Laws.F.Statement (.t3ReadCompletion k data) := by
  intro _ _ e
  cases e

theorem Laws.F.pcieLinkTrainingDone (speed : Nat) (width : Nat) : Laws.F.Statement (.pcieLinkTrainingDone speed width) := by
  intro _ _ e
  cases e

theorem Laws.F.dynamicAddressAssignment (addr : Nat) : Laws.F.Statement (.dynamicAddressAssignment addr) := by
  intro _ _ e
  cases e

theorem Laws.F.miswiredIdentSend (p : Nat) : Laws.F.Statement (.miswiredIdentSend p) := by
  intro _ _ e
  cases e

theorem Laws.F.inputContactOpen (rtn : Bool) (mask : BitVec 8) : Laws.F.Statement (.inputContactOpen rtn mask) := by
  intro _ _ e
  cases e

theorem Laws.F.tirEditWriteLeaf : Laws.F.Statement .tirEditWriteLeaf := by
  intro _ _ e
  cases e

theorem Laws.F.tirEditReadLeaf : Laws.F.Statement .tirEditReadLeaf := by
  intro _ _ e
  cases e

theorem Laws.F.tirEditMove : Laws.F.Statement .tirEditMove := by
  intro _ _ e
  cases e

theorem Laws.F.tirEditInvalidate : Laws.F.Statement .tirEditInvalidate := by
  intro _ _ e
  cases e

theorem Laws.F.moverTakeWork : Laws.F.Statement .moverTakeWork := by
  intro _ _ e
  cases e

theorem Laws.F.patrolScrub : Laws.F.Statement .patrolScrub := by
  intro _ _ e
  cases e

theorem Laws.F.syncSweep : Laws.F.Statement .syncSweep := by
  intro _ _ e
  cases e

theorem Laws.F.paceEpochBoundary : Laws.F.Statement .paceEpochBoundary := by
  intro _ _ e
  cases e

theorem Laws.F.localProposal : Laws.F.Statement .localProposal := by
  intro _ _ e
  cases e

theorem Laws.F.paceUpPost : Laws.F.Statement .paceUpPost := by
  intro _ _ e
  cases e

theorem Laws.F.paceDownPost : Laws.F.Statement .paceDownPost := by
  intro _ _ e
  cases e

theorem Laws.F.paceDownMissing : Laws.F.Statement .paceDownMissing := by
  intro _ _ e
  cases e

theorem Laws.F.ageingEvaluation : Laws.F.Statement .ageingEvaluation := by
  intro _ _ e
  cases e

theorem Laws.F.inputGood : Laws.F.Statement .inputGood := by
  intro _ _ e
  cases e

theorem Laws.F.inputStageRestart : Laws.F.Statement .inputStageRestart := by
  intro _ _ e
  cases e

theorem Laws.F.refclkLoss : Laws.F.Statement .refclkLoss := by
  intro _ _ e
  cases e

theorem Laws.F.perstAssert : Laws.F.Statement .perstAssert := by
  intro _ _ e
  cases e

theorem Laws.F.perstDeassert : Laws.F.Statement .perstDeassert := by
  intro _ _ e
  cases e

theorem Laws.F.pcieConfigRequest : Laws.F.Statement .pcieConfigRequest := by
  intro _ _ e
  cases e

theorem Laws.F.functionLevelReset : Laws.F.Statement .functionLevelReset := by
  intro _ _ e
  cases e

theorem Laws.F.d3hotEntry : Laws.F.Statement .d3hotEntry := by
  intro _ _ e
  cases e

theorem Laws.F.d0Return : Laws.F.Statement .d0Return := by
  intro _ _ e
  cases e

theorem Laws.F.secCmdTransition : Laws.F.Statement .secCmdTransition := by
  intro _ _ e
  cases e

theorem Laws.F.secCmdDebugUnlock : Laws.F.Statement .secCmdDebugUnlock := by
  intro _ _ e
  cases e

theorem Laws.F.secCmdDebugLock : Laws.F.Statement .secCmdDebugLock := by
  intro _ _ e
  cases e

theorem Laws.F.secCmdWriteImageChunk : Laws.F.Statement .secCmdWriteImageChunk := by
  intro _ _ e
  cases e

theorem Laws.F.secCmdSelectSlot : Laws.F.Statement .secCmdSelectSlot := by
  intro _ _ e
  cases e

theorem Laws.F.secCmdCommitSvn : Laws.F.Statement .secCmdCommitSvn := by
  intro _ _ e
  cases e

theorem Laws.F.secCmdSaveSettings : Laws.F.Statement .secCmdSaveSettings := by
  intro _ _ e
  cases e

theorem Laws.F.secCmdRetire : Laws.F.Statement .secCmdRetire := by
  intro _ _ e
  cases e

theorem Laws.F.secResetGo : Laws.F.Statement .secResetGo := by
  intro _ _ e
  cases e

theorem Laws.F.jobResetComplete : Laws.F.Statement .jobResetComplete := by
  intro _ _ e
  cases e

theorem Laws.F.getTid : Laws.F.Statement .getTid := by
  intro _ _ e
  cases e

theorem Laws.F.getPldmVersion : Laws.F.Statement .getPldmVersion := by
  intro _ _ e
  cases e

theorem Laws.F.getPldmTypes : Laws.F.Statement .getPldmTypes := by
  intro _ _ e
  cases e

theorem Laws.F.getPldmCommands : Laws.F.Statement .getPldmCommands := by
  intro _ _ e
  cases e

end Sys2Proof
end

