-- ==== Sys2Proof/Tests/Slice0.lean ====
section
/-! SUPPORT. Tests: ill-formed terms that WellFormed refuses, one concrete state and operands for the hypotheses of each
statement, and single steps with results worked out by hand from the spec. -/

namespace Sys2Proof.Tests

set_option Elab.async false

open Sys2Proof.Machine Sys2Proof.Safety

/-! ### Small words, cores and devices -/

/-- A narrow instruction word of core 0. -/
def word (rd rs1 rs2 fn : Nat) : IW :=
  { core := 0, pre := none, rd := BitVec.ofNat 5 rd, rs1 := BitVec.ofNat 5 rs1, rs2 := BitVec.ofNat 5 rs2,
    fn := BitVec.ofNat 11 fn }

/-- A core with g1 onwards as given. -/
def withG (x : Core) (gs : List Nat) : Core :=
  gs.zipIdx.foldl (fun y v => y.setG (v.2 + 1) (BitVec.ofNat 64 v.1)) x

/-- A core at M, with jva 0, at pc 0x1000. -/
def coreM (gs : List Nat) : Core := withG { Core.reset.setCsr 0x800 1 with pc := 0x1000 } gs

/-- A core at J in slot 0, at pc 0x1000. -/
def coreJ (gs : List Nat) : Core := withG { Core.reset.assign 0 with pc := 0x1000 } gs

/-- A device that has started: ready, with a job in slot 0 that runs and owns every sync object, and engine 0 in that slot. -/
def dev : Dev :=
  { Dev.reset with
    sec := { Sec.reset with inputGood := true, perst := false }
    regs := [(Reg.SEC_BOOT, 7), (Reg.JOB_ID 0, 7), (Reg.JOB_ADMIT 0, 4), (Reg.SYN_RANGE 0, 0x100000000),
      (Reg.ENG_STATUS 0, 0x20)] }

/-- A device with core 0 as given. -/
def devC (x : Core) : Dev := dev.setCore 0 x

/-- A state with this device. -/
def st (d : Dev) : State := { State.reset with dev := d }

/-- An access that answers, with what holds of it. -/
def okAnd (r : MemRes) (f : Dev → List Byte → Bool) : Bool :=
  match r with
  | .ok d bs => f d bs
  | _ => false

/-- An access that answers has an answer. -/
theorem ok_of {r : MemRes} {P : Dev → List Byte → Prop} [∀ d bs, Decidable (P d bs)]
    (h : okAnd r (fun d bs => decide (P d bs)) = true) : ∃ d bs, r = .ok d bs ∧ P d bs := by
  cases r with
  | ok d bs => exact ⟨d, bs, rfl, of_decide_eq_true h⟩
  | fault d f => cases h
  | stall d => cases h

/-- A descriptor that is at hand, with what holds of it. -/
def descAnd (r : DescRes) (f : Dev → List Nat → Bool) : Bool :=
  match r with
  | .ok d ws => f d ws
  | _ => false

/-- A descriptor that is at hand has words. -/
theorem desc_of {r : DescRes} {P : Dev → List Nat → Prop} [∀ d ws, Decidable (P d ws)]
    (h : descAnd r (fun d ws => decide (P d ws)) = true) : ∃ d ws, r = .ok d ws ∧ P d ws := by
  cases r with
  | ok d ws => exact ⟨d, ws, rfl, of_decide_eq_true h⟩
  | stop x => cases h

/-! ### Ill-formed terms are refused -/

theorem test_wf_core : (Instr.luh { word 0 0 0 0 with core := 41 }).wf = false := by decide
theorem test_wf_last_core : (Instr.luh { word 0 0 0 0 with core := 40 }).wf = true := by decide
theorem test_wf_alu_code : (Instr.add false (word 1 2 3 1)).wf = false := by decide
theorem test_wf_alu_code_immediate : (Instr.add true (word 1 2 1 0)).wf = false := by decide
theorem test_wf_fn : (Instr.pand (word 0 0 0 1)).wf = false := by decide
theorem test_wf_fn_other : (Instr.fence (word 0 0 0 1)).wf = false := by decide
theorem test_wf_rs2 : (Instr.csrr (word 0 0 2 0)).wf = false := by decide
theorem test_wf_rstat : (Instr.rstatCancel (word 0 0 0 0x02)).wf = false := by decide
theorem test_wf_core_event : (Instr.entryComplete 41).wf = false := by decide
theorem test_wf_engine : (Instr.drainCommit 32).wf = false := by decide
theorem test_wf_slot : (Instr.jobAdmitGo 16).wf = false := by decide
theorem test_wf_route_table : (Instr.routeClose 0 256).wf = false := by decide
theorem test_wf_pool : (Instr.poolInit 1024).wf = false := by decide
theorem test_wf_stage : (Instr.marverRestage 0 0 4 []).wf = false := by decide
theorem test_wf_stream : (Instr.prefetchRefill 0 8).wf = false := by decide
theorem test_wf_unit : (Instr.phintBoostStart 5).wf = false := by decide
theorem test_wf_queue : (Instr.submitListTake 0 4).wf = false := by decide
theorem test_wf_receive_queue : (Instr.grantSend 0 16).wf = false := by decide
theorem test_wf_cadence : (Instr.cadencePeriodStart 32).wf = false := by decide
theorem test_wf_view : (Instr.synPost { slot := some 16, ide := false } 0).wf = false := by decide
theorem test_wf_port : (Instr.portTrainStart 8).wf = false := by decide
theorem test_wf_measurement : (Instr.secMextGo 16).wf = false := by decide
theorem test_wf_aperture :
    (Instr.bar4Access { slot := 0, off := 2 ^ 30, write := none, len := 8, ide := false }).wf = false
      ∧ (Instr.bar4Access { slot := 16, off := 0, write := none, len := 8, ide := false }).wf = false
      ∧ (Instr.bar4Access { slot := 0, off := 0, write := none, len := 4097, ide := false }).wf = false := by
  decide +kernel

/-- A transaction of one line write for node 0. -/
def tx : Tx :=
  { op := 3, vc := 0, chan := 0, core := 0, hops := 0, dst := 0, src := 1, detour := false, retx := false, first := true,
    last := true, err := false, status := 0, pspace := false, offset := 0, queue := 0, lenM1 := 127, seq := 0, via := 0,
    rid := 0, crc := 0, job := 7, phase := false, payload := List.replicate 128 0 }

theorem test_wf_transaction : (Instr.wrlReceive 0 tx).wf = true ∧ (Instr.rdlReceive 0 tx).wf = false
    ∧ (Instr.reservedOpReceive 0 tx).wf = false ∧ (Instr.reservedOpReceive 0 { tx with op := 0x0F }).wf = true := by
  decide +kernel

theorem test_wf_transaction_fields :
    ([{ tx with op := 32 }, { tx with vc := 8 }, { tx with chan := 16 }, { tx with core := 64 }, { tx with hops := 64 },
      { tx with dst := 65536 }, { tx with src := 65536 }, { tx with status := 4 }, { tx with offset := 2 ^ 48 },
      { tx with queue := 16 }, { tx with lenM1 := 4096 }, { tx with seq := 2 ^ 32 }, { tx with via := 65536 },
      { tx with rid := 65536 }, { tx with crc := 2 ^ 32 }, { tx with job := 2 ^ 20 }] : List Tx).all
        (fun x => !(Instr.transitForward 0 x).wf) = true := by decide +kernel

theorem test_wf_payload :
    (Instr.transitForward 0 { tx with payload := List.replicate 4097 0 }).wf = false := by decide +kernel

theorem test_ill_formed_refused :
    exec (.luh { word 0 0 0 0 with core := 41 }) State.reset = .refused .illFormed := rfl

/-! ### Witnesses: the queue and scalar instructions -/

theorem wit_StepRunsTheFrontCommand :
    ({ State.reset with pending := [.syncSweep] } : State).pending = .syncSweep :: [] := rfl

theorem wit_WellFormedCommandsComplete :
    Instr.syncSweep.wf = true ∧ (∀ dv us, Instr.syncSweep ≠ .inputVoltageChange dv us)
      ∧ (Instr.poolInit 1024).wf = false ∧ (Instr.inputVoltageChange (-700) 0).wf = true :=
  ⟨rfl, fun _ _ h => (by cases h), by decide, rfl⟩

theorem wit_CommandsKeepTheQueue : exec .d3hotEntry State.reset = .next State.reset := rfl

theorem wit_StepsNeverUnburnFuses :
    step { State.reset with pending := [.d3hotEntry] } = .next State.reset := rfl

theorem wit_AluResults :
    (Instr.add false (word 1 2 3 0)).wf = true ∧ (Instr.ctz true (word 1 2 21 0x7FF)).wf = true
      ∧ Issues (devC (coreM [])) { major := 1, takesImm := false, branch := false, eOnly := false }
          (false || decide (fld (word 1 2 3 0).fn 10 5 = 0)) (word 1 2 3 0)
      ∧ Issues (devC (coreM [])) { major := 2, takesImm := true, branch := false, eOnly := false }
          (true || decide (fld (word 1 2 21 0x7FF).fn 10 5 = 0)) (word 1 2 21 0x7FF) := by
  simp only [Issues]; decide +kernel

theorem wit_DivisionRules :
    (1 : Word) ≠ 0 ∧ (Instr.div false (word 1 2 3 15)).wf = true ∧ (Instr.remu true (word 1 2 18 0)).wf = true
      ∧ Issues (devC (coreM [])) { major := 1, takesImm := false, branch := false, eOnly := false }
          (false || decide (fld (word 1 2 3 15).fn 10 5 = 0)) (word 1 2 3 15)
      ∧ Issues (devC (coreM [])) { major := 2, takesImm := true, branch := false, eOnly := false }
          (true || decide (fld (word 1 2 18 0).fn 10 5 = 0)) (word 1 2 18 0) := by
  simp only [Issues]; decide +kernel

theorem wit_BitCounts :
    leadZeros 1 < 64 ∧ 64 - leadZeros 1 ≤ 1 ∧ trailZeros 2 < 64 ∧ 0 < trailZeros 2 ∧ leadZeros 0 = 64 ∧ trailZeros 0 = 64 := by
  decide +kernel

theorem wit_ComparesAndPredicates :
    (Instr.luh (word 1 0 0 5)).wf = true ∧ Issues (devC (coreM [])) (cOp 0x03 true) true (word 1 0 0 5)
      ∧ (Instr.cmp (word 7 1 2 5)).wf = true
      ∧ Issues (devC (coreM [])) { major := 0x04, takesImm := false, branch := false, eOnly := false }
          (decide (fld (word 7 1 2 5).fn 10 3 = 0) && decide (fld (word 7 1 2 5).rd 4 3 = 0)
            && decide (fld (word 7 1 2 5).fn 2 0 ≤ 5)) (word 7 1 2 5)
      ∧ (Instr.cmpi (word 7 1 5 0x7FF)).wf = true
      ∧ Issues (devC (coreM [])) { major := 0x05, takesImm := true, branch := false, eOnly := false }
          (decide (fld (word 7 1 5 0x7FF).rs2 4 3 = 0) && decide (fld (word 7 1 5 0x7FF).rd 4 3 = 0)
            && decide (fld (word 7 1 5 0x7FF).rs2 2 0 ≤ 5)) (word 7 1 5 0x7FF)
      ∧ (Instr.pandn (word 7 1 2 3)).wf = true
      ∧ Issues (devC (coreM [])) { major := 0x06, takesImm := false, branch := false, eOnly := false }
          (decide (fld (word 7 1 2 3).rd 4 3 = 0) && decide (fld (word 7 1 2 3).rs1 4 3 = 0)
            && decide (fld (word 7 1 2 3).rs2 4 3 = 0) && decide (fld (word 7 1 2 3).fn 10 2 = 0)) (word 7 1 2 3) := by
  simp only [Issues]; decide +kernel

/-- A jump whose target lies below 2^48, one forward and one backward. -/
theorem wit_BranchesAndJumps :
    (let w := word 0 0 0 4
     let x := (devC (coreM [])).core w.core
     (Instr.bp w).wf = true
       ∧ Issues (devC (coreM [])) { major := 0x08, takesImm := false, branch := true, eOnly := false } (!bitAt w.rd 4) w
       ∧ x.getP (fld w.rd 2 0) ≠ bitAt w.rd 3 ∧ (x.pc + BitVec.ofInt 64 (offset21 w)).toNat < 2 ^ 48)
    ∧ (let w := word 8 0 0 4
       ((devC (coreM [])).core w.core).getP (fld w.rd 2 0) = bitAt w.rd 3
         ∧ Issues (devC (coreM [])) { major := 0x08, takesImm := false, branch := true, eOnly := false } (!bitAt w.rd 4) w)
    ∧ (let w := word 31 31 31 0x7FF
       let x := (devC (coreM [])).core w.core
       (Instr.jal w).wf = true
         ∧ Issues (devC (coreM [])) { major := 0x09, takesImm := false, branch := true, eOnly := false } true w
         ∧ (x.pc + BitVec.ofInt 64 (offset21 w)).toNat < 2 ^ 48)
    ∧ (let w := word 31 1 0 8
       let x := (devC (coreM [0x2000])).core w.core
       (Instr.jalr w).wf = true
         ∧ Issues (devC (coreM [0x2000])) { major := 0x0A, takesImm := true, branch := true, eOnly := false }
             (decide (w.rs2 = 0)) w
         ∧ (x.getG w.rs1.toNat + immValue w).toNat < 2 ^ 48) := by
  simp only [Issues]; decide +kernel

/-- The four CSR instructions on CSR 0x801 at M, and core 0 at J. -/
theorem wit_CsrAccess :
    (∀ r ∈ ([(0, .csrr), (2, .csrw), (4, .csrs), (6, .csrc)] : List (Nat × (IW → Instr))),
      (let w := word 1 2 (1 + r.1) 1
       (r.2 w).wf = true
         ∧ Issues (devC (coreM [])) { major := 0x11, takesImm := false, branch := false, eOnly := false }
             (decide (fld w.rs2 4 3 = 0)) w
         ∧ w.fn.toNat + 2 ^ 11 * fld w.rs2 0 0 = 0x801))
    ∧ 0x800 ≤ (0x800 : Nat) ∧ ((devC (coreJ [])).core 0).atM 0 = false ∧ ((devC (coreM [])).core 0).atM 0 = true
    ∧ (1 : Nat) ≠ 0 := by
  simp only [Issues]; decide +kernel

theorem wit_RegistersAndRetirement :
    (7 : Nat) < 8 ∧ (127 : Nat) < 128 ∧ ((coreM []).loops = [] ∨ (coreM []).frozen = true) := by decide +kernel

/-- An LD and an ST at M with jva 0: at the top of the header region, and at 0. -/
theorem wit_LoadsAndStores :
    (let w := word 2 1 3 0
     let s := st (devC (coreM [(2097152 - 65536) * 65536 - 8]))
     let x := s.dev.core w.core
     let a := x.getG w.rs1.toNat + immValue w
     let n := 2 ^ fld w.rs2 1 0
     (Instr.ld w).wf = true ∧ Issues s.dev (cOp 0x0C true) (decide (fld w.rs2 4 3 ≠ 3)) w
       ∧ x.atM w.core = true ∧ bitAt (x.csrOf 0x800) 2 = false ∧ a.toNat % n = 0 ∧ fld a 63 48 = 0 ∧ a.toNat + n ≤ s.dev.physLimit
       ∧ s.dev.linePending w.core a.toNat n = false ∧ s.dev.symbols a.toNat n = 0
       ∧ (∃ d bs, s.dev.coreRd w.core a.toNat n = .ok d bs ∧ bs.length = n)
       ∧ Issues s.dev (cOp 0x0D true) (decide (fld w.rs2 4 3 ≠ 3) && !bitAt w.rs2 2) w
       ∧ ∃ d bs, s.dev.coreWr w.core a.toNat (leBytes n ((s.dev.core w.core).getG w.rd.toNat).toNat) = .ok d bs ∧ bs = []) := by
  simp only [Issues]
  and_intros <;> first | decide +kernel | exact ok_of (by decide +kernel)

/-- An LD and an ST at J of the last 8 bytes of the engine's own store. -/
theorem wit_MemoryAndStore :
    (let w := word 2 1 3 0
     let s := st (devC (coreJ [0xFFFF82FFFFF8]))
     let x := s.dev.core w.core
     let a := x.getG w.rs1.toNat + immValue w
     let n := 2 ^ fld w.rs2 1 0
     (Instr.ld w).wf = true ∧ (Instr.st w).wf = true ∧ Issues s.dev (cOp 0x0C true) (decide (fld w.rs2 4 3 ≠ 3)) w
       ∧ Issues s.dev (cOp 0x0D true) (decide (fld w.rs2 4 3 ≠ 3) && !bitAt w.rs2 2) w
       ∧ w.core < 32 ∧ x.atM w.core = false ∧ x.slot.isSome = true ∧ a.toNat % n = 0 ∧ 0xFFFF80000000 ≤ a.toNat
       ∧ a.toNat + n ≤ 0xFFFF83000000 ∧ s.dev.storeWaits w.core a.toNat n = false)
    ∧ Memory.wf (wrBytes [] 5 [1, 0, 2]) = true ∧ Memory.wf ([(5, 0)] : List Host.Cell) = false
    ∧ ((4 : Nat) < 5 ∨ 5 + 3 ≤ 4) ∧ ((8 : Nat) < 5 ∨ 5 + 3 ≤ 8) := by
  simp only [Issues]; decide +kernel

/-- Node 1 of a topology of two nodes, seen from node 0. -/
def fabDev : Dev := dev.setReg Reg.FAB_TOPO 1

theorem wit_RemoteLineCopies :
    (let w := word 2 1 0 0
     let s := st (fabDev.setCore 0 (coreJ [2 ^ 48, 0xFFFF80000000]))
     let x := s.dev.core w.core
     let g := x.getG w.rs1.toNat
     let l := x.getG w.rd.toNat
     (Instr.ldl w).wf = true ∧ (Instr.stl w).wf = true
       ∧ Issues s.dev (cOp 0x0E false) (decide (w.rs2 = 0) && decide (fld w.fn 10 5 = 0)) w
       ∧ Issues s.dev (cOp 0x0F false) (decide (w.rs2 = 0) && decide (fld w.fn 10 6 = 0) && !bitAt w.fn 4) w
       ∧ g.toNat % 128 = 0 ∧ l.toNat % 128 = 0 ∧ l.toNat < 2 ^ 48 ∧ fld g 63 48 ≠ s.dev.node
       ∧ s.dev.inTopo (fld g 63 48) = true
       ∧ s.dev.spaceFailed { s.dev.tx 0x01 0 (fld g 63 48) (s.dev.jobId x.slotN) w.core with chan := fld w.fn 3 0 } = false
       ∧ s.dev.storeWaits w.core l.toNat 128 = false ∧ s.dev.lineRoom w.core = 256
       ∧ (∃ d bs, s.dev.coreWr w.core l.toNat (List.replicate 128 0#8) = .ok d bs ∧ bs = [])
       ∧ s.dev.matrixQuiet w.core = true ∧ s.dev.linesOut w.core = false
       ∧ ∃ d bs, s.dev.coreRd w.core l.toNat 128 = .ok d bs ∧ fld g 63 48 ≠ d.node ∧ d.inTopo (fld g 63 48) = true
         ∧ d.spaceFailed { d.tx 0x03 0 (fld g 63 48) (d.jobId x.slotN) w.core with
             chan := fld w.fn 3 0, offset := fld g 47 0, lenM1 := 127, payload := bs } = false ∧ d.lineRoom w.core = 256) := by
  simp only [Issues]
  and_intros <;> first | decide +kernel | exact ok_of (by decide +kernel)

/-- Core 0 has a write to node 1 that is not acknowledged. -/
def unackedDev (x : Core) : Dev :=
  let t : Tx := { tx with src := 0, dst := 1 }
  let k : SpaceKey := { job := 7, src := 0, core := 0, dst := 1, chan := 0, post := false }
  { fabDev.setCore 0 x with fab := { fabDev.fab with send :=
      [{ key := k, next := 1, unacked := [{ tx := t, idx := 0, first := 0, last := 20000 }], waiting := [], msg := none,
         failed := false, lost := false }] } }

theorem wit_Fences :
    (let w := word 0 0 0 0
     (Instr.fence w).wf = true
       ∧ Issues (devC (coreJ [])) (cOp 0x10 false)
           (decide (w.fn = 0) && decide (w.rd = 0) && decide (w.rs1 = 0) && decide (w.rs2 = 0)) w
       ∧ (devC (coreJ [])).quiet w.core none = true ∧ (devC (coreJ [])).matrixQuiet w.core = true
       ∧ (devC (coreJ [])).linesOut w.core = false ∧ (unackedDev (coreJ [])).quiet w.core none = false)
    ∧ (let w := word 0 1 0 1
       let d := unackedDev (coreJ [2 ^ 48])
       (Instr.fenceD w).wf = true ∧ Issues d (cOp 0x10 false) (decide (w.rd = 0) && decide (w.rs2 = 0)) w
         ∧ d.quiet w.core (some (fld ((d.core w.core).getG w.rs1.toNat) 63 48)) = false
         ∧ d.quiet w.core (some 2) = true) := by
  simp only [Issues]; decide +kernel

/-- Posts: to an object at 2^32 − 2, of one and of two; to this node with an open and with a closed gate; to node 1. -/
theorem wit_Posts :
    (let d := dev.setReg (Reg.SYN_STATE 65535) 0xFFFFFFFE
     (65535 : Nat) < 65536 ∧ d.synCount 65535 + 1 < 2 ^ 32 ∧ 2 ^ 32 ≤ d.synCount 65535 + 2 ∧ d.awaiting 65535 = [])
    ∧ (let w := word 3 1 2 0
       let s := st (unackedDev (coreJ [5, 1]))
       let x := s.dev.core w.core
       let name := x.getG w.rs1.toNat
       (Instr.sopost w).wf = true ∧ Issues s.dev (cOp 0x14 false) true w ∧ s.dev.matrixQuiet w.core = true
         ∧ s.dev.linesOut w.core = false
         ∧ fld name 63 48 = s.dev.node ∧ s.dev.mayTouch w.core (fld name 15 0) = true
         ∧ s.dev.gateOpen (if bitAt w.fn 3 then s.dev.storesOf w.core else s.dev.gateOf w.core none) = false)
    ∧ (let w := word 3 1 2 8
       let s := st (unackedDev (coreJ [5, 1]))
       let x := s.dev.core w.core
       Issues s.dev (cOp 0x14 false) true w ∧ x.posts = []
         ∧ s.dev.gateOpen (if bitAt w.fn 3 then s.dev.storesOf w.core else s.dev.gateOf w.core none) = true
         ∧ (s.dev.post 5 1 (bitAt w.fn 2)).2 = true)
    ∧ (let w := word 3 1 2 0
       let s := st (fabDev.setCore 0 (coreJ [2 ^ 48 + 5, 1]))
       let name := (s.dev.core w.core).getG w.rs1.toNat
       Issues s.dev (cOp 0x14 false) true w ∧ fld name 63 48 ≠ s.dev.node ∧ s.dev.inTopo (fld name 63 48) = true
         ∧ s.dev.spaceFailed { s.dev.tx 0x07 4 (fld name 63 48) (s.dev.jobId 0) w.core with
             offset := 5 + 1 * 2 ^ 16, err := bitAt w.fn 2 } = false) := by
  simp only [Issues]; decide +kernel

theorem wit_SowaitAndSoreset :
    (let w := word 3 1 2 1
     let s := st (devC (coreJ [5, 1]))
     let x := s.dev.core w.core
     let name := x.getG w.rs1.toNat
     (Instr.sowait w).wf = true ∧ Issues s.dev (cOp 0x14 false) true w ∧ fld name 63 48 = s.dev.node
       ∧ s.dev.mayTouch w.core (fld name 15 0) = true
       ∧ s.dev.waitEnd (fld name 15 0) (fld (x.getG w.rs2.toNat) 31 0) none = none ∧ s.dev.waitEnd 5 1 (some 16) = none
       ∧ (0 : Nat) ≤ s.dev.synCount 5
       ∧ (s.dev.setReg (Reg.SYN_STATE 5) 1).waitEnd 5 1 none = some (1 + 2 ^ 32))
    ∧ (st dev).dev.waitEnd 5 1 (some 0) = some (2 ^ 34)
    ∧ ((devC { coreJ [] with wait := some (.sowait 3 5 1 none) }).core 0).wait = some (.sowait 3 5 1 none)
    ∧ (Instr.soreset (word 3 1 0 2)).wf = true
    ∧ Issues (devC (coreJ [5])) (cOp 0x14 false) true (word 3 1 0 2) := by
  simp only [Issues]; decide +kernel

/-- A fault of code 0x0610. -/
def fault610 : FaultInfo :=
  { code := 0x0610, info := 0, source := 0, ukind := 0, units := 0, flight := 0, entry := 0, d0 := 0, d1 := 0, d2 := 0 }

theorem wit_EntryToM : (0 : Nat) ≠ 1 ∧ (0x801 : Nat) ≠ 0x800 ∧ (2 : Nat) ≠ 0 ∧ (2 : Nat) ≠ 1 ∧ (2 : Nat) ≠ 3 := by decide

/-- A deliverable code at J with a handler; a core at M; a fault that waits; debug unlocked. -/
theorem wit_FaultsTaken :
    (let d := devC ((coreJ []).setCsr 0x001 0x4000)
     (d.core 0).atM 0 = false ∧ (d.core 0).slot = some 0 ∧ classOf 0x0605 = .deliverable ∧ (d.core 0).csrOf 0x001 ≠ 0
       ∧ bitAt ((d.core 0).csrOf 0x407) 0 = false)
    ∧ ((devC (coreM [])).core 0).atM 0 = true
    ∧ (let d := devC { coreJ [] with async := [fault610] }
       (0 : Nat) < 41 ∧ (d.core 0).async = fault610 :: [] ∧ (d.core 0).boundary = true ∧ (d.core 0).atM 0 = false)
    ∧ (let d : Dev := { devC (coreJ []) with sec := { dev.sec with unlocked := true, scope := 1 } }
       d.sec.unlocked = true ∧ (d.core 0).boundary = true ∧ ((0 : Nat) ≠ 40 ∨ d.sec.scope = 3)) := by decide +kernel

theorem wit_NotCarriedOut :
    ((devC (coreM [])).core 0).takes = true ∧ (devC (coreM [])).rb Reg.PWR_STATUS 31 = false
      ∧ ((devC (coreM [])).core 0).atM 0 = true
      ∧ wideLegal (cOp 0x03 true) { word 1 0 0 0 with pre := some { psel := 0, pmode := 3, ximm := 0 } } = false
      ∧ (coreM []).illegal 0 0 = true ∧ (coreM []).illegal 0 0xFFFFFFFF = true ∧ (coreM []).illegal 0 (BitVec.ofNat 32 (wordOf 0x01 (word 1 2 3 0))) = false
      ∧ (mOp 0x1B).eOnly = true ∧ 32 ≤ (32 : Nat)
      ∧ (Instr.wfi (word 0 0 0 3)).wf = true ∧ Issues (devC (coreJ [])) (cOp 0x12 false) (sysZero (word 0 0 0 3)) (word 0 0 0 3)
      ∧ (Instr.jfret (word 0 0 0 1)).wf = true
      ∧ Issues (devC (coreJ [])) (cOp 0x12 false) (sysZero (word 0 0 0 1)) (word 0 0 0 1)
      ∧ bitAt (((devC (coreJ [])).core 0).csrOf 0x407) 0 = false
      ∧ predHolds (coreJ []) { word 1 0 0 0 with pre := some { psel := 1, pmode := 1, ximm := 0 } } = false
      ∧ wideLegal (cOp 0x03 true) { word 1 0 0 0 with pre := some { psel := 1, pmode := 1, ximm := 0 } } = true := by
  simp only [Issues]; decide +kernel

theorem wit_SystemInstructions :
    (Instr.jcall (word 0 0 0 0)).wf = true
      ∧ Issues (devC (coreJ [])) (cOp 0x12 false)
          (decide (fld (word 0 0 0 0).fn 10 3 = 0) && decide ((word 0 0 0 0).rs2 = 0)) (word 0 0 0 0)
      ∧ (coreM []).atM 0 = true ∧ (coreJ []).slot = some 0 ∧ (coreJ []).asksStop ((coreJ []).r1 (word 0 0 0 0)) = false
      ∧ (let d := devC ((coreJ []).setCsr 0x407 1)
         Issues d (cOp 0x12 false) (sysZero (word 0 0 0 1)) (word 0 0 0 1) ∧ (d.core 0).atM 0 = false
           ∧ bitAt ((d.core 0).csrOf 0x407) 0 = true)
      ∧ (Instr.ebreak (word 0 0 0 2)).wf = true
      ∧ Issues { devC (coreJ []) with sec := { dev.sec with unlocked := true } } (cOp 0x12 false) (sysZero (word 0 0 0 2))
          (word 0 0 0 2)
      ∧ (Instr.mret (word 0 0 0 4)).wf = true ∧ (Instr.halt (word 0 0 0 5)).wf = true
      ∧ Issues (devC (coreM [])) (cOp 0x12 false) (sysZero (word 0 0 0 3)) (word 0 0 0 3)
      ∧ Issues (devC (coreM [])) (cOp 0x12 false) (sysZero (word 0 0 0 4)) (word 0 0 0 4)
      ∧ Issues (devC (coreM [])) (cOp 0x12 false) (sysZero (word 0 0 0 5)) (word 0 0 0 5) := by
  simp only [Issues]; decide +kernel

/-! ### Witnesses: matrix work, the encoder and vectors -/

/-- A weight descriptor of BF16 without K blocks, and an activation descriptor of BF16, one row, one K block. -/
def wd1 : WDesc := wdescOf [0x1000000010000, 0, 0, 0]

/-- A fill of that operand. -/
def fill1 (stage : Nat) : Fill :=
  { core := 0, pc := 0, wd := wd1, kb := 0, q := 0, rel := false, stage := stage, blocks := [], book := [], waited := false }

/-- The device with the two descriptors at the start of the store of engine 0, core 0 at J with their addresses in g1 and g2,
0x80 bytes further a descriptor of zeros in g3, and an engine as given. -/
def matDev (e : Eng) : Dev :=
  let d := dev.esWrite 0 0 (leBytes 8 0x100100000 ++ leBytes 8 0 ++ leBytes 8 0x10000)
  let d := d.esWrite 0 64 (leBytes 8 0x1000000010000)
  (d.setCore 0 (coreJ [0xFFFF80000000, 0xFFFF80000040, 0xFFFF80000080, 16])).setEngine 0 e

/-- An engine with a tile of 16 rows in handle 2. -/
def tiled (fmt : AccFmt) (anchor : Option Int) : Eng := Eng.reset.setTile 2 (some (Tile.new fmt 16 anchor))

theorem wit_AnchorsAndStatus :
    (let w := word 3 0 2 1
     (Instr.mtstat w).wf = true
       ∧ Issues (matDev (tiled .a32 none)) (mOp 0x1B) (decide (fld w.fn 10 1 = 0) && !bitAt w.rs2 4) w
       ∧ ((matDev (tiled .a32 none)).engine w.core).busyHandle (fld w.rs2 3 0) = false)
    ∧ (let w := word 3 1 2 0
       let s := st (matDev Eng.reset)
       (Instr.manchorPropose w).wf = true ∧ Issues s.dev (mOp 0x18) (decide (fld w.fn 10 1 = 0)) w
         ∧ (∃ d2 ws, s.dev.desc w.core ((s.dev.core w.core).r1 w) 8 = .ok d2 ws ∧ d2 = s.dev ∧ (adescOf ws).fmtOk = true
             ∧ (adescOf ws).inStore = true ∧ (adescOf ws).nkb = 1 ∧ (adescOf ws).kb = 0 ∧ (adescOf ws).m = 1)
         ∧ (∃ d3 vs, s.dev.desc w.core ((s.dev.core w.core).r2 w) 4 = .ok d3 vs ∧ (wdescOf vs).fmtOk = true
             ∧ (wdescOf vs).efmt ≠ 0xA ∧ (d3.engine w.core).drains = [] ∧ d3.linesOut w.core = false
             ∧ (∀ j, j < 1 → 0 + j < (wdescOf vs).nkb → (d3.engine w.core).stands (wdescOf vs) 0 0 (0 + j) = true)
             ∧ (d3.weightBlock w.core (wdescOf vs) 0 0 0).bad = 0))
    ∧ (let w := word 2 1 4 1
       (Instr.manchorSet w).wf = true
         ∧ Issues (matDev Eng.reset) (mOp 0x18) (decide (fld w.fn 10 1 = 0) && !bitAt w.rd 4) w
         ∧ fld (((matDev Eng.reset).core w.core).r2 w) 15 0 = 16
         ∧ (tiled .ax96 none).freeIssued 2 = false ∧ (tiled .ax96 none).busyHandle 2 = false
         ∧ (tiled .ax96 none).tile 2 = some (Tile.new .ax96 16 none) ∧ (Tile.new .ax96 16 none).promoted = false
         ∧ Eng.reset.tile 2 = none ∧ Eng.reset.full = false ∧ Eng.reset.canAlloc .ax96 16 = true) := by
  simp only [Issues]
  and_intros <;> first | decide +kernel | exact desc_of (by decide +kernel)

theorem wit_MatrixWorkQueues :
    (let w := word 0 2 0 0
     let s := st (matDev Eng.reset)
     (Instr.mloadw w).wf = true ∧ Issues s.dev (mOp 0x19) (decide (fld w.fn 10 1 = 0)) w
       ∧ ∃ d2 ws, s.dev.desc w.core ((s.dev.core w.core).r1 w) 4 = .ok d2 ws ∧ (wdescOf ws).fmtOk = true
         ∧ (wdescOf ws).bookPast = false
         ∧ (wdescOf ws).past (fld ((s.dev.core w.core).r2 w) 15 0) (fewBlocks (d2.fillPairs w.core (wdescOf ws)
             (fld ((s.dev.core w.core).r2 w) 15 0) (fld ((s.dev.core w.core).r2 w) 47 16))) = false
         ∧ (d2.engine w.core).full = false ∧ (d2.engine w.core).drains = [] ∧ d2.linesOut w.core = false)
    ∧ (let w := word 2 1 4 1
       let s := st (matDev { Eng.reset with active := some (fill1 2) })
       (Instr.mstream w).wf = true ∧ Issues s.dev (mOp 0x1A) (decide (fld w.fn 10 4 = 0) && !bitAt w.rd 4) w
         ∧ bitAt w.fn 2 = false ∧ accOf (fld w.fn 1 0) = some .a32
         ∧ ∃ d2 ws, s.dev.desc w.core ((s.dev.core w.core).r1 w) 8 = .ok d2 ws ∧ bitAt w.fn 3 = false
           ∧ (d2.engine w.core).keptW = some wd1
           ∧ (d2.engine w.core).streamFault 2 (adescOf ws) (d2.engine w.core).keptW 16 .a32 false
               (d2.weightsPast w.core (adescOf ws) wd1 .a32 false false) = 0
           ∧ (d2.engine w.core).full = false ∧ (d2.engine w.core).passes.length < 5)
    ∧ (let w := word 2 3 0 2
       let s := st (matDev (tiled .a32 none))
       (Instr.mdrain w).wf = true ∧ Issues s.dev (mOp 0x1B) (decide (fld w.fn 10 7 = 0) && !bitAt w.rd 4) w
         ∧ fld w.fn 6 5 ≠ 2
         ∧ ∃ d2 ws, s.dev.desc w.core ((s.dev.core w.core).r1 w) 8 = .ok d2 ws
           ∧ (d2.engine w.core).liveInfo (fld w.rd 3 0) = some (.a32, 16)
           ∧ (d2.engine w.core).freeIssued (fld w.rd 3 0) = false
           ∧ (drainOf w (s.dev.core w.core) ws 16 []).fault .a32 16 (nfld (dw ws 1) 31 16) = 0
           ∧ (d2.engine w.core).full = false ∧ (d2.engine w.core).fills = [] ∧ d2.linesOut w.core = false) := by
  simp only [Issues]
  and_intros <;> first | decide +kernel | exact desc_of (by decide +kernel)

/-- A pass of one K block on handle 2. -/
def pass1 (newW : Bool) : Pass :=
  { core := 0, pc := 0, handle := 2, ad := adescOf [0x100100000, 0, 0x10000, 0, 0, 0, 0, 0], newW := newW, gather := none,
    wd := wd1, tileRows := 16, fmt := .a32, num := 0, waited := false, lacks := [] }

/-- A drain of handle 2 to the store. -/
def drain1 : Drain := drainOf (word 2 3 0 2) (coreJ []) [0, 0, 0, 0, 0, 0, 0, 0] 16 []

theorem wit_ArrayWorkMovesOn :
    (let y := { Eng.reset with fills := [fill1 0] }
     (Instr.shadowFillStart 31).wf = true ∧ y.fills = fill1 0 :: [] ∧ (fill1 0).stage = 0 ∧ y.shadowFree = true
       ∧ (fill1 0).wd.viaStream = false)
    ∧ (let y := { Eng.reset with fills := [fill1 1], work := [.pass (pass1 true)] }
       (Instr.shadowFillDone 31).wf = true ∧ y.fills = fill1 1 :: [] ∧ y.claimant = some (pass1 true) ∧ (fill1 1).stage = 1
         ∧ (fill1 1).rel = false
         ∧ y.fillNeed (fill1 1) false ≤ y.readable (fill1 1) (passBlocks wd1.efmt wd1.efmt .a16 false))
    ∧ (let f := { fill1 1 with wd := { wd1 with viaStream := true, nkb := 1 } }
       let y := { Eng.reset with fills := [f], work := [.pass (pass1 true)] }
       y.readable f (passBlocks f.wd.efmt f.wd.efmt .a16 false) < y.fillNeed f false)
    ∧ ((Instr.tileAllocationServed 31).wf = true ∧ slabsOf .a32 16 ≤ Eng.reset.freeSlabs)
    ∧ (let y := { tiled .a32 none with work := [.drain drain1] }
       (Instr.drainCommit 31).wf = true ∧ y.work = .drain drain1 :: [] ∧ y.tile drain1.handle = some (Tile.new .a32 16 none)
         ∧ drain1.unit = ((dev.core drain1.core).entry.map (fun n => n.units)).getD drain1.unit ∧ drain1.map = false) := by
  decide +kernel

theorem wit_PassesRun :
    (let y := { tiled .a32 none with work := [.pass (pass1 false)], active := some (fill1 2) }
     (Instr.passStart 31 none).wf = true ∧ y.work = .pass (pass1 false) :: [] ∧ (pass1 false).gather = none
       ∧ (pass1 false).newW = false ∧ y.active = some (fill1 2) ∧ y.tile (pass1 false).handle = some (Tile.new .a32 16 none)
       ∧ (Tile.new .a32 16 none).fmt ≠ .ax96
       ∧ (pass1 false).ad.nkb ≤ (pass1 false).takes (fill1 2)
       ∧ (Instr.passStart 31 (some 0)).wf = true ∧ (dev.setEngine 31 y).passReady 31 = true) := by decide +kernel

/-! ### Witnesses: pools, vectors, the encoder -/

/-- Pool 5, of slot 0, with four buffers of 4 KiB from 0x10000000, ready, as given; core 0 at J. -/
def poolDev (x : Pool) (gs : List Nat) : Dev :=
  let d := ((dev.setReg (Reg.POOL_CFG 5) 0x300000C03).setReg (Reg.POOL_BASE 5) 0x10000000).setReg (Reg.POOL_THR 5) (1 <<< 60)
  let d := (d.commitAll [Reg.POOL_CFG 5, Reg.POOL_BASE 5, Reg.POOL_THR 5]).setRb (Reg.POOL_STAT 5) 35 true
  (d.setPool 5 x).setCore 0 (coreJ gs)

/-- Four free buffers. -/
def pool4 : Pool := { Pool.reset with nbuf := 4 }

/-- Four buffers, the first held by core 0. -/
def poolHeld (holders : List Nat) (releaser : Nat) : Pool :=
  { pool4 with fresh := 1 }.setRec 0
    { held := true, holders := holders, releaser := releaser, relNode := false, released := false, reserved := false }

theorem wit_PoolInstructions :
    (let w := word 3 1 0 0
     let s := st (poolDev pool4 [5])
     (Instr.balloc w).wf = true ∧ Issues s.dev (cOp 0x15 false) (decide (fld w.fn 10 3 = 0)) w
       ∧ s.dev.poolNamed w.core (fld ((s.dev.core w.core).r1 w) 15 0) = true ∧ (s.dev.allocNow 5 w.core).isSome = true
       ∧ ((poolDev Pool.reset [5]).allocNow 5 w.core).isSome = false
       ∧ Issues (poolDev Pool.reset [5]) (cOp 0x15 false) true (word 3 1 0 4) ∧ bitAt (word 3 1 0 4).fn 2 = true)
    ∧ (let w := word 0 1 2 1
       let s := st (poolDev (poolHeld [0] 0) [0x10000000, 0])
       let r := (s.dev.pool 5).recOf 0
       (Instr.bshare w).wf = true ∧ Issues s.dev (cOp 0x15 false) (decide (fld w.fn 10 3 = 0)) w
         ∧ s.dev.bufNamed w.core ((s.dev.core w.core).r1 w).toNat = some (5, 0)
         ∧ r.held = true ∧ r.reserved = false ∧ r.releasedBy w.core = true
         ∧ s.dev.shareTarget (s.dev.core w.core) (bitAt w.fn 2) (fld ((s.dev.core w.core).r2 w) 15 0) = true
         ∧ r.holders.length < 4)
    ∧ (let w := word 0 1 0 2
       let s := st (poolDev (poolHeld [1, 0] 1) [0x10000000])
       let r := (s.dev.pool 5).recOf 0
       (Instr.bdrop w).wf = true ∧ Issues s.dev (cOp 0x15 false) (decide (fld w.fn 10 2 = 0)) w
         ∧ s.dev.bufNamed w.core ((s.dev.core w.core).r1 w).toNat = some (5, 0)
         ∧ w.core ∈ r.holders ∧ ¬ (r.releaser = w.core ∧ r.relNode = false) ∧ s.dev.bufDue w.core 5 0 = false)
    ∧ (let w := word 0 1 0 3
       let s := st (poolDev (poolHeld [0] 0) [0x10000000])
       (Instr.bfree w).wf = true ∧ Issues s.dev (cOp 0x15 false) (decide (fld w.fn 10 2 = 0)) w
         ∧ ((s.dev.pool 5).recOf 0).releasedBy w.core = true ∧ s.dev.bufDue w.core 5 0 = false) := by
  simp only [Issues]; decide +kernel

theorem wit_PoolOperations :
    (let d := (poolDev pool4 []).setRqueue 0 3 { RecvQueue.reset with pool := some 5 }
     (Instr.queueReservation 5).wf = true ∧ d.nextQueue 5 = some 3 ∧ (d.pool 5).take.isSome = true)
    ∧ (let d := poolDev { pool4 with waiters := [0] } []
       (Instr.ballocWaiterServed 5).wf = true ∧ d.nextWaiter 5 = some 0 ∧ (0 : Nat) < 1000
         ∧ ((d.dropWaiter 5 0).handOut 5 0).isSome = true)
    ∧ (let d := (poolDev Pool.reset []).setReg (Reg.POOL_CTRL 5) 1
       (Instr.poolInit 5).wf = true ∧ HostOpen d (.poolInit 5) bar0 false false ∧ d.poolQuiesced 5 = true
         ∧ (d.pool 5).held = 0 ∧ (d.pool 5).reserved = 0 ∧ d.geometryOk 5 = true
         ∧ (Instr.poolQuiesceWrite 5 true).wf = true ∧ HostOpen d (.poolQuiesceWrite 5 true) bar0 false false
         ∧ (Instr.poolQuiesced 5).wf = true) := by
  simp only [HostOpen]; decide +kernel

theorem wit_PoolStore :
    pool4.fresh ≤ pool4.nbuf ∧ pool4.take.isSome = true ∧ pool4.returned.Pairwise (· < ·)
      ∧ (∀ j ∈ pool4.returned, j < pool4.fresh) ∧ 3 ∉ pool4.returned ∧ (2 : Nat) ≤ 3 := by decide +kernel

/-- A row without vector drains: VADD with mode 1, VSHR, VFMS and VCMP. -/
theorem wit_VectorLanes :
    (let w := word 31 1 2 16
     (Instr.vadd w).wf = true ∧ Issues (devC (coreJ [])) (mOp 0x20) (decide (fld w.fn 10 5 = 0)) w
       ∧ NoVectorDrain (devC (coreJ [])) w.core)
    ∧ (let w := word 31 1 2 6
       (Instr.vshr w).wf = true ∧ Issues (devC (coreJ [])) (mOp 0x23) (decide (fld w.fn 10 3 = 0)) w)
    ∧ (let w := word 31 1 2 1
       (Instr.vfms w).wf = true ∧ Issues (devC (coreJ [])) (mOp 0x21) (decide (fld w.fn 10 2 = 0)) w)
    ∧ (let w := word 31 1 2 4
       (Instr.vcmp w).wf = true
         ∧ Issues (devC (coreJ [])) (mOp 0x22) (decide (fld w.fn 10 3 = 0) && decide (fld w.fn 2 0 ≤ 4)) w)
    ∧ (127 : Nat) < 128 := by
  simp only [Issues, NoVectorDrain]; decide +kernel

theorem wit_VectorMoves :
    (let s := st (devC (coreJ [0xFFFF80000000]))
     let a := (s.dev.core 0).getG 1
     NoVectorDrain s.dev 0
       ∧ (Instr.vred (word 2 1 0 8)).wf = true
       ∧ Issues s.dev (mOp 0x26) (decide (fld (word 2 1 0 8).fn 10 4 = 0) && decide (fld (word 2 1 0 8).fn 3 2 ≠ 3))
           (word 2 1 0 8)
       ∧ (Instr.vbcast (word 2 1 0 1)).wf = true ∧ Issues s.dev (mOp 0x26) true (word 2 1 0 1)
       ∧ (Instr.vmovg (word 2 1 0 2)).wf = true ∧ Issues s.dev (mOp 0x26) true (word 2 1 0 2)
       ∧ (Instr.vld (word 2 1 0 0)).wf = true ∧ Issues s.dev (mOp 0x25) true (word 2 1 0 0)
       ∧ (Instr.vst (word 2 1 0 1)).wf = true ∧ Issues s.dev (mOp 0x25) true (word 2 1 0 1)
       ∧ a.toNat % 64 = 0 ∧ fld a 63 48 = 0
       ∧ vectorPast 0 a.toNat = false ∧ (∃ d bs, s.dev.unitLoad 0 a.toNat 512 = .ok d bs ∧ bs.length = 512)
       ∧ (∃ d bs, s.dev.unitStore 0 a.toNat (laneBytes ((s.dev.core 0).lanes 2)) = .ok d bs ∧ bs = [])
       ∧ (Instr.vcvt (word 2 1 0 0x49)).wf = true ∧ Issues s.dev (mOp 0x24) true (word 2 1 0 0x49)
       ∧ fld (word 2 1 0 0x49).fn 3 0 < 0xA ∧ fld (word 2 1 0 0x49).fn 5 4 ≠ 3 ∧ bitAt (word 2 1 0 0x49).fn 6 = true
       ∧ Issues s.dev (mOp 0x24) true (word 2 1 0 0x11) ∧ bitAt (word 2 1 0 0x11).fn 6 = false
       ∧ fld (word 2 1 0 0x11).fn 5 4 ≠ 2) := by
  simp only [Issues, NoVectorDrain]
  and_intros <;> first | decide +kernel | exact ok_of (by decide +kernel)

/-- An encode of one K block of FP8 to slot 767, and a map of an activation descriptor. -/
theorem wit_Encoding :
    (let d := (dev.esWrite 0 0 (leBytes 8 0x3000000000 ++ leBytes 8 0x406FF)).esWrite 0 64
       (leBytes 8 0x100100000 ++ leBytes 8 0 ++ leBytes 8 0x10000)
     let s := st (d.setCore 0 (coreJ [0xFFFF80000000, 0xFFFF80000040]))
     (Instr.vspencEncode (word 0 1 0 0)).wf = true ∧ Issues s.dev (mOp 0x27) true (word 0 1 0 0)
       ∧ (∃ d ws, s.dev.desc 0 ((s.dev.core 0).r1 (word 0 1 0 0)) 4 = .ok d ws ∧ (edescOf ws).fault = 0
           ∧ (edescOf ws).gobs = 1 ∧ (edescOf ws).dslot = 767)
       ∧ (Instr.vspencMap (word 0 2 0 1)).wf = true ∧ Issues s.dev (mOp 0x27) true (word 0 2 0 1)
       ∧ (∃ d ws, s.dev.desc 0 ((s.dev.core 0).r1 (word 0 2 0 1)) 8 = .ok d ws ∧ (adescOf ws).fmtOk = true
           ∧ (adescOf ws).inStore = true))
    ∧ (Instr.vspencCompletion 31).wf = true := by
  simp only [Issues]
  and_intros <;> first | decide +kernel | exact desc_of (by decide +kernel)

/-! ### Witnesses: routing, Marver, the exchange -/

/-- A batch of one token with epoch 1 on route table 0, its descriptor's word 4 as given. -/
def batch1 (w4 : Nat) (closed cancelled : Bool) : Batch :=
  { epoch := 1, rt := 0, core := 0, rtd := [0, 0, 0, 0, BitVec.ofNat 64 w4, 0, 0, 0], ntok := 1, cancelled := cancelled,
    h0 := some { toks := [], scored := true, packed := true, combine := none }, h1 := none, routeClosed := closed, waitCounts := none,
    nVoid := 0, nSel := 0, nDrop := 0, nSpill := 0, nUnsent := 0, nAns := 0, nPois := 0, nStale := 0, work := [], used0 := [] }

/-- A device whose slot 0 has a valid route context with these batches; core 0 at J, a routing descriptor of the first half at
the start of its store, one of the second half with pitch 0x10000 behind it. -/
def routeDev (bs : List Batch) (ws : List OpenWait) : Dev :=
  let d := ((dev.setReg (Reg.RCTX_CFG 0) 0x1FFFF0000FF00).setCore 0
    (coreJ [0xFFFF80000000, 0xFFFF80000040])).esWrite 0 64 (leBytes 8 0x100 ++ leBytes 8 0 ++ leBytes 8 0 ++ leBytes 8 0 ++
      leBytes 8 0x10000)
  d.setRctx 0 { epoch := 0, batches := bs, closed := [], waits := ws }

/-- A routing operation that went through. -/
def ranOk : RRes → Bool
  | .ok _ => true
  | _ => false

/-- A routing operation that went through, with what holds after it. -/
def okThen (r : RRes) (f : Dev → Bool) : Bool :=
  match r with
  | .ok d => f d
  | _ => false

/-- A routing operation that waits. -/
def ranWait : RRes → Bool
  | .wait _ => true
  | _ => false

/-- The words of the second descriptor of `routeDev`. -/
def half1 : List Word := [0x100, 0, 0, 0, 0x10000, 0, 0, 0]

/-- Ranges that could be read, with what holds of them. -/
def rangesAnd (r : RowsRes) (f : Dev → List (List Byte) → Bool) : Bool :=
  match r with
  | .ok d bs => f d bs
  | _ => false

/-- Words of an operation of the first half of a batch of one token: scores or bins at 0xFFFF00000200, pitch 1,024, pool 5. -/
def half0 : List Word := [5 <<< 48, 0xFFFF00000200, 0, 0, 1024, 0, 0, 0]

/-- A batch of one token whose first half has been scored and not packed; rows of 64 bytes. -/
def packable : Batch :=
  { batch1 0 false false with
    rtd := [0x1100000, 0, 0, 0, 0, 0, 0, 0x100010001]
    h0 := some { toks := [], scored := true, packed := false, combine := none } }

/-- As `routeDev`, with route table 0 of one expert of this node, its state at 0xFFFF00000100. -/
def tableDev (bs : List Batch) : Dev :=
  (((routeDev bs []).setReg (Reg.RTD 0 0) 0x1100000).setReg (Reg.RTD 0 6) 0xFFFF00000100).setReg (Reg.RTD 0 7) 0x100010001

/-- RSELECT that opens a batch on a table that is not resident; RSELECT of the second half of a batch that is due; an RSCORE that
waits while its epoch is taken. -/
theorem wit_RoutingInstructions :
    (let d := tableDev []
     let o := ropOf half0
     let x := rtdOf (d.rtdWords o.rt)
     (Instr.rselect (word 0 2 0 1)).wf = true ∧ Issues d (cOp 0x28 false) (decide (fld (word 0 2 0 1).fn 10 1 = 0)) (word 0 2 0 1)
       ∧ d.rb Reg.RTE_CTRL 0 = false ∧ d.owns 0 o.so = true ∧ d.rctxValid 0 = true ∧ d.rtAllowed 0 o.rt = true
       ∧ (d.rctx 0).waits = [] ∧ o.half = false ∧ d.ownOpen o.rt = false ∧ d.openWaits 0 o.rt = false ∧ d.rtdOk 0 x = true
       ∧ x.bmode = 0 ∧ pitchOk o.pitch (scoreRow true x) = true ∧ d.residentAs o.rt x = false
       ∧ rangesAnd (d.rdRanges (unitWho 0 57) [(x.state, 16 * x.ecount)] []) (fun d9 bs =>
           okThen ((d9.loadTable o.rt x (bs.getD 0 [])).scoreReads 0 true x o ((o.ntok + 1) / 2)) (fun d3 =>
             let d4 := d3.openBatch 0 0 o x
             match d4.batchOf 0 (d4.rctx 0).epoch with
             | some b => !b.cancelled && pitchOk o.pitch (scoreRow true b.table)
                 && ranOk (d4.scoreReads 0 true b.table o (b.count false))
             | none => false)) = true)
    ∧ (let w := word 0 2 0 1
       let s := st (routeDev [batch1 0 false false] [])
       Issues s.dev (cOp 0x28 false) (decide (fld w.fn 10 1 = 0)) w ∧ s.dev.rb Reg.RTE_CTRL 0 = false
         ∧ ∃ d ws, s.dev.desc w.core ((s.dev.core w.core).r1 w) 8 = .ok d ws ∧ ws.map (BitVec.ofNat 64) = half1
           ∧ d.owns 0 (ropOf half1).so = true ∧ d.rctxValid 0 = true ∧ d.rtAllowed 0 (ropOf half1).rt = true
           ∧ (d.rctx 0).waits = [] ∧ (ropOf half1).half = true
           ∧ d.dueBatch 0 (ropOf half1).rt dueH1 = some (batch1 0 false false) ∧ (batch1 0 false false).cancelled = false
           ∧ pitchOk (ropOf half1).pitch (scoreRow true (batch1 0 false false).table) = true
           ∧ rangesAnd (d.rdRanges (unitWho 0 57) (scoreRanges true (batch1 0 false false).table (ropOf half1)
               ((batch1 0 false false).count true)) []) (fun _ _ => true) = true)
    ∧ (let d := (poolDev pool4 []).setRctx 0 { epoch := 1, batches := [packable], closed := [], waits := [] }
       let o := ropOf half0
       let h : Half := { toks := [], scored := true, packed := false, combine := none }
       let cp := capacityPass packable.table packable.work packable.ntok o.half packable.used0 h.toks
       let p := d.packBins 0 (packable.setHalf o.half (some { h with toks := cp.2 })) o.half
       d.dueBatch 0 o.rt (duePack o.half) = some packable ∧ packable.half o.half = some h ∧ h.scored = true
         ∧ packable.cancelled = false ∧ pitchOk o.pitch (packable.table.rowlen64 * 64) = true ∧ d.poolFor o.pool (some 0) = true
         ∧ d.outsider 0 cp.2 = none ∧ d.binsFit o.pool packable p.1 p.2 = true
         ∧ d.dueBatch 0 o.rt (dueCombine o.half) = some packable ∧ pitchOk o.pitch packable.table.outBytes = true)
    ∧ (Instr.rpackPack (word 0 1 0 0)).wf = true ∧ (Instr.rcombine (word 0 1 0 1)).wf = true
    ∧ Issues (tableDev []) (cOp 0x29 false) (decide (fld (word 0 1 0 0).fn 10 3 = 0)) (word 0 1 0 0)
    ∧ Issues (tableDev []) (cOp 0x29 false) (decide (fld (word 0 1 0 1).fn 10 2 = 0)) (word 0 1 0 1)
    ∧ (let w := word 0 1 0 0
       let s := st (routeDev [batch1 0 true false] [])
       (Instr.rscore w).wf = true ∧ Issues s.dev (cOp 0x28 false) (decide (fld w.fn 10 1 = 0)) w
         ∧ ranWait (s.dev.routeIssue 0 0 0 [0, 0, 0, 0, 0, 0, 0, 0]) = true) := by
  simp only [Issues]
  and_intros <;> first | decide +kernel | exact desc_of (by decide +kernel)

theorem wit_RouteStatus :
    (let s := st ((routeDev [] []).setCore 0 (coreJ [0, 0xFFFF80000000]))
     let v := ((s.dev.core 0).r2 (word 3 1 2 0x02)).toNat
     (Instr.rstatReadLedger (word 3 1 2 0x02)).wf = true ∧ (Instr.rstatCancel (word 3 1 2 0x0A)).wf = true
       ∧ (Instr.rstatSupplyCounts (word 3 1 2 0x12)).wf = true ∧ (Instr.rstatReload (word 3 1 2 0x1A)).wf = true
       ∧ Issues s.dev (cOp 0x29 false) (rstatLegal (word 3 1 2 0x02)) (word 3 1 2 0x02)
       ∧ Issues s.dev (cOp 0x29 false) (rstatLegal (word 3 1 2 0x0A)) (word 3 1 2 0x0A)
       ∧ Issues s.dev (cOp 0x29 false) (rstatLegal (word 3 1 2 0x12)) (word 3 1 2 0x12)
       ∧ Issues s.dev (cOp 0x29 false) (rstatLegal (word 3 1 2 0x1A)) (word 3 1 2 0x1A)
       ∧ s.dev.rb Reg.RTE_CTRL 0 = false ∧ s.dev.rctxValid 0 = true ∧ s.dev.rb (Reg.JOB_PROFILE 0) 0 = false
       ∧ s.dev.rtAllowed 0 255 = true ∧ s.dev.rtAllowed 0 0 = true ∧ v % 4 = 0 ∧ v < 2 ^ 48
       ∧ (∃ d bs, s.dev.unitStore 0 v
           (((List.range 8).map (fun i => s.dev.reg (Reg.LEDG 0 i)) ++ [s.dev.reg (Reg.LEDG_INFO 0)]).flatMap
             (fun v => leBytes 8 v.toNat)) = .ok d bs ∧ bs = [])
       ∧ (∃ d bs, s.dev.unitLoad 0 v (4 * (s.dev.supplyTable 0 0).ecount) = .ok d bs
           ∧ ((d.setSupply 0 (leWords 4 (s.dev.supplyTable 0 0).ecount bs)).closing 0 0).isNone = true)
       ∧ (Instr.rctxCancelGo bar0 0 1).wf = true ∧ HostOpen s.dev (.rctxCancelGo bar0 0 1) bar0 false false
       ∧ viaSees bar0 0 = true) := by
  simp only [Issues, HostOpen]
  and_intros <;> first | decide +kernel | exact ok_of (by decide +kernel)

/-- A batch with its second half, as it closes. -/
def closingBatch (w4 : Nat) (cancelled : Bool) (t : Option Nat) : Batch :=
  { batch1 w4 false cancelled with h1 := some { toks := [], scored := true, packed := true, combine := none }, waitCounts := t }

/-- An open that waits since time 0. -/
def open1 (kind : Nat) (ds : List Word) : OpenWait := { core := 0, kind := kind, desc := ds, since := 0, behind := none }

theorem wit_RouteCloseAndOpens :
    (Instr.routeClose 0 0).wf = true ∧ (routeDev [] []).closing 0 0 = none
      ∧ (routeDev [closingBatch 0 true none] []).closing 0 0 = some (closingBatch 0 true none)
      ∧ (closingBatch 0 true none).table.bsrc = false
      ∧ (routeDev [closingBatch 5 false none] []).closing 0 0 = some (closingBatch 5 false none)
      ∧ (closingBatch 5 false none).table.bsrc = true ∧ (closingBatch 5 false none).waitCounts = none
      ∧ (routeDev [closingBatch 5 false none] []).supplied 0 = []
      ∧ ((routeDev [] []).setSupply 0 [1]).supplied 0 ≠ []
      ∧ (let d := { routeDev [closingBatch 5 false (some 0)] [] with now := ms100 }
         (Instr.routeCloseCountsTimeout 0 0).wf = true ∧ d.closing 0 0 = some (closingBatch 5 false (some 0))
           ∧ (closingBatch 5 false (some 0)).waitCounts = some 0 ∧ 0 + ms100 ≤ d.now)
      ∧ (let y := open1 0 [0, 0, 0, 0, 0, 0, 0, 0]
         let d := { routeDev [batch1 0 true false] [y] with now := ms100 }
         (Instr.batchOpenEpochTimeout 0).wf = true ∧ (d.rctx 0).waits.find? OpenWait.opens = some y
           ∧ (d.rctx 0).epochTaken = true ∧ y.since + ms100 ≤ d.now)
      ∧ (let y := open1 1 half1
         let d := routeDev [batch1 0 false false] [y]
         (Instr.batchOpenResume 0).wf = true ∧ (d.rctx 0).waits = [y] ∧ (d.rctx 0).heldBehind y = false ∧ y.opens = false
           ∧ (match (d.setRctx 0 { d.rctx 0 with waits := [] }).routeRun 0 y.core y.kind y.desc with
              | .ok e => e.runs 0
              | _ => false) = true) := by decide +kernel

/-- Pool 5 with its buffers in the window of engine 0, behind its first 1 MiB; the first held by core 0. -/
def binDev (x : Pool) (gs : List Nat) : Dev :=
  (((((poolDev x gs).setReg (Reg.POOL_BASE 5) 0xFFFF00100000).commit (Reg.POOL_BASE 5)).setReg (Reg.RCTX_CFG 0)
    0x1FFFF0000FF00).esWrite 0 0 (leBytes 8 (5 <<< 48) ++ leBytes 8 0xFFFF00000040 ++ leBytes 8 0 ++ leBytes 8 (1 <<< 48))).esWrite
      0 64 (leBytes 8 0xFFFF00100000)

/-- Bins that could be read, with what holds of them. -/
def binsAnd (r : BinsRes) (f : Dev → List Bin → Bool) : Bool :=
  match r with
  | .ok d bs => f d bs
  | _ => false

/-- One held bin without copies. -/
theorem wit_MarverOperations :
    (let w := word 0 1 0 4
     let s := st (binDev (poolHeld [0] 0) [0xFFFF80000000])
     (Instr.rpackArrive w).wf = true ∧ Issues s.dev (cOp 0x29 false) (decide (fld w.fn 10 3 = 0)) w
       ∧ s.dev.rb Reg.RTE_CTRL 0 = false
       ∧ ∃ d ws, s.dev.desc w.core ((s.dev.core w.core).r1 w) 8 = .ok d ws
         ∧ (let o := ropOf (ws.map (BitVec.ofNat 64))
            d.owns 0 (nfld (ws.getD 0 0) 47 32) = true ∧ d.rctxValid 0 = true ∧ d.rtAllowed 0 o.rt = true
            ∧ d.poolFor o.pool (some 0) = true ∧ o.nbins = 1
            ∧ rangesAnd (d.rdRanges (unitWho 0 57) [(o.bufA, 8 * o.nbins)] []) (fun d1 ls =>
                binsAnd (d1.readBins (unitWho 0 57) ((leWords 8 o.nbins (ls.getD 0 [])).map (fun a => a % 2 ^ 48)) [])
                  (fun d2 bs => d2.stageComplete 0 (d2.lastAxis 0) bs && decide ((mergeBins false bs).length * arrivalRow bs ≤ d2.bufSize o.pool))) = true))
    ∧ (let d := ((binDev (poolHeld [0] 0) []).esWrite 0 0x100000 (leBytes 8 (1 <<< 31))).setReg (Reg.JOB_MAP 0 0) 3
       (Instr.marverRestage 0 5 0 [0xFFFF00100000]).wf = true ∧ (d.core 0).slot = some 0 ∧ d.runs 0 = true
         ∧ d.poolFor 5 (some 0) = true
         ∧ binsAnd (d.readBins (unitWho 0 57) [0xFFFF00100000] []) (fun e1 bs =>
             let e := e1.unitDone 0 57
             e.stageNext 0 0 bs && e.heldAll 0 0 bs && decide (∀ v ∈ e.restageBins 0 0 bs,
             binSize (countList v.2).length v.2.length 0 + (v.2.map (fun (x : Copy) => x.row.length)).sum ≤ e.bufSize 5))
             = true)
    ∧ (let o : RouteOp := { id := 0, slot := 0, core := 0, so := 0, err := false, scores := none, holder := 48, bufs := [] }
       (Instr.routingOperationComplete 0).wf = true ∧ [o].find? (fun y => decide (y.id = 0)) = some o
         ∧ [o].find? (fun y => decide (y.slot = o.slot)) = some o ∧ o.scores = none)
    ∧ (let d := binDev (poolHeld [0] 0) []
       (Instr.returnBinHandoff 0 0xFFFF00100000).wf = true ∧ d.findBuf (some 0) 0xFFFF00100000 = some (5, 0)
         ∧ ((d.pool 5).recOf 0).releasedBy 0 = true
         ∧ binsAnd (d.readBins (unitWho 0 57) [0xFFFF00100000] []) (fun e bs =>
             ((e.bufHand 5 0 49).takeAnswers 0 (bs.flatMap Bin.copies)).2.isNone) = true) := by
  simp only [Issues]
  and_intros <;> first | decide +kernel | exact desc_of (by decide +kernel)

/-- A message of 64 bytes to node 1. -/
def msg (vc phase sent acked : Nat) : SendMsg :=
  { id := 0, slot := 0, core := 0, src := 0, dest := 1, bytes := 64, queue := 0, chan := 0, vc := vc, so := 0, seq := 0,
    phase := phase, since := 0, sent := sent, acked := acked, body := none }

/-- Slot 0's job has nodes 0 and 1; a device with this message. -/
def sendDev (ms : List SendMsg) : Dev :=
  let d := (fabDev.setReg (Reg.JOB_MAP 0 0) 3).setCore 0 (coreJ [0xFFFF80000000])
  let d := d.esWrite 0 0 (leBytes 8 (1 <<< 48) ++ leBytes 8 (0x200 <<< 32 ||| 64))
  { d with xch := { d.xch with sends := ms } }

theorem wit_SendingMessages :
    (let w := word 0 1 0 0
     let s := st (sendDev [])
     (Instr.xsend w).wf = true ∧ Issues s.dev (cOp 0x2A false) (decide (fld w.fn 10 2 = 0)) w
       ∧ ∃ d ws, s.dev.desc w.core ((s.dev.core w.core).r1 w) 4 = .ok d ws ∧ d.sendOk 0 (sendDescOf ws) = true
         ∧ (sendDescOf ws).bytes = 64 ∧ d.owns 0 (sendDescOf ws).so = true
         ∧ d.spaceFailed { d.tx 0x08 0 (sendDescOf ws).dest (d.jobId 0) w.core with chan := (sendDescOf ws).chan } = false)
    ∧ (Instr.xsendComplete 0).wf = true ∧ (sendDev [msg 2 2 64 64]).sendMsg 0 = some (msg 2 2 64 64)
    ∧ (msg 2 2 64 64).acked = (msg 2 2 64 64).bytes ∧ (msg 2 2 64 64).vc = 2 ∧ (msg 3 6 64 64).vc ≠ 2
    ∧ (msg 3 2 64 64).phase = 2 ∧ (msg 3 6 64 64).phase = 6
    ∧ (msg 2 5 64 64).phase = 5 ∧ (msg 3 2 64 64).body = none ∧ ({ msg 3 2 64 64 with body := some [], chan := 15 }).body ≠ none
    ∧ (Instr.chunkReceiptArrival 0).wf = true ∧ (msg 3 4 64 64).vc = 3 ∧ (msg 3 4 64 64).sent = (msg 3 4 64 64).bytes
    ∧ (msg 3 4 64 64).phase = 4 := by
  simp only [Issues]
  and_intros <;> first | decide +kernel | exact desc_of (by decide +kernel)

/-- A whole message of 64 bytes from node 1 in buffer 0 of pool 5. -/
def whole : RecvMsg :=
  { key := { job := 7, src := 1, core := 0, dst := 0, chan := 0, post := false }, seq := 0, bytes := 64, pool := 5, buf := 0,
    got := 64, src := 1, complete := true }

/-- A device with this message in queue 0 of slot 0, whose buffer stands in the window of engine 0 and holds `bs`; the
descriptor of the receive has this kind. -/
def recvDev (kind : Nat) (bs : List Byte) : Dev :=
  let d := ((((poolDev (poolHeld [50] 50) [0xFFFF80000000, 5]).setReg (Reg.POOL_BASE 5) 0xFFFF00100000).commit
    (Reg.POOL_BASE 5)).esWrite 0 8 (leBytes 8 (kind <<< 4))).esWrite 0 0x100000 bs
  (d.setReg (Reg.JOB_MAP 0 0) 3).setRqueue 0 0 { RecvQueue.reset with pool := some 5, msgs := [whole] }

/-- The descriptor of `recvDev` is at hand, queue 0's message is the one that it takes, and more holds. -/
def takesWhole (kind : Nat) (bs : List Byte) (f : Dev → Bool) : Bool :=
  let d := recvDev kind bs
  descAnd (d.desc 0 ((d.core 0).r1 (word 3 1 0 1)) 4) (fun e ws => decide (nfld (ws.getD 1 0) 5 4 = kind)
    && decide ((e.rqueue 0 (nfld (ws.getD 1 0) 3 0)).msgs.find? (fun m => m.complete) = some whole)
    && decide (leNat (((e.recvBytes 0 whole 64).drop (if kind = 0 then 16 else 0)).take 8) = ws.getD 0 0) && f e)

/-- An all-reduce of one FP32 element per chunk in AX64 over ranks 0 and 1, of the given rop. -/
def coll1 (rop : Nat) : CollDesc :=
  { op := 1, rop := rop, xfer := 0xC, etype := 0, outfmt := 0, amode := 1, repro := true, seq := 1, group := 0, n := 2, shards := 2,
    count := 1, inp := 0, out := 0, gtab := 0, so := 0, rank := 0, tmo := 0, fanchor := 0, dist := 0, ptab := 0 }

/-- Core 0 of a device whose collective waits; `committed` of its chunks are in `out`. -/
def collDev (committed : Nat) : Dev :=
  let x := dev.newColl 0 0 (coll1 0) [0, 1] []
  devC { coreJ [] with wait := some .coll, coll := some { x with own := [[[0]]], committed := committed } }

/-- The collective of `collDev` completes and is quiet, or is not complete. -/
def collIs (d : Dev) (complete : Bool) : Bool :=
  match (d.core 0).coll with
  | some x => decide (x.complete = complete) && d.settled 0
  | none => false

theorem wit_collectives :
    (let d := { collDev 0 with now := 1000000000 }
     (d.core 0).wait = some .coll ∧ (d.core 0).coll.isSome = true ∧ (d.core 0).slot = some 0 ∧ d.runs 0 = true
       ∧ (d.core 0).coll.any (fun x => decide (x.since + x.desc.limitTime ≤ d.now) && decide (x.tag ≠ 7)) = true)
    ∧ (coll1 0).anchored = true ∧ (coll1 0).amode = 1 ∧ (coll1 0).tbits = 64 ∧ (coll1 0).limit < 2 ^ 63
    ∧ (5 : Nat) < 2 ^ (coll1 0).tbits ∧ sval 64 5 + sval 64 5 ≤ (coll1 0).limit
    ∧ dev.collOk 0 (coll1 9) [0, 1] [] = false ∧ (dev.rb (Reg.JOB_PROFILE 0) 0 && (coll1 9).sums && !(coll1 9).repro) = false
    ∧ collIs (collDev 0) false = true ∧ collIs (collDev 1) true = true := by decide +kernel

/-- A message of another kind, a bin without copies, a chunk with its checksum, and an empty queue. -/
theorem wit_ReceivingMessages :
    (let w := word 3 1 0 1
     let s := st (recvDev 2 [])
     (Instr.xrecvReceive w).wf = true ∧ Issues s.dev (cOp 0x2A false) (decide (fld w.fn 10 2 = 0)) w
       ∧ (∃ d ws, (recvDev 2 []).desc w.core ((s.dev.core w.core).r1 w) 4 = .ok d ws ∧ nfld (ws.getD 1 0) 5 4 ≠ 3
           ∧ (d.rqueue 0 1).msgs.find? (fun m => m.complete) = none)
       ∧ takesWhole 2 [] (fun _ => true) = true
       ∧ takesWhole 0 [] (fun e => decide (e.binCode 0 0 0 whole = 0)) = true
       ∧ takesWhole 1 (List.replicate 24 0#8 ++ leBytes 8 (crc64xz (List.replicate 24 0#8))) (fun e =>
           decide ((0, 0, leNat (((e.recvBytes 0 whole 64).drop 8).take 4)) ∉ e.xch.chunks)
             && chunkOk (e.recvBytes 0 whole whole.bytes)) = true)
    ∧ (let d := devC { coreJ [] with wait := some (.recv 3 0 0 0 0 0) }
       (Instr.xrecvTimeout 0).wf = true ∧ (d.core 0).wait = some (.recv 3 0 0 0 0 0) ∧ 0 ≤ d.now)
    ∧ (let w := word 0 1 2 2
       let s := st (poolDev pool4 [0xF, 5])
       (Instr.xrecvBind w).wf = true ∧ Issues s.dev (cOp 0x2A false) (decide (fld w.fn 10 2 = 0)) w
         ∧ s.dev.poolNamed w.core (fld ((s.dev.core w.core).r2 w) 15 0) = true ∧ (s.dev.rqueue 0 15).pool = none)
    ∧ (let w := word 3 1 0 0
       let s := st (devC (coreJ [0xFFFF80000000]))
       (Instr.xtag w).wf = true ∧ Issues s.dev (cOp 0x2B false) (decide (w.fn = 0)) w
         ∧ ((s.dev.core w.core).r1 w).toNat < 2 ^ 48
         ∧ ∃ d bs, s.dev.unitLoad w.core
             ((s.dev.core w.core).r1 w).toNat 32 = .ok d bs ∧ bs.length = 32)
    ∧ (let d := devC (coreJ [])
       (Instr.abortMessageArrival 0 0 1 1).wf = true ∧ (d.core 0).slot = some 0 ∧ d.runs 0 = true
         ∧ ((0, (1 : Word).toNat) : Nat × Nat) ∉ d.xch.aborted ∧ (d.core 0).coll = none) := by
  simp only [Issues]
  and_intros <;> first | decide +kernel | exact desc_of (by decide +kernel) | exact ok_of (by decide +kernel)

/-! ### Witnesses: the fabric and the ports -/

/-- Slot 0's tables map gob 0 to frame 9 of 16; window 0 of job 7, in entry 5, gives 64 KiB from address 0. -/
def mapDev : Dev :=
  let m := wrBytes (wrBytes (wrBytes [] 0 (leBytes 8 0x8001)) 0x8000 (leBytes 8 0x10001)) 0x10000 (leBytes 8 0xF ++ leBytes 8 9)
  { dev with
    mem := { dev.mem with t1 := m }
    regs := [(Reg.SEC_BOOT, 7), (Reg.JOB_ID 0, 7), (Reg.JOB_ADMIT 0, 4), (Reg.FAB_TOPO, 1), (Reg.WIN 5 0, 0x707),
      (Reg.WIN 5 2, 0x10000), (Reg.TT_BASE 0, 1), (Reg.MEM_FRAMES, 16), (Reg.SYN_RANGE 0, 0x100000000),
      (Reg.ENG_STATUS 0, 0x20)] }

/-- No window table entry has a Reset value but 0. -/
theorem resetVal_window (i : Nat) (h : i < 4096) : resetVal (Reg.WIN i 0) = 0 := by
  unfold resetVal
  have h0 : Reg.WIN i 0 ∉ idRegs := by
    simp only [Reg.WIN, idRegs, List.mem_cons, List.not_mem_nil, Reg.TOP_ID, Reg.SEC_ID, Reg.PWR_ID, Reg.SCH_ID, Reg.FLT_ID,
      Reg.RTE_ID, Reg.FAB_ID, Reg.XCH_ID, Reg.TIR_ID, Reg.MEM_ID, Reg.CUL_ID, Reg.SYN_ID, Reg.HST_ID]
    simp only [or_false, not_or]
    and_intros <;> omega
  rw [if_neg h0]
  simp only [Reg.WIN, Reg.XCH_CFG, Reg.PORT_CTRL, Reg.MODULE_ID, Reg.MEM_CFG, Reg.MEM_STATUS, Reg.MEM_FRAMES, Reg.FAB_CFG,
    Reg.PWR_CAP, Reg.PWR_LIMIT, Reg.PWR_STATUS, Reg.PWR_GUARD, Reg.PWR_GATE, Reg.PWR_AGE, Reg.SEC_LC, Reg.PWR_VF]
  iterate 16 refine (if_neg (by omega)).trans ?_
  rfl

theorem mapDev_window : mapDev.windowOf 7 0 = (some 5, false) := by
  have hr : ∀ i ∈ List.range 4096, (bitAt (mapDev.reg (Reg.WIN i 0)) 0 && decide (fld (mapDev.reg (Reg.WIN i 0)) 27 8 = 7)
      && decide (fld (mapDev.reg (Reg.WIN i 0)) 35 28 = 0)) = decide (i = 5) := by
    intro i h
    have hi := List.mem_range.mp h
    by_cases h5 : i = 5
    · subst h5; decide +kernel
    · have : mapDev.reg (Reg.WIN i 0) = 0 := by
        have hn : tfind mapDev.regs (Reg.WIN i 0) = none := by
          simp only [mapDev, tfind, Reg.WIN, Reg.SEC_BOOT, Reg.JOB_ID, Reg.JOB_ADMIT, Reg.FAB_TOPO, Reg.TT_BASE,
            Reg.MEM_FRAMES, Reg.SYN_RANGE, Reg.ENG_STATUS]
          iterate 10 refine (if_neg (by omega)).trans ?_
          rfl
        simp only [Dev.reg, tget, hn, Option.getD_none]
        exact resetVal_window i hi
      rw [this, decide_eq_false h5]
      decide +kernel
  simp only [Dev.windowOf]
  rw [List.filter_congr hr]
  decide +kernel

/-- What a receiver's check answers: the local address, or the reason. -/
def checked (r : Except Nat (Nat × Nat)) : Nat × Nat :=
  match r with
  | .ok y => (0, y.2)
  | .error k => (k, 0)

/-- Port 0 linked, with 100 units granted for each class that the tests use. -/
def linkDev : Dev :=
  let d := mapDev.setRf (Reg.PORT_STATE 0) 3 0 3
  d.setPort 0 { Port.reset with credits := (List.range 32).map (fun k => (k, { Credit.reset with g := 100 })) }

/-- A whole transaction with its crc. -/
def goodTx (op : Nat) (pl : List Byte) : Tx := withCrc { tx with op := op, payload := pl }

theorem wit_ArrivalsReachTheirUnits :
    (let x := goodTx 3 (List.replicate 128 0)
     (Instr.wrlReceive 0 x).wf = true ∧ linkDev.isHere x = true ∧ x.crc = txCrc x
       ∧ ({ x with crc := 0 } : Tx).crc ≠ txCrc { x with crc := 0 })
    ∧ WithinCredit linkDev 0 (goodTx 3 (List.replicate 128 0))
    ∧ (let x := goodTx 2 (List.replicate 128 0)
       (Instr.rdrReceive 0 x).wf = true ∧ linkDev.isHere x = true ∧ x.crc = txCrc x)
    ∧ (let x := { goodTx 3 [] with dst := 1 }
       (Instr.transitForward 0 x).wf = true ∧ linkDev.isHere x = false)
    ∧ WithinCredit linkDev 0 { goodTx 3 [] with dst := 1 }
    ∧ (let x := goodTx 16 []
       (Instr.discReceive 0 x).wf = true ∧ linkDev.isHere x = true ∧ x.crc = txCrc x ∧ x.payload = []
         ∧ ((counted linkDev 0 x).port 0).discTime = none)
    ∧ (let x := goodTx 17 [1, 0, 0, 1]
       (Instr.lsnReceive 0 x).wf = true ∧ linkDev.isHere x = true ∧ x.crc = txCrc x
         ∧ (leNat (x.payload.take 2), x.offset % 65536) ∉ (counted linkDev 0 x).fab.seen
         ∧ tget (fun _ => none) (counted linkDev 0 x).fab.marks (1 * 8 + 0) = none) := by
  simp only [WithinCredit, counted, ledgered]; decide +kernel

/-- The receiver's checks pass for 128 bytes at the end of the window, and fail one byte further. -/
theorem wit_ReceiversAct :
    tx.seq = mapDev.expectSeq (mapDev.recvKey tx) ∧ mapDev.fab.recv.length < maxSpaces
      ∧ checked ((mapDev.windowSeen 7 0xFF80).receiverCheck 7 0xFF80 128 true) = (0, 0xFF80)
      ∧ (∃ d bs, (mapDev.windowSeen 7 0xFF80).wr (unitWho 0 60) 0xFF80 tx.payload = .ok d bs ∧ bs = [])
      ∧ checked ((mapDev.windowSeen 7 0xFF81).receiverCheck 7 0xFF81 128 true) = (4, 0)
      ∧ (let x := { tx with op := 7, vc := 4, offset := 5 + 1 * 2 ^ 16, payload := [] }
         x.seq = mapDev.expectSeq (mapDev.recvKey x) ∧ x.core ≠ 61 ∧ mapDev.slotOfJob x.job = some 0
           ∧ mapDev.owner (nfld x.offset 15 0) = some 0
           ∧ (mapDev.post (nfld x.offset 15 0) (nfld x.offset 47 16) x.err).2 = true)
      ∧ (let x := { tx with seq := 1 }
         x.seq ≠ mapDev.expectSeq (mapDev.recvKey x) ∧ seqBefore x.seq (mapDev.expectSeq (mapDev.recvKey x)) = false)
      ∧ seqBefore (2 ^ 32 - 1) 0 = true := by
  have h1 : mapDev.windowOf 7 (nfld 0xFF80 47 40) = (some 5, false) := mapDev_window
  have h2 : mapDev.windowOf 7 (nfld 0xFF81 47 40) = (some 5, false) := mapDev_window
  have s1 : mapDev.windowSeen 7 0xFF80 = mapDev := by simp only [Dev.windowSeen, h1]; rfl
  have s2 : mapDev.windowSeen 7 0xFF81 = mapDev := by simp only [Dev.windowSeen, h2]; rfl
  rw [s1, s2]
  simp only [Dev.receiverCheck, h1, h2]
  and_intros <;> first | decide +kernel | exact ok_of (by decide +kernel)

/-- An LDL and an STL between the last line of the window of this device's own node and the engine's store. -/
theorem wit_OwnNodeCopies :
    (let w := word 2 1 0 0
     let d := mapDev.setCore 0 (coreJ [0xFF80, 0xFFFF80000000])
     let x := d.core w.core
     let g := x.getG w.rs1.toNat
     let l := x.getG w.rd.toNat
     (Instr.ldl w).wf = true ∧ (Instr.stl w).wf = true
       ∧ Issues d (cOp 0x0E false) (decide (w.rs2 = 0) && decide (fld w.fn 10 5 = 0)) w
       ∧ Issues d (cOp 0x0F false) (decide (w.rs2 = 0) && decide (fld w.fn 10 6 = 0) && !bitAt w.fn 4) w
       ∧ g.toNat % 128 = 0 ∧ l.toNat % 128 = 0 ∧ l.toNat < 2 ^ 48 ∧ fld g 63 48 = d.node
       ∧ checked ((d.windowSeen 7 0xFF80).receiverCheck 7 0xFF80 128 true) = (0, 0xFF80)
       ∧ (∃ e b, d.coreWr w.core l.toNat (List.replicate 128 0#8) = .ok e b ∧ b = [])
       ∧ d.localWaits w.core 0xFF80 128 = false ∧ d.fillPending w.core 0xFF80 128 = false
       ∧ (∃ e bs, d.rd (coreWho w.core 0) 0xFF80 128 = .ok e bs
           ∧ okAnd (e.coreWr w.core l.toNat bs) (fun _ _ => true) = true)
       ∧ (∃ e bs, d.coreRd w.core l.toNat 128 = .ok e bs
           ∧ okAnd (e.wr (coreWho w.core 0) 0xFF80 bs) (fun _ _ => true) = true)) := by
  have h1 : (mapDev.setCore 0 (coreJ [0xFF80, 0xFFFF80000000])).windowOf 7 (nfld 0xFF80 47 40) = (some 5, false) := mapDev_window
  have s1 : (mapDev.setCore 0 (coreJ [0xFF80, 0xFFFF80000000])).windowSeen 7 0xFF80
      = mapDev.setCore 0 (coreJ [0xFF80, 0xFFFF80000000]) := by simp only [Dev.windowSeen, h1]; rfl
  simp only [Issues]
  rw [s1]
  simp only [Dev.receiverCheck, h1]
  and_intros <;> first | decide +kernel | exact ok_of (by decide +kernel)

/-- A device with this fabric state at this time. -/
def fabAt (t : Nat) (f : Fab → Fab) : Dev := { fabDev with now := t, fab := f fabDev.fab }

/-- A read of a line at node 1, and one of a line of host memory. -/
def read1 (host : Bool) : LineRead :=
  { k := 4, rid := 3, tx := { tx with op := 1, src := 0, dst := 1, rid := 3, payload := [] }, use := .ldl 0 0 0 false false, first := 0,
    last := 20000, host := host, patch := [] }

/-- The space of messages to node 1, with an RTS that is not acknowledged. -/
def rtsSpace : SendSpace :=
  { key := { job := 7, src := 0, core := 0, dst := 1, chan := 0, post := false }, next := 1,
    unacked := [{ tx := { tx with op := 8, src := 0, dst := 1, payload := [] }, idx := 0, first := 0, last := 20000 }],
    waiting := [], msg := some 0, failed := false, lost := false }

theorem wit_FabricTimers :
    (let d := fabAt 20000 (fun f => { f with reads := [read1 false] })
     (Instr.rdlResend 3).wf = true ∧ d.now < (read1 false).first + 100000000
       ∧ d.fab.reads.find? (fun r => !r.host && decide (r.rid = 3) && decide (r.last ≤ d.now)
           && (d.space (spaceKeyOf r.tx)).waiting.all (fun w => decide (w.1.op ≠ 0x01) || decide (w.1.rid ≠ 3)))
           = some (read1 false))
    ∧ (read1 false).first + 100000000 ≤ (fabAt 100000000 id).now
    ∧ ((Instr.t3ReadCompletion 4 (List.replicate 128 0)).wf = true
       ∧ [read1 true].find? (fun r => r.host && decide (r.k = 4)) = some (read1 true)
       ∧ (List.replicate 128 (0 : Byte)).length = 128)
    ∧ (let w : WaitRts := { key := rtsSpace.key, seq := 0, bytes := 4096 }
       let d := (poolDev pool4 []).setRqueue 0 15 { RecvQueue.reset with pool := some 5, reserved := [2], rts := [w] }
       (Instr.grantSend 0 15).wf = true ∧ (d.rqueue 0 15).pool = some 5 ∧ (d.rqueue 0 15).rts = w :: []
         ∧ (d.rqueue 0 15).reserved = 2 :: [] ∧ w.bytes ≤ d.bufSize 5)
    ∧ (let y := msg 2 1 0 0
       let d := { fabAt 100000000 (fun f => { f with send := [rtsSpace] }) with xch := { dev.xch with sends := [y] } }
       (Instr.rtsBusyResend 0).wf = true ∧ d.sendMsg 0 = some y ∧ (d.sentRts y).isSome = true ∧ y.phase = 1
         ∧ y.since + 10000 ≤ d.now ∧ (Instr.grantTimeout 0).wf = true ∧ y.phase ≤ 1
         ∧ (d.sentRts y).all (fun u => decide (u.first + 100000000 ≤ d.now)) = true)
    ∧ (let d := { unackedDev (coreJ []) with now := 100000000 }
       let k : SpaceKey := { job := 7, src := 0, core := 0, dst := 1, chan := 0, post := false }
       (Instr.e2eTimerExpiry k).wf = true ∧ (d.space k).failed = false
         ∧ (d.space k).unacked = [{ tx := { tx with src := 0, dst := 1 }, idx := 0, first := 0, last := 20000 }]
         ∧ 20000 ≤ d.now ∧ (Instr.e2eWriteFail k).wf = true ∧ ({ tx with src := 0, dst := 1 } : Tx).op ≠ 0x08
         ∧ 0 + 100000000 ≤ d.now)
    ∧ (let b : Bundle := { block := 1, vc := 0, job := 7, entries := [], since := 0 }
       let d := { fabAt 1000000 id with fab := (fabDev.setBundles 6 [b]).fab }
       (Instr.bundleClose 6 0).wf = true ∧ (d.bundles 6)[0]? = some b ∧ b.since + d.rf Reg.FAB_CFG 35 24 ≤ d.now) := by
  decide +kernel

/-- Port 1 in a state, at a time. -/
def portAt (state t : Nat) (fast : Bool) : Dev :=
  { ((fabDev.setRf (Reg.PORT_STATE 1) 3 0 state).setRb (Reg.PORT_STATE 1) 8 fast) with now := t }

theorem wit_PortsTrain :
    (let d := (((portAt 0 2000000 false).setRb Reg.FAB_STATUS 0 true).setRb Reg.FAB_NODE 16 true).setRb (Reg.PORT_CTRL 1) 0 true
     (Instr.portTrainStart 1).wf = true ∧ d.portState 1 = 0 ∧ d.rb Reg.FAB_STATUS 0 = true ∧ d.rb Reg.FAB_NODE 16 = true
       ∧ d.portUsed 1 = true ∧ d.rb (Reg.PORT_CTRL 1) 0 = true ∧ (d.port 1).since + 2 * 1 * 1000000 ≤ d.now)
    ∧ (let d := portAt 7 (10 ^ 12) false
       (Instr.portDownRetry 1).wf = true ∧ d.portState 1 = 7 ∧ (d.port 1).since + d.retryTime ≤ d.now)
    ∧ (let d := portAt 1 200000 true
       (Instr.fastRetrainTimeout 1).wf = true ∧ d.rb (Reg.PORT_STATE 1) 8 = true ∧ (d.port 1).since + 200000 ≤ d.now)
    ∧ (let d := (portAt 4 0 false).setRb (Reg.PORT_CTRL 1) 0 true
       (Instr.portCtrlRetrain 1).wf = true ∧ HostOpen d (.portCtrlRetrain 1) bar0 false false ∧ d.portState 1 ≠ 0
         ∧ d.portState 1 ≠ 8 ∧ d.rb (Reg.PORT_CTRL 1) 0 = true)
    ∧ (let d := portAt 1 50000000 false
       (Instr.portTrainingDone 1 { failed := 0, inverted := 0, reversed := false }).wf = true ∧ d.portState 1 = 1
         ∧ d.minWidth 1 ≤ widthOf 0 ∧ (Instr.portTrainingTimeout 1).wf = true ∧ d.rb (Reg.PORT_STATE 1) 8 = false
         ∧ (d.port 1).since + 50000000 ≤ d.now)
    ∧ (let d := (portAt 4 0 false).setPort 1 { Port.reset with nakCount := 8 }
       (Instr.fastRetrainStart 1).wf = true ∧ d.portLinked 1 = true ∧ 8 ≤ (d.port 1).nakCount)
    ∧ (let d := (portAt 7 (10 ^ 9) false).setPort 1 { Port.reset with downSince := some 0 }
       (Instr.portHoldExpiry 1).wf = true ∧ d.portUp 1 = false ∧ (d.port 1).downSince = some 0 ∧ 0 + d.portHold ≤ d.now
         ∧ (d.port 1).noticed = false ∧ ((portAt 7 0 false).port 1).downSince = none)
    ∧ (let d := portAt 2 0 false
       let x : Ident := { node := 1, port := 0, topo := 1, level := 2, fseq := 0 }
       (Instr.identFlitReceive 1 x).wf = true ∧ d.portState 1 = 2 ∧ ¬ (x.node = d.node ∧ x.port = 1)
         ∧ ¬ (x.topo ≠ d.rf Reg.FAB_TOPO 15 0 ∨ x.node ≠ d.neighbour d.node 1 ∨ x.port ≠ farPort 1)
         ∧ (x.topo ≠ d.rf Reg.FAB_TOPO 15 0 ∨ x.node ≠ d.neighbour d.node 1 ∨ (1 : Nat) ≠ farPort 1)
         ∧ d.rb (Reg.PORT_STATE 1) 8 = false)
    ∧ (let d := portAt 5 1000000 false
       (Instr.miswiredIdentSend 1).wf = true ∧ d.portState 1 = 5 ∧ (d.port 1).since + 1000000 ≤ d.now) := by
  simp only [HostOpen]; decide +kernel

/-- A heartbeat flit with its crc, and one whose crc is wrong. -/
def flit (good : Bool) : Flit :=
  let f : Flit := { fseq := 0, ack := 0, kind := 3, cvc := 0, ccls := 0, ccnt := 0, crc := 0, errs := 0,
                    area := [0, 0, 0], hb := [] }
  { f with crc := if good then flitCrc f else (flitCrc f + 1) % 2 ^ 24 }

theorem wit_FlitsAndRetry :
    (let d := portAt 4 0 false
     (Instr.flitReceive 1 (flit true)).wf = true ∧ d.portLinked 1 = true ∧ flitBad (flit true) = false
       ∧ flitSequenced (flit true) = true
       ∧ (flit true).fseq = (((d.fecCount 1 (flit true).errs).ackFlits 1 (flit true).ack).port 1).rxExpect
       ∧ (5 : Nat) ≠ (((d.fecCount 1 (flit true).errs).ackFlits 1 (flit true).ack).port 1).rxExpect
       ∧ flitBad (flit false) = true ∧ (d.port 1).nakSent = false
       ∧ (Instr.heartbeatSend 1).wf = true ∧ (d.port 1).replay.length < replaySize 1)
    ∧ (portAt 1 0 false).portState 1 = 1
    ∧ (let d := (portAt 4 0 false).setPort 1 { Port.reset with replay := [flit true] }
       (Instr.nakReceive 1 0).wf = true ∧ (d.port 1).replay.dropWhile (fun f => decide (f.fseq ≠ 0)) ≠ []) := by
  decide +kernel

/-! ### Witnesses: loops, lists, the scheduler -/

/-- Slot 0 of a device in twin mode. -/
def twinned (d : Dev) : Dev := d.setRb (Reg.TWIN_CFG 0) 19 true

/-- Loops of one instruction and of 1,023; with a count of 0, and with a count from memory. -/
theorem wit_LoopsAndDigests :
    (let w := word 0 1 0 1
     let s := st (devC (coreJ [5]))
     let x := s.dev.core w.core
     (Instr.loopn w).wf = true ∧ Issues s.dev (cOp 0x2D false) (decide (w.rd = 0) && decide (fld w.rs2 4 1 = 0)) w
       ∧ 1 ≤ w.fn.toNat ∧ (word 0 1 0 1023).fn.toNat < 1024 ∧ x.frozen = false ∧ x.loops.length < 4 ∧ x.loops.head? = none
       ∧ bitAt w.rs2 0 = false ∧ fld (x.r1 w) 63 32 = 0 ∧ fld (x.r1 w) 31 0 ≠ 0
       ∧ fld ((coreJ [0]).r1 w) 31 0 = 0)
    ∧ (let w := word 0 1 1 1
       let s := st ((devC (coreJ [0xFFFF80000000])).esWrite 0 0 [2])
       let x := s.dev.core w.core
       Issues s.dev (cOp 0x2D false) (decide (w.rd = 0) && decide (fld w.rs2 4 1 = 0)) w ∧ bitAt w.rs2 0 = true
         ∧ (x.r1 w).toNat % 4 = 0 ∧ fld (x.r1 w) 63 48 = 0
         ∧ ∃ d bs, s.dev.unitLoad w.core (x.r1 w).toNat 4 = .ok d bs ∧ leNat bs ≠ 0)
    ∧ (let x := { coreJ [] with loops := [{ first := 0x1000, last := 0x1000, count := 2 }] }
       x.frozen = false ∧ x.loops = { first := 0x1000, last := 0x1000, count := 2 } :: [] ∧ 0x1000 = x.pc.toNat + 4 - 4
         ∧ 2 - 1 ≠ 0)
    ∧ (let w := word 0 1 2 0
       let s := st (twinned (devC (coreJ [0xFFFF80000000, 16])))
       let x := s.dev.core w.core
       (Instr.digestFold w).wf = true ∧ Issues s.dev (cOp 0x2F false) (decide (fld w.fn 10 2 = 0)) w
         ∧ s.dev.twinCore x = true ∧ dev.twinCore x = false ∧ (x.r1 w).toNat < 2 ^ 48
         ∧ ∃ d bs, s.dev.unitLoad w.core (x.r1 w).toNat (x.r2 w).toNat = .ok d bs
           ∧ bs.length = 16)
    ∧ (Instr.digestRead (word 3 0 0 5)).wf = true
    ∧ Issues (devC (coreJ [])) (cOp 0x2F false) (decide (fld (word 3 0 0 5).fn 10 3 = 0)) (word 3 0 0 5)
    ∧ (Instr.digestLevel (word 0 1 0 2)).wf = true
    ∧ Issues (devC (coreJ [])) (cOp 0x2F false) (decide (fld (word 0 1 0 2).fn 10 2 = 0)) (word 0 1 0 2) := by
  simp only [Issues]
  and_intros <;> first | decide +kernel | exact ok_of (by decide +kernel)

/-- An entry of kind 1 with its program at 0x1000, and a dependency on object 3 at 1. -/
def entry1 (kind dep : Nat) : WinEntry :=
  { pos := 0, addr := 0xFFFF00000040, words := [BitVec.ofNat 64 (0x1000 + kind <<< 48), 0, 0, 0,
      BitVec.ofNat 64 (dep <<< 32 + 3), 1, 0, 0], met := some 0, expired := false, epochs := [] }

/-- An open list of queue 3 of slot 0 with this window. -/
def list1 (win : List WinEntry) : CmdList :=
  { slot := 0, queue := 3, taken := 0, serial := false, next := 0xFFFF00000040, pos := 0, lastIn := false, faulted := false,
    win := win, running := 0 }

/-- A device with these lists; queue 3's ring stands in the window of engine 0, its object is 9, with one post. -/
def listDev (ls : List CmdList) : Dev :=
  let d := ((((dev.setReg (Reg.SQ_CFG 0 3) 0x100090004).setReg (Reg.SQ_BASE 0 3) 0xFFFF00000000).commitAll
    [Reg.SQ_CFG 0 3, Reg.SQ_BASE 0 3]).setReg (Reg.SYN_STATE 9) 1).esWrite 0 0 (leBytes 8 0xFFFF00000040)
  { d.setCore 0 { coreJ [] with run := .ended } with sch := { d.sch with lists := ls } }

theorem wit_ListsAndEntries :
    (let d := listDev []
     (Instr.submitListTake 0 3).wf = true ∧ d.runs 0 = true ∧ d.inf (Reg.SQ_CFG 0 3) 32 32 ≠ 0
       ∧ tget (fun _ => false) d.sch.queueStopped (0 * 4 + 3) = false ∧ d.inf (Reg.SQ_CFG 0 3) 31 16 = 9
       ∧ d.owns 0 9 = true ∧ d.synCount 9 ≠ 0 ∧ (d.openLists 0).length < 8 ∧ (slots16.flatMap d.openLists).length < 64
       ∧ ∃ e bs, d.unitRead 0 59 (d.inf (Reg.SQ_BASE 0 3) 47 0 + 8 * (d.rf (Reg.SQ_TAKEN 0 3) 63 0 % 2 ^ 4)) 8 = .ok e bs
         ∧ nfld (leNat bs) 63 49 = 0 ∧ nfld (leNat bs) 5 0 = 0)
    ∧ (let d := listDev [list1 []]
       (Instr.entryEnterWindow 0 3 0).wf = true ∧ d.listOf 0 3 0 = some (list1 []) ∧ d.mayEnter (list1 []) = true
         ∧ ∃ e bs, d.unitRead 0 59 (list1 []).next 64 = .ok e bs ∧ bs.length = 64)
    ∧ (let d := (listDev [list1 [entry1 1 1]]).setRb (Reg.SYN_STATE 3) 48 true
       (Instr.entrySkip 0 3 0 0).wf = true ∧ d.winEntry 0 3 0 0 = some (entry1 1 1) ∧ d.runs 0 = true
         ∧ d.depsErr (entry1 1 1).words = true)
    ∧ (let d := listDev [list1 [entry1 1 0]]
       (Instr.entryStart 0 3 0 0).wf = true ∧ d.winEntry 0 3 0 0 = some (entry1 1 0) ∧ d.mayStart 0 = true
         ∧ entryInvalid (entry1 1 0).words = false ∧ entryInvalid (entry1 0 0).words = false
         ∧ (∀ o ∈ entryObjs (entry1 1 1).words, d.owns 0 o = true) ∧ (d.schCommit 0).readyEntry (entry1 1 0) = true
         ∧ (d.schCommit 0).readyEntry (entry1 0 0) = true ∧ kindOf (entry1 0 0).words = 0 ∧ kindOf (entry1 1 0).words ≠ 0
         ∧ (d.schCommit 0).preceded 0 3 0 (entry1 1 0) = false ∧ (d.schCommit 0).place 0 (entry1 1 0) = some 0
         ∧ (Instr.affinityWaitExpiry 0 3 0 0).wf = true ∧ (entry1 1 0).met = some 0
         ∧ 0 + d.inf (Reg.SCH_SHARE 0) 47 32 * 64 ≤ d.now)
    ∧ (5 : Nat) ≠ 1 ∧ (5 : Nat) ≠ 2 ∧ (5 : Nat) ≠ 3 ∧ (5 : Nat) ≠ 31
    ∧ (let r := (listDev []).runOf 0 3 0 (entry1 1 0)
       let d := devC { coreJ [] with run := .ended, entry := some r }
       (Instr.entryComplete 0).wf = true ∧ (d.core 0).entry = some r ∧ d.coreQuiet 0 = true ∧ (d.engine 0).liveTiles = []
         ∧ (d.core 0).loops = []) := by
  and_intros <;> first | decide +kernel | exact ok_of (by decide +kernel)

/-- A digest that waits for the twin's. -/
def twinWait : TwinWait :=
  { msg := { ident := 3, digest := 5, units := [], rows := [], bytes := [] }, rows := [], level := 0, core := 0, addr := 0,
    queue := 3, taken := 0, units := 0, faulted := false, doneEn := false, doneObj := 0, dcount := 0, since := 0 }

theorem wit_JobsAndCadences :
    (let d := ((listDev [list1 [entry1 1 0]]).setReg (Reg.SCH_SHARE 0) 2).commit (Reg.SCH_SHARE 0)
     (Instr.engineReassign 1).wf = true ∧ d.engFree 1 = true ∧ d.engReleased 1 = true ∧ d.chooseSlot = some 0
       ∧ d.engSlot 1 ≠ some 0)
    ∧ (let d := (twinned dev).setTwin 0 { Twin.reset with waits := [twinWait] }
       (Instr.twinDigestCompare 0 twinWait.msg).wf = true
         ∧ (d.twinOf 0).waits.find? (fun y => decide (y.msg.ident = twinWait.msg.ident)) = some twinWait ∧ d.runs 0 = true
         ∧ d.twinOn 0 = true ∧ twinWait.msg ≠ { twinWait.msg with digest := 4 })
    ∧ (let d := { ((twinned dev).setRf (Reg.TWIN_CFG 0) 47 32 1).setTwin 0 { Twin.reset with waits := [twinWait] } with
         now := 1000000 }
       (Instr.twinTimeout 0).wf = true ∧ d.twinOn 0 = true ∧ twinWait ∈ (d.twinOf 0).waits
         ∧ d.rf (Reg.TWIN_CFG 0) 47 32 ≠ 0 ∧ twinWait.since + d.rf (Reg.TWIN_CFG 0) 47 32 * 1000000 ≤ d.now)
    ∧ (let d := ((dev.setReg (Reg.JOB_ADMIT 0) 0).setReg Reg.FAB_STATUS 3).setReg (Reg.JOB_MAP 0 0) 1
       (Instr.jobAdmitGo 0).wf = true ∧ HostOpen d (.jobAdmitGo 0) bar0 false false
         ∧ (d.slotBusy 0).admitCheck 0 = 0
         ∧ ((((((((d.slotBusy 0).clearLog 0).setRf (Reg.JOB_ADMIT 0) 7 4 0).setRf (Reg.JOB_ADMIT 0) 3 2 1).mapSlot 0).schCommit 0).linkRings 0).rb
             (Reg.TWIN_CFG 0) 19) = false)
    ∧ (dev.slotBusy 0).admitCheck 0 = 1
    ∧ ((Instr.jobAdmitStop 0).wf = true ∧ HostOpen dev (.jobAdmitStop 0) bar0 false false ∧ dev.runs 0 = true)
    ∧ (let d := (dev.setReg (Reg.CAD_OWN 31) 0x10).setCadence 31 { Cadence.reset with on := true }
       let e := d.cadCommit 31
       (Instr.cadencePeriodStart 31).wf = true ∧ d.cadOwner 31 = some 0 ∧ (d.cadence 31).on = true
         ∧ (d.cadence 31).open_ = false ∧ (d.cadence 31).s ≤ d.now ∧ d.runs 0 = true
         ∧ e.owns 0 (e.inf (Reg.CAD_CFG 31) 47 32) = true ∧ e.owns 0 (e.inf (Reg.CAD_CFG 31) 63 48) = true)
    ∧ (let d := dev.setReg (Reg.CAD_OWN 31) 0x10
       let v : Via := { slot := some 0, ide := false }
       let x : Word := 0x400000
       (Instr.cadCfgEnableSet v 31 x).wf = true ∧ HostOpen d (.cadCfgEnableSet v 31 x) v false false
         ∧ d.viaCad v 31 = true ∧ bitAt x 22 = true ∧ d.cadOwner 31 = some 0 ∧ d.rb (Reg.CAD_CFG 31) 22 = false
         ∧ d.rb (Reg.JOB_PROFILE 0) 0 = false
         ∧ (Instr.cadCfgEnableClear v 31 0).wf = true
         ∧ HostOpen (d.setReg (Reg.CAD_CFG 31) x) (.cadCfgEnableClear v 31 0) v false false
         ∧ (d.setReg (Reg.CAD_CFG 31) x).viaCad v 31 = true ∧ bitAt (0 : Word) 22 = false
         ∧ (d.setReg (Reg.CAD_CFG 31) x).rb (Reg.CAD_CFG 31) 22 = true) := by
  simp only [HostOpen]; decide +kernel

/-! ### Witnesses: streams, hints, movers -/

/-- As `mapDev`, with gob 0's leaf words as given, and object 0 of two gobs from address 0 with word 1 as given; core 0 at J
with addresses in its store. -/
def objDev (w0 w1 o1 : Nat) (gs : List Nat) : Dev :=
  let d := mapDev.setReg (Reg.OBJ_CFG 0) 0x20001
  let m := wrBytes (wrBytes d.mem.t1 0x10000 (leBytes 8 w0 ++ leBytes 8 w1)) 0x20008 (leBytes 8 (o1 + 2))
  { d with mem := { d.mem with t1 := m } }.setCore 0 (coreJ gs)

/-- What a pin finds: 1 next, 2 stop, 3 wait, 4 fault. -/
def pinKind : PinRes → Nat
  | .next _ => 1
  | .stop _ _ _ _ => 2
  | .wait _ => 3
  | .fault _ _ => 4

/-- A stream of engine 0 over two gobs of the window of engine 0, with room for one. -/
def stream1 (next : Nat) (asked : List Nat) (pred : Bool) : PStream :=
  { slot := 0, core := 0, pc := 0x1000, src := 0xFFFF00000000, slots := 1, slot0 := 0, ngobs := 2, pred := pred, nblk := 1, nb := 1, pmap := [0],
    next := next, asked := asked, present := [], skipped := [], bad := [], freed := [], released := 0, fetched := 0,
    closing := false }

theorem wit_StreamsAndHints :
    (let w := word 7 1 0 1
     let d0 := devC (coreJ [0xFFFF80000000])
     let s := st (d0.esWrite 0 0 (leBytes 8 (1 <<< 48) ++ leBytes 8 767))
     let t := st (d0.esWrite 0 0 (leBytes 8 (1 <<< 48) ++ leBytes 8 0x107FF ++ leBytes 8 0xFFFF00000000))
     (Instr.tstream w).wf = true
       ∧ Issues s.dev (cOp 0x2C false) (decide (fld w.fn 10 2 = 0) && decide (fld w.rd 4 3 = 0)) w ∧ w.core < 32
       ∧ (∃ d ws, d0.desc 0 ((d0.core 0).r1 w) 4 = .ok d ws ∧ (streamOf 0 0 0x1000 ws []).slots = 0)
       ∧ (∃ d ws, s.dev.desc 0 ((s.dev.core 0).r1 w) 4 = .ok d ws ∧ (streamOf 0 0 0x1000 ws []).slots ≠ 0
           ∧ d.streamFault 0 0 (streamOf 0 0 0x1000 ws []) = none ∧ (streamOf 0 0 0x1000 ws []).pred = false)
       ∧ (∃ d ws, t.dev.desc 0 ((t.dev.core 0).r1 w) 4 = .ok d ws ∧ (streamOf 0 0 0x1000 ws []).pred = true
           ∧ nfld (dw ws 2) 47 0 = 0xFFFF00000000 ∧ (streamOf 0 0 0x1000 ws []).nblk = 1)
       ∧ (∃ d bs, t.dev.unitLoad 0 0xFFFF00000000 ((1 + 3) / 4) = .ok d bs ∧ bs.length = 1))
    ∧ (let w := word 0 1 2 0
       let d := objDev 0xF 9 (2 <<< 32) [0, 1]
       let x := d.core 0
       (Instr.tpref w).wf = true ∧ Issues d (cOp 0x2C false) (decide (fld w.fn 10 4 = 0)) w ∧ fld w.fn 3 2 < 2
         ∧ fld (x.r2 w) 31 0 ≠ 0 ∧ (x.r1 w).toNat + 1 * 65536 ≤ 0xFFFF00000000
         ∧ (d.objOfGob 0 0).any (fun o => decide (o.2.kind = 2)) = true ∧ dev.objOfGob 0 0 = none
         ∧ 2 ≤ fld (word 0 1 2 8).fn 3 2)
    ∧ (let w := word 3 1 2 2
       let d := objDev 0xF 9 0 [0, 1]
       (Instr.tpin w).wf = true ∧ Issues d (cOp 0x2C false) (decide (fld w.fn 10 5 = 0)) w
         ∧ ((d.core 0).r1 w).toNat < 2 ^ 48 ∧ fld w.fn 3 2 < 2 ∧ fld ((d.core 0).r2 w) 31 0 = 1
         ∧ pinKind (d.pinGob 0 0 0 0 true false) = 1 ∧ pinKind (d.pinGob 0 0 0 0 false false) = 2
         ∧ pinKind ((objDev 0xF 9 (2 <<< 32) []).pinGob 0 0 0 0 false false) = 3)
    ∧ (let w := word 0 0 31 0x3F
       (Instr.phint w).wf = true
         ∧ Issues (devC (coreJ [])) { major := 0x2E, takesImm := false, branch := false, eOnly := false }
             (!bitAt w.fn 10 && decide (w.rd = 0) && decide (w.rs1 = 0)) w)
    ∧ (let d := fun (b : Bool) => ({ dev with now := 100000, pwr := { dev.pwr with hints := [(4, (63, 0, b))] } } : Dev)
       (Instr.phintBoostStart 4).wf = true ∧ tfind (d false).pwr.hints 4 = some (63, 0, false) ∧ 0 ≤ (d false).now
         ∧ (Instr.phintBoostEnd 4).wf = true ∧ tfind (d true).pwr.hints 4 = some (63, 0, true)
         ∧ 0 + 4096 * (d true).dcur / 64 ≤ (d true).now) := by
  simp only [Issues]
  and_intros <;> first | decide +kernel | exact desc_of (by decide +kernel) | exact ok_of (by decide +kernel)

/-- Work of a mover on gob 0 of slot 0. -/
def move1 (kind : MoveKind) (dest : MoveDest) (waitFrame : Bool) (buf : List Byte) : MoveReq :=
  { id := 0, kind := kind, slot := 0, gob := 0, dest := dest, replica := 0, since := 0, waitFrame := waitFrame, more := 0,
    frame := none, buf := buf, hdr := [], gate := none }

/-- A device with this waiting work and work in hand. -/
def moving (d : Dev) (queue busy : List MoveReq) : Dev := { d with tir := { d.tir with queue := queue, busy := busy } }

/-- The read of a stream's gob that is over, with what holds of it. -/
def ringAnd (x : Dev × Option (Nat × MoveReq × MemRes)) (q : Nat) (r : MoveReq) (f : Dev → List Byte → Bool) : Bool :=
  match x.2 with
  | some (q1, r1, m) => decide (q1 = q) && decide (r1 = r) && okAnd m f
  | none => false

theorem ringDone_same {d d1 d2 : Dev} {e i q : Nat} {qs : List Nat} {r : MoveReq} {bs : List Byte}
    (h : d.ringDone e i qs = (d1, some (q, r, .ok d2 bs))) : d1 = d2 := by
  induction qs generalizing d with
  | nil => simp [Dev.ringDone] at h
  | cons p ps ih =>
    unfold Dev.ringDone at h
    split at h
    · exact ih h
    · split at h
      · exact ih h
      · simp only [Prod.mk.injEq, Option.some.injEq] at h
        rw [← h.1, h.2.2.2]; rfl

theorem ring_of {d : Dev} {e i : Nat} {qs : List Nat} {q : Nat} {r : MoveReq} {P : Dev → List Byte → Prop}
    [∀ d bs, Decidable (P d bs)] (h : ringAnd (d.ringDone e i qs) q r (fun d bs => decide (P d bs)) = true) :
    ∃ d1 bs, d.ringDone e i qs = (d1, some (q, r, .ok d1 bs)) ∧ P d1 bs := by
  generalize hx : d.ringDone e i qs = x at h
  obtain ⟨d1, o⟩ := x
  unfold ringAnd at h
  split at h
  · rename_i q1 r1 m ho
    simp only [Bool.and_eq_true, decide_eq_true_eq] at h
    obtain ⟨d2, bs, hm, hp⟩ := ok_of h.2
    simp only at ho
    subst ho hm
    obtain rfl := ringDone_same hx
    exact ⟨d1, bs, by rw [h.1.1, h.1.2], hp⟩
  · cases h

/-- A mover's read of gob 0 of stream 7 of engine 0. -/
def ring1 : MoveReq := { move1 .stream (.ring 0 7 0) false [] with gob := 0xFFFF0000 }

theorem wit_PrefetchAndCopies :
    (let d := fun (p : PStream) => (devC (coreJ [])).setEngine 0 { Eng.reset with streams := [(7, some p)] }
     let settled := fun (a : Dev) => a.modEngine 0 (fun x => x.settleStream 7)
     (Instr.prefetchRefill 0 7).wf = true
       ∧ ((settled (d (stream1 0 [] false))).engine 0).pstream 7 = some (stream1 0 [] false)
       ∧ (stream1 0 [] false).closing = false ∧ (stream1 0 [] false).next < (stream1 0 [] false).ngobs
       ∧ ((settled (d (stream1 0 [] false))).engine 0).slotFree 7 (stream1 0 [] false) 0 = true
       ∧ ((settled (d (stream1 0 [] true))).engine 0).slotFree 7 (stream1 0 [] true) 0 = true
       ∧ (stream1 0 [] false).predictedZero 0 = false
       ∧ ((settled (d (stream1 0 [] false))).engine 0).inflight < (settled (d (stream1 0 [] false))).pfLimit 0
       ∧ ((settled (d (stream1 0 [] true))).engine 0).pstream 7 = some (stream1 0 [] true)
       ∧ (stream1 0 [] true).predictedZero 0 = true
       ∧ (Instr.prefetchGobArrival 0 7).wf = true
       ∧ ((moving (d (stream1 1 [0] false)) [] [ring1]).engine 0).pstream 7 = some (stream1 1 [0] false)
       ∧ (∃ e bs, (moving (d (stream1 1 [0] false)) [] [ring1]).ringDone 0 7 [0] = (e, some (0, ring1, .ok e bs))
           ∧ (stream1 1 [0] false).asked = [0] ∧ (e.ringCrc ring1 bs).isNone = true
           ∧ (stream1 1 [0] false).dirOk 0 bs = true
           ∧ (moving (d (stream1 1 [0] false)) [] [ring1]).formOk 0 (0xFFFF00000000 / 65536) bs = true)
       ∧ (let m := moving (d (stream1 1 [0] false)) [ring1] []
          bestWork (m.retryRepairs.tir.queue.filter m.retryRepairs.takable) = some ring1 ∧ ring1.kind ≠ .refetch
            ∧ ring1.kind ≠ .editMove ∧ ring1.dest = .ring 0 7 0
            ∧ ((m.retryRepairs.popWork ring1).engine 0).pstream 7 = some (stream1 1 [0] false) ∧ (0 : Nat) ∈ (stream1 1 [0] false).asked))
    ∧ (let r := move1 .tpref .gobCache false []
       let d := moving (objDev 0x17 0 (1 <<< 34) []) [r] []
       d.retryRepairs.tir.busy.length < 16 ∧ bestWork (d.retryRepairs.tir.queue.filter d.retryRepairs.takable) = some r
         ∧ r.kind ≠ .refetch ∧ r.kind ≠ .editMove ∧ r.toRing = false ∧ (d.popWork r).destOf r = .gobCache
         ∧ (d.popWork r).walk 0 0 false = .leaf 0x10000 0x17 0 ∧ (0x17 : Nat).testBit 5 = false
         ∧ (d.popWork r).policyLets r = true ∧ (d.popWork r).gcFind 0 0 = none)
    ∧ (let r := move1 .refetch .gobCache false []
       let d := moving (objDev 0x3F 9 (1 <<< 32) []) [r] []
       bestWork (d.retryRepairs.tir.queue.filter d.retryRepairs.takable) = some r
         ∧ (d.retryRepairs.popWork r).underRepair 0 0 = true)
    ∧ ((Instr.moverCopyComplete 0).wf = true ∧ (0x17 : Nat).testBit 5 = false ∧ leafTier 0x17 ≠ 1) := by
  and_intros <;> first | decide +kernel | exact ring_of (by decide +kernel)

/-- A payload of zeros. -/
def gobZero : List Byte := List.replicate 65536 0

/-- A copy in hand, and a move of a home, with the whole payload of a gob whose home is far: it stands here and verifies. -/
theorem wit_payload (kind : MoveKind) (dest : MoveDest) (d : Dev) (h : d.rb (Reg.OBJ_CFG 0) 0 = false) (hc : d.gcFind 0 0 = none)
    (hl : ∀ a, d.leafAddr 0 0 = .ok a → (d.t1w a).testBit 9 = false) :
    (moving d [] [move1 kind dest false gobZero]).moveInHand 0 = some (move1 kind dest false gobZero)
      ∧ (moving d [] [move1 kind dest false gobZero]).sweepCopy 0 0 = moving d [] [move1 kind dest false gobZero]
      ∧ (moving d [] [move1 kind dest false gobZero]).payload (move1 kind dest false gobZero) 0x17 0 = some (gobZero, [])
      ∧ crcBad [] gobZero = false := by
  have hz : gobZero.length = 65536 := List.length_replicate ..
  have ho : (moving d [] [move1 kind dest false gobZero]).obj 0 (leafObj 0x17) = none := by
    simp only [Dev.obj]
    rw [show (moving d [] [move1 kind dest false gobZero]).rb (Reg.OBJ_CFG 0) 0 = d.rb (Reg.OBJ_CFG 0) 0 from rfl, h]
    rfl
  refine ⟨rfl, ?_, ?_, ?_⟩
  · unfold Dev.sweepCopy
    rw [show (moving d [] [move1 kind dest false gobZero]).leafAddr 0 0 = d.leafAddr 0 0 from rfl]
    split
    · rename_i a ha
      rw [if_neg]
      simp only [Bool.and_eq_true, not_and, Bool.not_eq_true]
      intro hx
      exact absurd (hl a ha) (by
        rw [show (moving d [] [move1 kind dest false gobZero]).t1w a = d.t1w a from rfl] at hx
        rw [hx.2]; decide)
    · rfl
  · have hn : (moving d [] [move1 kind dest false gobZero]).copyServes (move1 kind dest false gobZero) 0x17 0 = none := by
      unfold Dev.copyServes Dev.nearCopy
      have hg : (moving d [] [move1 kind dest false gobZero]).gcFind 0 0 = none := hc
      have hs : (move1 kind dest false gobZero).slot = 0 := rfl
      have hb : (move1 kind dest false gobZero).gob = 0 := rfl
      rw [hs, hb, hg]
      split <;> rfl
    have hb : (move1 kind dest false gobZero).buf.length = 65536 := hz
    unfold Dev.payload
    rw [if_neg (by rw [hn]; decide), if_neg (by decide), if_pos hb]
    simp only [Dev.gobHeader, Dev.headerAddr]
    rw [show (move1 kind dest false gobZero).slot = 0 from rfl, ho, if_neg (by decide)]
    rfl
  · simp only [crcBad, List.take_nil]
    rw [show (leNat []).testBit 12 = false by decide, Bool.false_and]

/-- The leaf of gob 0 stands at this address and names no T1 copy. -/
def leafAddrIs (d : Dev) (a : Nat) : Bool :=
  match d.leafAddr 0 0 with
  | .ok b => decide (b = a) && !(d.t1w a).testBit 9
  | .error _ => false

theorem wit_copy_leaf :
    (let d := { mapDev with mem := { mapDev.mem with t1 := wrBytes mapDev.mem.t1 0x10000 (leBytes 8 0x17 ++ leBytes 8 0) } }
     d.rb (Reg.OBJ_CFG 0) 0 = false
       ∧ (moving d [] [move1 .stalled .gobCache false []]).walk 0 0 false = .leaf 0x10000 0x17 0
       ∧ (moving d [] [move1 .stalled .gobCache false []]).heldByBatch (move1 .stalled .gobCache false []) = false
       ∧ leafAddrIs d 0x10000 = true ∧ d.tir.edit = none) := by decide +kernel

/-- TIR_EDIT_VA 0, and a leaf word 0 to write of tier 2. -/
def editDev : Dev := (mapDev.setReg Reg.TIR_EDIT_W0 0x17).setReg Reg.TIR_EDIT_W1 0

theorem wit_EditsMovesScrub :
    (let d := editDev.setRb Reg.TIR_EDIT_OP 3 true
     editDev.rb Reg.TIR_EDIT_OP 3 = false ∧ leafAddrIs d 0x10000 = true
       ∧ nfld (editDev.reg Reg.TIR_EDIT_VA).toNat 51 16 = 0 ∧ HostOpen editDev .tirEditReadLeaf bar0 false false
       ∧ HostOpen editDev .tirEditWriteLeaf bar0 false false ∧ HostOpen editDev .tirEditMove bar0 false false
       ∧ HostOpen editDev .tirEditInvalidate bar0 false false ∧ (d.t1w 0x10000).testBit 6 = false
       ∧ (editDev.reg Reg.TIR_EDIT_W0).toNat = 0x17 ∧ (0x17 : Nat).testBit 0 = true ∧ leafTier 0x17 ≠ 1
       ∧ d.editTarget 0x17 0 = 0 ∧ malformedLeaf d.frames (d.t1w 0x10000) (d.t1w 0x10008) = false
       ∧ (d.t1w 0x10000).testBit 0 = true)
    ∧ (Instr.moveComplete 0).wf = true ∧ (move1 .editMove (.home 2 0) false []).dest = .home 2 0
    ∧ (move1 .editMove (.home 2 0) false []).gate = none ∧ mapDev.underRepair 0 0 = false
    ∧ (mapDev.space (mapDev.moverSpace 0 1)).failed = false ∧ mapDev.gateOpen [] = true
    ∧ (let r := move1 .refetch .gobCache false []
       (moving { mapDev with now := 100000000 } [] [r]).moveInHand 0 = some r ∧ r.since + 100000000 ≤ 100000000
         ∧ (Instr.replicaReadTimeout 0).wf = true ∧ r.kind = .refetch ∧ r.waitFrame = false)
    ∧ (let r := move1 .refetch .gobCache true []
       let b := objDev 0x3F 9 (1 <<< 32) []
       let d := moving { b.setReg Reg.MEM_FRAMES 256 with
         now := 100000000, tir := { b.tir with inUse := (List.range 256).map (fun i => (i, true)) } } [] [r]
       (Instr.refetchFrameWaitTimeout 0).wf = true ∧ d.retryRepairs = d ∧ r.waitFrame = true
         ∧ (d.objOfGob 0 0).isSome = true)
    ∧ (let v : Via := { slot := some 15, ide := false }
       (Instr.windowWrite v 15 0x1FFFFFFFFF).wf = true ∧ HostOpen dev (.windowWrite v 15 0x1FFFFFFFFF) v false false
         ∧ HostOpen dev (.windowWrite v 15 0) v false false ∧ viaSees v 15 = true ∧ fld (0 : Word) 31 16 = 0
         ∧ fld (0x1FFFFFFFFF : Word) 31 16 ≠ 0)
    ∧ (mapDev.rf Reg.MEM_CFG 7 0 ≠ 0 ∧ mapDev.rb Reg.TIR_CTRL 0 = false ∧ mapDev.tir.busy.length < 16 ∧ mapDev.tir.queue = []
         ∧ mapDev.rf Reg.MEM_SCRUB 21 0 = 0 ∧ 0 + 1 < mapDev.frames
         ∧ mapDev.frames ≤ (mapDev.setReg Reg.MEM_SCRUB 15).rf Reg.MEM_SCRUB 21 0 + 1
         ∧ mapDev.tir.scrubAt ≤ mapDev.now
         ∧ mapDev.t1Bad (0 * 65536) 65536 = false ∧ mapDev.t1Bad (15 * 65536) 65536 = false) := by
  simp only [HostOpen]
  and_intros <;> decide +kernel

/-! ### Witnesses: the host and the surroundings -/

/-- A slot's window. -/
def viaSlot : Via := { slot := some 0, ide := false }

theorem wit_HostAccesses :
    ((Instr.registerRcRead bar0 Reg.PWR_CAP).wf = true ∧ dev.failedRead bar0 Reg.PWR_CAP = false
       ∧ HostOpen dev (.registerRcRead bar0 Reg.PWR_CAP) bar0 (secBlock bar0 Reg.PWR_CAP) false
       ∧ ((dev.regOf bar0 Reg.PWR_CAP).any (fun y => decide (y.2.1.base ≠ Reg.HMB_OUT 0 0))) = true
       ∧ (dev.regOf bar0 (Reg.SYN_CTL 3)).any (fun y => decide (y.2.1.base = Reg.SYN_CTL 0)) = true
       ∧ dev.regOf bar0 (Reg.PWR_CAP + 4) = none ∧ dev.failedRead bar0 (Reg.PWR_CAP + 4) = false
       ∧ HostOpen dev (.registerRcRead bar0 (Reg.PWR_CAP + 4)) bar0 (secBlock bar0 (Reg.PWR_CAP + 4)) false)
    ∧ (dev.setReg Reg.SEC_BOOT 8).failedRead bar0 Reg.PWR_CAP = true
    ∧ ((Instr.registerWrite bar0 Reg.PWR_CAP 900).wf = true
       ∧ HostOpen dev (.registerWrite bar0 Reg.PWR_CAP 900) bar0 (secBlock bar0 Reg.PWR_CAP) (dev.postsObject bar0 Reg.PWR_CAP)
       ∧ Reg.PWR_CAP ≠ Reg.SEC_RESET
       ∧ ((dev.regOf bar0 Reg.PWR_CAP).any (fun y => decide (y.2.1.base ∉ [Reg.SEC_CMD, Reg.SEC_RESET, Reg.SEC_JRESET,
           Reg.SEC_MEXT, Reg.SYN_POST, Reg.SYN_RESET, Reg.SYN_RANGE 0, Reg.WINDOW 0, Reg.CAD_CFG 0, Reg.CAD_QUOTA 0]))) = true
       ∧ bar0.slot = none)
    ∧ (63 : Nat) < 64 ∧ (0 : Nat) ≤ 63
    ∧ (let d := (dev.setReg (Reg.HST_APER 0) 0xFFFF00000003)
       let r : Bar4 := { slot := 0, off := 0, write := none, len := 16, ide := false }
       let w : Bar4 := { r with write := some [1, 2] }
       (Instr.bar4Access r).wf = true ∧ (Instr.bar4Access w).wf = true
         ∧ HostOpen d (.bar4Access r) { slot := some r.slot, ide := r.ide } false false
         ∧ HostOpen d (.bar4Access w) { slot := some w.slot, ide := w.ide } false false
         ∧ HostOpen dev (.bar4Access r) { slot := some r.slot, ide := r.ide } false false
         ∧ d.rb (Reg.HST_APER 0) 0 = true ∧ d.rb (Reg.HST_APER 0) 1 = true ∧ dev.rb (Reg.HST_APER 0) 0 = false
         ∧ d.rf (Reg.HST_APER 0) 47 16 * 65536 + 0 + 16 ≤ 2 ^ 48
         ∧ (∃ e bs, d.rd (unitWho 0 56) (d.rf (Reg.HST_APER 0) 47 16 * 65536 + 0) 16 = .ok e bs ∧ bs.length = 16)
         ∧ (∃ e bs, d.wr (unitWho 0 56) (d.rf (Reg.HST_APER 0) 47 16 * 65536 + 0) [1, 2] = .ok e bs ∧ bs = []))
    ∧ (dev.hostRejects viaSlot 5 = none ∧ ((dev.setReg (Reg.SYN_RANGE 0) 0).hostRejects viaSlot 5).isSome = true
       ∧ (Instr.synPost viaSlot 5).wf = true ∧ HostOpen dev (.synPost viaSlot 5) viaSlot false true
       ∧ (Instr.synReset viaSlot 5).wf = true ∧ HostOpen dev (.synReset viaSlot 5) viaSlot false false
       ∧ (dev.post 5 (fld (0x100000005 : Word) 63 32) false).2 = true)
    ∧ ((Instr.synRangeWrite 0 0x10000).wf = true ∧ HostOpen dev (.synRangeWrite 0 0x10000) bar0 false false
       ∧ (0x10000 : Word) ≠ dev.reg (Reg.SYN_RANGE 0) ∧ dev.hasJob 0 = true
       ∧ (let d := dev.setReg (Reg.JOB_ADMIT 0) 0
          let e := d.setReg (Reg.SYN_RANGE 0) 0x10000
          d.hasJob 0 = false ∧ takesFromJob d e = false ∧ d.standing = [] ∧ e.overlapping = false))
    ∧ (let d := (dev.setReg (Reg.HMB_CFG 0) 0xFFFF00000001).setReg (Reg.HMB_OBJ 0) 0x300020001
       (Instr.hmbSend viaSlot 0 8).wf = true ∧ HostOpen d (.hmbSend viaSlot 0 8) viaSlot false true
         ∧ HostOpen d (.hmbSend viaSlot 0 2048) viaSlot false true ∧ (8 : Nat) % 8 = 0 ∧ 2040 < (2048 : Nat)
         ∧ viaSees viaSlot 0 = true ∧ d.rb (Reg.HMB_CFG 0) 0 = true ∧ d.owner (d.rf (Reg.HMB_OBJ 0) 15 0) = some 0
         ∧ d.synCount (d.rf (Reg.HMB_OBJ 0) 15 0) = 0
         ∧ (∃ e bs, d.wr (unitWho 0 56) (d.rf (Reg.HMB_CFG 0) 47 12 * 4096)
             (leBytes 8 8 ++ (List.range (8 / 8)).flatMap (fun i => leBytes 8 (d.reg (Reg.HMB_DATA 0 i)).toNat)) = .ok e bs
             ∧ bs = [])
         ∧ (Instr.hmbAck viaSlot 0).wf = true ∧ HostOpen d (.hmbAck viaSlot 0) viaSlot false false
         ∧ d.owner (d.rf (Reg.HMB_OBJ 0) 31 16) = some 0 ∧ d.owner (d.rf (Reg.HMB_OBJ 0) 47 32) = some 0) := by
  simp only [HostOpen]
  and_intros <;> first | decide +kernel | exact ok_of (by decide +kernel)

/-- The bounds of R749 and R753: −70.0 V and 80.0 V, 42 A, 1 ms and 100 µs. -/
theorem wit_EdgeEvents :
    ((-701 : Int) < -700 ∧ (800 : Int) < 801 ∧ (Instr.inputVoltageChange (-700) 0).wf = true
       ∧ inputEnds 540 1000 = false ∧ inputEnds 740 100 = false ∧ inputEnds (-5) 0 = false ∧ inputEnds 539 1000 = true
       ∧ inputEnds 741 100 = true ∧ dev.hst.stayOff = false ∧ dev.sec.inputGood = true)
    ∧ ((Instr.inputOvercurrentTrip 42001 100).wf = true ∧ dev.hst.stageOn = true ∧ 42000 < (42001 : Nat) ∧ 60000 < (60001 : Nat))
    ∧ (let d : Dev := { dev with hst := { dev.hst with stageOn := false } }
       d.hst.stageOn = false ∧ d.hst.stayOff = false)
    ∧ (Instr.inputContactOpen true 0xFF).wf = true
    ∧ (dev.sec.perst = false ∧ (Instr.pcieLinkTrainingDone 7 16).wf = true ∧ dev.rf Reg.SEC_BOOT 3 0 ≠ 1
       ∧ (16 : Nat) ∈ [1, 2, 4, 8, 16] ∧ dev.rb Reg.PWR_STATUS 31 = false ∧ Dev.reset.sec.perst = true ∧ dev.bootOver = true)
    ∧ ((Instr.ideIntegrityFailure 2 0).wf = true ∧ barSlot 2 0 < 16 ∧ (dev.satRf Reg.HST_IDE 31 0 1).hasJob (barSlot 2 0) = true
       ∧ ¬ ((dev.setReg (Reg.JOB_ADMIT 0) 0).satRf Reg.HST_IDE 31 0 1).hasJob (barSlot 2 0) = true)
    ∧ ((Instr.t3RequestFailure 4).wf = true
       ∧ [read1 true].find? (fun y => y.host && decide (y.k = 4)) = some (read1 true)
       ∧ ∃ m i, ({ read1 true with use := .mover 0 0 } : LineRead).use = .mover m i) := by
  and_intros <;> first | decide +kernel | exact ⟨0, 0, rfl⟩

/-! ### Witnesses: power, heat, pace -/

/-- A reading in which the module and each share draw this much, by measurement and by estimate. -/
def reading (m e share : Nat) : PowerReading :=
  { moduleMeas := m, moduleEst := e, meas := List.replicate 5 share, est := List.replicate 5 share, leak := List.replicate 5 0 }

/-- A device with Lehr's state changed. -/
def lehr (f : Pwr → Pwr) : Dev := dev.modPwr f

/-- Forty sensors that read the same, in 0.1 °C. -/
def temps (t : Int) : List Int := List.replicate 40 t

/-- The bounds of R702, R704, R707 and R708: a gap of 15 and of 5 percent, 40.0 V and 85.0 V, 100 and 115 °C. -/
theorem wit_PowerAndThermal :
    ((Instr.powerWindowEnd (reading 900 900 100)).wf = true
       ∧ (let d := (dev.modPwr (fun x => x.window (reading 900 900 100))).showWindow (reading 900 900 100)
          d.rb Reg.PWR_STATUS 26 = false ∧ d.overLimit 3 = false)
       ∧ (let d := (dev.modPwr (fun x => x.window (reading 2001 900 100))).showWindow (reading 2001 900 100)
          d.rb Reg.PWR_STATUS 26 = false ∧ d.overLimit 0 = true))
    ∧ (let d := lehr (fun x => { x with divRun := 7 })
       d.pwr.senseBad = false ∧ 15 * 1000 < 100 * (max 1000 1151 - min 1000 1151) ∧ d.pwr.divRun = 7
         ∧ d.rb Reg.PWR_STATUS 24 = false)
    ∧ (let d := (lehr (fun x => { x with quiet := 63 })).setRb Reg.PWR_STATUS 24 true
       d.pwr.senseBad = false ∧ 100 * (max 1000 1050 - min 1000 1050) ≤ 5 * 1000 ∧ d.rb Reg.PWR_STATUS 24 = true
         ∧ 63 ≤ d.pwr.quiet)
    ∧ ((Instr.estimatorUpdate (reading 900 1601 100)).wf = true ∧ dev.capW < (reading 900 1601 100).moduleEst
         ∧ dev.shareLimit 3 < (reading 900 900 321).est.getD 3 0
         ∧ (reading 900 900 100).est.getD 3 0 ≤ dev.shareLimit 3 ∧ (reading 900 900 100).moduleEst ≤ dev.capW
         ∧ dev.pwr.goals.getD 3 64 ≤ 64)
    ∧ (let d := dev.setReg Reg.PWR_GATE 0x20202020
       (32 : Nat) ≤ d.gateNow 0 ∧ d.gateNow 0 < 64 ∧ d.hintLift 0 ≤ d.gateNow 0 ∧ d.gateNow 0 ≠ 0
         ∧ d.now < d.pwr.rampAt + d.aclk 256)
    ∧ (let r : SenseReading := { decivolts := 399, deciamps := 0, shareOk := List.replicate 5 true }
       (Instr.senseSample r).wf = true ∧ senseOk r = false ∧ senseOk { r with decivolts := 851 } = false
         ∧ dev.pwr.senseBad = false
         ∧ (lehr (fun x => { x with senseBad := true, senseQuiet := 639 })).pwr.senseBad = true
         ∧ 639 ≤ (lehr (fun x => { x with senseBad := true, senseQuiet := 639 })).pwr.senseQuiet)
    ∧ ((Instr.thermalSample (temps 999)).wf = true ∧ hottest (junctions (temps 999)) = some (0, 999)
         ∧ (Instr.thermalSample (temps 1000)).wf = true ∧ hottest (junctions (temps 1000)) = some (0, 1000)
         ∧ hottest (junctions (temps 1149)) = some (0, 1149) ∧ hottest (junctions (temps 1150)) = some (0, 1150)
         ∧ (lehr (fun x => { x with hotRecorded := true })).pwr.hotRecorded = true ∧ dev.pwr.hotRecorded = false
         ∧ dev.rb Reg.PWR_STATUS 31 = false) := by
  and_intros <;> decide +kernel

/-- The current's range is not stated (log 65): where it is met, 40.0 V and 85.0 V are in range. -/
theorem wit_PowerAndThermal_sense (h : Config.senseCurrentOk 0 = true) :
    senseOk { decivolts := 400, deciamps := 0, shareOk := [] } = true
      ∧ senseOk { decivolts := 850, deciamps := 0, shareOk := [] } = true := by
  simp [senseOk, h]

/-- The device in a place of the pace tree, with two children where it leads and this time since the boundary. -/
def paceDev (role t : Nat) (f : Pwr → Pwr) : Dev :=
  { (dev.modPwr f).setReg Reg.PWR_PACE (BitVec.ofNat 64 (role + 2 * 2 ^ 6)) with now := t }

theorem wit_PaceEpochs :
    (let d := paceDev 1 250000 id
     250000 ≤ d.epochTime ∧ d.pwr.own = none ∧ d.paceBound = true ∧ (paceDev 0 250000 id).paceBound = false)
    ∧ (let d := paceDev 1 0 (fun x => { x with own := some 40, ups := [(0, (50, false)), (1, (41, true))] })
       d.pwr.own = some 40 ∧ d.pwr.upDone = false
         ∧ (List.range d.paceKids).all (fun j => (tfind d.pwr.ups j).isSome) = true ∧ d.paceRole = 1 ∧ 1 < d.paceKids
         ∧ tfind d.pwr.ups 1 = some (41, true))
    ∧ (let d := paceDev 2 480000 (fun x => { x with own := some 40 })
       (if d.paceRole = 2 then 480000 else 400000) ≤ d.epochTime ∧ d.pwr.own = some 40 ∧ d.pwr.upDone = false
         ∧ d.paceRole = 2 ∧ (d.subtree 40).2 = true ∧ d.paceBound = true)
    ∧ (let d := paceDev 2 0 (fun x => { x with own := some 40, ups := [(0, (50, false)), (1, (41, false))] })
       (List.range d.paceKids).all (fun j => (tfind d.pwr.ups j).isSome) = true ∧ d.pwr.upDone = false ∧ d.paceRole = 2
         ∧ (d.subtree 40).2 = false ∧ d.paceBound = true)
    ∧ (let d := paceDev 2 500000 (fun x => { x with own := some 40, upDone := true })
       d.pwr.own = some 40 ∧ d.paceRole = 2 ∧ d.pwr.upDone = true ∧ d.pwr.downDone = false ∧ 500000 ≤ d.epochTime)
    ∧ (let d := paceDev 1 950000 id
       d.paceRole = 1 ∧ d.anyJob = true ∧ d.pwr.downDone = false ∧ 950000 ≤ d.epochTime)
    ∧ (paceDev 1 1000000 id).pwr.boundary ≤ (paceDev 1 1000000 id).now
    ∧ dev.now < dev.pwr.hours168 + 168 * 3600 * 10 ^ 9
    ∧ (let d := { lehr (fun x => { x with minSlack := 3 }) with now := 168 * 3600 * 10 ^ 9 }
       d.pwr.hours168 + 168 * 3600 * 10 ^ 9 ≤ d.now ∧ dev.inf Reg.PWR_AGE 23 16 ≤ (lehr (fun x => { x with minSlack := 255 })).pwr.minSlack
         ∧ d.pwr.minSlack < ({ d with force := [(Reg.PWR_AGE, 0x40000)] } : Dev).inf Reg.PWR_AGE 23 16
         ∧ NonVol.reset.jOffset < 60 ∧ 60 ≤ { NonVol.reset with jOffset := 60 }.jOffset) := by
  and_intros <;> decide +kernel

/-! ### Witnesses: resets, start-up, the root core -/

theorem wit_Resets :
    (Dev.reset.sec.inputGood = false ∧ Dev.reset.hst.stageOn = true ∧ Dev.reset.hst.stayOff = false)
    ∧ (dev.sec.perst = false ∧ dev.sec.inputGood = true ∧ dev.resetRefused = false ∧ dev.bootOver = true ∧ dev.hst.d3hot = false)
    ∧ (let d := (dev.setRb Reg.PWR_STATUS 31 true).setRf Reg.PWR_THERM 15 0 950
       d.bootOver = true ∧ d.resetRefused = true)
    ∧ (Reg.HMB_OUT 0 0 ∉ [Reg.MODULE_ID, Reg.MEM_FRAMES, Reg.MEM_STATUS, Reg.FAB_NODE, Reg.FAB_TOPO, Reg.HST_INPUT,
         Reg.HST_STATUS, Reg.SEC_LC, Reg.SEC_BOOT] ∧ Reg.HMB_OUT 0 0 ∉ (List.range 33).map Reg.PWR_VF) := by
  and_intros <;> decide +kernel

/-- A device in this power-up step. -/
def bootDev (k : Nat) (train : Bool) : Dev :=
  ({ Dev.reset with sec := { Sec.reset with running := true, inputGood := true, train := train } } : Dev).setReg Reg.SEC_BOOT
    (BitVec.ofNat 64 k)

/-- The end of a step with everything trained and readable. -/
def bootOk : BootResult := { ms := 5, trained := BitVec.allOnes 32, badRows := [], nonce := 1, readable := true }

/-- SHAKE256 of no bytes, 512 bits, as FIPS 202 has it. -/
def shakeEmpty : List Byte :=
  [0x46, 0xb9, 0xdd, 0x2b, 0x0b, 0xa8, 0x8d, 0x13, 0x23, 0x3b, 0x3f, 0xeb, 0x74, 0x3e, 0xeb, 0x24,
   0x3f, 0xcd, 0x52, 0xea, 0x62, 0xb8, 0x1b, 0x82, 0xb5, 0x0c, 0x27, 0x64, 0x6e, 0xd5, 0x76, 0x2f,
   0xd7, 0x5d, 0xc4, 0xdd, 0xd8, 0xc0, 0xf2, 0x00, 0xcb, 0x05, 0x01, 0x9d, 0x67, 0xb5, 0x92, 0xf6,
   0xfc, 0x82, 0x1c, 0x49, 0x47, 0x9a, 0xb4, 0x86, 0x40, 0x29, 0x2e, 0xac, 0xb3, 0xb7, 0xc4, 0xbe]

/-- Flash whose slot A holds an image of no bytes that is meant for FIELD, under key slot 0. -/
def imgNv : NonVol :=
  { NonVol.reset with
    keyHash := [shake256 32 (List.replicate 1793 0)],
    imageA := [(0, 1), (2, 4)] ++ shakeEmpty.zipIdx.map (fun x => (16 + x.2, x.1)) }

theorem wit_StartUpSteps :
    (∀ k, k < 7 → 0 < k → (bootDev k true).sec.running = true ∧ (bootDev k true).rf Reg.SEC_BOOT 3 0 = k)
    ∧ ((bootDev 5 true).pwr.ageDue = false ∧ ((bootDev 1 true).startReset NonVol.reset .cold).pwr.ageDue = true)
    ∧ ({ bootOk with readable := false }.readable = false ∧ bootOk.readable = true
         ∧ lcOf { NonVol.reset with rows := 16 }.rows = 4 ∧ lcOf NonVol.reset.rows ≠ 4 ∧ NonVol.reset.bootSlot = none)
    ∧ ((bootDev 3 false).sec.train = false ∧ bootOk.trained = BitVec.allOnes 32 ∧ (bootDev 3 true).sec.train = true
         ∧ { bootOk with trained := 0x7FFFFFFF }.trained ≠ BitVec.allOnes 32)
    ∧ ((4 : Nat) < 16 ∧ (15 : Nat) < 16 ∧ (7 : Nat) < 8)
    ∧ ((Instr.secMextGo 8).wf = true ∧ (Instr.secMextGo 15).wf = true ∧ HostOpen dev (.secMextGo 8) bar0 true false
         ∧ HostOpen dev (.secMextGo 15) bar0 true false) := by
  simp only [HostOpen]
  and_intros <;> decide +kernel

/-- The checks of R737, one by one. -/
theorem verifies_of {nv : NonVol} (h0 : nv.field 0 0 1 = 1) (h1 : nv.field 0 1 1 = 0) (hk : nv.keyUsable 0 = true)
    (hm : (nv.field 0 2 1).testBit (lcOf nv.rows) = true) (hs : nv.minSvn ≤ nv.field 0 8 4)
    (hh : shake256 32 (nv.bytes 0 80 1793) = nv.keyHash.getD 0 [])
    (hd : shake256 64 (nv.bytes 0 4096 (nv.field 0 12 4)) = nv.bytes 0 16 64)
    (h : Config.falconVerify (nv.bytes 0 80 1793) (nv.bytes 0 0 1920) (nv.bytes 0 1920 1280) = true) :
    nv.verifies 0 = true := by
  simp only [NonVol.verifies, h0, h1, hk, hm, hs, hh, hd, h, decide_true, Bool.and_self]

theorem bootSlot_of {nv : NonVol} (hp : nv.preferred % 2 = 0) (hv : nv.verifies 0 = true) : nv.bootSlot = some 0 := by
  simp only [NonVol.bootSlot, hp, hv, if_true]

/-- Past the last byte stored, flash reads 0. -/
theorem rdBytes_past (m : List Host.Cell) {e : Nat} (h : ∀ x ∈ m, x.1 < e) :
    ∀ (n a : Nat), e ≤ a → rdBytes m a n = List.replicate n 0
  | 0, _, _ => rfl
  | n + 1, a, ha => by
    have hr : rdByte m a = 0 := by
      have hf : tfind m a = none := by
        clear n
        induction m with
        | nil => rfl
        | cons x m ih =>
          have hx := h x List.mem_cons_self
          simp only [tfind]
          rw [if_neg (by omega)]
          exact ih (fun y hy => h y (List.mem_cons_of_mem _ hy))
      simp [rdByte, tget, hf, unlistedByte]
    rw [rdBytes, hr, rdBytes_past m h n (a + 1) (by omega), List.replicate_succ]

/-- A slot verifies, and boots, where its signature does (the scheme is Falcon's, log 32). -/
theorem wit_StartUpSteps_slot
    (h : Config.falconVerify (imgNv.bytes 0 80 1793) (imgNv.bytes 0 0 1920) (imgNv.bytes 0 1920 1280) = true) :
    imgNv.verifies 0 = true ∧ imgNv.bootSlot = some 0 ∧ lcOf imgNv.rows ≠ 4 := by
  have hz : imgNv.bytes 0 80 1793 = List.replicate 1793 0 :=
    rdBytes_past imgNv.imageA (e := 80) (by decide +kernel) _ 80 (by decide)
  have hk : imgNv.keyHash.getD 0 [] = shake256 32 (List.replicate 1793 0) := by simp only [imgNv, List.getD_cons_zero]
  have hv := verifies_of (nv := imgNv) (by decide +kernel) (by decide +kernel) (by decide +kernel) (by decide +kernel)
    (by decide +kernel) ((congrArg (shake256 32) hz).trans hk.symm) (by decide +kernel) h
  exact ⟨hv, bootSlot_of (by decide +kernel) hv, by decide +kernel⟩

/-- A device without a job, with the first bytes of the mailbox as given. -/
def boxDev (box : Nat) : Dev :=
  { dev with regs := [(Reg.SEC_BOOT, 7), (Reg.SEC_MBOX 0, BitVec.ofNat 64 box)] }

/-- As `boxDev`, with the UDS not yet fused or fused: rows burnt. -/
def fused (rows : Nat) : NonVol := { NonVol.reset with rows := rows }

theorem wit_RootCommands :
    (HostOpen (boxDev 0) .secCmdTransition bar0 true false ∧ HostOpen dev .secCmdTransition bar0 true false
       ∧ dev.jobAdmitted = true ∧ (boxDev 0).jobAdmitted = false ∧ (boxDev 0x40301).tokenError (fused 2) ≠ 0
       ∧ leNat ((boxDev 0x301).mbox 0 1) = 1 ∧ transitionAllowed (lcOf 2) (leNat ((boxDev 0x301).mbox 1 1)) = true
       ∧ (fused 2).rows < 15 ∧ transitionAllowed (lcOf 13) (leNat ((boxDev 0x201).mbox 1 1)) = true)
    ∧ (HostOpen (boxDev 0) .secCmdRetire bar0 true false ∧ lcOf (fused 2).rows ≠ 0 ∧ lcOf (fused 2).rows ≠ 4
       ∧ lcOf (fused 0).rows = 0 ∧ lcOf (fused 16).rows = 4)
    ∧ (HostOpen (boxDev 0x102) .secCmdDebugUnlock bar0 true false ∧ leNat ((boxDev 0x102).mbox 0 1) = 2
       ∧ lcOf (fused 3).rows = 3 ∧ leNat ((boxDev 0x102).mbox 1 1) = 1 ∧ leNat ((boxDev 0x202).mbox 1 1) = 2)
    ∧ HostOpen dev .secCmdDebugLock bar0 true false
    ∧ (HostOpen (boxDev (2 ^ 25 + 2048)) .secCmdWriteImageChunk bar0 true false
       ∧ leNat ((boxDev (2 ^ 25 + 2048)).mbox 0 8) + 2048 ≤ 4096 + 2 ^ 25
       ∧ 4096 + 2 ^ 25 < leNat ((boxDev (2 ^ 25 + 2049)).mbox 0 8) + 2048 ∧ dev.sec.fwSlot = 0
       ∧ ({ dev with sec := { dev.sec with fwSlot := 1 } } : Dev).sec.fwSlot ≠ 0)
    ∧ (HostOpen (boxDev 1) .secCmdSelectSlot bar0 true false ∧ leNat ((boxDev 1).mbox 0 1) < 2
       ∧ NonVol.reset.verifies 1 = false ∧ 2 ≤ leNat ((boxDev 2).mbox 0 1))
    ∧ (HostOpen dev .secCmdCommitSvn bar0 true false ∧ dev.rf Reg.SEC_BOOT 3 0 = 7)
    ∧ (HostOpen (boxDev 255) .secCmdSaveSettings bar0 true false ∧ HostOpen dev .secCmdSaveSettings bar0 true false
       ∧ leNat ((boxDev 255).mbox 0 2) ≤ 255)
    ∧ (0 : Nat) < 1 ∧ (15 : Nat) < 16 := by
  simp only [HostOpen]
  and_intros <;> decide +kernel

/-- A token is accepted where its signature is right: every other part of it is checked here. -/
theorem wit_RootCommands_token (box : Nat) (hb : box = 0x301 ∨ box = 0x102)
    (h : Config.falconVerify (Config.crebenKey 0) ((boxDev box).mbox 0 64) ((boxDev box).mbox 64 1280) = true) :
    (boxDev box).tokenError NonVol.reset = 0 := by
  have h1 : leNat ((boxDev box).mbox 2 1) = 0 ∧ NonVol.reset.keyUsable 0 = true
      ∧ (boxDev box).mbox 16 16 = (List.range 2).flatMap (fun i => leBytes 8 ((boxDev box).reg (Reg.SEC_DEVID i)).toNat)
      ∧ (boxDev box).mbox 32 32 = (List.range 4).flatMap (fun i => leBytes 8 ((boxDev box).reg (Reg.SEC_NONCE i)).toNat) := by
    rcases hb with rfl | rfl <;> decide +kernel
  obtain ⟨a, b, c, e⟩ := h1
  simp [Dev.tokenError, a, b, c, e, h]

theorem wit_JobReset :
    ((Instr.secJresetGo 15).wf = true ∧ HostOpen dev (.secJresetGo 15) bar0 true false ∧ dev.rf Reg.SEC_BOOT 3 0 = 7
       ∧ dev.rb Reg.SEC_JRESET 5 = false ∧ (dev.setRb Reg.SEC_JRESET 5 true).rb Reg.SEC_JRESET 5 = true
       ∧ HostOpen (dev.setRb Reg.SEC_JRESET 5 true) (.secJresetGo 0) bar0 true false
       ∧ (let d := dev.setReg Reg.SEC_BOOT 8
          HostOpen d (.secJresetGo 0) bar0 true false ∧ d.rf Reg.SEC_BOOT 3 0 ≠ 7))
    ∧ ({ dev with sec := { dev.sec with jreset := some 15 } } : Dev).sec.jreset = some 15 := by
  simp only [HostOpen]
  and_intros <;> decide +kernel

/-- A device 20 ms after input good, as it serves management. -/
def manDev : Dev := { dev with now := 20000000 }

theorem wit_Management :
    (manDev.awake = true ∧ manDev.serves = true ∧ (manDev.setReg Reg.SEC_BOOT 6).awake = true
       ∧ (manDev.setReg Reg.SEC_BOOT 6).serves = false
       ∧ (Instr.getTid, Resp.mctp 1 (Config.mctpBody 1 0)) ∈ pldmRows ∧ (Instr.pldmSensorRead 16).wf = true
       ∧ (Instr.powerCapEffecterWrite 0).wf = true ∧ (Instr.mctpControlRequest 0).wf = true
       ∧ (Instr.dynamicAddressAssignment 0).wf = true)
    ∧ (Instr.fruRead 0 4).wf = true ∧ Dev.reset.awake = false := by
  refine ⟨⟨?_, ?_, ?_, ?_, List.mem_cons_self, ?_⟩, ?_⟩ <;> decide +kernel

/-- A device in FIELD past fabric-ready. -/
def attDev : Dev := ((manDev.setReg Reg.SEC_LC 2).setRb Reg.FAB_STATUS 0 true)

theorem wit_Attestation :
    (∀ r ∈ spdmRows, (r.1 []).wf = true)
    ∧ attDev.sec.inputGood = true ∧ attDev.rb Reg.FAB_STATUS 0 = true ∧ attDev.serves = true ∧ attDev.attests = true
    ∧ (attDev.setReg Reg.SEC_LC 0).attests = false ∧ (attDev.setReg Reg.SEC_BOOT 6).serves = false
    ∧ (attDev.setReg Reg.SEC_BOOT 6).rf Reg.SEC_BOOT 3 0 ≠ 8 ∧ (attDev.setReg Reg.SEC_BOOT 6).rb Reg.FAB_STATUS 0 = true
    ∧ manDev.rb Reg.FAB_STATUS 0 = false ∧ (Instr.getMeasurements [0x12, 0xE0, 1, 16]).wf = true
    ∧ (Instr.vendorDefinedRequest []).wf = true := by
  refine ⟨?_, ?_⟩
  · intro r hr
    simp only [spdmRows, List.mem_cons, List.not_mem_nil, or_false] at hr
    rcases hr with rfl | rfl | rfl | rfl | rfl | rfl | rfl | rfl | rfl | rfl | rfl | rfl <;> rfl
  · and_intros <;> decide +kernel

theorem wit_CoresStartClear :
    (let d := { dev.setEngine 31 { Eng.reset with moving := some (15, 7) } with now := 7 }
     (d.engine 31).moving = some (15, 7) ∧ 7 ≤ d.now)
    ∧ (let d : Dev := { dev with force := [(Reg.SCH_CCORES 3, 0x80)] }
       (d.ccAssign.core (32 + 7)).slot ≠ (d.core (32 + 7)).slot) := by
  and_intros <;> decide +kernel

/-! ### The worked examples of the spec

Each expected value stands in the worked example, or follows from the rule's numbers by hand. -/

/-- File 05, Rounding: FP32 0x3E99999A to E4M3. -/
theorem test_e4m3_worked_example :
    ([Rnd.rne, .rtz, .sr 0x7000, .sr 0x1000].map (fun r => (convertElem 0x3 [] r (val32 0x3E99999A)).1))
      = [0x2A, 0x29, 0x2A, 0x29] := by decide +kernel

/-- File 05, AX96 and A32: the three K blocks of E5M2 products. -/
def kBlocks (t : Tile) : Tile :=
  let p := fun a b => vmulExact (decodeElem 0x4 [] a) (decodeElem 0x4 [] b)
  [[p 0x64 0x64, p 0x28 0x28], [p 0x28 0x28], [p 0xE4 0x64]].foldl (fun a ps => a.promote 0 0 (partialOf ps)) t

theorem test_ax96_worked_example :
    ((kBlocks (Tile.new .ax96 16 (some 33))).drained 0x0 .rne 0 0).1 = 0x3A800000 := by decide +kernel

theorem test_a32_worked_example : ((kBlocks (Tile.new .a32 16 none)).drained 0x0 .rne 0 0).1 = 0 := by decide +kernel

/-- File 03: cap = 49,152 × 1.25 / 3,072 = 20, and the first half's limit is 10. -/
theorem test_capacity_worked_example :
    (let x : Rtd := { rtdOf [] with k := 6, ecount := 3072, capf := 0x3FA00000 }
     capOf x 8192 = 20 ∧ limOf 20 false [] 1207 = 10 ∧ limOf 20 true [(1207, 10)] 1207 = 10) := by decide +kernel

/-- File 07: the records of a gathered down projection, and the blocks of its passes. -/
theorem test_gathered_worked_example :
    pairRecord 0x7 2 = 1664 ∧ denseRecord 0x7 2 = 2176 ∧ passBlocks 0x3 0x7 .a16 true = 16
      ∧ passBlocks 0x3 0x7 .a16 false = 8 := by decide +kernel

/-- File 09: cadence 0 of slot 0 with P = 2,000 µs, f = 1/4, Q = 1,024; its tick object is 1, its done object 2. -/
def cadDev (t : Nat) (x : Cadence) : Dev :=
  let d := ((dev.setReg (Reg.CAD_OWN 0) 0x10).setReg (Reg.CAD_CFG 0) (BitVec.ofNat 64 (2000 + 2 ^ 20 + 2 ^ 22 + 2 ^ 32 + 2 * 2 ^ 48))).setReg
    (Reg.CAD_QUOTA 0) 1024
  { d.setCadence 0 x with now := t }

/-- A period that starts at t with a debt. -/
def cadAt (t debt : Nat) : Cadence := { Cadence.reset with on := true, s := t, debt := debt, number := 1 }

theorem test_cadence_worked_example :
    ([(2900000, 900000), (4400000, 400000), (6000000, 0)].map (fun x =>
      let d := (cadDev x.1 (cadAt x.1 x.2)).periodStart 0
      ((d.cadence 0).len, d.synCount 1))) = [(1500000, 768), (1600000, 819), (2000000, 1024)] := by decide +kernel

/-- Period 0 of file 09 ends 900 µs late: the next starts at 2,900 µs with a debt of 900 µs. -/
theorem test_cadence_late_worked_example :
    (let d := (({ (cadDev 0 (cadAt 0 0)).periodStart 0 with now := 2900000 } : Dev).post 2 1 false).1
     (d.cadence 0).s = 2900000 ∧ (d.cadence 0).debt = 900000 ∧ d.rf (Reg.CAD_OVERRUNS 0) 31 0 = 1
       ∧ (d.periodStart 0).rf (Reg.CAD_MAXDEBT 0) 31 0 = 900000 ∧ (d.periodStart 0).reg (Reg.CAD_STATE 0) = 0x2000DBBA0) := by decide +kernel

/-- File 11, Table 11-4: the levels of pool 0x0040 at free 25, 17, 9 and 4. -/
theorem test_pool_levels_worked_example : ([25, 17, 9, 4].map (levelOf 16 10 4)) = [0, 0, 2, 3] := by decide +kernel

/-- File 14: A0 at 440 W against 432 W at D = 32, of which 200 W leak; bin 33 is above 419 W, bin 34 below it. -/
theorem test_proposal_worked_example :
    (let d := (State.reset.dev.modPwr (fun x => { x with shares := [[440], [], [], [], []], leak := [200, 0, 0, 0, 0] })).setRf
       Reg.PWR_STATUS 6 0 32
     d.shareLimit 0 = 432 ∧ d.proposal = 34) := by decide +kernel

/-! ### Values known outside the spec: FIPS 202, CRC-32C, CRC-64/XZ, CRC-24 of OpenPGP, of no bytes and of "123456789" -/

theorem test_shake256_empty : shake256 64 [] = shakeEmpty := by decide +kernel

theorem test_crcs :
    (let bs : List Byte := [0x31, 0x32, 0x33, 0x34, 0x35, 0x36, 0x37, 0x38, 0x39]
     crc32c bs = 0xE3069283 ∧ crc64xz bs = 0x995DC9BBDF1939FA ∧ crc24 bs = 0x21CF02) := by decide +kernel

/-! ### Single steps -/

/-- Core 0's g1 and pc after an instruction. -/
def g1After (i : Instr) (d : Dev) : Option (Word × Word) :=
  match exec i (st d) with
  | .next s => some ((s.dev.core 0).getG 1, (s.dev.core 0).pc)
  | _ => none

/-- R82: an addition wraps; the pc moves by a word. -/
theorem test_add_wraps :
    g1After (.add false (word 1 2 3 0)) (devC (coreM [0, 0xFFFFFFFFFFFFFFFF, 3])) = some (2, 0x1004) := by decide +kernel

/-- R84: a division by 0, and the most negative number by −1. -/
theorem test_div_corners :
    g1After (.div false (word 1 2 3 15)) (devC (coreM [0, 7, 0])) = some (0xFFFFFFFFFFFFFFFF, 0x1004)
      ∧ g1After (.div false (word 1 2 3 15)) (devC (coreM [0, 2 ^ 63, 2 ^ 64 - 1])) = some (2 ^ 63, 0x1004) := by
  decide +kernel

/-- R85: LUH of the 11-bit immediate −1. -/
theorem test_luh_sign : g1After (.luh (word 1 0 0 0x7FF)) (devC (coreM [5])) = some (0xFFFFFFFF00000000, 0x1004) := by
  decide +kernel

/-- R732: the state by the rows burnt. -/
theorem test_life_cycle_rows : [0, 1, 2, 3, 4, 15, 16].map lcOf = [0, 1, 2, 3, 2, 3, 4] := by decide

/-- R314 to R316: pane row 3 is skipped and disabled; two bad rows retire the engine. -/
theorem test_repair_rows :
    repairOf 0x008 = ([0, 1, 2, 15, 3, 4, 5, 6, 7], 3, false) ∧ (repairOf 0x081).2.2 = true := by decide +kernel

end Sys2Proof.Tests
end

section
/-! PROOFS. The family of file 02, the foundations of the instruction set: instructions whose one result goes to a general or a
predicate register (R84 to R87), entry to M (R126), and cores and tiles at a reset and at an assignment to a slot (R69). -/

namespace Sys2Proof.Machine

open Sys2Proof.Safety

/-! ### Quotients and remainders (R84) -/

/-- The signed remainder is that of the library, which gives x for y = 0 too. -/
theorem remS_eq_srem (x y : Word) : remS x y = x.srem y := by
  unfold remS
  split
  case isTrue h => rw [h]; exact BitVec.srem_zero.symm
  case isFalse => rw [← BitVec.toInt_srem, BitVec.ofInt_toInt]

/-- Off y = 0, signed quotient, divisor and remainder fit together; modulo 2^64, so −2^63 / −1 is no exception. -/
theorem divS_mul_add_remS (x y : Word) (h : y ≠ 0) : divS x y * y + remS x y = x := by
  rw [divS, remS, if_neg h, if_neg h]
  calc BitVec.ofInt 64 (x.toInt.tdiv y.toInt) * y + BitVec.ofInt 64 (x.toInt.tmod y.toInt)
      = BitVec.ofInt 64 (x.toInt.tdiv y.toInt * y.toInt + x.toInt.tmod y.toInt) := by
        rw [BitVec.ofInt_add, BitVec.ofInt_mul, BitVec.ofInt_toInt]
    _ = x := by rw [Int.tdiv_mul_add_tmod, BitVec.ofInt_toInt]

/-- Off y = 0, the unsigned quotient is the library's. -/
theorem divU_eq_udiv (x y : Word) (h : y ≠ 0) : divU x y = x / y := by
  rw [divU, if_neg h, ← BitVec.toNat_udiv, BitVec.ofNat_toNat, BitVec.setWidth_eq]

/-- The unsigned remainder is the library's, which gives x for y = 0 too. -/
theorem remU_eq_umod (x y : Word) : remU x y = x % y := by
  unfold remU
  split
  case isTrue h => rw [h]; exact BitVec.umod_zero.symm
  case isFalse => rw [← BitVec.toNat_umod, BitVec.ofNat_toNat, BitVec.setWidth_eq]

/-- Off y = 0, unsigned quotient, divisor and remainder fit together. -/
theorem divU_mul_add_remU (x y : Word) (h : y ≠ 0) : divU x y * y + remU x y = x := by
  rw [divU_eq_udiv x y h, remU_eq_umod, BitVec.mul_comm]
  exact BitVec.eq_of_toNat_eq (by simp [Nat.div_add_mod, Nat.mod_eq_of_lt x.isLt])

/-- Off y = 0, the unsigned remainder is less than the divisor. -/
theorem remU_lt (x y : Word) (h : y ≠ 0) : (remU x y).toNat < y.toNat := by
  rw [remU_eq_umod, BitVec.toNat_umod]
  exact Nat.mod_lt _ (Nat.pos_of_ne_zero (fun h0 => h (BitVec.eq_of_toNat_eq h0)))

/-! ### Instructions with one result in a register -/

/-- What a well-formed instruction does is what its body does to the device. -/
theorem does_of_run {c : Instr} {f : Dev → Dev} {s : State} (he : exec c s = run c f s) (hw : c.wf = true) :
    Does c s (f s.dev) := he.trans (run_wf hw)

/-- An instruction that issues and answers a value for g[rd] writes it and retires; nothing else changes. -/
theorem onlyCore_doneRd {d : Dev} {op : Op} {legal : Bool} {w : IW} (h : Issues d op legal w) (g : Core → Word) :
    OnlyCore d (d.instr op legal w (fun d1 x => doneRd d1 w (g x))) w.core
      (((d.core w.core).setG w.rd.toNat (g (d.core w.core))).retire (ilenOf w)) := by
  rw [Dev.instr_issues h]
  exact onlyCore_done_mod d w.core (ilenOf w) (fun x => x.setG w.rd.toNat (g (d.core w.core)))

/-- An instruction that issues and answers a truth value for p[rd[23:21]] writes it and retires; nothing else changes. -/
theorem onlyCore_doneP {d : Dev} {op : Op} {legal : Bool} {w : IW} (h : Issues d op legal w) (g : Core → Bool) :
    OnlyCore d (d.instr op legal w (fun d1 x => doneP d1 w (g x))) w.core
      (((d.core w.core).setP (fld w.rd 2 0) (g (d.core w.core))).retire (ilenOf w)) := by
  rw [Dev.instr_issues h]
  exact onlyCore_done_mod d w.core (ilenOf w) (fun x => x.setP (fld w.rd 2 0) (g (d.core w.core)))

/-- An ALU instruction that issues writes its function of x and y to g[rd] and retires (R83). -/
theorem alu_writes_result {c : Instr} {i : Bool} {w : IW} {f : Word → Word → Word} {s : State}
    (he : exec c s = run c (fun d => d.alu i w f) s) (hw : c.wf = true) (h : Issues s.dev (aluOp i) (aluLegal i w) w) :
    ∃ e, Does c s e ∧ OnlyCore s.dev e w.core
      (((s.dev.core w.core).setG w.rd.toNat (f ((s.dev.core w.core).r1 w) (aluY (s.dev.core w.core) i w))).retire (ilenOf w)) :=
  ⟨s.dev.alu i w f, does_of_run he hw, onlyCore_doneRd h (fun x => f (x.r1 w) (aluY x i w))⟩

/-- A predicate instruction that issues writes its function of two predicates and retires (R87). -/
theorem pred_writes_result {c : Instr} {w : IW} (f : Bool → Bool → Bool) {s : State}
    (he : exec c s = run c (fun d => d.pred w f) s) (hw : c.wf = true) (h : Issues s.dev (cOp 0x06 false) (predLegal w) w) :
    ∃ e, Does c s e ∧ OnlyCore s.dev e w.core
      (((s.dev.core w.core).setP (fld w.rd 2 0)
        (f ((s.dev.core w.core).getP (fld w.rs1 2 0)) ((s.dev.core w.core).getP (fld w.rs2 2 0)))).retire (ilenOf w)) :=
  ⟨s.dev.pred w f, does_of_run he hw, onlyCore_doneP h (fun x => f (x.getP (fld w.rs1 2 0)) (x.getP (fld w.rs2 2 0)))⟩

/-! ### Entry to M (R126) -/

/-- The CSRs after an entry to M: four are written, the others stay. -/
theorem Core.csrOf_enterM (x : Core) (cause k : Nat) (v : Word) :
    (x.enterM cause v).csrOf k =
      if k = 0x804 then v
      else if k = 0x803 then BitVec.ofNat 64 cause
      else if k = 0x802 then x.pc
      else if k = 0x800 then setBit (setBit (setBit (x.csrOf 0x800) 1 (bitAt (x.csrOf 0x800) 0)) 0 true) 3 false
      else x.csrOf k := by
  change ((((x.setCsr 0x800 _).setCsr 0x802 _).setCsr 0x803 _).setCsr 0x804 _).csrOf k = _
  simp only [Core.csrOf_setCsr]

/-- The bits of XSTATUS after an entry to M: priv is set, ppriv holds the old priv, ie is clear, the others stay. -/
theorem Core.bitAt_xstatus_enterM (x : Core) (cause i : Nat) (v : Word) :
    bitAt ((x.enterM cause v).csrOf 0x800) i =
      if i = 3 then false else if i = 0 then true else if i = 1 then bitAt (x.csrOf 0x800) 0 else bitAt (x.csrOf 0x800) i := by
  rw [Core.csrOf_enterM]
  by_cases hi : i < 64
  · simp [bitAt_setBit, hi]
  · rw [bitAt_ge _ i (by omega), if_neg (by omega), if_neg (by omega), if_neg (by omega), bitAt_ge _ i (by omega)]

/-! ### Cores and tiles at a reset and at an assignment (R69) -/

/-- A table that lists nothing reads its defaults. -/
theorem tget_nil {α : Type} (df : Nat → α) (k : Nat) : tget df [] k = df k := rfl

/-- A core whose register files and loop stack stand empty reads 0 where R69 says so. -/
theorem Core.cleared_of_empty {x : Core} (hg : x.g = []) (hp : x.p = 0) (hv : x.v = []) (hl : x.loops = []) : Cleared x := by
  refine ⟨fun i => ?g, fun i hi => ?p, fun i k => ?v, hl⟩
  case g => rw [Core.getG, hg, tget_nil, ite_self]
  case p => rw [Core.getP, if_neg hi, hp]; exact Nat.zero_testBit i
  case v => rw [Core.getV, hv, tget_nil]

/-- A core that has just been assigned to a slot is clear. -/
theorem Core.cleared_assign (x : Core) (s : Nat) : Cleared (x.assign s) := Core.cleared_of_empty rfl rfl rfl rfl

/-- An engine as R69 wants it: its core's registers read 0 and its tile handles are free. -/
def Dev.EngineClear (d : Dev) (e : Nat) : Prop := Cleared (d.core e) ∧ ∀ h, (d.engine e).tile h = none

/-- Whether an engine is clear is said of its own core and its own state. -/
theorem Dev.EngineClear.congr {a b : Dev} {e : Nat} (h : a.EngineClear e) (hc : b.core e = a.core e)
    (he : b.engine e = a.engine e) : b.EngineClear e := by
  unfold Dev.EngineClear
  rw [hc, he]
  exact h

section
/-! A part `π` of the device that a register write leaves: cores, engines, the time. -/

variable {β : Type} {π : Dev → β} (h : ∀ (a : Dev) (o : Nat) (w : Word), π (a.setReg o w) = π a)
include h

/-- Registers set in a row leave what one register write leaves. -/
theorem Dev.foldl_setReg_keeps (f : Nat → Nat) (g : Dev → Nat → Word) (ks : List Nat) (d : Dev) :
    π (ks.foldl (fun a k => a.setReg (f k) (g a k)) d) = π d :=
  List.foldlRecOn (motive := fun a => π a = π d) ks _ rfl (fun b hb k _ => (h b (f k) (g b k)).trans hb)

/-- So do the registers that a reset takes from the board and from flash. -/
theorem Dev.loadRegs_keeps (d : Dev) (nv : NonVol) : π (d.loadRegs nv) = π d := by
  unfold Dev.loadRegs Dev.setRb
  dsimp only
  rw [h, h, h, h, h, Dev.foldl_setReg_keeps h Reg.PWR_VF]

end

/-- A reset leaves every core and every engine in its reset state. -/
theorem Dev.startReset_clear (d : Dev) (nv : NonVol) (k : ResetKind) (e : Nat) : (d.startReset nv k).EngineClear e := by
  have hc : (d.startReset nv k).cores = [] := by
    unfold Dev.startReset
    extract_lets now step e
    rw [Dev.setRf_cores, Dev.showLc, Dev.setReg_cores, Dev.loadRegs_keeps Dev.setReg_cores]
    rfl
  have he : (d.startReset nv k).eng = [] := by
    unfold Dev.startReset
    extract_lets now step e
    rw [Dev.setRf_eng, Dev.showLc, Dev.setReg_eng, Dev.loadRegs_keeps Dev.setReg_eng]
    rfl
  refine ⟨?_, fun j => ?_⟩
  · rw [Dev.core, hc]; exact Core.cleared_of_empty rfl rfl rfl rfl
  · rw [Dev.engine, he]; rfl

/-- Reads that the movers give up touch neither cores nor engines nor the time. -/
theorem Dev.dropRing_frame (d : Dev) (e : Nat) (i : Option Nat) :
    (d.dropRing e i).cores = d.cores ∧ (d.dropRing e i).eng = d.eng ∧ (d.dropRing e i).now = d.now := by
  unfold Dev.dropRing
  exact List.foldlRecOn (motive := fun (a : Dev) => a.cores = d.cores ∧ a.eng = d.eng ∧ a.now = d.now) _ _ ⟨rfl, rfl, rfl⟩
    (fun _ ha _ _ => ha)

/-- An engine as an assignment leaves it: its reset state, but for the time it has served (R69, R447). -/
def Eng.assigned (x : Eng) : Eng := { Eng.reset with served := x.served, servedLast := x.servedLast }

/-- What an assignment does to the cores: core e is assigned. -/
theorem Dev.engAssign_cores (d : Dev) (e s : Nat) : (d.engAssign e s).cores = (d.modCore e (fun x => x.assign s)).cores := by
  simp only [Dev.engAssign, Dev.foldl_setReg_keeps Dev.setReg_cores (fun o => o) (fun _ _ => 0), Dev.setRf_cores,
    Dev.modCore, Dev.setCore, Dev.core, Dev.setEngine_cores, d.dropRing_frame e none]

/-- What an assignment does to the engines: engine e begins anew. -/
theorem Dev.engAssign_eng (d : Dev) (e s : Nat) : (d.engAssign e s).eng = (d.setEngine e (d.engine e).assigned).eng := by
  simp only [Dev.engAssign, Dev.foldl_setReg_keeps Dev.setReg_eng (fun o => o) (fun _ _ => 0), Dev.setRf_eng,
    Dev.modCore_eng, Dev.setEngine, d.dropRing_frame e none, Eng.assigned]

/-- An assignment takes no time. -/
theorem Dev.engAssign_now (d : Dev) (e s : Nat) : (d.engAssign e s).now = d.now := by
  simp only [Dev.engAssign, Dev.foldl_setReg_keeps Dev.setReg_now (fun o => o) (fun _ _ => 0), Dev.setRf_now,
    Dev.modCore_now, Dev.setEngine_now, d.dropRing_frame e none]

/-- A core after an assignment of engine e. -/
theorem Dev.core_engAssign (d : Dev) (e s k : Nat) :
    (d.engAssign e s).core k = if k = e then (d.core e).assign s else d.core k := by
  rw [Dev.core, Dev.engAssign_cores]
  exact Dev.core_modCore d e k _

/-- An engine after an assignment of engine e. -/
theorem Dev.engine_engAssign (d : Dev) (e s k : Nat) :
    (d.engAssign e s).engine k = if k = e then (d.engine e).assigned else d.engine k := by
  rw [Dev.engine, Dev.engAssign_eng]
  exact Dev.engine_setEngine d e k _

/-- A step of a walk over numbers that turns P into Q at one of them, and keeps each of them elsewhere, has reached Q at the end. -/
theorem foldl_reaches {σ : Type} (f : σ → Nat → σ) {P Q : σ → Prop} {e : Nat} (hkeep : ∀ a k, k ≠ e → P a → P (f a k))
    (hturn : ∀ a, P a → Q (f a e)) (hstay : ∀ a k, Q a → Q (f a k)) {ks : List Nat} (hmem : e ∈ ks) {a : σ} (ha : P a) :
    Q (ks.foldl f a) := by
  induction ks generalizing a with
  | nil => cases hmem
  | cons k ks ih =>
    by_cases hk : k = e
    · subst hk
      exact List.foldlRecOn ks f (hturn a ha) (fun b hb j _ => hstay b j hb)
    · exact ih ((List.mem_cons.mp hmem).resolve_left (Ne.symm hk)) (hkeep a k hk ha)

/-- An engine is clear when it has been assigned. -/
theorem Dev.engAssign_clear (d : Dev) (e s : Nat) : (d.engAssign e s).EngineClear e := by
  refine ⟨?_, fun j => ?_⟩
  · rw [Dev.core_engAssign, if_pos rfl]; exact Core.cleared_assign _ s
  · rw [Dev.engine_engAssign, if_pos rfl]; rfl

/-- A clear engine stays clear when one is assigned. -/
theorem Dev.EngineClear.engAssign {d : Dev} {e : Nat} (h : d.EngineClear e) (k s : Nat) : (d.engAssign k s).EngineClear e := by
  by_cases hk : e = k
  · subst hk; exact d.engAssign_clear e s
  · exact h.congr ((Dev.core_engAssign d k s e).trans (if_neg hk)) ((Dev.engine_engAssign d k s e).trans (if_neg hk))

/-- An engine whose move is due is clear once the moves that are due have been made. -/
theorem Dev.engMoves_clear (d : Dev) {e s t : Nat} (he : e < 32) (hm : (d.engine e).moving = some (s, t)) (ht : t ≤ d.now) :
    d.engMoves.EngineClear e := by
  unfold Dev.engMoves
  refine foldl_reaches _ (P := fun (a : Dev) => (a.engine e).moving = some (s, t) ∧ t ≤ a.now)
    (Q := fun (a : Dev) => a.EngineClear e) (fun a k hk ha => ?keep) (fun a ha => ?turn) (fun a k ha => ?stay)
    (List.mem_range.mpr he) ⟨hm, ht⟩
  case keep =>
    split
    · split
      · rwa [Dev.engine_engAssign, if_neg (Ne.symm hk), Dev.engAssign_now]
      · exact ha
    · exact ha
  case turn =>
    obtain ⟨hmov, hdue⟩ := ha
    simp only [hmov, hdue, if_true]
    exact a.engAssign_clear e s
  case stay =>
    split
    · split
      · exact ha.engAssign k _
      · exact ha
    · exact ha

/-- Wherever masks give control cores to slots, a core is as it was or has been assigned. -/
theorem Dev.ccAssign_core (d : Dev) (c : Nat) : d.ccAssign.core c = d.core c ∨ Cleared (d.ccAssign.core c) := by
  unfold Dev.ccAssign
  refine List.foldlRecOn (motive := fun (a : Dev) => a.core c = d.core c ∨ Cleared (a.core c)) _ _ (.inl rfl) (fun a ha i _ => ?_)
  extract_lets n b x
  have hb : b.core c = d.core c ∨ Cleared (b.core c) := by
    unfold b
    split <;> exact ha
  split
  · split
    · rw [Dev.core_modCore]
      split
      · exact .inr (Core.cleared_assign _ _)
      · exact hb
    · exact hb
  · exact hb

end Sys2Proof.Machine

end

section
open Sys2Proof Sys2Proof.Machine Sys2Proof.Safety

/-- Settles O6: the rules of quotients and remainders, and DIV, DIVU, REM and REMU as ALU instructions. -/
theorem divisionRules : Obligations.DivisionRules := by
  refine ⟨fun x => ⟨rfl, rfl, rfl, rfl⟩, by decide, by decide, fun x y => ?_, fun x y hy => ?_, fun x y _ => ?_, ?_⟩
  · exact (Decidable.em (y = 0)).symm.imp_left (divS_mul_add_remS x y)
  · exact ⟨divU_mul_add_remU x y hy, remU_lt x y hy⟩
  · rw [remS_eq_srem, BitVec.toInt_srem]
  · simp only [List.forall_mem_cons]
    refine ⟨?div, ?divu, ?rem, ?remu, fun _ h => absurd h List.not_mem_nil⟩
    case div => exact fun i w s hw h => alu_writes_result rfl hw h
    case divu => exact fun i w s hw h => alu_writes_result rfl hw h
    case rem => exact fun i w s hw h => alu_writes_result rfl hw h
    case remu => exact fun i w s hw h => alu_writes_result rfl hw h

/-- Settles O8: LUH, CMP, CMPI and the predicate instructions each write one result; LUH shifts by 32. -/
theorem comparesAndPredicates : Obligations.ComparesAndPredicates := by
  refine ⟨⟨fun w s hw h => ?luh, fun w s hw h => ?cmp, fun w s hw h => ?cmpi⟩, ?preds⟩
  case luh =>
    have hshift : immValue w * BitVec.ofNat 64 (2 ^ 32) = immValue w <<< 32 :=
      (BitVec.shiftLeft_eq_mul_twoPow (immValue w) 32).symm
    rw [hshift]
    exact ⟨_, does_of_run rfl hw, onlyCore_doneRd h (fun _ => immValue w <<< 32)⟩
  case cmp => exact ⟨_, does_of_run rfl hw, onlyCore_doneP h (fun x => condHolds (fld w.fn 2 0) (x.r1 w) (x.r2 w))⟩
  case cmpi => exact ⟨_, does_of_run rfl hw, onlyCore_doneP h (fun x => condHolds (fld w.rs2 2 0) (x.r1 w) (immValue w))⟩
  case preds =>
    unfold predRows
    simp only [List.forall_mem_cons]
    refine ⟨?pand, ?por, ?pxor, ?pandn, fun _ h => absurd h List.not_mem_nil⟩
    case pand => exact fun w s hw h => pred_writes_result (fun a b => a && b) rfl hw h
    case por => exact fun w s hw h => pred_writes_result (fun a b => a || b) rfl hw h
    case pxor => exact fun w s hw h => pred_writes_result (fun a b => xor a b) rfl hw h
    case pandn => exact fun w s hw h => pred_writes_result (fun a b => a && !b) rfl hw h

/-- Settles O18, by the CSRs and the bits of XSTATUS after an entry; the register files are not touched. -/
theorem entryToM : Obligations.EntryToM := by
  intro x cause v
  refine ⟨?priv, ?ppriv, ?ie, fun i h0 h1 h3 => ?others, ?xepc, ?xcause, ?xtval, rfl, rfl, fun k hst hpc hca htv => ?csrs,
    fun _ => rfl, fun _ => rfl, fun _ _ => rfl, rfl⟩
  case priv => simp [Core.bitAt_xstatus_enterM]
  case ppriv => simp [Core.bitAt_xstatus_enterM]
  case ie => simp [Core.bitAt_xstatus_enterM]
  case others => simp [Core.bitAt_xstatus_enterM, h0, h1, h3]
  case xepc => simp [Core.csrOf_enterM]
  case xcause => simp [Core.csrOf_enterM]
  case xtval => simp [Core.csrOf_enterM]
  case csrs => simp [Core.csrOf_enterM, hst, hpc, hca, htv]

/-- Settles O60, with the reset, the assignment of an engine, the moves that are due, and the masks of the control cores. -/
theorem coresStartClear : Obligations.CoresStartClear := by
  refine ⟨fun d nv k c => d.startReset_clear nv k c, fun d e s => d.engAssign_clear e s,
    fun d e s t he hm ht => d.engMoves_clear he hm ht, fun d i _ hs => ?_⟩
  have hne : d.ccAssign.core (32 + i) ≠ d.core (32 + i) := fun h => hs (by rw [h])
  exact (d.ccAssign_core (32 + i)).resolve_left hne

end

section
/-! PROOFS. What every command and every step keep: the queue, and what fuses promise (R731, R738); which commands complete. -/

namespace Sys2Proof.Machine
open Sys2Proof.Safety

/-- The commands that can change fuses and flash, or stop, as well as change the device. -/
def reachesState : Instr → Bool
  | .passStart _ _ | .powerUpStepEnd _ | .inputVoltageChange _ _ | .registerWrite _ _ _ | .ageingEvaluation | .inputGood
  | .perstAssert | .functionLevelReset | .secCmdTransition | .secCmdDebugUnlock | .secCmdDebugLock | .secCmdWriteImageChunk
  | .secCmdSelectSlot | .secCmdCommitSvn | .secCmdSaveSettings | .secCmdRetire | .secResetGo => true
  | _ => false

/-- Every other command changes the device alone. -/
theorem reachesState_or_deviceOnly (c : Instr) : reachesState c = true ∨ DeviceOnly c := by
  cases c
  all_goals simp only [reachesState, true_or, or_true, Bool.false_eq_true,
    deviceOnly_add, deviceOnly_sub, deviceOnly_and, deviceOnly_or, deviceOnly_xor, deviceOnly_sll, deviceOnly_srl,
    deviceOnly_sra, deviceOnly_min, deviceOnly_max, deviceOnly_minu, deviceOnly_maxu, deviceOnly_mul, deviceOnly_mulh,
    deviceOnly_mulhu, deviceOnly_div, deviceOnly_divu, deviceOnly_rem, deviceOnly_remu, deviceOnly_popc, deviceOnly_clz,
    deviceOnly_ctz, deviceOnly_luh, deviceOnly_cmp, deviceOnly_cmpi, deviceOnly_pand, deviceOnly_por, deviceOnly_pxor,
    deviceOnly_pandn, deviceOnly_bp, deviceOnly_jal, deviceOnly_jalr, deviceOnly_ld, deviceOnly_st, deviceOnly_ldl,
    deviceOnly_stl, deviceOnly_fence, deviceOnly_fenceD, deviceOnly_csrr, deviceOnly_csrw, deviceOnly_csrs, deviceOnly_csrc,
    deviceOnly_jcall, deviceOnly_jfret, deviceOnly_ebreak, deviceOnly_wfi, deviceOnly_mret, deviceOnly_halt,
    deviceOnly_sopost, deviceOnly_sowait, deviceOnly_sowaitEnd, deviceOnly_soreset, deviceOnly_asyncUnitFaultTaken,
    deviceOnly_debugHalt, deviceOnly_manchorPropose, deviceOnly_manchorSet, deviceOnly_mloadw, deviceOnly_shadowFillStart,
    deviceOnly_shadowFillDone, deviceOnly_mstream, deviceOnly_tileAllocationServed, deviceOnly_mdrain, deviceOnly_drainCommit,
    deviceOnly_mtstat, deviceOnly_vadd, deviceOnly_vsub, deviceOnly_vmul, deviceOnly_vmin, deviceOnly_vmax, deviceOnly_vdiv,
    deviceOnly_vsqrt, deviceOnly_vexp2, deviceOnly_vlog2, deviceOnly_vrcp, deviceOnly_vrsq, deviceOnly_vfma, deviceOnly_vfms,
    deviceOnly_vcmp, deviceOnly_vand, deviceOnly_vor, deviceOnly_vxor, deviceOnly_viadd, deviceOnly_vsel, deviceOnly_vshl,
    deviceOnly_vshr, deviceOnly_vcvt, deviceOnly_vld, deviceOnly_vst, deviceOnly_vred, deviceOnly_vbcast, deviceOnly_vmovg,
    deviceOnly_vspencEncode, deviceOnly_vspencMap, deviceOnly_rscore, deviceOnly_batchOpenResume,
    deviceOnly_batchOpenEpochTimeout, deviceOnly_rselect, deviceOnly_routeClose, deviceOnly_routeCloseCountsTimeout,
    deviceOnly_rpackPack, deviceOnly_rpackArrive, deviceOnly_marverRestage, deviceOnly_rcombine, deviceOnly_returnBinHandoff,
    deviceOnly_rstatReadLedger, deviceOnly_rstatCancel, deviceOnly_rstatSupplyCounts, deviceOnly_rstatReload,
    deviceOnly_xsend, deviceOnly_xsendComplete, deviceOnly_xrecvReceive, deviceOnly_xrecvTimeout, deviceOnly_xrecvBind,
    deviceOnly_xtag, deviceOnly_chunkReceiptArrival, deviceOnly_abortMessageArrival, deviceOnly_balloc,
    deviceOnly_ballocWaiterServed, deviceOnly_bshare, deviceOnly_bdrop, deviceOnly_bfree, deviceOnly_queueReservation,
    deviceOnly_tpref, deviceOnly_tstream, deviceOnly_prefetchGobArrival, deviceOnly_prefetchRefill, deviceOnly_tpin,
    deviceOnly_loopn, deviceOnly_phint, deviceOnly_phintBoostStart, deviceOnly_phintBoostEnd, deviceOnly_digestFold,
    deviceOnly_digestRead, deviceOnly_digestLevel, deviceOnly_submitListTake, deviceOnly_entryEnterWindow,
    deviceOnly_entryStart, deviceOnly_affinityWaitExpiry, deviceOnly_entrySkip, deviceOnly_entryComplete,
    deviceOnly_engineReassign, deviceOnly_cadencePeriodStart, deviceOnly_cadCfgEnableSet, deviceOnly_cadCfgEnableClear,
    deviceOnly_jobAdmitGo, deviceOnly_jobAdmitStop, deviceOnly_rctxCancelGo, deviceOnly_moveComplete, deviceOnly_windowWrite,
    deviceOnly_replicaReadTimeout, deviceOnly_refetchFrameWaitTimeout, deviceOnly_poolInit, deviceOnly_poolQuiesceWrite,
    deviceOnly_poolQuiesced, deviceOnly_synPost, deviceOnly_synReset, deviceOnly_synRangeWrite, deviceOnly_portTrainStart,
    deviceOnly_portTrainingDone, deviceOnly_portTrainingTimeout, deviceOnly_portDownRetry, deviceOnly_fastRetrainStart,
    deviceOnly_fastRetrainTimeout, deviceOnly_identFlitReceive, deviceOnly_flitReceive, deviceOnly_nakReceive,
    deviceOnly_heartbeatSend, deviceOnly_portHoldExpiry, deviceOnly_transitForward, deviceOnly_rdlReceive,
    deviceOnly_rdrReceive, deviceOnly_wrlReceive, deviceOnly_blkReceive, deviceOnly_msgReceive, deviceOnly_ackReceive,
    deviceOnly_postReceive, deviceOnly_rtsReceive, deviceOnly_grantSend, deviceOnly_grantReceive, deviceOnly_hintReceive,
    deviceOnly_qnotReceive, deviceOnly_bundleReceive, deviceOnly_discReceive, deviceOnly_lsnReceive,
    deviceOnly_reservedOpReceive, deviceOnly_e2eTimerExpiry, deviceOnly_e2eWriteFail, deviceOnly_rdlResend,
    deviceOnly_rtsBusyResend, deviceOnly_grantTimeout, deviceOnly_bundleClose, deviceOnly_portCtrlRetrain,
    deviceOnly_powerWindowEnd, deviceOnly_senseSample, deviceOnly_estimatorUpdate, deviceOnly_thermalSample,
    deviceOnly_twinDigestCompare, deviceOnly_twinTimeout, deviceOnly_inputOvercurrentTrip, deviceOnly_bar4Access,
    deviceOnly_ideIntegrityFailure, deviceOnly_t3RequestFailure, deviceOnly_hmbSend, deviceOnly_hmbAck,
    deviceOnly_secJresetGo, deviceOnly_secMextGo, deviceOnly_getVersion, deviceOnly_getCapabilities,
    deviceOnly_negotiateAlgorithms, deviceOnly_getDigests, deviceOnly_getCertificate, deviceOnly_challenge,
    deviceOnly_getMeasurements, deviceOnly_keyExchange, deviceOnly_finish, deviceOnly_keyUpdate, deviceOnly_heartbeat,
    deviceOnly_endSession, deviceOnly_chunkGet, deviceOnly_vendorDefinedRequest, deviceOnly_mctpControlRequest,
    deviceOnly_pldmSensorRead, deviceOnly_powerCapEffecterWrite, deviceOnly_fruRead, deviceOnly_registerRcRead,
    deviceOnly_illegalInstruction, deviceOnly_routingOperationComplete, deviceOnly_vspencCompletion,
    deviceOnly_moverCopyComplete, deviceOnly_t3ReadCompletion, deviceOnly_pcieLinkTrainingDone,
    deviceOnly_dynamicAddressAssignment, deviceOnly_miswiredIdentSend, deviceOnly_inputContactOpen,
    deviceOnly_tirEditWriteLeaf, deviceOnly_tirEditReadLeaf, deviceOnly_tirEditMove, deviceOnly_tirEditInvalidate,
    deviceOnly_moverTakeWork, deviceOnly_patrolScrub, deviceOnly_syncSweep, deviceOnly_paceEpochBoundary,
    deviceOnly_localProposal, deviceOnly_paceUpPost, deviceOnly_paceDownPost, deviceOnly_paceDownMissing,
    deviceOnly_inputStageRestart, deviceOnly_refclkLoss, deviceOnly_perstDeassert, deviceOnly_pcieConfigRequest,
    deviceOnly_d3hotEntry, deviceOnly_d0Return, deviceOnly_jobResetComplete, deviceOnly_getTid, deviceOnly_getPldmVersion,
    deviceOnly_getPldmTypes, deviceOnly_getPldmCommands
    ]

/-! ### What every command keeps -/

/-- From one state to the next no command that waits is lost or added, and fuses and counters that only rise have not fallen. -/
def Keeps (s t : State) : Prop := t.pending = s.pending ∧ FusesMonotone s.nv t.nv

theorem FusesMonotone.refl (a : NonVol) : FusesMonotone a a := ⟨Nat.le_refl _, Nat.le_refl _, id⟩

/-- A change of the device alone keeps the queue and the fuses. -/
theorem keeps_dev (s : State) (d : Dev) : Keeps s { s with dev := d } := ⟨rfl, FusesMonotone.refl s.nv⟩

theorem Keeps.refl (s : State) : Keeps s s := keeps_dev s s.dev

theorem Keeps.trans {s t u : State} (h : Keeps s t) (k : Keeps t u) : Keeps s u := by
  obtain ⟨hp, hr, hs, hu⟩ := h
  obtain ⟨kp, kr, ks, ku⟩ := k
  exact ⟨kp.trans hp, hr.trans kr, hs.trans ks, fun a => ku (hu a)⟩

/-- A change of the device that leaves the rows, the minimum version and the secret's fuse keeps the fuses. -/
theorem keeps_of_fuses {s t : State} (hp : t.pending = s.pending) (hr : t.nv.rows = s.nv.rows)
    (hs : t.nv.minSvn = s.nv.minSvn) (hu : t.nv.udsBlown = s.nv.udsBlown) : Keeps s t :=
  ⟨hp, hr.ge, hs.ge, fun h => hu.trans h⟩

/-- A host access keeps what its effect keeps. -/
theorem State.barAccess_keeps (s : State) (c : Instr) (v : Via) (sec post : Bool) (f : State → State) (h : Keeps s (f s)) :
    Keeps s (s.barAccess c v sec post f) := by
  unfold State.barAccess
  split
  case h_1 e _ => exact keeps_dev s e
  case h_2 => exact h

/-! ### The root core (R731 to R738) -/

/-- A command that fails changes the device alone. -/
theorem State.cmdFails_keeps (s : State) (k : Nat) : Keeps s (s.cmdFails k) := keeps_dev s _

/-- A command that succeeds keeps the fuses where what it saves does. -/
theorem State.cmdOk_keeps (s : State) {nv : NonVol} (f : Dev → Dev) (h : FusesMonotone s.nv nv) : Keeps s (s.cmdOk nv f) := ⟨rfl, h⟩

/-- Burning keeps the fuses where what is burnt does. -/
theorem State.burn_keeps (s : State) {nv : NonVol} (h : FusesMonotone s.nv nv) : Keeps s (s.burn nv) := ⟨rfl, h⟩

/-- Where a transition is allowed a row is left to burn; the rows burnt grow by one. -/
theorem State.cmdTransition_keeps (s : State) : Keeps s s.cmdTransition := by
  unfold State.cmdTransition
  dsimp only
  split; · exact s.cmdFails_keeps 7
  split; · exact s.cmdFails_keeps _
  split; · exact s.cmdFails_keeps 3
  split; · exact s.cmdFails_keeps 4
  exact s.burn_keeps ⟨Nat.le_succ _, Nat.le_refl _, id⟩

/-- A device that is not retired has fewer than 16 rows burnt. -/
theorem rows_lt_of_lcOf_ne {rows : Nat} (h : lcOf rows ≠ 4) : rows < 16 := by
  by_contra hge
  exact h (by simp [lcOf, show rows ≠ 0 by omega, show rows ≠ 1 by omega, show 16 ≤ rows by omega])

/-- Retiring burns every row that is left, and the secret. -/
theorem State.cmdRetire_keeps (s : State) : Keeps s s.cmdRetire := by
  unfold State.cmdRetire
  dsimp only
  split; · exact s.cmdFails_keeps 7
  split; · exact s.cmdFails_keeps 3
  next _ hlc => exact s.burn_keeps ⟨(rows_lt_of_lcOf_ne fun h => hlc (.inr h)).le, Nat.le_refl _, fun _ => rfl⟩

/-- The minimum version rises to the larger of two. -/
theorem State.cmdCommit_keeps (s : State) : Keeps s s.cmdCommit := by
  unfold State.cmdCommit
  split; · exact s.cmdFails_keeps 3
  exact s.cmdOk_keeps _ ⟨Nat.le_refl _, Nat.le_max_left _ _, id⟩

/-- A debug unlock burns nothing. -/
theorem State.cmdUnlock_keeps (s : State) : Keeps s s.cmdUnlock := by
  unfold State.cmdUnlock
  dsimp only
  split; · exact s.cmdFails_keeps 7
  split; · exact s.cmdFails_keeps _
  split; · exact s.cmdFails_keeps 3
  exact s.cmdOk_keeps _ (FusesMonotone.refl s.nv)

/-- An image chunk goes to a slot. -/
theorem State.cmdChunk_keeps (s : State) : Keeps s s.cmdChunk := by
  unfold State.cmdChunk
  dsimp only
  split; · exact s.cmdFails_keeps 5
  split
  all_goals exact s.cmdOk_keeps id ⟨Nat.le_refl _, Nat.le_refl _, id⟩

/-- The choice of a slot changes that alone. -/
theorem State.cmdSelect_keeps (s : State) : Keeps s s.cmdSelect := by
  unfold State.cmdSelect
  dsimp only
  split
  · exact s.cmdOk_keeps id ⟨Nat.le_refl _, Nat.le_refl _, id⟩
  · exact s.cmdFails_keeps 6

/-- Settings are saved beside the fuses. -/
theorem State.cmdSettings_keeps (s : State) : Keeps s s.cmdSettings := by
  unfold State.cmdSettings
  dsimp only
  split; · exact s.cmdFails_keeps 7
  split; · exact s.cmdFails_keeps 3
  exact s.cmdOk_keeps id ⟨Nat.le_refl _, Nat.le_refl _, id⟩

/-- A command to the root core keeps the queue, and fuses do not fall. -/
theorem State.secCmd_keeps (s : State) (op : Nat) : Keeps s (s.secCmd op) := by
  unfold State.secCmd
  split
  case h_1 => exact s.cmdTransition_keeps
  case h_2 => exact s.cmdUnlock_keeps
  case h_3 => exact s.cmdOk_keeps _ (FusesMonotone.refl s.nv)
  case h_4 => exact s.cmdChunk_keeps
  case h_5 => exact s.cmdSelect_keeps
  case h_6 => exact s.cmdCommit_keeps
  case h_7 => exact s.cmdSettings_keeps
  case h_8 => exact s.cmdRetire_keeps
  case h_9 => exact Keeps.refl s

theorem State.hostCmd_keeps (s : State) (c : Instr) (op : Nat) : Keeps s (s.hostCmd c op) :=
  s.barAccess_keeps c bar0 true false _ (s.secCmd_keeps op)

/-! ### Resets, ageing, register writes -/

theorem State.deviceReset_keeps (s : State) : Keeps s s.deviceReset := by
  unfold State.deviceReset
  split
  · exact keeps_dev s _
  · exact Keeps.refl s

theorem State.secReset_keeps (s : State) : Keeps s s.secReset := by
  unfold State.secReset
  split
  · exact keeps_dev s _
  · exact s.deviceReset_keeps

/-- An ageing evaluation writes the wear journal alone. -/
theorem ageingStep_nv (nv : NonVol) (d : Dev) :
    (ageingStep nv d).1.rows = nv.rows ∧ (ageingStep nv d).1.minSvn = nv.minSvn ∧ (ageingStep nv d).1.udsBlown = nv.udsBlown := by
  unfold ageingStep
  split_ifs
  all_goals exact ⟨rfl, rfl, rfl⟩

theorem State.coldAgeing_keeps (s : State) (p : Pwr) : Keeps s (s.coldAgeing p) := by
  unfold State.coldAgeing
  split
  case isTrue =>
    obtain ⟨hr, hs, hu⟩ := ageingStep_nv { s.nv with jHours := s.nv.jHours + p.powered / hourCclk } s.dev
    exact keeps_of_fuses rfl hr hs hu
  case isFalse => exact Keeps.refl s

theorem State.fieldWrite_keeps (s : State) (v : Via) (off : Nat) (r : RDesc) (is : List Nat) (x : Word) :
    Keeps s (s.fieldWrite v off r is x) := by
  unfold State.fieldWrite
  dsimp only
  split; · exact (keeps_dev s _).trans (State.secCmd_keeps _ _)
  split
  · split
    · exact s.deviceReset_keeps
    · exact Keeps.refl s
  split_ifs
  all_goals exact keeps_dev s _

theorem State.regWrite_keeps (s : State) (v : Via) (o : Nat) (x : Word) : Keeps s (s.regWrite v o x) := by
  unfold State.regWrite
  split
  case h_1 y _ => exact s.fieldWrite_keeps v y.1 y.2.1 y.2.2 x
  case h_2 =>
    split
    · exact keeps_dev s _
    · exact Keeps.refl s

/-! ### Every command, every step -/

/-- Whatever a command does, it keeps the queue, and fuses do not fall. -/
theorem exec_keeps {c : Instr} {s t : State} (h : exec c s = .next t) : Keeps s t := by
  rcases reachesState_or_deviceOnly c with hc | hc
  case inr =>
    obtain ⟨_, hp, hn⟩ := hc.next h
    exact keeps_of_fuses hp (by rw [hn]) (by rw [hn]) (by rw [hn])
  case inl =>
    cases c
    case passStart e m =>
      simp only [exec, execPassStart] at h
      split at h
      case isFalse => cases h
      case isTrue =>
        split at h
        all_goals injection h with h; subst h; exact keeps_of_fuses rfl rfl rfl rfl
    case powerUpStepEnd r =>
      injection h with h
      subst h
      split
      · exact (keeps_dev s _).trans (State.coldAgeing_keeps _ _)
      · exact keeps_dev s _
    case inputVoltageChange dv us =>
      simp only [exec, execInputVoltageChange] at h
      split at h
      case isTrue => cases h
      case isFalse =>
        obtain ⟨_, rfl⟩ := run_next h
        exact keeps_dev s _
    case registerWrite v off x =>
      simp only [exec, execRegisterWrite] at h
      split at h
      case isFalse => cases h
      case isTrue =>
        injection h with h
        subst h
        split
        · split
          · exact s.secReset_keeps
          · exact Keeps.refl s
        · exact s.barAccess_keeps _ _ _ _ _ (s.regWrite_keeps v off x)
    case ageingEvaluation =>
      simp only [exec, execAgeingEvaluation] at h
      split at h
      case isTrue => injection h with h; subst h; exact Keeps.refl s
      case isFalse =>
        injection h with h
        subst h
        obtain ⟨hr, hs, hu⟩ := ageingStep_nv
          { s.nv with jHours := s.nv.jHours + 168, jHist := Config.histogram s.nv.jHist s.dev.hotNow } s.dev
        exact keeps_of_fuses rfl hr hs hu
    case inputGood =>
      injection h with h
      subst h
      split
      · exact keeps_dev s _
      · exact Keeps.refl s
    case perstAssert => injection h with h; subst h; exact keeps_dev s _
    case functionLevelReset => injection h with h; subst h; exact s.deviceReset_keeps
    case secResetGo => injection h with h; subst h; exact s.secReset_keeps
    case secCmdTransition | secCmdDebugUnlock | secCmdDebugLock | secCmdWriteImageChunk | secCmdSelectSlot | secCmdCommitSvn
      | secCmdSaveSettings | secCmdRetire => injection h with h; subst h; exact s.hostCmd_keeps _ _
    all_goals exact absurd hc Bool.false_ne_true

/-- A host access that is tried again is made, or there is none. -/
theorem hostAgain_cases (c : Instr) (s : State) : hostAgain c s = exec c s ∨ hostAgain c s = .next s := by
  unfold hostAgain
  split
  case h_32 => exact .inr rfl
  all_goals exact .inl rfl

theorem State.again_keeps (s : State) (c : Instr) : Keeps s (s.again c) := by
  unfold State.again
  split
  case h_1 t ht =>
    rcases hostAgain_cases c s with h | h
    · exact exec_keeps (h.symm.trans ht)
    · cases h.symm.trans ht; exact Keeps.refl s
  case h_2 => exact Keeps.refl s

/-- The passing of a CCLK keeps the queue and the fuses too: it tries host accesses again, each a command. -/
theorem State.tick_keeps (s : State) : Keeps s s.tick := by
  unfold State.tick
  split
  case isFalse => exact Keeps.refl s
  case isTrue =>
    unfold State.retryHost
    split
    · exact keeps_dev s _
    · exact List.foldlRecOn _ _ (motive := Keeps s) (keeps_dev s _) (fun a ha c _ => ha.trans (a.again_keeps c))

end Sys2Proof.Machine
end

section
open Sys2Proof Sys2Proof.Machine Sys2Proof.Safety

/-- Settles O4, by what every command and the passing of a CCLK keep. -/
theorem stepsNeverUnburnFuses : Obligations.StepsNeverUnburnFuses := by
  intro s t h
  unfold step at h
  split at h
  case h_1 => injection h with h; subst h; exact s.tick_keeps.2
  case h_2 => exact (exec_keeps h).2

/-- Settles O3, by what every command keeps. -/
theorem commandsKeepTheQueue : Obligations.CommandsKeepTheQueue := fun _ _ _ h => (exec_keeps h).1

/-- Settles O2: a command that changes the device alone completes; of the others, the input voltage alone can stop. -/
theorem wellFormedCommandsComplete : Obligations.WellFormedCommandsComplete := by
  refine ⟨fun c s hw hne => ?completes, fun c s hw => ?refused, fun dv us s hw => ?voltage⟩
  case completes =>
    rcases reachesState_or_deviceOnly c with hc | hc
    case inr => exact hc.completes s hw
    case inl =>
      cases c
      case passStart e m =>
        simp only [Completes, exec, execPassStart, hw, if_true]
        split
        all_goals exact ⟨_, rfl⟩
      case inputVoltageChange dv us => exact absurd rfl (hne dv us)
      case registerWrite v off x => simp only [Completes, exec, execRegisterWrite, hw, if_true]; exact ⟨_, rfl⟩
      case ageingEvaluation =>
        simp only [Completes, exec, execAgeingEvaluation]
        split
        all_goals exact ⟨_, rfl⟩
      case powerUpStepEnd | inputGood | perstAssert | functionLevelReset | secResetGo
        | secCmdTransition | secCmdDebugUnlock | secCmdDebugLock | secCmdWriteImageChunk | secCmdSelectSlot | secCmdCommitSvn
       | secCmdSaveSettings | secCmdRetire => exact ⟨_, rfl⟩
      all_goals exact absurd hc Bool.false_ne_true
  case refused =>
    rcases reachesState_or_deviceOnly c with hc | hc
    case inr => exact hc.refused s hw
    case inl =>
      cases c
      case passStart e m => simp only [exec, execPassStart, hw]; rfl
      case registerWrite v off x => simp only [exec, execRegisterWrite, hw]; rfl
      case powerUpStepEnd | inputVoltageChange | ageingEvaluation | inputGood | perstAssert | functionLevelReset | secResetGo
        | secCmdTransition | secCmdDebugUnlock | secCmdDebugLock | secCmdWriteImageChunk | secCmdSelectSlot | secCmdCommitSvn
       | secCmdSaveSettings | secCmdRetire => exact absurd hw.symm Bool.false_ne_true
      all_goals exact absurd hc Bool.false_ne_true
  case voltage =>
    by_cases hdv : dv < -700 ∨ 800 < dv
    · exact .inr (if_pos hdv)
    · exact .inl ⟨_, (if_neg hdv).trans (run_wf hw)⟩
end

section
/-! PROOFS. Counts of bits (Table 2-6), the register files, and what retirement leaves (Table 2-1, R407, R410). -/

namespace Sys2Proof.Machine

/-! ### Counts of bits -/

/-- As many elements pass a test as there are ones among its answers. -/
theorem length_filter_eq_sum {α : Type} (p : α → Bool) (l : List α) :
    (l.filter p).length = (l.map (fun a => if p a then 1 else 0)).sum := by
  rw [List.sum_map_ite]
  simp

/-- No bit of x stands above its leading zeros. -/
theorem bitAt_above_leadZeros (x : Word) {i : Nat} (h : 64 - leadZeros x ≤ i) : bitAt x i = false := by
  unfold leadZeros at h
  split at h
  case isTrue hx => subst hx; exact Nat.zero_testBit i
  case isFalse hx =>
    have hx0 : x.toNat ≠ 0 := fun h0 => hx (BitVec.eq_of_toNat_eq h0)
    have hlog : x.toNat.log2 < 64 := (Nat.log2_lt hx0).mpr x.isLt
    exact Nat.testBit_lt_two_pow (Nat.lt_of_lt_of_le Nat.lt_log2_self (Nat.pow_le_pow_right (by omega) (by omega)))

/-- The bit below the leading zeros of x is set. -/
theorem bitAt_below_leadZeros (x : Word) (h : leadZeros x < 64) : bitAt x (63 - leadZeros x) = true := by
  unfold leadZeros at h ⊢
  split at h
  case isTrue => omega
  case isFalse hx =>
    have hx0 : x.toNat ≠ 0 := fun h0 => hx (BitVec.eq_of_toNat_eq h0)
    have hlog : x.toNat.log2 < 64 := (Nat.log2_lt hx0).mpr x.isLt
    rw [if_neg hx, show 63 - (63 - x.toNat.log2) = x.toNat.log2 by omega]
    exact Nat.testBit_log2 hx0

/-- The first bit that is set, or its absence. -/
theorem trailZeros_spec (x : Word) :
    trailZeros x ≤ 64 ∧ (∀ i, i < trailZeros x → bitAt x i = false) ∧ (trailZeros x < 64 → bitAt x (trailZeros x) = true) := by
  unfold trailZeros
  cases h : (List.range 64).find? (bitAt x)
  case none =>
    have hnone := List.find?_range_eq_none.mp h
    exact ⟨Nat.le_refl 64, fun i hi => by simpa using hnone i hi, fun h64 => absurd h64 (Nat.lt_irrefl 64)⟩
  case some k =>
    obtain ⟨hk, hmem, hbelow⟩ := List.find?_range_eq_some.mp h
    exact ⟨(List.mem_range.mp hmem).le, fun i hi => by simpa using hbelow i hi, fun _ => hk⟩

/-! ### Register files and retirement -/

/-- A predicate reads what was last written to it; p0 reads 1. -/
theorem Core.getP_setP (x : Core) (i j : Nat) (b : Bool) (hj : j < 8) :
    (x.setP i b).getP j = if j = i ∧ i ≠ 0 then b else x.getP j := by
  unfold Core.setP Core.getP
  by_cases hi : i = 0
  · simp [hi]
  · by_cases hj0 : j = 0
    · simp [hi, hj0, Ne.symm hi]
    · simp [hi, hj0, bitAt_setBit _ _ _ _ hj]

/-- Where no loop level is looked at, the pc advances by the length of the instruction and the levels stay. -/
theorem Core.retire_outside (x : Core) (n : Nat) (h : x.loops = [] ∨ x.frozen = true) :
    (x.retire n).pc = pcMask (x.pc.toNat + n) ∧ (x.retire n).loops = x.loops := by
  have hr : (if x.frozen then (x.loops, x.pc.toNat + n) else loopEnd (x.pc.toNat + n - 4) (x.pc.toNat + n) x.loops)
      = (x.loops, x.pc.toNat + n) := by
    split
    case isTrue => rfl
    case isFalse hf => rw [h.resolve_right hf]; rfl
  exact ⟨congrArg (fun r : List LoopLevel × Nat => pcMask r.2) hr, congrArg Prod.fst hr⟩

end Sys2Proof.Machine
end

section
open Sys2Proof Sys2Proof.Machine Sys2Proof.Safety

/-- Settles O7: POPC by the sum of the bits, CLZ by the binary logarithm, CTZ by the first bit set. -/
theorem bitCounts : Obligations.BitCounts := by
  refine ⟨fun x => length_filter_eq_sum (bitAt x) _, fun x => ⟨?le, ?above, bitAt_below_leadZeros x⟩, trailZeros_spec⟩
  case le => unfold leadZeros; split <;> omega
  case above => exact fun i _ => bitAt_above_leadZeros x

/-- Settles O11, by the reads after writes of each register file and the frame of retirement. -/
theorem registersAndRetirement : Obligations.RegistersAndRetirement := by
  refine ⟨⟨Core.getG_setG, fun _ => rfl, fun _ _ => rfl, fun x i j b _ hj => x.getP_setP i j b hj, fun _ => rfl,
    fun x i j n m v hn hm => x.getV_setV i n j m v hn hm⟩, fun x n => ?_⟩
  exact ⟨fun _ => rfl, fun _ => rfl, fun _ _ => rfl, x.retire_csrOf n, rfl, rfl, rfl, rfl, rfl, x.retire_outside n⟩
end

section
/-! PROOFS. How an instruction that issues ends, said once; loads, stores and line copies (R91 to R97, R116, R128, R470). -/

namespace Sys2Proof.Machine

open Sys2Proof.Safety

/-! ### How an instruction that issues ends -/

section
variable {c : Instr} {op : Op} {legal : Bool} {w : IW} {body : Dev → Core → IRes} {s : State}
  (he : exec c s = run c (fun d => d.instr op legal w body) s) (hw : c.wf = true) (hi : Issues s.dev op legal w)
include he hw hi

/-- A well-formed instruction that issues ends as its body says. -/
theorem does_instr : Does c s (Dev.finish w.core (ilenOf w) (body s.dev (s.dev.core w.core))) := by
  rw [← Dev.instr_issues hi]
  exact does_of_run he hw

/-- One whose body completes leaves the device that the body left, and its core retires. -/
theorem instr_done {d : Dev} (hb : body s.dev (s.dev.core w.core) = .done d) :
    ∃ e, Does c s e ∧ OnlyCore d e w.core ((d.core w.core).retire (ilenOf w)) :=
  ⟨_, does_instr he hw hi, by rw [hb]; exact onlyCore_done d w.core (ilenOf w)⟩

/-- One whose body completes with a change of its core. -/
theorem instr_done_mod {d : Dev} {f : Core → Core} (hb : body s.dev (s.dev.core w.core) = .done (d.modCore w.core f)) :
    ∃ e, Does c s e ∧ OnlyCore d e w.core ((f (d.core w.core)).retire (ilenOf w)) :=
  ⟨_, does_instr he hw hi, by rw [hb]; exact onlyCore_done_mod d w.core (ilenOf w) f⟩

/-- One whose body stalls leaves its core waiting. -/
theorem instr_stall {d : Dev} {wt : Wait} (hb : body s.dev (s.dev.core w.core) = .stall d wt) :
    ∃ e, Does c s e ∧ OnlyCore d e w.core { d.core w.core with wait := some wt, ilen := ilenOf w } :=
  ⟨_, does_instr he hw hi, by rw [hb]; exact onlyCore_stall d w.core (ilenOf w) wt⟩

end

/-! ### Addresses and sizes of accesses -/

/-- A field is as wide as it says. -/
theorem fld_lt {n : Nat} (w : BitVec n) (hi lo : Nat) : fld w hi lo < 2 ^ (hi + 1 - lo) := Nat.mod_lt _ (Nat.two_pow_pos _)

/-- A number below a power of two has no field from there on. -/
theorem fld_eq_zero_of_lt {n : Nat} (w : BitVec n) {hi lo : Nat} (h : w.toNat < 2 ^ lo) : fld w hi lo = 0 := by
  rw [fld, nfld, Nat.shiftRight_eq_div_pow, Nat.div_eq_of_lt h, Nat.zero_mod]

/-- The low field of a number that it can hold is the number. -/
theorem fld_zero_of_lt {n : Nat} (w : BitVec n) {hi : Nat} (h : w.toNat < 2 ^ (hi + 1)) : fld w hi 0 = w.toNat := by
  rw [fld, nfld, Nat.shiftRight_zero, Nat.sub_zero, Nat.mod_eq_of_lt h]

/-- Accesses are of 1, 2, 4 or 8 bytes (Table 2-7). -/
theorem accSize_cases (w : IW) : accSize w = 1 ∨ accSize w = 2 ∨ accSize w = 4 ∨ accSize w = 8 := by
  have h := fld_lt w.rs2 1 0
  unfold accSize
  interval_cases fld w.rs2 1 0
  all_goals simp

/-- An aligned access lies within one gob. -/
theorem accSize_within {w : IW} {a : Nat} (h : a % accSize w = 0) : a % 65536 + accSize w ≤ 65536 := by
  rcases accSize_cases w with hn | hn | hn | hn
  all_goals rw [hn] at h ⊢; omega

theorem accSize_pos (w : IW) : 0 < accSize w := Nat.two_pow_pos _

/-- An aligned local address passes the checks (R92). -/
theorem addrCheck_pass {d : Dev} {c : Nat} {store : Bool} {a : Word} {n : Nat} {k : Nat → IRes} (ha : a.toNat % n = 0)
    (hl : fld a 63 48 = 0) : addrCheck d c store a n k = k a.toNat := by
  simp [addrCheck, ha, hl]

/-! ### LD and ST -/

/-- An LD whose bytes are at hand writes them to g[rd] and retires. -/
theorem ld_completes {w : IW} {s : State} {d : Dev} {bs : List Byte} (hw : (Instr.ld w).wf = true)
    (hi : Issues s.dev (cOp 0x0C true) (decide (fld w.rs2 4 3 ≠ 3)) w)
    (ha : ((s.dev.core w.core).r1 w + immValue w).toNat % accSize w = 0)
    (hl : fld ((s.dev.core w.core).r1 w + immValue w) 63 48 = 0)
    (hm : s.dev.coreRd w.core ((s.dev.core w.core).r1 w + immValue w).toNat (accSize w) = .ok d bs) :
    ∃ e, Does (.ld w) s e ∧
      OnlyCore d e w.core (((d.core w.core).setG w.rd.toNat (loadValue (bitAt w.rs2 2) bs)).retire (ilenOf w)) :=
  instr_done_mod (f := fun x => x.setG w.rd.toNat (loadValue (bitAt w.rs2 2) bs)) rfl hw hi
    (by rw [addrCheck_pass ha hl, hm]; rfl)

/-- An ST that memory takes retires. -/
theorem st_completes {w : IW} {s : State} {d : Dev} {bs : List Byte} (hw : (Instr.st w).wf = true)
    (hi : Issues s.dev (cOp 0x0D true) (decide (fld w.rs2 4 3 ≠ 3) && !bitAt w.rs2 2) w)
    (ha : ((s.dev.core w.core).r1 w + immValue w).toNat % accSize w = 0)
    (hl : fld ((s.dev.core w.core).r1 w + immValue w) 63 48 = 0)
    (hm : s.dev.coreWr w.core ((s.dev.core w.core).r1 w + immValue w).toNat
      (leBytes (accSize w) ((s.dev.core w.core).r0 w).toNat) = .ok d bs) :
    ∃ e, Does (.st w) s e ∧ OnlyCore d e w.core ((d.core w.core).retire (ilenOf w)) :=
  instr_done rfl hw hi (by rw [addrCheck_pass ha hl, hm]; rfl)

/-! ### Physical memory (R116, R128, R806) -/

/-- Physical memory ends below 2^48. -/
theorem Dev.physLimit_lt (d : Dev) : d.physLimit < 2 ^ 48 := by
  unfold Dev.physLimit
  split <;> omega

/-- A physical access waits for the lines of LDLs alone. -/
theorem Dev.accessWaits_phys {d : Dev} {c va n : Nat} (hp : (d.core c).phys c = true) (h : d.linePending c va n = false) :
    d.accessWaits c va n = false := by
  simp [Dev.accessWaits, hp, h]

theorem Dev.storeWaits_phys {d : Dev} {c va n : Nat} (hp : (d.core c).phys c = true) (h : d.linePending c va n = false) :
    d.storeWaits c va n = false := by
  simp [Dev.storeWaits, Dev.accessWaits_phys hp h, hp]

/-- A physical read below the limit where no symbol is in error. -/
theorem Dev.coreRd_phys {d : Dev} {c va n : Nat} (hp : (d.core c).phys c = true) (hlim : va + n ≤ d.physLimit)
    (hline : d.linePending c va n = false) (hecc : d.symbols va n = 0) :
    d.coreRd c va n = .ok d (rdBytes d.mem.t1 va n) := by
  simp [Dev.coreRd, Dev.accessWaits_phys hp hline, hp, hlim, Dev.t1Bad, hecc, Dev.correct_clean d va n hecc]

/-- A physical write below the limit. -/
theorem Dev.coreWr_phys {d : Dev} {c va : Nat} {bs : List Byte} (hp : (d.core c).phys c = true)
    (hlim : va + bs.length ≤ d.physLimit) (hline : d.linePending c va bs.length = false) :
    d.coreWr c va bs = .ok { d with mem := { d.mem with t1 := wrBytes d.mem.t1 va bs } } [] := by
  simp [Dev.coreWr, Dev.storeWaits_phys hp hline, hp, Dev.physWr, hlim]

/-! ### The engine store's window (R470, R481) -/

/-- A core that is not at M with jva = 0 does not reach physical memory. -/
theorem Core.phys_atJ {x : Core} {c : Nat} (h : x.atM c = false) : x.phys c = false := by simp [Core.phys, h]

/-- A read of the issuing engine's own store within one gob (R470). -/
theorem Dev.rd_own (d : Dev) (w : Who) (e va n : Nat) (he : w.eng = some e) (h0 : 0 < n) (h1 : 0xFFFF80000000 ≤ va)
    (h2 : va < 0xFFFF83000000) (h3 : va % 65536 + n ≤ 65536) : d.rd w va n = .ok d (d.esRead e (va - 0xFFFF80000000) n) := by
  unfold Dev.rd
  rw [piecesOf_within va n h0 h3]
  simp only [Dev.rdPieces, Dev.rdPiece_own d w e va n he h1 h2, List.nil_append]

section
variable {d : Dev} {c sl va : Nat} (hc : c < 32) (hm : (d.core c).atM c = false) (hs : (d.core c).slot = some sl)
  (h1 : 0xFFFF80000000 ≤ va)
include hc hm hs h1

/-- An engine core at J reads its own store through the window. -/
theorem Dev.coreRd_own {n : Nat} (h0 : 0 < n) (h2 : va < 0xFFFF83000000) (h3 : va % 65536 + n ≤ 65536)
    (hwait : d.accessWaits c va n = false) : d.coreRd c va n = .ok d (d.esRead c (va - 0xFFFF80000000) n) := by
  have hrd := d.rd_own (coreWho c sl) c va n (if_pos hc) h0 h1 h2 h3
  simp [Dev.coreRd, hwait, Core.phys_atJ hm, hs, hrd]

/-- An engine core at J writes its own store through the window. -/
theorem Dev.coreWr_own {bs : List Byte} (h0 : bs ≠ []) (h2 : va < 0xFFFF83000000) (h3 : va % 65536 + bs.length ≤ 65536)
    (hwait : d.storeWaits c va bs.length = false) : d.coreWr c va bs = .ok (d.esWrite c (va - 0xFFFF80000000) bs) [] := by
  have hwr := d.wr_own (coreWho c sl) c va bs (if_pos hc) h0 h1 h2 h3
  simp [Dev.coreWr, hwait, Core.phys_atJ hm, hs, hwr]

end

/-- An engine after bytes were written to the store of engine e. -/
theorem Dev.engine_esWrite (d : Dev) (e off k : Nat) (bs : List Byte) :
    (d.esWrite e off bs).engine k = if k = e then (d.engine k).wrote off bs.length else d.engine k := by
  unfold Dev.esWrite Dev.modEngine
  rw [Dev.engine_setEngine]
  split
  case isTrue h => rw [h]; rfl
  case isFalse => rfl

/-- A little-endian number that was written reads back, as far as its bytes go. -/
theorem leNat_leBytes (n x : Nat) : leNat (leBytes n x) = x % 256 ^ n := by
  induction n generalizing x with
  | zero => simp [leBytes, leNat, Nat.mod_one]
  | succ n ih =>
    have hsplit : x % 256 ^ (n + 1) = x % 256 + 256 * (x / 256 % 256 ^ n) := by rw [Nat.pow_succ', Nat.mod_mul]
    rw [leBytes, leNat, ih, BitVec.toNat_ofNat, hsplit]

/-! ### LDL and STL -/

/-- An LDL whose local line may be written now asks for its line; with aq = 1 the core waits for it (R94, R131). -/
theorem ldlRemote_sends {w : IW} {x : Core} {ga : Word} {la : Nat} {d : Dev} (htopo : d.inTopo (gaNode ga) = true)
    (hspace : d.spaceFailed { d.tx 0x01 0 (gaNode ga) (d.jobId x.slotN) w.core with chan := lineChan w } = false)
    (hwait : d.storeWaits w.core la 128 = false) (hroom : d.lineRoom w.core ≠ 0)
    (hfault : ∀ (e : Dev) (f : FaultInfo), d.coreWr w.core la (List.replicate 128 0#8) ≠ .fault e f) :
    ldlRemote w x ga la d =
      if bitAt w.fn 4 then
        .stall (d.lineRead (d.jobId x.slotN) w.core (gaNode ga) (lineChan w) (gaOff ga)
          (.ldl w.core x.slotN la (x.phys w.core) (bitAt w.fn 4))) .acquire
      else
        .done (d.lineRead (d.jobId x.slotN) w.core (gaNode ga) (lineChan w) (gaOff ga)
          (.ldl w.core x.slotN la (x.phys w.core) (bitAt w.fn 4))) := by
  unfold ldlRemote
  generalize List.replicate 128 0#8 = z at hfault ⊢
  dsimp only
  rw [if_neg (by simp [hwait, hroom])]
  split
  case h_1 e f hf => exact absurd hf (hfault e f)
  case h_2 => rw [if_neg (by simp [htopo]), if_neg (by rw [hspace]; exact Bool.false_ne_true)]

/-- An LDL of a line of the own node copies it through the inbound window table (R95, R607). -/
theorem ldlLocal_copies {w : IW} {sl0 la sl va : Nat} {ga : Word} {d d1 d2 d3 : Dev} {bs b0 : List Byte}
    (hd1 : d1 = d.windowSeen (d.jobId sl0) (gaOff ga))
    (hcheck : d1.receiverCheck (d1.jobId sl0) (gaOff ga) 128 false = .ok (sl, va))
    (hwr : ∃ e b, d.coreWr w.core la (List.replicate 128 0#8) = .ok e b) (hwait : d1.localWaits w.core va 128 = false)
    (hrd : d1.rd (coreWho w.core sl) va 128 = .ok d2 bs) (hst : d2.coreWr w.core la bs = .ok d3 b0) :
    ldlLocal w sl0 ga la d = .done d3 := by
  unfold ldlLocal
  generalize List.replicate 128 0#8 = z at hwr ⊢
  obtain ⟨e, b, hwr⟩ := hwr
  simp only [hwr, ← hd1, hcheck, hwait, hrd, lineRes, hst, Bool.false_eq_true, if_false]

/-- An STL to another node sends a line write, a release behind the writes issued before it (R94, R132). -/
theorem stlGo_sends {c chan s la : Nat} {rl : Bool} {ga : Word} {d : Dev} {bs : List Byte} (hnode : gaNode ga ≠ d.node)
    (htopo : d.inTopo (gaNode ga) = true)
    (hspace : d.spaceFailed { d.tx 0x03 0 (gaNode ga) (d.jobId s) c with
      chan := chan, offset := gaOff ga, lenM1 := 127, payload := bs } = false)
    (hroom : d.lineRoom c ≠ 0) :
    stlGo c chan rl ga s la d bs = .done (d.issue { d.tx 0x03 0 (gaNode ga) (d.jobId s) c with
      chan := chan, offset := gaOff ga, lenM1 := 127, payload := bs } (if rl then d.gateOf c none else [])) := by
  unfold stlGo
  dsimp only
  rw [if_neg hnode, if_neg (by simp [htopo]), if_neg (by rw [hspace]; exact Bool.false_ne_true), if_neg hroom]

/-- An STL to a line of the own node writes it through the inbound window table (R95, R607). -/
theorem stlGo_copies {c chan s la sl va : Nat} {rl : Bool} {ga : Word} {d d1 d2 : Dev} {bs b0 : List Byte}
    (hnode : gaNode ga = d.node) (hd1 : d1 = d.windowSeen (d.jobId s) (gaOff ga))
    (hcheck : d1.receiverCheck (d1.jobId s) (gaOff ga) 128 true = .ok (sl, va)) (hwait : d1.localWaits c va 128 = false)
    (hfill : d1.fillPending c va 128 = false) (hwr : d1.wr (coreWho c sl) va bs = .ok d2 b0) :
    stlGo c chan rl ga s la d bs = .done d2 := by
  unfold stlGo
  dsimp only
  rw [if_pos hnode]
  simp only [← hd1, hcheck, hwait, hfill, hwr, Bool.or_self, Bool.false_eq_true, if_false]

/-- An STL at addresses that are multiples of 128 and local goes on once its line is read and, for a release, what it waits for
is done. -/
theorem stl_runs {w : IW} {s : State} {d : Dev} {bs : List Byte} (hw : (Instr.stl w).wf = true)
    (hi : Issues s.dev (cOp 0x0F false) (stlLegal w) w)
    (hg : ((s.dev.core w.core).r1 w).toNat % 128 = 0) (hl : ((s.dev.core w.core).r0 w).toNat % 128 = 0)
    (hlt : ((s.dev.core w.core).r0 w).toNat < 2 ^ 48)
    (hq : bitAt w.fn 5 = true → s.dev.matrixQuiet w.core = true ∧ s.dev.linesOut w.core = false)
    (hrd : s.dev.coreRd w.core ((s.dev.core w.core).r0 w).toNat 128 = .ok d bs)
    (hgate : bitAt w.fn 5 = true → gaNode ((s.dev.core w.core).r1 w) = d.node → d.gateOpen (d.gateOf w.core none) = true) :
    Does (.stl w) s (Dev.finish w.core (ilenOf w)
      (stlGo w.core (lineChan w) (bitAt w.fn 5) ((s.dev.core w.core).r1 w) (s.dev.core w.core).slotN
        ((s.dev.core w.core).r0 w).toNat d bs)) := by
  have h := does_instr rfl hw hi
  dsimp only at h
  have hquiet : ¬ (bitAt w.fn 5 && !s.dev.matrixQuiet w.core) = true := by
    cases hb : bitAt w.fn 5
    · simp
    · simp [(hq hb).1]
  have hlines : ¬ (bitAt w.fn 5 && s.dev.linesOut w.core) = true := by
    cases hb : bitAt w.fn 5
    · simp
    · simp [(hq hb).2]
  have hopen : ¬ (bitAt w.fn 5 && decide (gaNode ((s.dev.core w.core).r1 w) = d.node)
      && !d.gateOpen (d.gateOf w.core none)) = true := by
    intro hall
    simp only [Bool.and_eq_true, decide_eq_true_eq, Bool.not_eq_true'] at hall
    exact absurd (hgate hall.1.1 hall.1.2) (by simp [hall.2])
  rwa [if_neg (by omega), if_neg (by simp [fld_eq_zero_of_lt _ hlt]), if_neg hquiet, if_neg hlines, va48,
    fld_zero_of_lt _ hlt, hrd, stlRes, if_neg hopen] at h

/-- An LDL at addresses that are multiples of 128 and local is a copy within the node or a line read. -/
theorem ldl_runs {w : IW} {s : State} (hw : (Instr.ldl w).wf = true)
    (hi : Issues s.dev (cOp 0x0E false) (decide (w.rs2 = 0) && decide (fld w.fn 10 5 = 0)) w)
    (hg : ((s.dev.core w.core).r1 w).toNat % 128 = 0) (hl : ((s.dev.core w.core).r0 w).toNat % 128 = 0)
    (hlt : ((s.dev.core w.core).r0 w).toNat < 2 ^ 48) :
    Does (.ldl w) s (Dev.finish w.core (ilenOf w)
      (if gaNode ((s.dev.core w.core).r1 w) = s.dev.node then
        ldlLocal w (s.dev.core w.core).slotN ((s.dev.core w.core).r1 w) ((s.dev.core w.core).r0 w).toNat s.dev
      else ldlRemote w (s.dev.core w.core) ((s.dev.core w.core).r1 w) ((s.dev.core w.core).r0 w).toNat s.dev)) := by
  have h := does_instr rfl hw hi
  dsimp only at h
  rwa [if_neg (by omega), if_neg (by simp [fld_eq_zero_of_lt _ hlt]), va48, fld_zero_of_lt _ hlt] at h

section
variable {w : IW} {s : State} (hw : (Instr.ldl w).wf = true)
  (hi : Issues s.dev (cOp 0x0E false) (decide (w.rs2 = 0) && decide (fld w.fn 10 5 = 0)) w)
  (hg : ((s.dev.core w.core).r1 w).toNat % 128 = 0) (hl : ((s.dev.core w.core).r0 w).toNat % 128 = 0)
  (hlt : ((s.dev.core w.core).r0 w).toNat < 2 ^ 48)
include hw hi hg hl hlt

/-- An LDL of a line of another node sends its line read. -/
theorem ldl_sends (hnode : gaNode ((s.dev.core w.core).r1 w) ≠ s.dev.node)
    (htopo : s.dev.inTopo (gaNode ((s.dev.core w.core).r1 w)) = true)
    (hspace : s.dev.spaceFailed { s.dev.tx 0x01 0 (gaNode ((s.dev.core w.core).r1 w)) (s.dev.jobId (s.dev.core w.core).slotN) w.core
      with chan := lineChan w } = false)
    (hwait : s.dev.storeWaits w.core ((s.dev.core w.core).r0 w).toNat 128 = false) (hroom : s.dev.lineRoom w.core ≠ 0)
    (hfault : ∀ (d : Dev) (f : FaultInfo),
      s.dev.coreWr w.core ((s.dev.core w.core).r0 w).toNat (List.replicate 128 0#8) ≠ .fault d f) :
    ∃ e, Does (.ldl w) s e ∧
      (let d := s.dev.lineRead (s.dev.jobId (s.dev.core w.core).slotN) w.core (gaNode ((s.dev.core w.core).r1 w)) (lineChan w)
        (gaOff ((s.dev.core w.core).r1 w)) (.ldl w.core (s.dev.core w.core).slotN ((s.dev.core w.core).r0 w).toNat
          ((s.dev.core w.core).phys w.core) (bitAt w.fn 4))
       OnlyCore d e w.core (if bitAt w.fn 4 then { d.core w.core with wait := some .acquire, ilen := ilenOf w }
        else (d.core w.core).retire (ilenOf w))) := by
  have h := ldl_runs hw hi hg hl hlt
  rw [if_neg hnode, ldlRemote_sends htopo hspace hwait hroom hfault] at h
  refine ⟨_, h, ?_⟩
  cases bitAt w.fn 4
  · exact onlyCore_done _ _ _
  · exact onlyCore_stall _ _ _ _

/-- An LDL of a line of the own node copies it. -/
theorem ldl_copies {sl va : Nat} {d1 d2 d3 : Dev} {bs b0 : List Byte} (hnode : gaNode ((s.dev.core w.core).r1 w) = s.dev.node)
    (hd1 : d1 = s.dev.windowSeen (s.dev.jobId (s.dev.core w.core).slotN) (gaOff ((s.dev.core w.core).r1 w)))
    (hcheck : d1.receiverCheck (d1.jobId (s.dev.core w.core).slotN) (gaOff ((s.dev.core w.core).r1 w)) 128 false = .ok (sl, va))
    (hwr : ∃ d b, s.dev.coreWr w.core ((s.dev.core w.core).r0 w).toNat (List.replicate 128 0#8) = .ok d b)
    (hwait : d1.localWaits w.core va 128 = false) (hrd : d1.rd (coreWho w.core sl) va 128 = .ok d2 bs)
    (hst : d2.coreWr w.core ((s.dev.core w.core).r0 w).toNat bs = .ok d3 b0) :
    ∃ e, Does (.ldl w) s e ∧ OnlyCore d3 e w.core ((d3.core w.core).retire (ilenOf w)) := by
  have h := ldl_runs hw hi hg hl hlt
  rw [if_pos hnode, ldlLocal_copies hd1 hcheck hwr hwait hrd hst] at h
  exact ⟨_, h, onlyCore_done _ _ _⟩

end

section
variable {w : IW} {s : State} {d : Dev} {bs : List Byte} (hw : (Instr.stl w).wf = true)
  (hi : Issues s.dev (cOp 0x0F false) (stlLegal w) w)
  (hg : ((s.dev.core w.core).r1 w).toNat % 128 = 0) (hl : ((s.dev.core w.core).r0 w).toNat % 128 = 0)
  (hlt : ((s.dev.core w.core).r0 w).toNat < 2 ^ 48)
  (hq : bitAt w.fn 5 = true → s.dev.matrixQuiet w.core = true ∧ s.dev.linesOut w.core = false)
  (hrd : s.dev.coreRd w.core ((s.dev.core w.core).r0 w).toNat 128 = .ok d bs)
include hw hi hg hl hlt hq hrd

/-- An STL to a line of another node sends its line write. -/
theorem stl_sends (hnode : gaNode ((s.dev.core w.core).r1 w) ≠ d.node) (htopo : d.inTopo (gaNode ((s.dev.core w.core).r1 w)) = true)
    (hspace : d.spaceFailed { d.tx 0x03 0 (gaNode ((s.dev.core w.core).r1 w)) (d.jobId (s.dev.core w.core).slotN) w.core with
      chan := lineChan w, offset := gaOff ((s.dev.core w.core).r1 w), lenM1 := 127, payload := bs } = false)
    (hroom : d.lineRoom w.core ≠ 0) :
    ∃ e, Does (.stl w) s e ∧
      (let f := d.issue { d.tx 0x03 0 (gaNode ((s.dev.core w.core).r1 w)) (d.jobId (s.dev.core w.core).slotN) w.core with
         chan := lineChan w, offset := gaOff ((s.dev.core w.core).r1 w), lenM1 := 127, payload := bs }
         (if bitAt w.fn 5 then d.gateOf w.core none else [])
       OnlyCore f e w.core ((f.core w.core).retire (ilenOf w))) := by
  have h := stl_runs hw hi hg hl hlt hq hrd (fun _ hn => absurd hn hnode)
  rw [stlGo_sends hnode htopo hspace hroom] at h
  exact ⟨_, h, onlyCore_done _ _ _⟩

/-- An STL to a line of the own node writes it. -/
theorem stl_copies {sl va : Nat} {d1 d2 : Dev} {b0 : List Byte} (hnode : gaNode ((s.dev.core w.core).r1 w) = d.node)
    (hopen : bitAt w.fn 5 = true → d.gateOpen (d.gateOf w.core none) = true)
    (hd1 : d1 = d.windowSeen (d.jobId (s.dev.core w.core).slotN) (gaOff ((s.dev.core w.core).r1 w)))
    (hcheck : d1.receiverCheck (d1.jobId (s.dev.core w.core).slotN) (gaOff ((s.dev.core w.core).r1 w)) 128 true = .ok (sl, va))
    (hwait : d1.localWaits w.core va 128 = false) (hfill : d1.fillPending w.core va 128 = false)
    (hwr : d1.wr (coreWho w.core sl) va bs = .ok d2 b0) :
    ∃ e, Does (.stl w) s e ∧ OnlyCore d2 e w.core ((d2.core w.core).retire (ilenOf w)) := by
  have h := stl_runs hw hi hg hl hlt hq hrd (fun hb _ => hopen hb)
  rw [stlGo_copies hnode hd1 hcheck hwait hfill hwr] at h
  exact ⟨_, h, onlyCore_done _ _ _⟩

end

end Sys2Proof.Machine
end

section
open Sys2Proof Sys2Proof.Machine Sys2Proof.Safety

/-- Settles O12: loads and stores go through `coreRd` and `coreWr`, which reach physical memory at M with jva = 0. -/
theorem loadsAndStores : Obligations.LoadsAndStores := by
  refine ⟨⟨fun w s d bs hw hi ha hl hm => ld_completes hw hi ha hl hm, fun w s d bs hw hi ha hl hm => st_completes hw hi ha hl hm⟩,
    fun w s hw hi => ?load, fun w s hw hi => ?store⟩
  case load =>
    intro x a n hM hjva ha hlim hline hecc
    have hn : 0 < n := accSize_pos w
    have hlt : a.toNat < 2 ^ 48 := by have := s.dev.physLimit_lt; omega
    have hp : x.phys w.core = true := by simp [Core.phys, hM, hjva]
    have h := ld_completes hw hi ha (fld_eq_zero_of_lt a hlt) (Dev.coreRd_phys hp hlim hline hecc)
    rwa [loadValue, rdBytes_length] at h
  case store =>
    intro x a n hM hjva ha hlim hline
    have hn : 0 < n := accSize_pos w
    have hlt : a.toNat < 2 ^ 48 := by have := s.dev.physLimit_lt; omega
    have hp : x.phys w.core = true := by simp [Core.phys, hM, hjva]
    have hm := Dev.coreWr_phys (bs := leBytes n (x.r0 w).toNat) hp (by rwa [leBytes_length]) (by rwa [leBytes_length])
    obtain ⟨e, hdoes, honly⟩ := st_completes hw hi ha (fld_eq_zero_of_lt a hlt) hm
    exact ⟨_, e, hdoes, honly, rdByte_wrBytes_leBytes _ _ _ _, rfl⟩

/-- Settles O13: an aligned access lies within one gob, so it is one piece of the window of the engine's own store. -/
theorem memoryAndStore : Obligations.MemoryAndStore := by
  refine ⟨⟨fun w s hw hi => ?load, fun w s hw hi => ?store⟩,
    Memory.wf_wrBytes, Memory.wf_zeroRange, rdBytes_wrBytes, rdByte_wrBytes_outside, rdByte_zeroRange,
    fun bs n => leNat_leBytes n _, rfl, rfl, rfl, rfl, rfl⟩
  case load =>
    intro x a n hc hM hs ha h1 h2 hwait
    obtain ⟨sl, hsl⟩ := Option.isSome_iff_exists.mp hs
    have hn : 0 < n := accSize_pos w
    have h := ld_completes hw hi ha (fld_eq_zero_of_lt a (by omega))
      (Dev.coreRd_own hc hM hsl h1 hn (by omega) (accSize_within ha) hwait)
    rwa [loadValue, Dev.esRead, rdBytes_length] at h
  case store =>
    intro x a n hc hM hs ha h1 h2 hwait
    obtain ⟨sl, hsl⟩ := Option.isSome_iff_exists.mp hs
    have hn : 0 < n := accSize_pos w
    have hne : leBytes n (x.r0 w).toNat ≠ [] := List.length_pos_iff.mp (by rwa [leBytes_length])
    obtain ⟨e, hdoes, honly⟩ := st_completes hw hi ha (fld_eq_zero_of_lt a (by omega))
      (Dev.coreWr_own hc hM hsl h1 hne (by omega) (by rw [leBytes_length]; exact accSize_within ha) (by rwa [leBytes_length]))
    refine ⟨_, e, hdoes, honly, rdByte_wrBytes_leBytes _ _ _ _, rfl, fun k => ?_⟩
    rw [Dev.engine_esWrite, leBytes_length]
    rfl
end

section
open Sys2Proof Sys2Proof.Machine Sys2Proof.Safety

/-- Settles O14: a line copy is one between the own node's memories, or a line read or write that is sent. -/
theorem remoteLineCopies : Obligations.RemoteLineCopies :=
  ⟨fun _ _ hw hi hg hl hlt => ⟨ldl_sends hw hi hg hl hlt, fun _ _ _ _ _ _ _ => ldl_copies hw hi hg hl hlt⟩,
    fun _ _ _ _ hw hi hg hl hlt hq hrd =>
      ⟨stl_sends hw hi hg hl hlt hq hrd, fun _ _ _ _ _ => stl_copies hw hi hg hl hlt hq hrd⟩⟩
end

section
/-! PROOFS. Waits on sync objects (R107 to R112); faults taken, illegal instructions and false predicates (R76 to R80, R115,
R121 to R123). -/

namespace Sys2Proof.Machine

open Sys2Proof.Safety

/-! ### SOWAIT and SORESET -/

/-- An object of this device that the core may touch is served (R111, R112). -/
theorem localName_serves {d : Dev} {c : Nat} {name : Word} {n : Nat} {k : IRes} (hn : fld name 63 48 = d.node)
    (ht : d.mayTouch c (fld name 15 0) = true) : localName d c name n k = k := by
  unfold localName syncNode syncObj
  rw [if_neg (fun h => h hn), if_neg (by rw [ht]; exact Bool.noConfusion)]

/-- The status of a wait that is not out of time. -/
theorem waitStatus_untimed (n : Nat) (met err : Bool) :
    waitStatus n met err false = BitVec.ofNat 64 (n % 2 ^ 32 + b2n met * 2 ^ 32 + b2n err * 2 ^ 33) := by
  have h0 : b2n false = 0 := rfl
  rw [waitStatus, h0, Nat.zero_mul, Nat.add_zero]

/-- A wait whose count is reached or whose object is marked ends with the status of Table 2-9. -/
theorem Dev.waitEnd_met {d : Dev} {i n : Nat} (left : Option Nat) (h : n ≤ d.synCount i ∨ d.synErr i = true) :
    d.waitEnd i n left = some (BitVec.ofNat 64
      (d.synCount i % 2 ^ 32 + b2n (decide (n ≤ d.synCount i)) * 2 ^ 32 + b2n (d.synErr i) * 2 ^ 33)) := by
  have hend : (decide (n ≤ d.synCount i) || d.synErr i) = true := by simpa using h
  have hno : ∀ t : Bool, (t && !decide (n ≤ d.synCount i) && !d.synErr i) = false := by
    intro t
    rw [Bool.and_assoc, ← Bool.not_or, hend, Bool.not_true, Bool.and_false]
  simp only [Dev.waitEnd, hend, Bool.true_or, if_true, hno, waitStatus_untimed]

section
variable {w : IW} {s : State} (hw : (Instr.sowait w).wf = true) (hi : Issues s.dev (cOp 0x14 false) true w)
  (hn : fld ((s.dev.core w.core).r1 w) 63 48 = s.dev.node)
  (ht : s.dev.mayTouch w.core (syncObj ((s.dev.core w.core).r1 w)) = true)
include hw hi hn ht

/-- A SOWAIT whose wait is over writes its status and retires. -/
theorem sowait_ends {v : Word}
    (h : s.dev.waitEnd (syncObj ((s.dev.core w.core).r1 w)) (fld ((s.dev.core w.core).r2 w) 31 0)
      (if fld w.fn 8 4 = 0 then none else some (2 ^ fld w.fn 8 4)) = some v) :
    ∃ e, Does (.sowait w) s e ∧ OnlyCore s.dev e w.core (((s.dev.core w.core).setG w.rd.toNat v).retire (ilenOf w)) :=
  instr_done_mod (f := fun x => x.setG w.rd.toNat v) rfl hw hi ((localName_serves hn ht).trans (by rw [h]; rfl))

/-- One whose wait is not over waits. -/
theorem sowait_waits
    (h : s.dev.waitEnd (syncObj ((s.dev.core w.core).r1 w)) (fld ((s.dev.core w.core).r2 w) 31 0)
      (if fld w.fn 8 4 = 0 then none else some (2 ^ fld w.fn 8 4)) = none) :
    ∃ e, Does (.sowait w) s e ∧ OnlyCore s.dev e w.core
      { s.dev.core w.core with
        wait := some (.sowait w.rd.toNat (syncObj ((s.dev.core w.core).r1 w)) (fld ((s.dev.core w.core).r2 w) 31 0)
          (if fld w.fn 8 4 = 0 then none else some (2 ^ fld w.fn 8 4))),
        ilen := ilenOf w } :=
  instr_stall rfl hw hi ((localName_serves hn ht).trans (by rw [h]))

end

/-- SORESET answers the count and resets the object. -/
theorem soreset_resets {w : IW} {s : State} (hw : (Instr.soreset w).wf = true) (hi : Issues s.dev (cOp 0x14 false) true w)
    (hn : fld ((s.dev.core w.core).getG w.rs1.toNat) 63 48 = s.dev.node)
    (ht : s.dev.mayTouch w.core (fld ((s.dev.core w.core).getG w.rs1.toNat) 15 0) = true) :
    ∃ e, Does (.soreset w) s e ∧ OnlyCore (s.dev.synReset (fld ((s.dev.core w.core).getG w.rs1.toNat) 15 0)) e w.core
      ((((s.dev.synReset (fld ((s.dev.core w.core).getG w.rs1.toNat) 15 0)).core w.core).setG w.rd.toNat
        (BitVec.ofNat 64 (s.dev.synCount (fld ((s.dev.core w.core).getG w.rs1.toNat) 15 0)))).retire (ilenOf w)) :=
  instr_done_mod (f := fun x => x.setG w.rd.toNat
    (BitVec.ofNat 64 (s.dev.synCount (fld ((s.dev.core w.core).getG w.rs1.toNat) 15 0)))) rfl hw hi (localName_serves hn ht)

/-- The end of a wait that is over writes its status and retires. -/
theorem sowaitEnd_ends {c rd i n : Nat} {left : Option Nat} {s : State} {v : Word} (hc : c < 41)
    (hwait : (s.dev.core c).wait = some (.sowait rd i n left)) (h : s.dev.waitEnd i n left = some v) :
    ∃ e, Does (.sowaitEnd c) s e ∧ OnlyCore s.dev e c (((s.dev.core c).setG rd v).retire (s.dev.core c).ilen) := by
  have hdo : s.dev.sowaitEnd c = s.dev.modCore c (fun x => (x.setG rd v).retire x.ilen) := by
    simp only [Dev.sowaitEnd, hwait, h]
  have hdoes : Does (.sowaitEnd c) s (s.dev.sowaitEnd c) := does_of_run (c := .sowaitEnd c) rfl (decide_eq_true hc)
  exact ⟨_, hdoes, by rw [hdo]; exact onlyCore_modCore _ _ _⟩

/-- The end of a wait that is not over has no effect. -/
theorem sowaitEnd_idle {c rd i n : Nat} {left : Option Nat} {s : State} (hc : c < 41)
    (hwait : (s.dev.core c).wait = some (.sowait rd i n left)) (h : s.dev.waitEnd i n left = none) : Idle (.sowaitEnd c) s := by
  have hdo : s.dev.sowaitEnd c = s.dev := by simp only [Dev.sowaitEnd, hwait, h]
  have hdoes : Does (.sowaitEnd c) s (s.dev.sowaitEnd c) := does_of_run (c := .sowaitEnd c) rfl (decide_eq_true hc)
  rwa [hdo] at hdoes

/-! ### Faults at M and at J -/

/-- The end of a core's line reads says nothing of registers. -/
theorem Dev.setRb_endReads (d : Dev) (o i c : Nat) (b : Bool) : (d.setRb o i b).endReads c = (d.endReads c).setRb o i b := by
  unfold Dev.endReads
  rw [Dev.setRb_fab, apply_ite (fun e : Dev => e.setRb o i b)]
  rfl

theorem Dev.seePoison_endReads (d : Dev) (s c : Nat) (f : FaultInfo) :
    (d.seePoison s f).endReads c = (d.endReads c).seePoison s f := by
  unfold Dev.seePoison
  split
  · exact d.setRb_endReads _ _ _ _
  · rfl

@[simp] theorem Dev.seePoison_core (d : Dev) (s k : Nat) (f : FaultInfo) : (d.seePoison s f).core k = d.core k := by
  unfold Dev.seePoison Dev.core
  split <;> rfl

@[simp] theorem Dev.withEntry_endReads (d : Dev) (c k : Nat) (f : FaultInfo) : (d.endReads c).withEntry k f = d.withEntry k f := by
  simp only [Dev.withEntry, Dev.endReads_core]

/-- A fault that shows no poison leaves TIR_SSTAT. -/
theorem Dev.seePoison_none (d : Dev) (s : Nat) {f : FaultInfo} (h : f.code ≠ 0x0601) : d.seePoison s f = d := if_neg h

theorem Dev.seePoison_withEntry (d e : Dev) (s c : Nat) (f : FaultInfo) : d.seePoison s (e.withEntry c f) = d.seePoison s f := by
  simp only [Dev.seePoison, Dev.withEntry_code]

/-- A fault at M enters M again, and poisoned data is shown. -/
theorem raiseCore_atM {d : Dev} {c cause : Nat} {f : FaultInfo} (h : (d.core c).atM c = true) :
    OnlyCore (match (d.core c).slot with
        | some sl => d.seePoison sl f
        | none => d) (d.raiseCore c cause f) c
      { (d.core c).enterM cause (if cause = 8 then BitVec.ofNat 64 f.code else f.info) with frozen := true } := by
  unfold Dev.raiseCore
  simp only [Dev.endReads_core, h, Dev.withEntry_endReads, tvalOf, Dev.withEntry_code, Dev.withEntry_info]
  cases (d.core c).slot with
  | none =>
    exact onlyCore_trans (onlyCore_endReads d c) (onlyCore_setCore _ c _)
  | some sl =>
    simp only [Dev.seePoison_withEntry, ← Dev.seePoison_endReads]
    exact onlyCore_trans (onlyCore_endReads _ c) (onlyCore_setCore _ c _)

/-- A fault of a deliverable code at J with a handler and none active goes to the handler. -/
theorem raiseCore_delivers {d : Dev} {c cause sl : Nat} {f : FaultInfo} (hm : (d.core c).atM c = false)
    (hs : (d.core c).slot = some sl) (hcl : classOf f.code = .deliverable) (hv : (d.core c).csrOf 0x001 ≠ 0)
    (ha : bitAt ((d.core c).csrOf 0x407) 0 = false) :
    d.raiseCore c cause f
      = ((((d.endReads c).record sl (d.withEntry c f) true false).modCore c (fun y => y.deliver (d.withEntry c f))).entryFault c
          true).returnOwed c sl f := by
  unfold Dev.raiseCore
  simp only [Dev.endReads_core, hm, hs, Dev.withEntry_endReads, Dev.withEntry_code, hcl, ha]
  exact if_pos (by simpa using hv)

/-- What delivery saves. -/
theorem Core.deliver_saves (x : Core) (f : FaultInfo) : (x.deliver f).csrOf 0x002 = x.pc
    ∧ (x.deliver f).csrOf 0x405 = BitVec.ofNat 64 f.code ∧ (x.deliver f).csrOf 0x406 = f.info ∧ (x.deliver f).csrOf 0x407 = 1
    ∧ (x.deliver f).pc = pcMask (x.csrOf 0x001).toNat
    ∧ (∀ i, (x.deliver f).getG i = x.getG i) ∧ (∀ i, (x.deliver f).getP i = x.getP i) := by
  have hcsr : ∀ k, (x.deliver f).csrOf k = ((((x.setCsr 0x002 x.pc).setCsr 0x405 (BitVec.ofNat 64 f.code)).setCsr 0x406
      f.info).setCsr 0x407 1).csrOf k := fun _ => rfl
  refine ⟨?_, ?_, ?_, ?_, rfl, fun i => rfl, fun i => rfl⟩ <;> simp [hcsr, Core.csrOf_setCsr]

/-- The fault of an illegal instruction at M enters M with cause 0x02 and the word. -/
theorem illegal_entersM {d : Dev} {c n word : Nat} (h : (d.core c).atM c = true) :
    OnlyCore d (Dev.finish c n (.raise d 2 (illegalFault c (d.core c).pc word))) c
      { (d.core c).enterM 2 (BitVec.ofNat 64 word) with frozen := true } := by
  have hm : ((d.modCore c (fun x => { x with lines := [] })).core c).atM c = true := by rw [Dev.core_modCore_self]; exact h
  have hr := raiseCore_atM (cause := 2) (f := illegalFault c (d.core c).pc word) hm
  have hcode : (illegalFault c (d.core c).pc word).code = 0x0A10 := rfl
  have hd : ∀ e sl, Dev.seePoison e sl (illegalFault c (d.core c).pc word) = e := fun e sl =>
    e.seePoison_none sl (by rw [hcode]; decide)
  have hnone : ∀ (o : Option Nat) (e : Dev), (match o with
      | some sl => e.seePoison sl (illegalFault c (d.core c).pc word)
      | none => e) = e := fun o e => by cases o <;> simp only [hd]
  rw [hnone, Dev.core_modCore_self] at hr
  exact onlyCore_trans (onlyCore_modCore d c (fun x => { x with lines := [] })) hr

/-- An illegal instruction raises cause 0x02. -/
theorem Dev.instr_illegal {d : Dev} {op : Op} {legal : Bool} {w : IW} {body : Dev → Core → IRes} (ht : (d.core w.core).takes = true)
    (hp : d.rb Reg.PWR_STATUS 31 = false) (h : legal = false ∨ wideLegal op w = false ∨ (op.eOnly = true ∧ 32 ≤ w.core)) :
    d.instr op legal w body
      = Dev.finish w.core (ilenOf w) (.raise d 2 (illegalFault w.core (d.core w.core).pc (wordOf op.major w))) := by
  have hill : (!legal || !wideLegal op w || (op.eOnly && decide (32 ≤ w.core))) = true := by
    rcases h with h | h | ⟨h1, h2⟩
    · simp [h]
    · simp [h]
    · simp [h1, h2]
  unfold Dev.instr
  dsimp only
  rw [if_neg (by simp [ht, hp]), if_pos hill]

/-- An instruction whose predicate does not hold is passed over. -/
theorem Dev.instr_passed {d : Dev} {op : Op} {w : IW} {body : Dev → Core → IRes} (ht : (d.core w.core).takes = true)
    (hp : d.rb Reg.PWR_STATUS 31 = false) (hwl : wideLegal op w = true) (he : op.eOnly = true → w.core < 32)
    (hpr : predHolds (d.core w.core) w = false) :
    d.instr op true w body = d.modCore w.core (fun y => y.skip (ilenOf w)) := by
  have hlegal : ¬ (!true || !wideLegal op w || (op.eOnly && decide (32 ≤ w.core))) = true := by
    simpa [hwl] using he
  unfold Dev.instr
  dsimp only
  rw [if_neg (by simp [ht, hp]), if_neg hlegal, if_pos hpr]

/-- WFI, MRET and HALT at J are illegal (R115). -/
theorem Dev.mOnly_atJ {d : Dev} {w : IW} {k : Dev → Core → IRes} (hi : Issues d (cOp 0x12 false) (sysZero w) w)
    (hm : (d.core w.core).atM w.core = false) :
    d.mOnly w k = (d.modCore w.core (fun x => { x with lines := [] })).raiseCore w.core 2
      (illegalFault w.core (d.core w.core).pc (wordOf 0x12 w)) := by
  unfold Dev.mOnly
  rw [Dev.instr_issues hi, if_neg (by rw [hm]; exact Bool.false_ne_true)]
  rfl

/-- No instruction has major 0. -/
theorem wordForms_major_ne_zero_word (r : WordForm) (hr : r ∈ wordForms) : r.major ≠ fld (0 : BitVec 32) 31 26 := by
  have hall : wordForms.all (fun r => decide (r.major ≠ 0)) = true := by rfl
  have hzero : fld (0 : BitVec 32) 31 26 = 0 := by decide
  rw [hzero]
  exact of_decide_eq_true (List.all_eq_true.1 hall r hr)

/-- A word of no major of the tables has no form. -/
theorem Core.illegal_of_no_form {x : Core} {c : Nat} {word : BitVec 32} (h : ∀ r ∈ wordForms, r.major ≠ fld word 31 26) :
    x.illegal c word = true := by
  have hf : formOf c word = none := List.find?_eq_none.2 (fun r hr => by simp [h r hr])
  simp [Core.illegal, hf]

end Sys2Proof.Machine
end
section

open Sys2Proof Sys2Proof.Machine Sys2Proof.Safety

/-- Settles O17. -/
theorem sowaitAndSoreset : Obligations.SowaitAndSoreset :=
  ⟨fun _ _ hw hi hn ht => ⟨fun h => sowait_ends hw hi hn ht (Dev.waitEnd_met _ h), fun h => sowait_waits hw hi hn ht h⟩,
    fun _ _ _ _ _ _ hc hwait => ⟨fun _ h => sowaitEnd_ends hc hwait h, fun h => sowaitEnd_idle hc hwait h⟩,
    fun _ _ hw hi hn ht => soreset_resets hw hi hn ht⟩

/-- Settles O19. -/
theorem faultsTaken : Obligations.FaultsTaken := by
  refine ⟨⟨fun _ _ _ _ _ => raiseCore_delivers, Core.deliver_saves, fun _ _ _ _ => raiseCore_atM⟩, ?_, ?_⟩
  · intro c f fs s hc ha hb hie
    have hgo : ((s.dev.core c).boundary && (bitAt ((s.dev.core c).csrOf 0x800) 3 || !(s.dev.core c).atM c)) = true := by
      simpa [hb] using hie
    have hdo : s.dev.takeAsync c
        = (s.dev.modCore c (fun y => { y with async := fs, wait := none, lines := [] })).raiseCore c 8 f := by
      simp only [Dev.takeAsync, ha]
      exact if_pos hgo
    have hdoes : Does (.asyncUnitFaultTaken c) s (s.dev.takeAsync c) :=
      does_of_run (c := .asyncUnitFaultTaken c) rfl (decide_eq_true hc)
    rwa [hdo] at hdoes
  · intro c s hc hu hb hscope
    have hgo : (s.dev.sec.unlocked && (s.dev.core c).boundary && (decide (c ≠ 40) || decide (s.dev.sec.scope = 3))) = true := by
      simpa [hu, hb] using hscope
    have hdoes := does_of_run (c := .debugHalt c) (s := s) rfl (decide_eq_true hc)
    rw [if_pos hgo] at hdoes
    exact ⟨_, hdoes, onlyCore_trans (onlyCore_endReads _ _) (onlyCore_setCore _ _ _)⟩

/-- Settles O20. -/
theorem notCarriedOut : Obligations.NotCarriedOut := by
  refine ⟨⟨?_, ?_, ?_⟩, ⟨?_, ?_⟩, ?_⟩
  · intro d op legal w body ht hp hm h
    rw [Dev.instr_illegal ht hp h]
    exact illegal_entersM hm
  · intro c word s hc
    have hdoes := does_of_run (c := .illegalInstruction c word) (s := s) rfl (decide_eq_true hc)
    constructor
    · intro ht hp hm hill
      rw [if_pos (by simp [ht, hp, hill])] at hdoes
      exact ⟨_, hdoes, illegal_entersM hm⟩
    · intro hill
      rw [if_neg (by simp [hill])] at hdoes
      exact hdoes
  · rintro x c word (rfl | h)
    · exact Core.illegal_of_no_form (fun r hr => wordForms_major_ne_zero_word r hr)
    · exact Core.illegal_of_no_form h
  · intro r hr w s hw hi hm
    simp only [List.mem_cons, List.not_mem_nil, or_false] at hr
    rcases hr with rfl | rfl | rfl
    · exact ⟨_, does_of_run (c := .wfi w) rfl hw, Dev.mOnly_atJ hi hm⟩
    · exact ⟨_, does_of_run (c := .mret w) rfl hw, Dev.mOnly_atJ hi hm⟩
    · exact ⟨_, does_of_run (c := .halt w) rfl hw, Dev.mOnly_atJ hi hm⟩
  · intro w s hw hi h
    have hno : ((s.dev.core w.core).atM w.core || !bitAt ((s.dev.core w.core).csrOf 0x407) 0) = true := by simpa using h
    have hdoes := does_instr (c := .jfret w) rfl hw hi
    rw [if_pos hno] at hdoes
    exact ⟨_, hdoes, rfl⟩
  · intro d op w body ht hp hwl he hpr
    rw [Dev.instr_passed ht hp hwl he hpr]
    exact onlyCore_modCore d w.core (fun y => y.skip (ilenOf w))

end

section
/-! PROOFS. The free store of a pool (R522, R524, R540) and the vector instructions (R288 to R292, R384 to R387). -/

namespace Sys2Proof.Machine

open Sys2Proof.Safety

/-! ### The free store -/

theorem mem_insertAsc (i j : Nat) (l : List Nat) : j ∈ insertAsc i l ↔ j = i ∨ j ∈ l := by
  induction l with
  | nil => simp [insertAsc]
  | cons k ks ih =>
    rw [insertAsc]
    split
    · simp
    · rw [List.mem_cons, ih, List.mem_cons]
      tauto

theorem insertAsc_pairwise {i : Nat} {l : List Nat} (h : l.Pairwise (· < ·)) (hi : i ∉ l) : (insertAsc i l).Pairwise (· < ·) := by
  induction l with
  | nil => simp [insertAsc]
  | cons k ks ih =>
    obtain ⟨hk, hks⟩ := List.pairwise_cons.1 h
    obtain ⟨hne, hnot⟩ : i ≠ k ∧ i ∉ ks := by simpa using hi
    rw [insertAsc]
    split
    case isTrue hle =>
      have hlt : i < k := by omega
      refine List.pairwise_cons.2 ⟨fun j hj => ?_, h⟩
      rcases List.mem_cons.1 hj with rfl | hj
      · exact hlt
      · exact hlt.trans (hk j hj)
    case isFalse hle =>
      refine List.pairwise_cons.2 ⟨fun j hj => ?_, ih hks hnot⟩
      rcases (mem_insertAsc i j ks).1 hj with rfl | hj
      · omega
      · exact hk j hj

theorem length_insertAsc (i : Nat) (l : List Nat) : (insertAsc i l).length = l.length + 1 := by
  induction l with
  | nil => rfl
  | cons k ks ih =>
    rw [insertAsc]
    split
    · rfl
    · rw [List.length_cons, ih, List.length_cons]

/-- What taking a buffer does: the first returned one goes out, else the first fresh one. -/
theorem Pool.take_cases {x y : Pool} {i : Nat} (h : x.take = some (i, y)) :
    (∃ is, x.returned = i :: is ∧ y = { x with returned := is }) ∨
    (x.returned = [] ∧ i = x.fresh ∧ x.fresh < x.nbuf ∧ y = { x with fresh := x.fresh + 1 }) := by
  unfold Pool.take at h
  split at h
  case h_1 j js hr =>
    obtain ⟨rfl, rfl⟩ : j = i ∧ _ = y := by simpa using h
    exact .inl ⟨js, hr, rfl⟩
  case h_2 hr =>
    split at h
    case isTrue hlt =>
      obtain ⟨rfl, rfl⟩ : x.fresh = i ∧ _ = y := by simpa using h
      exact .inr ⟨hr, rfl, hlt, rfl⟩
    case isFalse => cases h

theorem Pool.take_free {x y : Pool} {i : Nat} (hx : x.fresh ≤ x.nbuf) (h : x.take = some (i, y)) :
    y.free + 1 = x.free ∧ y.fresh ≤ y.nbuf ∧ y.recs = x.recs := by
  rcases Pool.take_cases h with ⟨is, hr, rfl⟩ | ⟨hr, rfl, hlt, rfl⟩
  · refine ⟨?_, hx, rfl⟩
    simp only [Pool.free, hr, List.length_cons]
    omega
  · refine ⟨?_, hlt, rfl⟩
    simp only [Pool.free, hr, List.length_nil]
    omega

theorem Pool.take_none_iff {x : Pool} (hx : x.fresh ≤ x.nbuf) : x.take = none ↔ x.free = 0 := by
  unfold Pool.take Pool.free
  cases x.returned with
  | cons i is => simp
  | nil =>
    dsimp only
    rw [List.length_nil]
    split
    case isTrue hlt => exact ⟨fun h => absurd h (by simp), fun h => by omega⟩
    case isFalse hge => exact ⟨fun _ => by omega, fun _ => rfl⟩

theorem Pool.giveBack_free (x : Pool) (l : Bool) (i : Nat) :
    (x.giveBack l i).free = x.free + 1 ∧ ((x.giveBack l i).recOf i).held = false := by
  constructor
  · cases l
    · simp only [Pool.giveBack, Pool.free, Pool.setRec, Bool.false_eq_true, if_false, length_insertAsc]
      omega
    · simp only [Pool.giveBack, Pool.free, Pool.setRec, if_true, List.length_cons]
      omega
  · have hrec : (x.giveBack l i).recOf i = BufRec.free := tget_tput_self (fun _ => BufRec.free) x.recs i BufRec.free
    rw [hrec]
    rfl

/-- A store whose returned buffers ascend and lie below the fresh ones hands out its lowest free buffer. -/
theorem Pool.take_lowest {x y : Pool} {i : Nat} (hp : x.returned.Pairwise (· < ·)) (hf : ∀ j ∈ x.returned, j < x.fresh)
    (h : x.take = some (i, y)) :
    ((∀ j ∈ x.returned, i ≤ j) ∧ i ≤ x.fresh) ∧ y.returned.Pairwise (· < ·) ∧ ∀ j ∈ y.returned, j < y.fresh := by
  rcases Pool.take_cases h with ⟨is, hr, rfl⟩ | ⟨hr, rfl, -, rfl⟩
  · rw [hr] at hp hf ⊢
    obtain ⟨hi, his⟩ := List.pairwise_cons.1 hp
    refine ⟨⟨fun j hj => ?_, (hf i List.mem_cons_self).le⟩, his, fun j hj => hf j (List.mem_cons_of_mem i hj)⟩
    rcases List.mem_cons.1 hj with rfl | hj
    · exact Nat.le_refl _
    · exact (hi j hj).le
  · simp [hr]

/-- With fewer free buffers the level is no lower. -/
theorem levelOf_antitone (w p s : Nat) {a b : Nat} (h : a ≤ b) : levelOf w p s b ≤ levelOf w p s a := by
  have hs : min s (min p w) ≤ min p w := Nat.min_le_right _ _
  have hp : min p w ≤ w := Nat.min_le_right _ _
  unfold levelOf
  dsimp only
  split_ifs
  all_goals omega

/-! ### Lanes -/

/-- Writing lanes changes the vector registers alone. -/
theorem Core.setLanes_frame (x : Core) (i n : Nat) (ws : List W32) : x.setLanes i n ws = { x with v := (x.setLanes i n ws).v } := by
  induction ws generalizing x n with
  | nil => rfl
  | cons u us ih => exact ih (x.setV i n u) (n + 1)

/-- What a lane reads after lanes were written. -/
theorem Core.getV_setLanes (x : Core) (i n : Nat) (ws : List W32) (h : n + ws.length ≤ 128) (k m : Nat) (hm : m < 128) :
    (x.setLanes i n ws).getV k m = if k = i ∧ n ≤ m ∧ m < n + ws.length then ws.getD (m - n) 0 else x.getV k m := by
  induction ws generalizing x n with
  | nil =>
    rw [if_neg (by simp)]
    rfl
  | cons u us ih =>
    rw [List.length_cons] at h ⊢
    rw [Core.setLanes, ih (x.setV i n u) (n + 1) (by omega), Core.getV_setV x i n k m u (by omega) hm]
    by_cases hk : k = i
    case neg => simp [hk]
    case pos =>
      by_cases hn : m = n
      · subst hn
        simp [hk]
      · by_cases hin : n + 1 ≤ m ∧ m < n + 1 + us.length
        · rw [if_pos ⟨hk, hin⟩, if_pos ⟨hk, by omega, by omega⟩, show m - n = m - (n + 1) + 1 by omega, List.getD_cons_succ]
        · rw [if_neg (fun hall => hin hall.2), if_neg (fun hall => hn hall.2), if_neg (fun hall => hin ⟨by omega, by omega⟩)]

/-- All lanes of a register. -/
theorem Core.getV_setLanes_all (x : Core) (i : Nat) {ws : List W32} (h : ws.length = 128) (k : Nat) {m : Nat} (hm : m < 128) :
    (x.setLanes i 0 ws).getV k m = if k = i then ws.getD m 0 else x.getV k m := by
  rw [Core.getV_setLanes x i 0 ws (by omega) k m hm]
  have hin : m < 0 + ws.length := by omega
  simp only [Nat.zero_le, hin, and_self, and_true, Nat.sub_zero]

theorem zipWith_lanes {α : Type} (f : W32 → W32 → α) (x : Core) (i j : Nat) :
    List.zipWith f (x.lanes i) (x.lanes j) = (List.range 128).map (fun n => f (x.getV i n) (x.getV j n)) := by
  rw [Core.lanes, Core.lanes, List.zipWith_map, List.zipWith_self]

theorem zipWith_zip_lanes {α : Type} (f : W32 × W32 → W32 → α) (x : Core) (i j k : Nat) :
    List.zipWith f (List.zip (x.lanes i) (x.lanes j)) (x.lanes k)
      = (List.range 128).map (fun n => f (x.getV i n, x.getV j n) (x.getV k n)) := by
  rw [List.zip, zipWith_lanes, Core.lanes, List.zipWith_map, List.zipWith_self]

/-! ### Vector instructions -/

/-- A vector instruction whose lanes are each a function of the same lanes of vs1, vs2 and vd. -/
def Dev.vecLanes (d : Dev) (major : Nat) (legal : Bool) (w : IW) (f : W32 → W32 → W32 → W32 × Flg) : Dev :=
  d.vec major legal w (fun d1 x => doneLanes d1 w
    ((List.range 128).map (fun n => f (x.getV w.rs1.toNat n) (x.getV w.rs2.toNat n) (x.getV w.rd.toNat n))))

theorem Dev.vArith_eq_vecLanes (d : Dev) (w : IW) (f : Rnd → W32 → W32 → W32 × Flg) :
    d.vArith w f = d.vecLanes 0x20 (decide (fld w.fn 10 5 = 0)) w (fun a b _ => f (vrnd (bitAt w.fn 4)) a b) := by
  simp only [Dev.vArith, Dev.vecLanes, zipWith_lanes]

theorem Dev.vFused_eq_vecLanes (d : Dev) (w : IW) (minus : Bool) :
    d.vFused w minus = d.vecLanes 0x21 (decide (fld w.fn 10 2 = 0)) w
      (fun a b c => fma32 (vrnd (bitAt w.fn 1)) a b (if minus then neg32 c else c)) := by
  simp only [Dev.vFused, Dev.vecLanes, zipWith_zip_lanes]

theorem Dev.vBits_eq_vecLanes (d : Dev) (w : IW) (f : W32 → W32 → W32 → W32) :
    d.vBits w f = d.vecLanes 0x23 (decide (fld w.fn 10 3 = 0)) w (fun a b c => (f a b c, Flg.none)) := by
  simp only [Dev.vBits, Dev.vecLanes, zipWith_zip_lanes]

section
variable (w : IW) (s : State) (c : Instr)

theorem run_vArith (f : Rnd → W32 → W32 → W32 × Flg) : run c (fun d => d.vArith w f) s = run c (fun d =>
    d.vecLanes 0x20 (decide (fld w.fn 10 5 = 0)) w (fun a b _ => f (vrnd (bitAt w.fn 4)) a b)) s :=
  congrArg (run c · s) (funext fun d => d.vArith_eq_vecLanes w f)

theorem run_vFused (m : Bool) : run c (fun d => d.vFused w m) s = run c (fun d =>
    d.vecLanes 0x21 (decide (fld w.fn 10 2 = 0)) w
      (fun a b c => fma32 (vrnd (bitAt w.fn 1)) a b (if m then neg32 c else c))) s :=
  congrArg (run c · s) (funext fun d => d.vFused_eq_vecLanes w m)

theorem run_vBits (f : W32 → W32 → W32 → W32) : run c (fun d => d.vBits w f) s = run c (fun d =>
    d.vecLanes 0x23 (decide (fld w.fn 10 3 = 0)) w (fun a b c => (f a b c, Flg.none))) s :=
  congrArg (run c · s) (funext fun d => d.vBits_eq_vecLanes w f)

end

theorem execVcmp_eq (w : IW) (s : State) : execVcmp w s = run (.vcmp w) (fun d =>
    d.vecLanes 0x22 (decide (fld w.fn 10 3 = 0) && decide (fld w.fn 2 0 ≤ 4)) w (fun a b _ => vcmpLane (fld w.fn 2 0) a b)) s := by
  simp only [execVcmp, Dev.vecLanes, zipWith_lanes]

/-- Every instruction of the table of lane operations works lane by lane. -/
theorem exec_vecRows : ∀ r ∈ vecRows, ∀ (w : IW) (s : State),
    exec (r.1 w) s = run (r.1 w) (fun d => d.vecLanes r.2.1 (r.2.2.1 w) w (r.2.2.2 w)) s := by
  unfold vecRows
  simp only [List.forall_mem_cons]
  exact ⟨fun w s => run_vArith w s _ _, fun w s => run_vArith w s _ _, fun w s => run_vArith w s _ _,
    fun w s => run_vArith w s _ _, fun w s => run_vArith w s _ _, fun w s => run_vArith w s _ _,
    fun w s => run_vArith w s _ _, fun w s => run_vArith w s _ _, fun w s => run_vArith w s _ _,
    fun w s => run_vArith w s _ _, fun w s => run_vArith w s _ _, fun w s => run_vFused w s _ false,
    fun w s => run_vFused w s _ true, execVcmp_eq, fun w s => run_vBits w s _ _, fun w s => run_vBits w s _ _,
    fun w s => run_vBits w s _ _, fun w s => run_vBits w s _ _, fun w s => run_vBits w s _ _,
    fun w s => run_vBits w s _ (fun x y _ => x <<< fld y 4 0), fun w s => run_vBits w s _ (fun x y _ => x >>> fld y 4 0), by simp⟩

/-! ### A vector instruction that issues with no drain to vector registers in its way -/

/-- Sticky flags are in a register. -/
theorem Dev.vflags_core (d : Dev) (e k : Nat) (f : Flg) : (d.vflags e f).core k = d.core k := rfl

section
variable {c : Instr} {major : Nat} {legal : Bool} {w : IW} {f : Dev → Core → IRes} {s : State}
  (he : exec c s = run c (fun d => d.vec major legal w f) s) (hw : c.wf = true) (hi : Issues s.dev (mOp major) legal w)
  (hv : NoVectorDrain s.dev w.core)
include he hw hi hv

theorem does_vec : Does c s (Dev.finish w.core (ilenOf w) (f s.dev (s.dev.core w.core))) := by
  have hdoes := does_instr he hw hi
  rwa [if_neg (by rw [show (s.dev.engine w.core).drains.any (fun y => y.toVec) = false from hv]; exact Bool.false_ne_true)]
    at hdoes

theorem vec_done {d : Dev} (hf : f s.dev (s.dev.core w.core) = .done d) :
    ∃ e, Does c s e ∧ OnlyCore d e w.core ((d.core w.core).retire (ilenOf w)) :=
  ⟨_, does_vec he hw hi hv, by rw [hf]; exact onlyCore_done d w.core (ilenOf w)⟩

theorem vec_done_mod {d : Dev} {g : Core → Core} (hf : f s.dev (s.dev.core w.core) = .done (d.modCore w.core g)) :
    ∃ e, Does c s e ∧ OnlyCore d e w.core ((g (d.core w.core)).retire (ilenOf w)) :=
  ⟨_, does_vec he hw hi hv, by rw [hf]; exact onlyCore_done_mod d w.core (ilenOf w) g⟩

/-- One that ends with new lanes of vd. -/
theorem vec_lanes {rs : List (W32 × Flg)} (hf : f s.dev (s.dev.core w.core) = doneLanes s.dev w rs) :
    ∃ e, Does c s e ∧ OnlyCore (s.dev.vflags w.core (flagsOf (rs.map (·.2)))) e w.core
      (((s.dev.core w.core).setLanes w.rd.toNat 0 (rs.map (·.1))).retire (ilenOf w)) := by
  rw [← Dev.vflags_core s.dev w.core w.core (flagsOf (rs.map (·.2)))]
  rw [doneLanes] at hf
  have h := vec_done_mod he hw hi hv hf
  exact h

/-- One that writes all lanes of vd leaves them there. -/
theorem vec_lanes_read {rs : List (W32 × Flg)} (hf : f s.dev (s.dev.core w.core) = doneLanes s.dev w rs)
    (hlen : rs.length = 128) :
    ∃ e, Does c s e ∧ ∀ n, n < 128 → (e.core w.core).getV w.rd.toNat n = (rs.map (·.1)).getD n 0 := by
  obtain ⟨e, hdoes, -, hcores⟩ := vec_lanes he hw hi hv hf
  refine ⟨e, hdoes, fun n hn => ?_⟩
  rw [hcores, if_pos rfl, Core.getV, Core.retire_v, ← Core.getV, Core.getV_setLanes_all _ _ (by rw [List.length_map, hlen]) _ hn, if_pos rfl]

end

/-- A lane operation that issues, lane by lane. -/
theorem vecLanes_completes {c : Instr} {major : Nat} {legal : Bool} {w : IW} {f : W32 → W32 → W32 → W32 × Flg} {s : State}
    (he : exec c s = run c (fun d => d.vecLanes major legal w f) s) (hw : c.wf = true) (hi : Issues s.dev (mOp major) legal w)
    (hv : NoVectorDrain s.dev w.core) (x : Core) (hx : x = s.dev.core w.core) (g : Nat → W32 × Flg)
    (hg : g = fun n => f (x.getV w.rs1.toNat n) (x.getV w.rs2.toNat n) (x.getV w.rd.toNat n)) :
    ∃ e y, Does c s e ∧ OnlyCore (s.dev.vflags w.core (flagsOf ((List.range 128).map (fun n => (g n).2)))) e w.core
        (Core.retire y (ilenOf w)) ∧ y = { x with v := y.v } ∧ (∀ n, n < 128 → y.getV w.rd.toNat n = (g n).1)
      ∧ ∀ i n, n < 128 → i ≠ w.rd.toNat → y.getV i n = x.getV i n := by
  subst hx hg
  obtain ⟨e, hdoes, honly⟩ := vec_lanes he hw hi hv rfl
  rw [List.map_map, List.map_map] at honly
  refine ⟨e, _, hdoes, honly, Core.setLanes_frame _ _ _ _, fun n hn => ?_, fun i n hn hi => ?_⟩
  · rw [Core.getV_setLanes_all _ _ (by simp) _ hn, if_pos rfl]
    simp [hn]
  · rw [Core.getV_setLanes_all _ _ (by simp) _ hn, if_neg hi]

/-- What VCVT ends with, once what it needs is at hand (R386, R387). -/
def vcvtEnd (w : IW) (x : Core) (d : Dev) (rm : Nat) (desc book : List Byte) : IRes :=
  if bitAt w.fn 6 then vcvtWiden d w x (fld w.fn 3 0) book else vcvtNarrow d w x (fld w.fn 3 0) rm desc book

/-- A VCVT of a legal format and mode, with its codebook or its descriptor at hand where it takes one. -/
theorem does_vcvt {w : IW} {s : State} (hw : (Instr.vcvt w).wf = true)
    (hi : Issues s.dev (mOp 0x24) (decide (fld w.fn 10 7 = 0)) w) (hv : NoVectorDrain s.dev w.core) (hfmt : fld w.fn 3 0 < 0xB)
    (hmode : fld w.fn 5 4 ≠ 3) {d : Dev} {rm : Nat} {desc book : List Byte}
    (h : (fld w.fn 3 0 = 0xA ∧ s.dev.unitLoad w.core (fld ((s.dev.core w.core).r2 w) 47 0) 16 = .ok d book ∧ rm = 0 ∧ desc = [])
      ∨ (fld w.fn 3 0 ≠ 0xA ∧ bitAt w.fn 6 = false ∧ fld w.fn 5 4 = 2 ∧ fld ((s.dev.core w.core).r2 w) 47 0 % 64 = 0
        ∧ s.dev.unitLoad w.core (fld ((s.dev.core w.core).r2 w) 47 0) 48 = .ok d desc ∧ rm = 2 ∧ book = [])
      ∨ (fld w.fn 3 0 ≠ 0xA ∧ (bitAt w.fn 6 = true ∨ fld w.fn 5 4 ≠ 2) ∧ d = s.dev ∧ rm = fld w.fn 5 4 ∧ desc = []
        ∧ book = [])) :
    Does (.vcvt w) s (Dev.finish w.core (ilenOf w) (vcvtEnd w (s.dev.core w.core) d rm desc book)) := by
  have hdoes := does_vec (c := .vcvt w) rfl hw hi hv
  have hbad : ¬ (decide (0xB ≤ fld w.fn 3 0) || decide (fld w.fn 5 4 = 3)) = true := by
    simp only [Bool.or_eq_true, decide_eq_true_eq]
    omega
  dsimp only at hdoes
  rcases h with ⟨hA, hload, rfl, rfl⟩ | ⟨hA, hn, hsr, hal, hload, rfl, rfl⟩ | ⟨hA, hno, rfl, rfl, rfl, rfl⟩
  · rw [if_pos hA] at hdoes
    simp only [operandBytes, va48, hload] at hdoes
    rwa [if_neg hbad] at hdoes
  · have h2 : (!bitAt w.fn 6 && decide (fld w.fn 5 4 = 2)) = true := by simp [hn, hsr]
    rw [if_neg hA, if_pos h2, if_neg (fun hne => hne hal)] at hdoes
    simp only [operandBytes, va48, hload] at hdoes
    rw [if_neg hbad] at hdoes
    rw [vcvtEnd, if_neg (by rw [hn]; exact Bool.false_ne_true)]
    rwa [hsr] at hdoes
  · have h2 : ¬ (!bitAt w.fn 6 && decide (fld w.fn 5 4 = 2)) = true := by
      rcases hno with h | h <;> simp [h]
    rwa [if_neg hA, if_neg h2, if_neg hbad] at hdoes

end Sys2Proof.Machine

section

open Sys2Proof Sys2Proof.Machine Sys2Proof.Safety

/-- Settles O28. -/
theorem poolStore : Obligations.PoolStore :=
  ⟨fun _ _ _ => Pool.take_free, fun _ => Pool.take_none_iff, Pool.giveBack_free, fun _ _ _ => Pool.take_lowest,
    fun x i hp hi => ⟨insertAsc_pairwise hp hi, fun j => mem_insertAsc i j x.returned⟩, fun _ _ => ⟨_, rfl, rfl⟩,
    fun w p s _ _ => levelOf_antitone w p s⟩

/-- Settles O29. -/
theorem vectorLanes : Obligations.VectorLanes :=
  fun r hr w s hw hi hv => vecLanes_completes (exec_vecRows r hr w s) hw hi hv _ rfl _ rfl

/-- Settles O30. -/
theorem vectorMoves : Obligations.VectorMoves := by
  refine ⟨fun w s hw hi hv => ?_, fun w s hw hi hv => ?_, fun w s hw hi hv => ?_, fun w s d bs hw hi hv ha hl hp hm => ?_,
    fun w s d bs hw hi hv ha hl hp hm => ?_, fun w s hw hi hv hfmt hmode d rm desc book h => ⟨fun hwd => ?_, fun hn => ?_⟩⟩
  · obtain ⟨e, hdoes, hread⟩ := vec_lanes_read (c := .vred w) rfl hw hi hv rfl rfl
    refine ⟨e, hdoes, fun n hn => ?_⟩
    rw [hread n hn]
    cases n with
    | zero => rfl
    | succ n =>
      have hlt : n < 127 := by omega
      rw [List.map_cons, List.map_replicate, List.getD_cons_succ, List.getD_replicate _ hlt]
      rfl
  · obtain ⟨e, hdoes, hread⟩ := vec_lanes_read (c := .vbcast w) rfl hw hi hv rfl rfl
    refine ⟨e, hdoes, fun n hn => ?_⟩
    rw [hread n hn, List.map_replicate, List.getD_replicate _ hn, fld, nfld, Nat.shiftRight_zero]
    exact BitVec.eq_of_toNat_eq (by simp [Core.r1])
  · exact vec_done_mod (c := .vmovg w) (g := fun x => x.setG w.rd.toNat _) rfl hw hi hv rfl
  · exact vec_done_mod (c := .vld w) (g := fun x => x.setLanes w.rd.toNat 0 (lanesOf bs)) rfl hw hi hv
      ((addrCheck_pass ha hl).trans (by rw [if_neg (by rw [hp]; exact Bool.false_ne_true), hm]))
  · exact vec_done (c := .vst w) rfl hw hi hv
      ((addrCheck_pass ha hl).trans (by rw [if_neg (by rw [hp]; exact Bool.false_ne_true), hm]))
  · have hdoes := does_vcvt hw hi hv hfmt hmode h
    rw [vcvtEnd, if_pos hwd] at hdoes
    exact ⟨_, hdoes, onlyCore_done_mod _ _ _ _⟩
  · have hdoes := does_vcvt hw hi hv hfmt hmode h
    rw [vcvtEnd, if_neg (by rw [hn]; exact Bool.false_ne_true)] at hdoes
    exact ⟨_, hdoes, onlyCore_done_mod _ _ _ _⟩

end
end

section
/-! PROOFS. Scalar and system instructions: ALU results, branches, CSRs, fences, posts, entries and returns. -/

namespace Sys2Proof.Machine

open Sys2Proof.Safety

/-! ### Jumps -/

@[simp] theorem Core.setG_slot (x : Core) (i : Nat) (v : Word) : (x.setG i v).slot = x.slot := by
  rw [Core.slot, Core.csrOf_setG, Core.slot]

theorem jumped_slot (x : Core) (t : Nat) : (jumped x t).slot = x.slot := by
  have hcsr : (jumped x t).csrOf 0x810 = x.csrOf 0x810 := (Core.csrOf_setCsr x 0x401 0x810 _).trans (if_neg (by decide))
  rw [Core.slot, hcsr]
  rfl

/-- A jump below 2^48 is a jump of the core, with what a shipped program does at its target. -/
theorem jumps_jumpTo (d : Dev) (c : Nat) {t : Nat} (h : t < 2 ^ 48) : Jumps d ((d.endReads c).jumpTo c t) c (d.core c) t := by
  rw [Dev.jumpTo_inside _ _ _ h, Dev.endReads_core]
  refine ⟨_, onlyCore_trans (onlyCore_endReads d c) (onlyCore_setCore _ c _), rfl, fun hno => Dev.enterRings_plain _ _ ?_⟩
  intro s r hs hr
  rw [Dev.core_setCore_self] at hs ⊢
  rw [Dev.setCore_xch, Dev.endReads_eq] at hr
  exact hno s r ((jumped_slot (d.core c) t).symm.trans hs) hr

/-- A change of the core before the jump that leaves its slot. -/
theorem Jumps.of_modCore {d e : Dev} {c t : Nat} {f : Core → Core} (hf : (f (d.core c)).slot = (d.core c).slot)
    (h : Jumps (d.modCore c f) e c (f (d.core c)) t) : Jumps d e c (f (d.core c)) t := by
  obtain ⟨e0, honly, he, hno⟩ := h
  refine ⟨e0, onlyCore_trans (onlyCore_modCore d c f) honly, he, fun hplain => hno (fun s r hs hr => ?_)⟩
  rw [Dev.core_modCore_self, hf] at hs
  exact hplain s r hs hr

theorem relTarget_eq (pc : Word) (w : IW) : relTarget pc w = (pc + BitVec.ofInt 64 (offset21 w)).toNat := by
  rw [relTarget, BitVec.ofInt_add, BitVec.ofInt_natCast, BitVec.ofNat_toNat, BitVec.setWidth_eq]

section
variable {c : Instr} {op : Op} {legal : Bool} {w : IW} {body : Dev → Core → IRes} {s : State}
  (he : exec c s = run c (fun d => d.instr op legal w body) s) (hw : c.wf = true) (hi : Issues s.dev op legal w)
include he hw hi

/-- An instruction whose body links and jumps below 2^48. -/
theorem instr_links {t i : Nat} {v : Word} (ht : t < 2 ^ 48)
    (hb : body s.dev (s.dev.core w.core) = .jump (s.dev.modCore w.core (fun x => x.setG i v)) t) :
    ∃ e, Does c s e ∧ Jumps s.dev e w.core ((s.dev.core w.core).setG i v) t := by
  refine ⟨_, does_instr he hw hi, ?_⟩
  rw [hb]
  have hj := jumps_jumpTo (s.dev.modCore w.core (fun x => x.setG i v)) w.core ht
  rw [Dev.core_modCore_self] at hj
  exact Jumps.of_modCore (f := fun x => x.setG i v) (Core.setG_slot _ _ _) hj

/-- One whose body goes on elsewhere counts and goes there, after a change of its core (R117, R124). -/
theorem instr_goes {t k : Nat} {v : Word} (hk : k ≠ 0x401)
    (hb : body s.dev (s.dev.core w.core) = .go (s.dev.modCore w.core (fun x => x.setCsr k v)) t) :
    ∃ e, Does c s e ∧ OnlyCore s.dev e w.core
      ((({ (((s.dev.core w.core).setCsr k v).setCsr 0x401 ((s.dev.core w.core).csrOf 0x401 + 1)) with
        frozen := false } : Core).goTo t).resume) := by
  refine ⟨_, does_instr he hw hi, ?_⟩
  rw [hb]
  have hgo := onlyCore_trans (onlyCore_modCore s.dev w.core (fun x => x.setCsr k v)) (onlyCore_trans (onlyCore_endReads _ w.core)
    (onlyCore_modCore _ w.core
      (fun x => ({ x.setCsr 0x401 (x.csrOf 0x401 + 1) with frozen := false } : Core).goTo t |>.resume)))
  rwa [Dev.endReads_core, Dev.core_modCore_self, Core.csrOf_setCsr, if_neg (Ne.symm hk)] at hgo

/-- One whose body enters M. -/
theorem instr_enters {cause : Nat} {r : RunState} (hb : body s.dev (s.dev.core w.core) = .enter s.dev cause r) :
    ∃ e, Does c s e ∧ OnlyCore s.dev e w.core { (s.dev.core w.core).enterM cause 0 with run := r, frozen := true } :=
  ⟨_, does_instr he hw hi, by rw [hb]; exact onlyCore_enter _ _ (ilenOf w) _ _⟩

end

section
variable {c : Instr} {w : IW} {s : State} {k : Dev → Core → IRes} (he : exec c s = run c (fun d => d.mOnly w k) s)
  (hw : c.wf = true) (hi : Issues s.dev (cOp 0x12 false) (sysZero w) w) (hm : (s.dev.core w.core).atM w.core = true)
include he hw hi hm

/-- WFI, MRET and HALT at M run. -/
theorem does_mOnly : Does c s (Dev.finish w.core (ilenOf w) (k s.dev (s.dev.core w.core))) := by
  have hdoes := does_instr he hw hi
  rwa [if_pos hm] at hdoes

theorem mOnly_completes (hk : k s.dev (s.dev.core w.core) = .done s.dev) :
    ∃ e, Does c s e ∧ OnlyCore s.dev e w.core ((s.dev.core w.core).retire (ilenOf w)) :=
  ⟨_, does_mOnly he hw hi hm, by rw [hk]; exact onlyCore_done _ _ _⟩

end

/-- MRET restores the privilege from ppriv. -/
theorem Core.mret_xstatus (x : Core) : x.mret.csrOf 0x800 = setBit (x.csrOf 0x800) 0 (bitAt (x.csrOf 0x800) 1) :=
  Core.csrOf_setCsr_self x 0x800 _

/-- JCALL enters M; where a fault handler asks for the job-stop service, the job then stops (log 131). -/
theorem jcall_enters {w : IW} {s : State} (hw : (Instr.jcall w).wf = true)
    (hi : Issues s.dev (cOp 0x12 false) (sysFn w && decide (w.rs2 = 0)) w) :
    ∃ e, Does (.jcall w) s e ∧ ∃ e0, OnlyCore s.dev e0 w.core
        { (s.dev.core w.core).enterM 0x06 0 with run := .running, frozen := true }
      ∧ ((s.dev.core w.core).atM w.core = true ∨ (s.dev.core w.core).slot = none
        ∨ (s.dev.core w.core).asksStop ((s.dev.core w.core).r1 w) = false → e = e0)
      ∧ (∀ sl, (s.dev.core w.core).atM w.core = false → (s.dev.core w.core).slot = some sl →
          (s.dev.core w.core).asksStop ((s.dev.core w.core).r1 w) = true → e = e0.stopJob sl) := by
  have hdoes := does_instr (c := .jcall w) rfl hw hi
  refine ⟨_, hdoes, _, onlyCore_enter s.dev w.core (ilenOf w) 0x06 .running, ?_, ?_⟩
  · intro h
    cases hm : (s.dev.core w.core).atM w.core with
    | true => rfl
    | false =>
      cases hs : (s.dev.core w.core).slot with
      | none => rfl
      | some sl =>
        have hask : (s.dev.core w.core).asksStop ((s.dev.core w.core).r1 w) = false := by simpa [hm, hs] using h
        simp only [hask]
        rfl
  · intro sl hm hs hask
    simp only [hm, hs, hask]
    rfl

/-! ### ALU results -/

/-- Every instruction of Table 2-6 writes the result of its row. -/
theorem exec_aluRows : ∀ r ∈ aluRows, ∀ (i : Bool) (w : IW) (s : State),
    exec (r.1 i w) s = run (r.1 i w) (fun d => d.alu i w r.2) s := by
  unfold aluRows
  simp only [List.forall_mem_cons]
  exact ⟨fun _ _ _ => rfl, fun _ _ _ => rfl, fun _ _ _ => rfl, fun _ _ _ => rfl, fun _ _ _ => rfl, fun _ _ _ => rfl,
    fun _ _ _ => rfl, fun _ _ _ => rfl, fun _ _ _ => rfl, fun _ _ _ => rfl, fun _ _ _ => rfl, fun _ _ _ => rfl,
    fun _ _ _ => rfl, fun _ _ _ => rfl, fun _ _ _ => rfl, fun _ _ _ => rfl, fun _ _ _ => rfl, fun _ _ _ => rfl,
    fun _ _ _ => rfl, fun _ _ _ => rfl, fun _ _ _ => rfl, fun _ _ _ => rfl, fun _ h => absurd h List.not_mem_nil⟩

/-! ### CSRs -/

/-- A CSR instruction writes the old value to g[rd] and the new one, if any, to the CSR. -/
theorem csrOp_completes {c : Instr} {f : Word → Word → Option Word} {w : IW} {s : State}
    (he : exec c s = run c (fun d => d.csrOp w f) s) (hw : c.wf = true)
    (hi : Issues s.dev (cOp 0x11 false) (decide (fld w.rs2 4 3 = 0)) w) {d : Dev}
    (hd : d = match f (s.dev.csrRead w.core (csrNum w)) ((s.dev.core w.core).r1 w) with
      | some v => s.dev.csrWrite w.core (csrNum w) v
      | none => s.dev) :
    ∃ e, Does c s e ∧ OnlyCore d e w.core (((d.core w.core).setG w.rd.toNat (s.dev.csrRead w.core (csrNum w))).retire (ilenOf w)) := by
  subst hd
  exact instr_done_mod (f := fun x => x.setG w.rd.toNat (s.dev.csrRead w.core (csrNum w))) he hw hi rfl

/-- A write that reaches no CSR does nothing. -/
theorem Dev.csrWrite_ignored {d : Dev} {c n : Nat} (v : Word) (h : csrWritable ((d.core c).atM c) n = false) :
    d.csrWrite c n v = d := if_pos h

/-- A write at M of a CSR that the core holds stores its bits there. -/
theorem Dev.csrWrite_atM {d : Dev} {c n : Nat} (v : Word) (hm : (d.core c).atM c = true) (hn : n ∈ csrHeld) (h0 : n ≠ 0) :
    d.csrWrite c n v = d.setCore c ((d.core c).setCsr n ((d.core c).csrNew n v)) := by
  have hw : csrWritable ((d.core c).atM c) n = true := by simp [csrWritable, hm, hn]
  unfold Dev.csrWrite
  rw [if_neg (by simp [hw]), if_neg h0]

/-- The CSRs that the core holds under their own number, but for XSTATUS. -/
def csrPlain : List Nat := [0x001, 0x002, 0x003, 0x400, 0x401, 0x405, 0x406, 0x407, 0x801, 0x802, 0x803, 0x804, 0x805, 0x810]

/-- Such a CSR reads back, at M, the bits that it has of what was written. -/
theorem Dev.csrGet_csrWrite {d : Dev} {c n : Nat} (v : Word) (hm : (d.core c).atM c = true) (hn : n ∈ csrPlain) :
    (d.csrWrite c n v).csrGet c n = BitVec.ofNat 64 (v.toNat &&& csrMask n) := by
  have hheld : ∀ k ∈ csrPlain, k ∈ csrHeld ∧ k ≠ 0 ∧ k ≠ 0x402 ∧ k ≠ 0x403 ∧ k ≠ 0x404 ∧ k ≠ 0x408 ∧ k ≠ 0x800 := by decide
  obtain ⟨hin, h0, h2, h3, h4, h8, hst⟩ := hheld n hn
  rw [Dev.csrWrite_atM v hm hin h0, Dev.csrGet]
  simp only [Dev.core_setCore_self, h0, h2, h3, h4, h8, hin, if_false, if_true, Core.csrOf_setCsr_self, Core.csrNew, hst]

/-- Of a CSR of b bits a write keeps its low b bits. -/
theorem ofNat_and_ones (v : Word) {b : Nat} (hb : b ≤ 64) : (BitVec.ofNat 64 (v.toNat &&& 2 ^ b - 1)).toNat = v.toNat % 2 ^ b := by
  rw [Nat.and_two_pow_sub_one_eq_mod, BitVec.toNat_ofNat]
  exact Nat.mod_eq_of_lt ((Nat.mod_lt _ (Nat.two_pow_pos b)).trans_le (Nat.pow_le_pow_right (by decide) hb))

/-- One of 64 bits keeps all. -/
theorem Dev.csrGet_csrWrite_whole {d : Dev} {c n : Nat} (v : Word) (hm : (d.core c).atM c = true)
    (hn : n ∈ [0x001, 0x002, 0x003, 0x400, 0x401, 0x406, 0x801, 0x802, 0x804, 0x805]) : (d.csrWrite c n v).csrGet c n = v := by
  have hmask : ∀ k ∈ [0x001, 0x002, 0x003, 0x400, 0x401, 0x406, 0x801, 0x802, 0x804, 0x805],
      k ∈ csrPlain ∧ csrMask k = 2 ^ 64 - 1 := by decide
  obtain ⟨hplain, hones⟩ := hmask n hn
  rw [Dev.csrGet_csrWrite v hm hplain, hones]
  refine BitVec.eq_of_toNat_eq ?_
  rw [ofNat_and_ones v (Nat.le_refl 64), Nat.mod_eq_of_lt v.isLt]

/-- A write changes no other CSR of its core. -/
theorem Dev.csrWrite_csrOf (d : Dev) (c n k : Nat) (v : Word) (h : k ≠ n) : ((d.csrWrite c n v).core c).csrOf k = (d.core c).csrOf k := by
  rcases d.csrWrite_cases c n v with ⟨-, he⟩ | ⟨-, ⟨-, he⟩ | ⟨-, he⟩⟩
  · rw [he]
  · rw [he, Dev.core_setCore_self]
    rfl
  · rw [he, Dev.core_setCore_self, Core.csrOf_setCsr, if_neg h]

/-- XSTATUS.priv stays, whatever is written. -/
theorem Dev.csrWrite_atM_same (d : Dev) (c n : Nat) (v : Word) : ((d.csrWrite c n v).core c).atM c = (d.core c).atM c := by
  have hpriv : bitAt (((d.csrWrite c n v).core c).csrOf 0x800) 0 = bitAt ((d.core c).csrOf 0x800) 0 := by
    by_cases hn : n = 0x800
    · subst hn
      rcases d.csrWrite_cases c 0x800 v with ⟨-, he⟩ | ⟨-, ⟨h0, -⟩ | ⟨-, he⟩⟩
      · rw [he]
      · exact absurd h0 (by decide)
      · rw [he, Dev.core_setCore_self, Core.csrOf_setCsr_self, Core.csrNew, if_pos rfl, bitAt_setBit _ _ _ _ (by decide), if_pos rfl]
    · rw [d.csrWrite_csrOf c n 0x800 v (Ne.symm hn)]
  rw [Core.atM, Core.atM, hpriv]

/-- Other cores stay. -/
theorem Dev.csrWrite_other (d : Dev) (c n k : Nat) (v : Word) (h : k ≠ c) : (d.csrWrite c n v).core k = d.core k := by
  rcases d.csrWrite_cases c n v with ⟨-, he⟩ | ⟨-, ⟨-, he⟩ | ⟨-, he⟩⟩
  · rw [he]
  · rw [he, Dev.core_setCore, if_neg h]
  · rw [he, Dev.core_setCore, if_neg h]

/-! ### Fences -/

section
variable {c : Instr} {w : IW} {legal : Bool} {body : Dev → Core → IRes} {s : State} {node : Option Nat}
  (he : exec c s = run c (fun d => d.instr (cOp 0x10 false) legal w body) s) (hw : c.wf = true)
  (hi : Issues s.dev (cOp 0x10 false) legal w) (hb : body s.dev (s.dev.core w.core) = fenceRes s.dev w.core node)
include he hw hi hb

/-- A fence completes where all that it waits for is done. -/
theorem fence_completes (hq : s.dev.quiet w.core node = true) (hm : s.dev.matrixQuiet w.core = true)
    (hl : s.dev.linesOut w.core = false) :
    ∃ e, Does c s e ∧ OnlyCore s.dev e w.core ((s.dev.core w.core).retire (ilenOf w)) :=
  instr_done he hw hi (hb.trans (if_pos (by simp [hq, hm, hl])))

/-- Elsewhere it waits. -/
theorem fence_waits (h : s.dev.quiet w.core node = false ∨ s.dev.matrixQuiet w.core = false ∨ s.dev.linesOut w.core = true) :
    ∃ e, Does c s e ∧ OnlyCore s.dev e w.core { s.dev.core w.core with wait := some (.fence node), ilen := ilenOf w } :=
  instr_stall he hw hi (hb.trans (if_neg (by rcases h with h | h | h <;> simp [h])))

end

/-! ### Posts -/

/-- A ledger addition changes, of the registers, LEDGER_CE alone. -/
theorem Dev.ledgerAdd_reg (d : Dev) (k : Nat) (v : Word) {o : Nat} (h : o ≠ Reg.LEDGER_CE) : (d.ledgerAdd k v).reg o = d.reg o := by
  have hrepair : (d.ledgerRepair k).reg o = d.reg o := by
    unfold Dev.ledgerRepair
    dsimp only
    split
    · rfl
    · split
      · rfl
      · exact d.reg_satRf_ne 31 0 _ h
  unfold Dev.ledgerAdd
  dsimp only
  split
  · exact hrepair
  · rfl

theorem Dev.ledgerAdd_sch (d : Dev) (k : Nat) (v : Word) : (d.ledgerAdd k v).sch = d.sch := by
  have hrepair : (d.ledgerRepair k).sch = d.sch := by
    unfold Dev.ledgerRepair
    dsimp only
    split
    · rfl
    · split <;> rfl
  unfold Dev.ledgerAdd
  dsimp only
  split
  · exact hrepair
  · rfl

/-- The interrupt of an object shows in its SYN_CTL alone. -/
theorem Dev.synIrq_reg (d : Dev) (i : Nat) {o : Nat} (h : o ≠ Reg.SYN_CTL i) : (d.synIrq i).reg o = d.reg o := by
  unfold Dev.synIrq Dev.msix
  split
  · split <;> exact d.reg_setRb_ne 5 true h
  · rfl

theorem Dev.synIrq_sch (d : Dev) (i : Nat) : (d.synIrq i).sch = d.sch := by
  unfold Dev.synIrq Dev.msix
  split
  · split <;> rfl
  · rfl

/-- The device after a post was added to an object, before cadences look at it. -/
def Dev.posted (d : Dev) (i n : Nat) (err : Bool) : Dev :=
  let w := setFld (d.reg (Reg.SYN_STATE i)) 31 0 (d.synCount i + n)
  ((d.setReg (Reg.SYN_STATE i) (if err then setBit w 48 true else w)).ledgerAdd (ledApplied (d.group i)) (BitVec.ofNat 64 n)).synIrq i

/-- A post that does not carry is applied; where no cadence waits for its object that is all. -/
theorem Dev.postRaw_applied {d : Dev} {i n : Nat} (err : Bool) (hsum : d.synCount i + n < 2 ^ 32) (ha : d.awaiting i = []) :
    d.postRaw i n err = (d.posted i n err, true) := by
  have hsch : (d.posted i n err).sch = d.sch := (Dev.synIrq_sch _ _).trans (Dev.ledgerAdd_sch _ _ _)
  have hawait : (d.posted i n err).awaiting i = [] := by
    have hsame : (d.posted i n err).awaiting i = d.awaiting i := by
      unfold Dev.awaiting Dev.cadence
      rw [hsch]
    rw [hsame, ha]
  have hcheck : (d.posted i n err).cadenceCheck i = d.posted i n err := by rw [Dev.cadenceCheck, hawait]; rfl
  unfold Dev.postRaw
  dsimp only
  rw [if_neg (Nat.not_le.2 hsum)]
  exact congrArg (·, true) hcheck

/-- What its object shows then. -/
theorem Dev.posted_state (d : Dev) (i n : Nat) (err : Bool) : (d.posted i n err).reg (Reg.SYN_STATE i)
    = (let w := setFld (d.reg (Reg.SYN_STATE i)) 31 0 (d.synCount i + n); if err then setBit w 48 true else w) := by
  have h1 : Reg.SYN_STATE i ≠ Reg.SYN_CTL i := by unfold Reg.SYN_STATE Reg.SYN_CTL; omega
  have h2 : Reg.SYN_STATE i ≠ Reg.LEDGER_CE := by unfold Reg.SYN_STATE Reg.LEDGER_CE; omega
  unfold Dev.posted
  dsimp only
  rw [Dev.synIrq_reg _ _ h1, Dev.ledgerAdd_reg _ _ _ h2, Dev.reg_setReg_self]

theorem Dev.posted_synCount {d : Dev} {i n : Nat} (err : Bool) (hsum : d.synCount i + n < 2 ^ 32) :
    (d.posted i n err).synCount i = d.synCount i + n := by
  rw [Dev.synCount, Dev.rf, Dev.posted_state]
  cases err
  · exact (fld_setFld _ 31 0 _ (by decide)).trans (Nat.mod_eq_of_lt hsum)
  · exact (fld_setBit_apart _ 48 true 31 0 (by decide)).trans ((fld_setFld _ 31 0 _ (by decide)).trans (Nat.mod_eq_of_lt hsum))

theorem Dev.posted_synErr (d : Dev) (i n : Nat) (err : Bool) : (d.posted i n err).synErr i = (err || d.synErr i) := by
  rw [Dev.synErr, Dev.rb, Dev.posted_state]
  cases err
  · exact bitAt_setFld_apart _ 31 0 _ 48 (by decide)
  · exact (bitAt_setBit _ 48 48 true (by decide)).trans (if_pos rfl)

section
variable {w : IW} {s : State} (hw : (Instr.sopost w).wf = true) (hi : Issues s.dev (cOp 0x14 false) true w)
  (hq : s.dev.matrixQuiet w.core = true) (hl : s.dev.linesOut w.core = false)
include hw hi hq hl

/-- A SOPOST with nothing of its core in its way. -/
theorem does_sopost : Does (.sopost w) s (Dev.finish w.core (ilenOf w)
    (if syncNode ((s.dev.core w.core).r1 w) = s.dev.node then
      postLocal s.dev w ((s.dev.core w.core).r1 w) (fld ((s.dev.core w.core).r2 w) 31 0) (bitAt w.fn 2) (bitAt w.fn 3)
    else postRemote s.dev w ((s.dev.core w.core).r1 w) (fld ((s.dev.core w.core).r2 w) 31 0) (bitAt w.fn 2) (bitAt w.fn 3))) := by
  have hdoes := does_instr (c := .sopost w) rfl hw hi
  dsimp only at hdoes
  rwa [if_neg (by simp [hq]), if_neg (by simp [hl])] at hdoes

/-- To an object of this device, with its release met and no earlier post held: applied at once. -/
theorem sopost_applied (hn : syncNode ((s.dev.core w.core).r1 w) = s.dev.node)
    (ht : s.dev.mayTouch w.core (syncObj ((s.dev.core w.core).r1 w)) = true)
    (hg : s.dev.gateOpen (if bitAt w.fn 3 then s.dev.storesOf w.core else s.dev.gateOf w.core none) = true)
    (hp : (s.dev.core w.core).posts = []) {d : Dev}
    (hd : s.dev.post (syncObj ((s.dev.core w.core).r1 w)) (fld ((s.dev.core w.core).r2 w) 31 0) (bitAt w.fn 2) = (d, true)) :
    ∃ e, Does (.sopost w) s e ∧ OnlyCore d e w.core (((d.core w.core).setG w.rd.toNat 0).retire (ilenOf w)) := by
  have hdoes := does_sopost hw hi hq hl
  unfold postLocal at hdoes
  dsimp only at hdoes
  rw [if_pos hn, if_neg (by simp [ht]), if_pos (by simp [hg, hp]), hd, if_pos rfl] at hdoes
  exact ⟨_, hdoes, onlyCore_done_mod d w.core (ilenOf w) (fun x => x.setG w.rd.toNat 0)⟩

/-- With its release not met: held at the core. -/
theorem sopost_held (hn : syncNode ((s.dev.core w.core).r1 w) = s.dev.node)
    (ht : s.dev.mayTouch w.core (syncObj ((s.dev.core w.core).r1 w)) = true)
    (hg : s.dev.gateOpen (if bitAt w.fn 3 then s.dev.storesOf w.core else s.dev.gateOf w.core none) = false) :
    ∃ e, Does (.sopost w) s e ∧ OnlyCore s.dev e w.core
      ((({ s.dev.core w.core with posts := (s.dev.core w.core).posts ++ [{
            name := (s.dev.core w.core).r1 w, count := fld ((s.dev.core w.core).r2 w) 31 0, err := bitAt w.fn 2,
            gate := if bitAt w.fn 3 then s.dev.storesOf w.core else s.dev.gateOf w.core none }] } : Core).setG
        w.rd.toNat 0).retire (ilenOf w)) := by
  have hdoes := does_sopost hw hi hq hl
  unfold postLocal at hdoes
  dsimp only at hdoes
  rw [if_pos hn, if_neg (by simp [ht]), if_neg (by simp [hg])] at hdoes
  have honly := onlyCore_trans (onlyCore_modCore s.dev w.core (fun x => { x with posts := x.posts ++
      [({
          name := (s.dev.core w.core).r1 w, count := fld ((s.dev.core w.core).r2 w) 31 0, err := bitAt w.fn 2,
          gate := if bitAt w.fn 3 then s.dev.storesOf w.core else s.dev.gateOf w.core none } : HeldPost)] }))
    (onlyCore_done_mod _ w.core (ilenOf w) (fun x => x.setG w.rd.toNat 0))
  rw [Dev.core_modCore_self] at honly
  exact ⟨_, hdoes, honly⟩

/-- To another node: it leaves, and the instruction retires unless the ledger's check stops its job. -/
theorem sopost_sent {node : Nat} (hnode : node = syncNode ((s.dev.core w.core).r1 w)) (hn : node ≠ s.dev.node)
    (htopo : s.dev.inTopo node = true) {t : Tx}
    (htx : t = { s.dev.tx 0x07 4 node (s.dev.jobId (s.dev.core w.core).slotN) w.core with
      offset := syncObj ((s.dev.core w.core).r1 w) + fld ((s.dev.core w.core).r2 w) 31 0 * 2 ^ 16, err := bitAt w.fn 2 })
    (hspace : s.dev.spaceFailed t = false) {f : Dev}
    (hf : f = ((s.dev.notePost (s.dev.core w.core).slotN (fld ((s.dev.core w.core).r2 w) 31 0)).issue t
      (s.dev.gateOf w.core (if bitAt w.fn 3 then some node else none))).remoteLedgerCheck (s.dev.core w.core).slotN) :
    ∃ e, Does (.sopost w) s e ∧
      (if s.dev.runs (s.dev.core w.core).slotN = true ∧ f.runs (s.dev.core w.core).slotN = false then e = f
       else OnlyCore f e w.core (((f.core w.core).setG w.rd.toNat 0).retire (ilenOf w))) := by
  subst hnode
  have hdoes := does_sopost hw hi hq hl
  unfold postRemote at hdoes
  dsimp only at hdoes
  rw [if_neg hn, if_neg (by simp [htopo]), ← htx, if_neg (by rw [hspace]; exact Bool.false_ne_true), ← hf] at hdoes
  refine ⟨_, hdoes, ?_⟩
  split
  case isTrue hstop =>
    rw [if_pos (by simp [hstop])]
    rfl
  case isFalse hgo =>
    rw [if_neg (by simpa using hgo)]
    exact onlyCore_done_mod f w.core (ilenOf w) (fun x => x.setG w.rd.toNat 0)

end

end Sys2Proof.Machine

section

open Sys2Proof Sys2Proof.Machine Sys2Proof.Safety

/-- Settles O1. -/
theorem stepRunsTheFrontCommand : Obligations.StepRunsTheFrontCommand := fun c cs s h => by
  rw [step, h]

/-- Settles O5. -/
theorem aluResults : Obligations.AluResults :=
  fun r hr i w s hw hi => alu_writes_result (exec_aluRows r hr i w s) hw hi

/-- Settles O9. -/
theorem branchesAndJumps : Obligations.BranchesAndJumps := by
  refine ⟨fun w s hw hi => ⟨fun hp => ?_, fun hp ht => ?_⟩, fun w s hw hi ht => ?_, fun w s hw hi ht => ?_⟩
  · exact instr_done (c := .bp w) rfl hw hi (if_neg (by simp [hp]))
  · have hdoes := does_instr (c := .bp w) rfl hw hi
    rw [if_pos (by simpa using hp), relTarget_eq] at hdoes
    exact ⟨_, hdoes, jumps_jumpTo s.dev w.core ht⟩
  · exact instr_links (c := .jal w) rfl hw hi ht (by rw [relTarget_eq]; rfl)
  · exact instr_links (c := .jalr w) rfl hw hi ((Nat.div_mul_le_self _ 4).trans_lt ht) rfl

/-- Settles O10. -/
theorem csrAccess : Obligations.CsrAccess := by
  refine ⟨?_, ?_, ?_, ?_, fun d c n v hm hn => Dev.csrGet_csrWrite_whole v hm hn, ?_, Dev.csrWrite_atM_same,
    Dev.csrWrite_csrOf, Dev.csrWrite_other⟩
  · simp only [List.forall_mem_cons]
    exact ⟨fun w s hw hi => csrOp_completes (c := .csrr w) rfl hw hi rfl,
      fun w s hw hi => csrOp_completes (c := .csrw w) rfl hw hi rfl,
      fun w s hw hi => csrOp_completes (c := .csrs w) rfl hw hi rfl,
      fun w s hw hi => csrOp_completes (c := .csrc w) rfl hw hi rfl, fun _ h => absurd h List.not_mem_nil⟩
  · exact fun d c n hn hm => if_pos ⟨hn, hm⟩
  · intro d c n v hn hm
    exact d.csrWrite_ignored v (by simp [csrWritable, hm]; omega)
  · intro d c n v hn hnot
    exact d.csrWrite_ignored v (by simp [csrWritable, hnot]; omega)
  · intro d c v hm
    refine ⟨?_, ?_, ?_⟩
    · rw [Dev.csrGet_csrWrite v hm (by decide)]
      exact ofNat_and_ones (b := 16) v (by decide)
    · rw [Dev.csrGet_csrWrite v hm (by decide)]
      exact ofNat_and_ones (b := 1) v (by decide)
    · rw [Dev.csrGet_csrWrite v hm (by decide)]
      exact ofNat_and_ones (b := 8) v (by decide)

/-- Settles O15. -/
theorem fences : Obligations.Fences := by
  rintro i w node legal (⟨rfl, rfl, rfl⟩ | ⟨rfl, rfl, rfl⟩) s hw hi
  · exact ⟨fence_completes (c := .fence w) rfl hw hi rfl, fence_waits (c := .fence w) rfl hw hi rfl⟩
  · exact ⟨fence_completes (c := .fenceD w) rfl hw hi rfl, fence_waits (c := .fenceD w) rfl hw hi rfl⟩

/-- Settles O16. -/
theorem posts : Obligations.Posts := by
  refine ⟨⟨fun d i n err _ hsum ha => ?_, fun d i n err h => if_pos h⟩, fun w s hw hi hq hl =>
    ⟨fun hn ht => ⟨fun hg hp hr => sopost_applied hw hi hq hl hn ht hg hp (Prod.ext rfl hr),
      fun hg => sopost_held hw hi hq hl hn ht hg⟩, fun hn htopo hspace => sopost_sent hw hi hq hl rfl hn htopo rfl hspace rfl⟩⟩
  rw [Dev.postRaw_applied err hsum ha]
  exact ⟨rfl, Dev.posted_synCount err hsum, d.posted_synErr i n err⟩

/-- Settles O21. -/
theorem systemInstructions : Obligations.SystemInstructions := by
  refine ⟨fun w s hw hi => ?_, fun w s hw hi hm ha => ?_, fun w s hw hi hu => ?_, fun w s hw hi hm => ?_,
    fun w s hw hi hm => ?_, fun w s hw hi hm => ?_⟩
  · exact jcall_enters hw hi
  · exact instr_goes (c := .jfret w) rfl hw hi (by decide) (if_neg (by simp [hm, ha]))
  · exact instr_enters (c := .ebreak w) rfl hw hi (if_pos hu)
  · exact mOnly_completes (c := .wfi w) rfl hw hi hm rfl
  · exact instr_goes (c := .mret w) rfl hw hi (by decide) ((if_pos hm).trans (by dsimp only; rw [Core.mret_xstatus]))
  · have hdoes := does_mOnly (c := .halt w) rfl hw hi hm
    exact ⟨_, hdoes, onlyCore_done_mod s.dev w.core (ilenOf w) (fun x => { x with run := .halted })⟩

end
end

section
/-! PROOFS. Matrix instructions queue the work of the array (R353, R370 to R383); the encoder (R361, R388, R389). -/

namespace Sys2Proof.Machine

open Sys2Proof.Safety

/-! ### Instructions that change their engine -/

/-- An engine and its core's record change, and the core retires. -/
theorem onlyEngine_done_mod (d : Dev) (c n : Nat) (y : Eng) (f : Core → Core) :
    OnlyEngine d (Dev.finish c n (.done ((d.setEngine c y).modCore c f))) c ((f (d.core c)).retire n) y := by
  refine ⟨⟨true, ?_⟩, fun k => ?_, fun k => ?_⟩
  · rw [Dev.finish_done, show (d.setEngine c y).modCore c f
      = { ({ d with eng := (d.setEngine c y).eng } : Dev) with cores := ((d.setEngine c y).modCore c f).cores } from rfl,
      Dev.endReads_withCores, Dev.endReads_withEng]
    rfl
  · rw [Dev.finish_done, Dev.core_modCore]
    by_cases h : k = c
    · subst h
      rw [if_pos rfl, if_pos rfl, Dev.endReads_core, Dev.core_modCore_self]
      rfl
    · rw [if_neg h, if_neg h, Dev.endReads_core, Dev.core_modCore, if_neg h]
      rfl
  · rw [Dev.finish_done]
    have heng : ((((d.setEngine c y).modCore c f).endReads c).modCore c fun x => x.retire n).engine k = (d.setEngine c y).engine k := by
      show (((d.setEngine c y).modCore c f).endReads c).engine k = (d.setEngine c y).engine k
      rw [Dev.endReads_engine]
      rfl
    rw [heng, Dev.engine_setEngine]

section
variable {c : Instr} {op : Op} {legal : Bool} {w : IW} {body : Dev → Core → IRes} {s : State}
  (he : exec c s = run c (fun d => d.instr op legal w body) s) (hw : c.wf = true) (hi : Issues s.dev op legal w)
include he hw hi

/-- An instruction whose body changes its engine retires. -/
theorem instr_engine {d : Dev} {y : Eng} (hb : body s.dev (s.dev.core w.core) = .done (d.setEngine w.core y)) :
    ∃ e, Does c s e ∧ OnlyEngine d e w.core ((d.core w.core).retire (ilenOf w)) y :=
  ⟨_, does_instr he hw hi, by rw [hb]; exact onlyEngine_done d w.core (ilenOf w) y⟩

/-- One whose body changes its engine and its core. -/
theorem instr_engine_mod {d : Dev} {y : Eng} {f : Core → Core}
    (hb : body s.dev (s.dev.core w.core) = .done ((d.setEngine w.core y).modCore w.core f)) :
    ∃ e, Does c s e ∧ OnlyEngine d e w.core ((f (d.core w.core)).retire (ilenOf w)) y :=
  ⟨_, does_instr he hw hi, by rw [hb]; exact onlyEngine_done_mod d w.core (ilenOf w) y f⟩

end

/-! ### MTSTAT and MANCHOR -/

/-- A drain with free that is queued on a handle is unfinished work on it. -/
theorem Eng.freeIssued_of_busyHandle {x : Eng} {h : Nat} (hb : x.busyHandle h = false) : x.freeIssued h = false := by
  rw [Eng.busyHandle, List.any_eq_false] at hb
  rw [Eng.freeIssued, List.any_eq_false]
  intro y hy
  obtain ⟨m, hm, hmy⟩ := List.mem_filterMap.1 hy
  split at hmy
  case h_1 z =>
    obtain rfl : z = y := Option.some.inj hmy
    have hne : ¬ z.handle = h := fun heq => hb _ hm (decide_eq_true heq)
    simp [hne]
  case h_2 => exact absurd hmy (by simp)

/-- MTSTAT on a handle without unfinished work. -/
theorem mtstat_completes {w : IW} {s : State} (hw : (Instr.mtstat w).wf = true)
    (hi : Issues s.dev (mOp 0x1B) (decide (fld w.fn 10 1 = 0) && !bitAt w.rs2 4) w)
    (hb : (s.dev.engine w.core).busyHandle (fld w.rs2 3 0) = false) :
    ∃ e, Does (.mtstat w) s e ∧ OnlyCore s.dev e w.core
      (((s.dev.core w.core).setG w.rd.toNat ((s.dev.engine w.core).status (fld w.rs2 3 0))).retire (ilenOf w)) :=
  instr_done_mod (c := .mtstat w) (f := fun x => x.setG w.rd.toNat ((s.dev.engine w.core).status (fld w.rs2 3 0))) rfl hw hi
    ((if_neg (by simp [Eng.freeIssued_of_busyHandle hb])).trans (if_neg (by simp [hb])))

section
variable {w : IW} {s : State} (hw : (Instr.manchorPropose w).wf = true)
  (hi : Issues s.dev (mOp 0x18) (decide (fld w.fn 10 1 = 0)) w)
include hw hi

/-- MANCHOR propose on legal descriptors whose gobs are at hand (R370 to R374). -/
theorem manchorPropose_completes {d2 d3 : Dev} {ws vs : List Nat} (hd2 : s.dev.desc w.core ((s.dev.core w.core).r1 w) 8 = .ok d2 ws)
    (hd3 : d2.desc w.core ((s.dev.core w.core).r2 w) 4 = .ok d3 vs) {a : ADesc} (ha : a = adescOf ws) {wd : WDesc}
    (hwd : wd = wdescOf vs) {q : Nat} (hq : q = (d3.engine w.core).streamHead wd) {bs : List WBlock}
    (hbs : bs = (List.range a.nkb).map (fun j => d3.weightBlock w.core wd q a.kb (a.kb + j)))
    (hfa : a.fmtOk = true) (hfw : wd.fmtOk = true) (hin : a.inStore = true) (hbook : wd.efmt = 0xA → wd.cbook * 64 + 16 ≤ storeBytes)
    (hdr : (d3.engine w.core).drains = []) (hl : d3.linesOut w.core = false)
    (hst : ∀ j, j < a.nkb → a.kb + j < wd.nkb → (d3.engine w.core).stands wd q a.kb (a.kb + j) = true)
    (hbad : ∀ b ∈ bs, b.bad = 0) :
    ∃ e, Does (.manchorPropose w) s e ∧ OnlyCore d3 e w.core
      (((d3.core w.core).setG w.rd.toNat (BitVec.ofInt 64 (proposal (logOf (d3.actVals w.core a))
        (logOf (blockVals wd (d3.book w.core wd.efmt wd.cbook) bs))))).retire (ilenOf w)) := by
  subst ha hwd hq hbs
  have hfind : ((List.range (adescOf ws).nkb).map (fun j => ((adescOf ws).kb + j,
      d3.weightBlock w.core (wdescOf vs) ((d3.engine w.core).streamHead (wdescOf vs)) (adescOf ws).kb ((adescOf ws).kb + j)))).find?
      (fun b => decide (b.2.bad ≠ 0)) = none := by
    refine List.find?_eq_none.2 (fun b hb => ?_)
    obtain ⟨j, hj, rfl⟩ := List.mem_map.1 hb
    simpa using hbad _ (List.mem_map.2 ⟨j, hj, rfl⟩)
  refine instr_done_mod (c := .manchorPropose w) (f := fun x => x.setG w.rd.toNat _) rfl hw hi ?_
  dsimp only
  rw [hd2]
  dsimp only
  rw [hd3]
  dsimp only
  rw [if_neg (by simp [hfa, hfw]), if_neg (by simpa [hin] using hbook), if_neg (by simp [hdr]), if_neg (by simp [hl]),
    if_neg ?_, hfind]
  · simp only [List.map_map]
    rfl
  · simp only [List.any_eq_true, List.mem_range, Bool.and_eq_true, decide_eq_true_eq, Bool.not_eq_true']
    rintro ⟨j, hj, hlt, hno⟩
    exact absurd (hst j hj hlt) (by simp [hno])

end

section
variable {w : IW} {s : State} (hw : (Instr.manchorSet w).wf = true)
  (hi : Issues s.dev (mOp 0x18) (decide (fld w.fn 10 1 = 0) && !bitAt w.rd 4) w)
  (hf : (s.dev.engine w.core).freeIssued (fld w.rd 3 0) = false) (hb : (s.dev.engine w.core).busyHandle (fld w.rd 3 0) = false)
include hw hi hf hb

/-- MANCHOR set of a live AX96 tile of these rows. -/
theorem manchorSet_tile {t : Tile} (ht : (s.dev.engine w.core).tile (fld w.rd 3 0) = some t) (hfmt : t.fmt = .ax96)
    (hrows : t.rows = fld ((s.dev.core w.core).r2 w) 15 0) (hp : t.promoted = false) :
    ∃ e, Does (.manchorSet w) s e ∧ OnlyEngine s.dev e w.core ((s.dev.core w.core).retire (ilenOf w))
      ((s.dev.engine w.core).setTile (fld w.rd 3 0) (some { t with anchor := some (sval 16 ((s.dev.core w.core).r1 w).toNat) })) := by
  refine instr_engine (c := .manchorSet w) rfl hw hi ?_
  dsimp only
  rw [if_neg (by simp [hf]), ht]
  dsimp only
  rw [if_neg (by simp [hfmt, hrows]), if_neg (by simp [hb]), if_neg (by simp [hp])]

/-- MANCHOR set of a handle that is not live. -/
theorem manchorSet_alloc (ht : (s.dev.engine w.core).tile (fld w.rd 3 0) = none) (hfull : (s.dev.engine w.core).full = false)
    (ha : (s.dev.engine w.core).canAlloc .ax96 (fld ((s.dev.core w.core).r2 w) 15 0) = true) :
    ∃ e, Does (.manchorSet w) s e ∧ OnlyEngine s.dev e w.core ((s.dev.core w.core).retire (ilenOf w))
      ((s.dev.engine w.core).alloc w.core (fld w.rd 3 0) (fld ((s.dev.core w.core).r2 w) 15 0) .ax96
        (some (sval 16 ((s.dev.core w.core).r1 w).toNat))) := by
  refine instr_engine (c := .manchorSet w) rfl hw hi ?_
  dsimp only
  rw [if_neg (by simp [hf]), ht]
  dsimp only
  rw [if_neg (by simp [hb]), if_neg (by simp [hfull]), if_neg (by simp [ha])]

end

/-! ### MLOADW, MSTREAM and MDRAIN -/

/-- MLOADW queues one fill (R378, R379). -/
theorem mloadw_queues {w : IW} {s : State} {d2 : Dev} {ws : List Nat} (hw : (Instr.mloadw w).wf = true)
    (hi : Issues s.dev (mOp 0x19) (decide (fld w.fn 10 1 = 0)) w)
    (hd : s.dev.desc w.core ((s.dev.core w.core).r1 w) 4 = .ok d2 ws) {kb q : Nat}
    (hkb : kb = fld ((s.dev.core w.core).r2 w) 15 0) (hq : q = fld ((s.dev.core w.core).r2 w) 47 16) {f : Fill}
    (hf : f = {
      core := w.core, pc := (s.dev.core w.core).pc.toNat, wd := wdescOf ws, kb := kb, q := q,
      rel := bitAt w.fn 0 && (wdescOf ws).viaStream, stage := 0, blocks := [], book := [], waited := false })
    (hfmt : (wdescOf ws).fmtOk = true) (hbook : (wdescOf ws).bookPast = false)
    (hpast : (wdescOf ws).past kb (fewBlocks (d2.fillPairs w.core (wdescOf ws) q kb)) = false)
    (hfull : (d2.engine w.core).full = false) (hdr : (d2.engine w.core).drainHits f = false) (hl : d2.lineHits w.core f = false) :
    ∃ e, Does (.mloadw w) s e ∧ OnlyEngine d2 e w.core ((d2.core w.core).retire (ilenOf w))
      { d2.engine w.core with fills := (d2.engine w.core).fills ++ [f] } := by
  subst hkb hq
  refine instr_engine (c := .mloadw w) rfl hw hi ?_
  dsimp only
  rw [hd]
  dsimp only
  rw [← hf, if_neg (by simp [hfmt]), if_neg (by simp [hbook, hpast]), if_neg (by simp [hfull, hdr]), if_neg (by simp [hl])]

/-- A pass that no fault stops has weights. -/
theorem Eng.streamFault_weights {x : Eng} {h : Nat} {a : ADesc} {wd : Option WDesc} {rows : Nat} {fmt : AccFmt} {g past : Bool}
    (h0 : x.streamFault h a wd rows fmt g past = 0) : some (wd.getD (wdescOf [])) = wd := by
  cases wd with
  | some y => rfl
  | none =>
    unfold Eng.streamFault at h0
    dsimp only at h0
    split_ifs at h0

/-- Whether the weights of a pass, if it has any, run past their tensor. -/
def Dev.passPast (d : Dev) (e : Nat) (a : ADesc) (wd : Option WDesc) (fmt : AccFmt) (newW gather : Bool) : Bool :=
  match wd with
  | some z => d.weightsPast e a z fmt newW gather
  | none => false

/-- The rest of MSTREAM, once its descriptors are at hand: it queues one pass. -/
theorem mstreamGo_queues {w : IW} {x : Core} {a : ADesc} {wd : Option WDesc} {gather : Option (List Byte)} {d : Dev} {fmt : AccFmt}
    {rows : Nat} (hfmt : accOf (fld w.fn 1 0) = some fmt)
    (hrows : rows = if fld (x.r2 w) 15 0 = 0 then (a.m + 15) / 16 * 16 else fld (x.r2 w) 15 0)
    (hfault : (d.engine w.core).streamFault (fld w.rd 3 0) a wd rows fmt gather.isSome
      (d.passPast w.core a wd fmt (bitAt w.fn 3) gather.isSome) = 0)
    (hfull : (d.engine w.core).full = false) (hroom : (d.engine w.core).passes.length < 5) :
    ∃ p : Pass, mstreamGo w x a wd gather d = .done ((d.setEngine w.core
        { (if (d.engine w.core).liveInfo (fld w.rd 3 0) = none then
            (d.engine w.core).alloc w.core (fld w.rd 3 0) rows fmt none else d.engine w.core) with
          work := (if (d.engine w.core).liveInfo (fld w.rd 3 0) = none then
            (d.engine w.core).alloc w.core (fld w.rd 3 0) rows fmt none else d.engine w.core).work ++ [.pass p] }).modCore
        w.core Core.countPass)
      ∧ p.handle = fld w.rd 3 0 ∧ p.ad = a ∧ p.fmt = fmt ∧ p.newW = bitAt w.fn 3 ∧ p.gather = gather ∧ p.tileRows = rows
      ∧ some p.wd = wd := by
  refine ⟨{
      core := w.core, pc := x.pc.toNat, handle := fld w.rd 3 0, ad := a, newW := bitAt w.fn 3, gather := gather,
      wd := wd.getD (wdescOf []), tileRows := rows, fmt := fmt, num := x.passNum, waited := false, lacks := [] },
    ?_, rfl, rfl, rfl, rfl, rfl, rfl, Eng.streamFault_weights hfault⟩
  unfold mstreamGo
  dsimp only
  rw [hfmt]
  dsimp only
  rw [← hrows, if_neg (by rw [not_not]; exact hfault), if_neg (by simp [hfull, hroom])]

/-- MSTREAM goes on with the weights that are known without gather, or with those and the map that its descriptor names. -/
theorem does_mstream {w : IW} {s : State} {d2 d : Dev} {ws : List Nat} {wd : Option WDesc} {gather : Option (List Byte)}
    (hw : (Instr.mstream w).wf = true) (hi : Issues s.dev (mOp 0x1A) (decide (fld w.fn 10 4 = 0) && !bitAt w.rd 4) w)
    (hd : s.dev.desc w.core ((s.dev.core w.core).r1 w) 8 = .ok d2 ws)
    (h : (bitAt w.fn 2 = false ∧ d = d2 ∧ gather = none
        ∧ wd = (if bitAt w.fn 3 then (d2.engine w.core).unclaimed.head?.map (fun f => f.wd) else (d2.engine w.core).keptW))
      ∨ (bitAt w.fn 2 = true ∧ ∃ (d3 : Dev) (vs : List Nat) (bs : List Byte),
          d2.desc w.core (BitVec.ofNat 64 (adescOf ws).wdesc) 4 = .ok d3 vs
          ∧ d3.unitLoad w.core ((adescOf ws).amap + (adescOf ws).kb / 4) (((adescOf ws).kb % 4 + (adescOf ws).nkb + 3) / 4)
            = .ok d bs
          ∧ gather = some bs ∧ wd = some (wdescOf vs))) :
    Does (.mstream w) s (Dev.finish w.core (ilenOf w) (mstreamGo w (s.dev.core w.core) (adescOf ws) wd gather d)) := by
  have hdoes := does_instr (c := .mstream w) rfl hw hi
  dsimp only at hdoes
  rw [hd] at hdoes
  dsimp only at hdoes
  rcases h with ⟨hg, rfl, rfl, rfl⟩ | ⟨hg, d3, vs, bs, hvs, hbs, rfl, rfl⟩
  · rwa [if_neg (by simp [hg])] at hdoes
  · rw [if_pos hg, hvs] at hdoes
    dsimp only at hdoes
    rw [hbs] at hdoes
    exact hdoes

/-- MSTREAM queues one pass, allocates a handle that is not live and counts the pass in its entry (R353, R375 to R377). -/
theorem mstream_queues {w : IW} {s : State} {d2 d : Dev} {ws : List Nat} {fmt : AccFmt} {wd : Option WDesc}
    {gather : Option (List Byte)} (hw : (Instr.mstream w).wf = true)
    (hi : Issues s.dev (mOp 0x1A) (decide (fld w.fn 10 4 = 0) && !bitAt w.rd 4) w)
    (hd : s.dev.desc w.core ((s.dev.core w.core).r1 w) 8 = .ok d2 ws) (hfmt : accOf (fld w.fn 1 0) = some fmt)
    (h : (bitAt w.fn 2 = false ∧ d = d2 ∧ gather = none
        ∧ wd = (if bitAt w.fn 3 then (d2.engine w.core).unclaimed.head?.map (fun f => f.wd) else (d2.engine w.core).keptW))
      ∨ (bitAt w.fn 2 = true ∧ ∃ (d3 : Dev) (vs : List Nat) (bs : List Byte),
          d2.desc w.core (BitVec.ofNat 64 (adescOf ws).wdesc) 4 = .ok d3 vs
          ∧ d3.unitLoad w.core ((adescOf ws).amap + (adescOf ws).kb / 4) (((adescOf ws).kb % 4 + (adescOf ws).nkb + 3) / 4)
            = .ok d bs
          ∧ gather = some bs ∧ wd = some (wdescOf vs)))
    {rows : Nat} (hrows : rows = if fld ((s.dev.core w.core).r2 w) 15 0 = 0 then ((adescOf ws).m + 15) / 16 * 16
      else fld ((s.dev.core w.core).r2 w) 15 0)
    (hfault : (d.engine w.core).streamFault (fld w.rd 3 0) (adescOf ws) wd rows fmt gather.isSome
      (d.passPast w.core (adescOf ws) wd fmt (bitAt w.fn 3) gather.isSome) = 0)
    (hfull : (d.engine w.core).full = false) (hroom : (d.engine w.core).passes.length < 5) :
    ∃ (e : Dev) (p : Pass), Does (.mstream w) s e
      ∧ OnlyEngine d e w.core ((d.core w.core).countPass.retire (ilenOf w))
          { (if (d.engine w.core).liveInfo (fld w.rd 3 0) = none then
              (d.engine w.core).alloc w.core (fld w.rd 3 0) rows fmt none else d.engine w.core) with
            work := (if (d.engine w.core).liveInfo (fld w.rd 3 0) = none then
              (d.engine w.core).alloc w.core (fld w.rd 3 0) rows fmt none else d.engine w.core).work ++ [.pass p] }
      ∧ p.handle = fld w.rd 3 0 ∧ p.ad = adescOf ws ∧ p.fmt = fmt ∧ p.newW = bitAt w.fn 3 ∧ p.gather = gather ∧ p.tileRows = rows
      ∧ some p.wd = wd := by
  obtain ⟨p, hgo, hp⟩ := mstreamGo_queues (x := s.dev.core w.core) hfmt hrows hfault hfull hroom
  have hdoes := does_mstream hw hi hd h
  rw [hgo] at hdoes
  exact ⟨_, p, hdoes, onlyEngine_done_mod d w.core (ilenOf w) _ Core.countPass, hp⟩

/-- MDRAIN queues one drain behind the work before it (R380, R381). -/
theorem mdrain_queues {w : IW} {s : State} {d2 d3 : Dev} {ws : List Nat} {rnd : List Byte} {i : AccFmt × Nat}
    (hw : (Instr.mdrain w).wf = true) (hi : Issues s.dev (mOp 0x1B) (decide (fld w.fn 10 7 = 0) && !bitAt w.rd 4) w)
    (hd : s.dev.desc w.core ((s.dev.core w.core).r1 w) 8 = .ok d2 ws)
    (h : (fld w.fn 6 5 ≠ 2 ∧ d3 = d2 ∧ rnd = [])
      ∨ (fld w.fn 6 5 = 2 ∧ ∃ rs, d2.desc w.core (BitVec.ofNat 64 (nfld (dw ws 2) 47 0)) 6 = .ok d3 rs
          ∧ rnd = rs.flatMap (leBytes 8)))
    {z : Drain} (hz : z = drainOf w (s.dev.core w.core) ws i.2 rnd) (hlive : (d2.engine w.core).liveInfo (fld w.rd 3 0) = some i)
    (hfree : (d2.engine w.core).freeIssued (fld w.rd 3 0) = false) (hfault : z.fault i.1 i.2 (nfld (dw ws 1) 31 16) = 0)
    (hfull : (d2.engine w.core).full = false) (hmeets : ∀ f ∈ (d2.engine w.core).fills, z.fillMeets (d2.engine w.core) f = false)
    (hstore : z.toVec = false → ∀ i, i < z.nrows → d3.storeLine w.core (z.obase * 64 + i * z.opitch * 64) z.rowLen = false)
    (hmap : z.map = true → d3.lineDue w.core false z.mapVa 1 = false) :
    ∃ e, Does (.mdrain w) s e ∧ OnlyEngine d3 e w.core
      (({ d3.core w.core with
          entry := (d3.core w.core).entry.map (fun n => { n with nextUnit := n.nextUnit + 1 }) } : Core).retire (ilenOf w))
      { d2.engine w.core with work := (d2.engine w.core).work ++ [.drain z] } := by
  have hfills : ¬ ((d2.engine w.core).full || (d2.engine w.core).fills.any (fun f => z.fillMeets (d2.engine w.core) f)) = true := by
    simpa [hfull] using hmeets
  have hlines : ¬ ((List.range z.nrows).any (fun i => !z.toVec && d3.storeLine w.core (z.obase * 64 + i * z.opitch * 64) z.rowLen)
      || (z.map && d3.lineDue w.core false z.mapVa 1)) = true := by
    simp only [Bool.or_eq_true, List.any_eq_true, List.mem_range, Bool.and_eq_true, Bool.not_eq_true']
    rintro (⟨k, hk, hv, hs⟩ | ⟨hm, hdue⟩)
    · exact absurd (hstore hv k hk) (by simp [hs])
    · exact absurd (hmap hm) (by simp [hdue])
  refine instr_engine_mod (c := .mdrain w) (f := fun c => { c with
    entry := c.entry.map (fun n => { n with nextUnit := n.nextUnit + 1 }) }) rfl hw hi ?_
  dsimp only
  rw [hd]
  dsimp only
  rw [hlive]
  dsimp only
  rcases h with ⟨hr, rfl, rfl⟩ | ⟨hr, rs, hrs, rfl⟩
  · rw [← hz, if_neg hr, if_neg (by simp [hfree]), if_neg (by rw [not_not]; exact hfault), if_neg hfills, if_neg hlines]
  · rw [if_pos hr, hrs]
    dsimp only
    rw [← hz, if_neg (by simp [hfree]), if_neg (by rw [not_not]; exact hfault), if_neg hfills, if_neg hlines]

/-! ### The encoder -/

/-- What is queued for the encoder, and the units of the entry that it will commit. -/
theorem Dev.encQueue_eq (d : Dev) (c : Nat) (y : EncWork) (units : Nat) : d.encQueue c y units
    = (d.setEngine c { d.engine c with enc := (d.engine c).enc ++ [y] }).modCore c (fun x =>
      { x with entry := x.entry.map (fun n => { n with nextUnit := n.nextUnit + units }) }) := rfl

/-- VSPENC encode queues one operation and counts its gobs (R388). -/
theorem vspencEncode_queues {w : IW} {s : State} {d : Dev} {ws : List Nat} (hw : (Instr.vspencEncode w).wf = true)
    (hi : Issues s.dev (mOp 0x27) (decide (fld w.fn 10 2 = 0)) w)
    (hd : s.dev.desc w.core ((s.dev.core w.core).r1 w) 4 = .ok d ws) (hf : (edescOf ws).fault = 0) :
    ∃ (e : Dev) (y : EncWork), Does (.vspencEncode w) s e
      ∧ OnlyEngine d e w.core (({ d.core w.core with entry := (d.core w.core).entry.map (fun n =>
            { n with nextUnit := n.nextUnit + (edescOf ws).gobs }) } : Core).retire (ilenOf w))
          { d.engine w.core with enc := (d.engine w.core).enc ++ [y] }
      ∧ y.map = false ∧ y.desc = ws.map (BitVec.ofNat 64) ∧ y.so = (edescOf ws).so := by
  have hdoes := does_instr (c := .vspencEncode w) rfl hw hi
  dsimp only at hdoes
  rw [hd] at hdoes
  dsimp only at hdoes
  rw [if_neg (by rw [not_not]; exact hf), Dev.encQueue_eq] at hdoes
  exact ⟨_, _, hdoes, onlyEngine_done_mod _ _ _ _ _, rfl, rfl, rfl⟩

/-- VSPENC map queues one operation (R389). -/
theorem vspencMap_queues {w : IW} {s : State} {d : Dev} {ws : List Nat} (hw : (Instr.vspencMap w).wf = true)
    (hi : Issues s.dev (mOp 0x27) (decide (fld w.fn 10 2 = 0)) w)
    (hd : s.dev.desc w.core ((s.dev.core w.core).r1 w) 8 = .ok d ws) (hf : (adescOf ws).fmtOk = true)
    (hin : (adescOf ws).inStore = true) :
    ∃ (e : Dev) (y : EncWork), Does (.vspencMap w) s e
      ∧ (e.engine w.core) = { d.engine w.core with enc := (d.engine w.core).enc ++ [y] }
      ∧ y.map = true ∧ y.desc = ws.map (BitVec.ofNat 64) ∧ y.so = fld ((s.dev.core w.core).r2 w) 15 0
      ∧ (e.core w.core).getG = (d.core w.core).getG := by
  have hdoes := does_instr (c := .vspencMap w) rfl hw hi
  dsimp only at hdoes
  rw [hd] at hdoes
  dsimp only at hdoes
  rw [if_neg (by simp [hf]), if_neg (by simp [hin]), Dev.encQueue_eq] at hdoes
  obtain ⟨-, hcore, heng⟩ := onlyEngine_done_mod d w.core (ilenOf w) _ _
  refine ⟨_, _, hdoes, (heng w.core).trans (if_pos rfl), rfl, rfl, rfl, ?_⟩
  rw [hcore w.core, if_pos rfl]
  exact funext fun i => rfl

/-- The oldest operation of the encoder, a map whose bytes can be written. -/
theorem encComplete_map {d d2 : Dev} {e : Nat} {y : EncWork} {ys : List EncWork} {bs : List Byte} (h : (d.engine e).enc = y :: ys)
    (hm : y.map = true) {a : ADesc} (ha : a = adescOf (y.desc.map BitVec.toNat))
    (hb : d.mapBlocks e a ((List.range a.nkb).map (fun j => a.kb + j)) = .ok d2 bs) :
    d.encComplete e = ((d2.modEngine e (fun x => { x with enc := ys })).unitDone y.slot e).donePost y.slot e y.so 1 false := by
  subst ha
  unfold Dev.encComplete
  rw [h]
  dsimp only
  rw [if_pos hm, hb]

/-- The oldest operation of the encoder, an encode whose turn it is and whose gobs can be written. -/
theorem encComplete_gobs {d d2 : Dev} {e : Nat} {y : EncWork} {ys : List EncWork} (h : (d.engine e).enc = y :: ys)
    (hm : y.map = false) (hu : y.unit = ((d.core y.core).entry.map (fun n => n.units)).getD y.unit) {x : EDesc}
    (hx : x = edescOf (y.desc.map BitVec.toNat))
    (hg : (d.modEngine e (fun x => { x with enc := ys })).encGobs e y.slot x x.gobs 0 = (d2, none)) :
    d.encComplete e = (d2.unitPost y.slot y.so 1 false).engMoved e := by
  subst hx
  unfold Dev.encComplete
  rw [h]
  dsimp only
  rw [if_neg (by simp [hm]), if_neg (by rw [not_not]; exact hu), hg]

end Sys2Proof.Machine

section

open Sys2Proof Sys2Proof.Machine Sys2Proof.Safety

/-- Settles O22. -/
theorem anchorsAndStatus : Obligations.AnchorsAndStatus :=
  ⟨fun _ _ => mtstat_completes,
    fun _ _ _ _ _ _ hw hi hd2 hd3 hfa hfw hin hbook hdr hl hst hbad =>
      manchorPropose_completes hw hi hd2 hd3 rfl rfl rfl rfl hfa hfw hin hbook hdr hl hst hbad,
    fun _ _ hw hi hf hb => ⟨fun _ ht hfmt hrows hp => manchorSet_tile hw hi hf hb ht hfmt hrows hp,
      fun ht hfull ha => manchorSet_alloc hw hi hf hb ht hfull ha⟩⟩

/-- Settles O23. -/
theorem matrixWorkQueues : Obligations.MatrixWorkQueues :=
  ⟨fun _ _ _ _ hw hi hd hfmt hbook hpast hfull hdr hl => mloadw_queues hw hi hd rfl rfl rfl hfmt hbook hpast hfull hdr hl,
    fun _ _ _ _ _ hw hi hd hfmt _ _ _ h hfault hfull hroom => mstream_queues hw hi hd hfmt h rfl hfault hfull hroom,
    fun _ _ _ _ _ _ _ hw hi hd h hlive hfree hfault hfull hmeets hstore hmap =>
      mdrain_queues hw hi hd h rfl hlive hfree hfault hfull hmeets hstore hmap⟩

/-- Settles O31. -/
theorem encoding : Obligations.Encoding := by
  refine ⟨fun _ _ _ _ => vspencEncode_queues, fun _ _ _ _ => vspencMap_queues, fun e s y ys hw h => ⟨fun d2 bs hm hb => ?_,
    fun d2 hm hu hg => ?_⟩⟩
  · have hdoes := does_of_run (c := .vspencCompletion e) (s := s) rfl hw
    rwa [encComplete_map h hm rfl hb] at hdoes
  · have hdoes := does_of_run (c := .vspencCompletion e) (s := s) rfl hw
    rwa [encComplete_gobs h hm hu rfl hg] at hdoes

end
end

section
/-! PROOFS. The work of the array: a drain without a map forgets the lines that its unit has at hand; passes run (R305, R309,
R311, R317). -/

namespace Sys2Proof.Machine

open Sys2Proof.Safety

/-! ### A drain with no rows at an engine for which a line of far data is at hand -/

/-- A drain of no rows of tile 0, without a map. -/
def emptyDrain : Drain :=
  { core := 0, pc := 0, handle := 0, free := false, zfill := false, map := false, toVec := false, rmode := 0, obase := 0, ofmt := 0,
    opitch := 0, r0 := 0, nrows := 0, vb := 0, rnd := [], ncol := 0, c0 := 0, amap := 0, unit := 0 }

/-- Engine 0 with that drain at the head of its work, and one line of slot 0 at hand for its unit. -/
def drainState : State :=
  { State.reset with dev := { Dev.reset with
      eng := [(0, { Eng.reset with work := [.drain emptyDrain], tiles := [(0, some (Tile.new .ax96 16 none))] })]
      tir := { Dev.reset.tir with lines := [(0, 0, 0, [])] } } }

/-- The lines of far data at hand after a command. -/
def linesAfter : Host.Outcome State Fault Refusal → List (Nat × Nat × Nat × List Byte)
  | .next t => t.dev.tir.lines
  | _ => []

/-- DRAIN_COMMIT forgets the line: the unit is done with what it had at hand. -/
theorem drainState_lines : linesAfter (exec (.drainCommit 0) drainState) = [] := by decide

/-- The device that the statement names still has it. -/
theorem drainState_claimed :
    ((((drainState.dev.setEngine 0 ({ drainState.dev.engine 0 with work := [] }.setTile 0 (some (Tile.new .ax96 16 none)))).drainRows
      0 emptyDrain []).commitUnit 0 0 emptyDrain.rowLen []).engMoved 0).tir.lines = [(0, 0, 0, [])] := by decide

/-! ### Passes -/

/-- A free value drawn for a register leaves engines and the other registers. -/
theorem Dev.freeCycles_engine (d : Dev) (r k : Nat) : (d.freeCycles r).engine k = d.engine k := rfl

theorem Dev.freeCycles_reg (d : Dev) {r o : Nat} (h : o ≠ r) : (d.freeCycles r).reg o = d.reg o :=
  Dev.reg_setReg_ne _ _ h

/-- A count of 64 bits. -/
theorem Dev.addRf_word (d : Dev) (o n : Nat) : (d.addRf o 63 0 n).reg o = d.reg o + BitVec.ofNat 64 n := by
  have hwhole : ∀ v : Word, fld v 63 0 = v.toNat := fun v => fld_zero_of_lt v v.isLt
  refine BitVec.eq_of_toNat_eq ?_
  rw [← hwhole, Dev.addRf, Dev.setRf, Dev.reg_setReg_self, fld_setFld _ 63 0 _ (by decide), Dev.rf, hwhole, BitVec.toNat_add,
    BitVec.toNat_ofNat, Nat.add_mod_mod]

/-- A pass without gather over weights that cover its K blocks runs its rows through its tile. -/
theorem passRun_streams {d : Dev} {e : Nat} {p : Pass} {bs : List PassBlock} {t : Tile} (hg : p.gather = none)
    (ht : (d.engine e).tile p.handle = some t) (ha : t.fmt = .ax96 → t.anchor.isSome = true) :
    ∃ (d' : Dev) (t2 : Tile), d.passRun e p bs 1 false = d'.engMoved e
      ∧ d'.engine e = (d.engine e).setTile p.handle (some t2)
      ∧ t2.acc = (d.runRows e p.ad bs (d.fedRows e p.ad) t).acc
      ∧ d'.reg (Reg.ENG_ROWS e) = d.reg (Reg.ENG_ROWS e) + BitVec.ofNat 64 (d.fedRows e p.ad).length := by
  have hne : Reg.ENG_ROWS e ≠ Reg.ENG_BUBBLES e := by unfold Reg.ENG_ROWS Reg.ENG_BUBBLES; omega
  have hanchor : ∀ runs : Bool, ¬ (decide (t.fmt = .ax96) && t.anchor.isNone && runs) = true := by
    intro runs hall
    simp only [Bool.and_eq_true, decide_eq_true_eq, Option.isNone_iff_eq_none] at hall
    obtain ⟨⟨hfmt, hnone⟩, -⟩ := hall
    exact absurd (ha hfmt) (by simp [hnone])
  unfold Dev.passRun
  dsimp only
  rw [ht]
  dsimp only
  rw [if_neg (hanchor _), hg, Option.isNone_none, Bool.or_true, Bool.and_true, Nat.mul_one, if_neg Bool.false_ne_true]
  by_cases hfed : d.fedRows e p.ad = []
  · rw [hfed]
    refine ⟨_, t.passed p [], rfl, (Dev.engine_setEngine_self d e _), rfl, ?_⟩
    exact Dev.addRf_word (d.setEngine e _) _ _
  · rw [if_pos (decide_eq_true hfed), if_pos (decide_eq_true hfed)]
    refine ⟨_, (d.runRows e p.ad bs (d.fedRows e p.ad) t).passed p (d.fedRows e p.ad), rfl, ?_, rfl, ?_⟩
    · exact Dev.engine_setEngine_self d e _
    · rw [Dev.freeCycles_reg _ hne, Dev.addRf_word]
      rfl

/-- PASS_START of a pass without gather on the weights in force. -/
theorem passStart_kept {d : Dev} {e : Nat} {p : Pass} {ws : List MWork} {f : Fill} (h : (d.engine e).work = .pass p :: ws)
    (hg : p.gather = none) (hn : p.newW = false) (ha : (d.engine e).active = some f) (hk : p.ad.nkb ≤ p.takes f) :
    d.passStart e none = (d.setEngine e { d.engine e with work := ws }).passRun e p
      (columnsOf p.wd f.book (fun _ => false) ((List.range p.ad.nkb).map (fun j =>
        (p.ad.kb + j, f.blocks.getD j { form := 0, rcd := [], bad := 0 })))) 1 false := by
  have hfill : (d.engine e).passFill p = some f := by rw [Eng.passFill, hn, if_neg Bool.false_ne_true, ha]
  unfold Dev.passStart
  dsimp only
  rw [h]
  dsimp only
  rw [hg, hfill]
  unfold Dev.passGo
  dsimp only
  rw [hn, if_neg Bool.false_ne_true]
  dsimp only
  rw [if_neg (Nat.not_lt.2 hk), if_neg Bool.false_ne_true, Bool.false_and, h]
  rfl

end Sys2Proof.Machine

section

open Sys2Proof Sys2Proof.Machine Sys2Proof.Safety

/-- Refutes O24: DRAIN_COMMIT of a drain without a map ends its unit, which forgets the lines of far data that stand at hand for
it; the statement keeps them. In `drainState` one such line stands. -/
theorem not_arrayWorkMovesOn : ¬ Obligations.ArrayWorkMovesOn := by
  rintro ⟨-, -, -, hdrain⟩
  have hdoes := hdrain 0 drainState emptyDrain [] (Tile.new .ax96 16 none) rfl rfl rfl rfl rfl
  have hlines := congrArg linesAfter hdoes
  rw [drainState_lines] at hlines
  exact absurd (hlines.trans drainState_claimed) (by decide)

/-- Settles O25. -/
theorem passesRun : Obligations.PassesRun := by
  refine ⟨fun e s p ws f t hw h hg hn ha ht hanchor hk => ?_, fun e row s hw hr => ?_⟩
  · have hdoes : Does (.passStart e none) s (s.dev.passStart e none) := if_pos hw
    rw [passStart_kept h hg hn ha hk] at hdoes
    have ht1 : ((s.dev.setEngine e { s.dev.engine e with work := ws }).engine e).tile p.handle = some t := by
      rw [Dev.engine_setEngine_self]
      exact ht
    obtain ⟨d, t2, hrun, heng, hacc, hrows⟩ := passRun_streams (bs := columnsOf p.wd f.book (fun _ => false)
      ((List.range p.ad.nkb).map (fun j => (p.ad.kb + j, f.blocks.getD j { form := 0, rcd := [], bad := 0 })))) hg ht1 hanchor
    rw [Dev.engine_setEngine_self] at heng
    rw [hrun] at hdoes
    refine ⟨d, t2, hdoes, by rw [heng]; rfl, ?_, hacc, fun k hk => ?_, hrows⟩
    · rw [heng, Eng.tile_setTile, if_pos rfl]
    · rw [heng, Eng.tile_setTile, if_neg hk]
      rfl
  · refine ⟨{ s with
      nv := { s.nv with
        repair := tput (fun _ => (0 : BitVec 9)) s.nv.repair e (setBit (tget (fun _ => (0 : BitVec 9)) s.nv.repair e) row true) }
      dev := s.dev.passStart e (some row) }, ?_, rfl, fun k => tget_tput _ _ e k _⟩
    show (if (Instr.passStart e (some row)).wf = true then _ else _) = _
    rw [if_pos hw, hr]

end
end

section
/-! PROOFS. Pools (R527 to R545). -/

namespace Sys2Proof.Machine

open Sys2Proof.Safety

/-! ### Folds that keep a part -/

/-- A fold keeps a part that each of its steps keeps. -/
theorem foldl_keeps {α β γ : Type} {f : α → β → α} {π : α → γ} (h : ∀ a b, π (f a b) = π a) (l : List β) (a : α) :
    π (l.foldl f a) = π a :=
  List.foldlRecOn (motive := fun x => π x = π a) l f rfl (fun x hx b _ => (h x b).trans hx)

/-! ### What shows of a pool -/

/-- Register writes change registers alone. -/
theorem Dev.setReg_setReg_frame (d : Dev) (o k : Nat) (v u : Word) :
    (d.setReg o v).setReg k u = { d with regs := ((d.setReg o v).setReg k u).regs } := rfl

/-- What shows of a pool stands in POOL_STAT and POOL_HELD. -/
theorem Dev.poolShow_frame (d : Dev) (p : Nat) : d.poolShow p = { d with regs := (d.poolShow p).regs } :=
  Dev.setReg_setReg_frame _ _ _ _ _

theorem Dev.poolShow_reg (d : Dev) (p : Nat) {o : Nat} (h1 : o ≠ Reg.POOL_STAT p) (h2 : o ≠ Reg.POOL_HELD p) :
    (d.poolShow p).reg o = d.reg o :=
  (Dev.reg_setReg_ne _ _ h2).trans (Dev.reg_setReg_ne _ _ h1)

@[simp] theorem Dev.poolShow_pool (d : Dev) (p k : Nat) : (d.poolShow p).pool k = d.pool k := by
  have hcul : (d.poolShow p).cul = d.cul := (Dev.setReg_cul _ _ _).trans (Dev.setReg_cul _ _ _)
  rw [Dev.pool, hcul, Dev.pool]

@[simp] theorem Dev.poolShow_core (d : Dev) (p k : Nat) : (d.poolShow p).core k = d.core k := by
  have hcores : (d.poolShow p).cores = d.cores := (Dev.setReg_cores _ _ _).trans (Dev.setReg_cores _ _ _)
  rw [Dev.core, hcores, Dev.core]

theorem Dev.modCore_pool (d : Dev) (c k : Nat) (f : Core → Core) : (d.modCore c f).pool k = d.pool k := rfl

/-! ### The instructions of pools -/

section
variable {w : IW} {s : State} (hw : (Instr.balloc w).wf = true)
  (hi : Issues s.dev (cOp 0x15 false) (decide (fld w.fn 10 3 = 0)) w)
  (hp : s.dev.poolNamed w.core (fld ((s.dev.core w.core).r1 w) 15 0) = true)
include hw hi hp

/-- BALLOC from a pool that serves at once. -/
theorem balloc_served {i : Nat} {d : Dev} (h : s.dev.allocNow (fld ((s.dev.core w.core).r1 w) 15 0) w.core = some (i, d)) :
    ∃ e, Does (.balloc w) s e ∧ OnlyCore d e w.core
      (((d.core w.core).setG w.rd.toNat (BitVec.ofNat 64 (d.bufAddr (fld ((s.dev.core w.core).r1 w) 15 0) i))).retire (ilenOf w)) := by
  refine instr_done_mod (c := .balloc w) (f := fun x => x.setG w.rd.toNat _) rfl hw hi ?_
  dsimp only
  rw [if_neg (by simp [hp]), h]
  rfl

/-- BALLOC with try from one that does not. -/
theorem balloc_tried (h : s.dev.allocNow (fld ((s.dev.core w.core).r1 w) 15 0) w.core = none) (ht : bitAt w.fn 2 = true) :
    ∃ e, Does (.balloc w) s e ∧ OnlyCore s.dev e w.core (((s.dev.core w.core).setG w.rd.toNat 0).retire (ilenOf w)) := by
  refine instr_done_mod (c := .balloc w) (f := fun x => x.setG w.rd.toNat 0) rfl hw hi ?_
  dsimp only
  rw [if_neg (by simp [hp]), h]
  exact if_pos ht

/-- Without try the core waits, last in the pool's queue. -/
theorem balloc_waits {p : Nat} (hpe : p = fld ((s.dev.core w.core).r1 w) 15 0) (h : s.dev.allocNow p w.core = none)
    (ht : bitAt w.fn 2 = false) :
    ∃ e, Does (.balloc w) s e ∧ (e.core w.core).takes = false ∧ (e.core w.core).pc = (s.dev.core w.core).pc
      ∧ (e.pool p).waiters = (s.dev.pool p).waiters ++ [w.core] ∧ (e.pool p).recs = (s.dev.pool p).recs := by
  subst hpe
  have hdoes := does_instr (c := .balloc w) rfl hw hi
  dsimp only at hdoes
  rw [if_neg (by simp [hp]), h] at hdoes
  dsimp only at hdoes
  rw [if_neg (by simp [ht]), Dev.finish_stall] at hdoes
  refine ⟨_, hdoes, ?_, ?_, ?_, ?_⟩
  · rw [Dev.core_modCore_self]
    simp [Core.takes]
  · rw [Dev.core_modCore_self, Dev.poolShow_core]
    rfl
  · rw [Dev.modCore_pool, Dev.poolShow_pool, Dev.pool_setPool_self]
  · rw [Dev.modCore_pool, Dev.poolShow_pool, Dev.pool_setPool_self]

end

/-- A buffer that is held and not reserved is operated on (R532). -/
theorem bufOp_held {d : Dev} {w : IW} {x : Core} {p i : Nat} (k : Nat → Nat → BufRec → IRes)
    (hn : d.bufNamed w.core (x.r1 w).toNat = some (p, i)) (hh : ((d.pool p).recOf i).held = true)
    (hr : ((d.pool p).recOf i).reserved = false) : bufOp d w x k = k p i ((d.pool p).recOf i) := by
  unfold bufOp
  rw [hn]
  exact if_neg (by simp [hh, hr])

/-- BSHARE by the releaser, to a target of the job, with room among the holders. -/
theorem bshare_shares {w : IW} {s : State} {p i : Nat} (hw : (Instr.bshare w).wf = true)
    (hi : Issues s.dev (cOp 0x15 false) (decide (fld w.fn 10 3 = 0)) w)
    (hn : s.dev.bufNamed w.core ((s.dev.core w.core).r1 w).toNat = some (p, i)) {r : BufRec} (hrec : r = (s.dev.pool p).recOf i)
    {h : Nat} (hh : h = if bitAt w.fn 2 then nodeCode (fld ((s.dev.core w.core).r2 w) 15 0) else fld ((s.dev.core w.core).r2 w) 15 0)
    (hheld : r.held = true) (hres : r.reserved = false) (hrel : r.releasedBy w.core = true)
    (ht : s.dev.shareTarget (s.dev.core w.core) (bitAt w.fn 2) (fld ((s.dev.core w.core).r2 w) 15 0) = true)
    (hroom : r.holders.length < 4 ∨ h ∈ r.holders) {d : Dev}
    (hd : d = (s.dev.setPool p ((s.dev.pool p).setRec i { r with
      holders := if h ∈ r.holders then r.holders else r.holders ++ [h], releaser := h, relNode := bitAt w.fn 2 })).poolDone p) :
    ∃ e, Does (.bshare w) s e ∧ OnlyCore d e w.core ((d.core w.core).retire (ilenOf w)) := by
  subst hrec hd
  refine instr_done (c := .bshare w) rfl hw hi ((bufOp_held _ hn hheld hres).trans ?_)
  dsimp only
  rw [← hh, if_neg ?_]
  · simp only [List.contains_iff_mem]
  · simp only [hrel, ht, Bool.not_true, Bool.false_or, Bool.and_eq_true, decide_eq_true_eq, Bool.not_eq_true',
      ← Bool.not_eq_true, List.contains_iff_mem]
    rintro ⟨hlen, hnot⟩
    exact hroom.elim (fun hlt => by omega) hnot

/-- BDROP by a holder that is not the releaser. -/
theorem bdrop_drops {w : IW} {s : State} {p i : Nat} (hw : (Instr.bdrop w).wf = true)
    (hi : Issues s.dev (cOp 0x15 false) (decide (fld w.fn 10 2 = 0)) w)
    (hn : s.dev.bufNamed w.core ((s.dev.core w.core).r1 w).toNat = some (p, i)) {r : BufRec} (hrec : r = (s.dev.pool p).recOf i)
    (hheld : r.held = true) (hres : r.reserved = false) (hmem : w.core ∈ r.holders)
    (hnot : ¬ (r.releaser = w.core ∧ r.relNode = false)) (hdue : s.dev.bufDue w.core p i = false) {d : Dev}
    (hd : d = (s.dev.setPool p ((s.dev.pool p).setRec i { r with holders := r.holders.erase w.core })).bufSettle p i) :
    ∃ e, Does (.bdrop w) s e ∧ OnlyCore d e w.core ((d.core w.core).retire (ilenOf w)) := by
  subst hrec hd
  refine instr_done (c := .bdrop w) rfl hw hi ((bufOp_held _ hn hheld hres).trans ?_)
  rw [if_neg (by simpa [hmem] using hnot), if_neg (by simp [hdue])]

/-- BFREE by the releaser. -/
theorem bfree_frees {w : IW} {s : State} {p i : Nat} (hw : (Instr.bfree w).wf = true)
    (hi : Issues s.dev (cOp 0x15 false) (decide (fld w.fn 10 2 = 0)) w)
    (hn : s.dev.bufNamed w.core ((s.dev.core w.core).r1 w).toNat = some (p, i)) {r : BufRec} (hrec : r = (s.dev.pool p).recOf i)
    (hheld : r.held = true) (hres : r.reserved = false) (hrel : r.releasedBy w.core = true)
    (hdue : s.dev.bufDue w.core p i = false) :
    ∃ e, Does (.bfree w) s e ∧ OnlyCore (s.dev.bufRelease p i) e w.core (((s.dev.bufRelease p i).core w.core).retire (ilenOf w)) := by
  subst hrec
  refine instr_done (c := .bfree w) rfl hw hi ((bufOp_held _ hn hheld hres).trans ?_)
  rw [if_neg (by simp [hrel]), if_neg (by simp [hdue])]

/-! ### Pool operations -/

/-- A reservation takes the pool's first buffer for the queue whose turn it is (R542). -/
theorem reserveFor_takes {d : Dev} {p k i : Nat} {x : Pool} (h : (d.pool p).take = some (i, x)) :
    ∃ e : Dev, d.reserveFor p k = e.poolDone p
      ∧ e.pool p = { (x.setRec i { BufRec.free with reserved := true }) with lastQueue := some k }
      ∧ (e.rqueue (k / 16) (k % 16)).reserved = (d.rqueue (k / 16) (k % 16)).reserved ++ [i] := by
  unfold Dev.reserveFor
  rw [h]
  refine ⟨_, rfl, Dev.pool_setPool_self d p _, ?_⟩
  rw [Dev.rqueue, Dev.setRqueue, tget_tput_self]

/-- What is done to frames is not done to pools. -/
theorem Dev.framesDrop_cul (d : Dev) (fs : List Nat) : (d.framesDrop fs).cul = d.cul :=
  foldl_keeps (π := Dev.cul) (fun a f => by split <;> rfl) fs d

theorem Dev.framesUse_cul (d : Dev) (fs : List Nat) (b : Bool) : (d.framesUse fs b).cul = d.cul :=
  foldl_keeps (f := fun (a : Dev) f => a.frameUse f b) (π := Dev.cul) (fun _ _ => rfl) fs d

theorem Dev.recRelease_pool (d : Dev) (p : Nat) : (d.recRelease p).pool p = { d.pool p with recAt := [], recSlot := none } := by
  have hcul : (d.recRelease p).cul = (d.setPool p { d.pool p with recAt := [], recSlot := none }).cul := by
    unfold Dev.recRelease
    dsimp only
    split
    · exact Dev.framesDrop_cul _ _
    · exact Dev.framesDrop_cul _ _
  rw [Dev.pool, hcul]
  exact Dev.pool_setPool_self d p _

theorem Dev.recCharge_pool (d : Dev) (p n : Nat) : (d.recCharge p n).pool p
    = { d.pool p with recAt := recFrames (d.inf (Reg.POOL_REC p) 39 0) n, recSlot := d.poolOwner p } := by
  have hcul : (d.recCharge p n).cul = (d.setPool p { d.pool p with
      recAt := recFrames (d.inf (Reg.POOL_REC p) 39 0) n, recSlot := d.poolOwner p }).cul := by
    unfold Dev.recCharge
    dsimp only
    split
    · exact Dev.framesUse_cul _ _ _
    · exact Dev.framesUse_cul _ _ _
  rw [Dev.pool, hcul]
  exact Dev.pool_setPool_self d p _

theorem Dev.commitAll_pool (d : Dev) (os : List Nat) (p : Nat) : (d.commitAll os).pool p = d.pool p :=
  foldl_keeps (f := Dev.commit) (π := fun d => d.pool p) (fun _ _ => rfl) os d

/-- POOL_INIT of a quiesced pool with no buffer held or reserved and a legal geometry (R528). -/
theorem poolInit_makes {d : Dev} {p : Nat} (hq : d.poolQuiesced p = true) (hh : (d.pool p).held = 0)
    (hr : (d.pool p).reserved = 0) (hg : d.geometryOk p = true) :
    ∃ e : Dev, d.poolInit p = e.poolDone p ∧ e.rb (Reg.POOL_STAT p) 35 = true
      ∧ (e.pool p).nbuf = d.rf (Reg.POOL_CFG p) 55 32 + 1 ∧ (e.pool p).free = (e.pool p).nbuf
      ∧ (e.pool p).waiters = (d.pool p).waiters := by
  have hpool : ∀ (a : Dev) (n : Nat), ((a.recCharge p n).setRb (Reg.POOL_STAT p) 35 true).pool p
      = { a.pool p with recAt := recFrames (a.inf (Reg.POOL_REC p) 39 0) n, recSlot := a.poolOwner p } :=
    fun a n => a.recCharge_pool p n
  unfold Dev.poolInit
  dsimp only
  rw [if_pos (by simp [hq, hh, hr, hg])]
  refine ⟨_, rfl, Dev.rb_setRb_self _ _ _ _ (by decide), ?_, ?_, ?_⟩
  · rw [hpool, Dev.pool_setPool_self]
  · rw [hpool, Dev.pool_setPool_self]
    simp [Pool.free]
  · rw [hpool, Dev.pool_setPool_self]
    dsimp only
    rw [Dev.commitAll_pool, d.recRelease_pool p]

/-- The end of a block's quiescence changes registers alone (R29). -/
theorem Dev.becomesBusy_regs (d : Dev) (b : LBlock) : d.becomesBusy b = { d with regs := (d.becomesBusy b).regs } := by
  refine List.foldlRecOn (motive := fun a : Dev => a = { d with regs := a.regs }) d.hst.lwrites _ rfl (fun a ha l _ => ?_)
  dsimp only
  split
  · split <;> (rw [ha]; rfl)
  · exact ha

/-- Where no write of the same time reached the block it undoes nothing. -/
theorem Dev.becomesBusy_none {d : Dev} {b : LBlock} (h : ∀ l ∈ d.hst.lwrites, l.block = b → l.time ≠ d.now) :
    d.becomesBusy b = d :=
  foldl_fixed _ _ d (fun l hl => if_neg (fun hb => h l hl hb.1 hb.2))

/-- POOL_QUIESCE_WRITE sets the pool's quiesce bit (R545). -/
theorem poolQuiesce_sets {d d0 : Dev} {p : Nat} {q : Bool}
    (hd : d0 = if d.poolQuiesced p = true ∧ d.poolValid p = true ∧ q = false then d.becomesBusy (.pool p) else d) :
    (d.poolQuiesce p q).rb (Reg.POOL_CTRL p) 0 = q ∧ d.poolQuiesce p q = { d with regs := (d.poolQuiesce p q).regs }
      ∧ (∀ o, o ≠ Reg.POOL_CTRL p → o ≠ Reg.POOL_STAT p → o ≠ Reg.POOL_HELD p → (d.poolQuiesce p q).reg o = d0.reg o)
      ∧ ((∀ l ∈ d.hst.lwrites, l.block = .pool p → l.time ≠ d.now) → d0 = d) := by
  have hq : d.poolQuiesce p q = (d0.setRb (Reg.POOL_CTRL p) 0 q).poolShow p := by
    rw [hd]
    unfold Dev.poolQuiesce
    simp only [Bool.and_eq_true, Bool.not_eq_true', and_assoc]
  have hregs : d0 = { d with regs := d0.regs } := by
    rw [hd]
    split
    · exact d.becomesBusy_regs _
    · rfl
  have h1 : Reg.POOL_CTRL p ≠ Reg.POOL_STAT p := by unfold Reg.POOL_CTRL Reg.POOL_STAT; omega
  have h2 : Reg.POOL_CTRL p ≠ Reg.POOL_HELD p := by unfold Reg.POOL_CTRL Reg.POOL_HELD; omega
  refine ⟨?_, ?_, fun o ho h1 h2 => ?_, fun hl => ?_⟩
  · rw [hq, Dev.rb, Dev.poolShow_reg _ _ h1 h2]
    exact Dev.rb_setRb_self d0 _ 0 q (by decide)
  · rw [hq, Dev.poolShow_frame, hregs]
    rfl
  · rw [hq, Dev.poolShow_reg _ _ h1 h2, Dev.reg_setRb_ne _ _ _ ho]
  · rw [hd, Dev.becomesBusy_none hl, ite_self]

/-- What a commit puts in force. -/
theorem Dev.inf_commit (d : Dev) (r o hi lo : Nat) : (d.commit r).inf o hi lo = if o = r then d.rf o hi lo else d.inf o hi lo := by
  rw [Dev.inf, Dev.commit, tget_tput]
  split
  case isTrue h => rw [h]; rfl
  case isFalse => rfl

theorem Dev.rf_commit (d : Dev) (r o hi lo : Nat) : (d.commit r).rf o hi lo = d.rf o hi lo := rfl

theorem Dev.poolCommit_inf (d : Dev) (p o hi lo : Nat) : (d.poolCommit p).inf o hi lo
    = if o ∈ [Reg.POOL_THR p, Reg.POOL_QUOTA p, Reg.POOL_ALERT p] then d.rf o hi lo else d.inf o hi lo := by
  have hfold : d.poolCommit p = ((d.commit (Reg.POOL_THR p)).commit (Reg.POOL_QUOTA p)).commit (Reg.POOL_ALERT p) := rfl
  simp only [hfold, Dev.inf_commit, Dev.rf_commit, List.mem_cons, List.not_mem_nil, or_false]
  split_ifs <;> tauto

end Sys2Proof.Machine

section

open Sys2Proof Sys2Proof.Machine Sys2Proof.Safety

/-- Settles O26. -/
theorem poolInstructions : Obligations.PoolInstructions :=
  ⟨fun _ _ hw hi hp => ⟨fun _ _ => balloc_served hw hi hp, balloc_tried hw hi hp, balloc_waits hw hi hp rfl⟩,
    fun _ _ _ _ hw hi hn hh hr hrel ht hroom => bshare_shares hw hi hn rfl rfl hh hr hrel ht hroom rfl,
    fun _ _ _ _ hw hi hn hh hr hm hnot hdue => bdrop_drops hw hi hn rfl hh hr hm hnot hdue rfl,
    fun _ _ _ _ hw hi hn hh hr hrel hdue => bfree_frees hw hi hn rfl hh hr hrel hdue⟩

/-- Settles O27. -/
theorem poolOperations : Obligations.PoolOperations := by
  refine ⟨fun p k i x s hw hk h => ?_, fun p c i d s hw hn hc h => ?_, fun p s hw ho hq hh hr hg => ?_, fun p q s hw ho => ?_,
    fun p s hw hq => ?_⟩
  · have hdoes := does_of_run (c := .queueReservation p) (s := s) rfl hw
    obtain ⟨e, he, hpool, hqueue⟩ := reserveFor_takes (k := k) h
    rw [hk] at hdoes
    exact ⟨e, he ▸ hdoes, hpool, hqueue⟩
  · have hdoes := does_of_run (c := .ballocWaiterServed p) (s := s) rfl hw
    rw [hn] at hdoes
    dsimp only at hdoes
    rw [if_neg (Nat.not_le.2 hc), h] at hdoes
    exact ⟨_, hdoes, onlyCore_modCore d c _⟩
  · obtain ⟨e, he, hrest⟩ := poolInit_makes hq hh hr hg
    exact ⟨e, he ▸ host_open hw ho, hrest⟩
  · exact ⟨_, host_open hw ho, poolQuiesce_sets rfl⟩
  · have hdoes := does_of_run (c := .poolQuiesced p) (s := s) rfl hw
    rw [if_pos hq] at hdoes
    exact ⟨_, hdoes, rfl, s.dev.poolCommit_inf p⟩

end
end

section
/-! PROOFS. Route close, waiting opens and RSTAT (R41, R142, R143, R165, R167, R181 to R183, R396). -/

namespace Sys2Proof.Machine

open Sys2Proof.Safety

/-! ### Route close -/

/-- With no batch due a route close does nothing. -/
theorem routeCloseRun_none {d : Dev} {sl rt : Nat} (h : d.closing sl rt = none) : d.routeCloseRun sl rt = d := by
  unfold Dev.routeCloseRun
  rw [h]

/-- The counts that the bias update of a batch uses, if it has one. -/
def Batch.uses (b : Batch) (cs : List Nat) : Option (List Nat) := if b.cancelled || decide (b.table.bmode = 0) then none else some cs

section
variable {d : Dev} {sl rt : Nat} {b : Batch} (h : d.closing sl rt = some b)
include h

/-- The batch that is due closes with the counts of its turnstiles. -/
theorem routeCloseRun_turnstiles (hs : b.table.bsrc = false) : d.routeCloseRun sl rt
    = d.finishClose sl b (b.uses ((List.range b.table.ecount).map (fun e => d.turnstile (b.table.ebase + e)))) id := by
  unfold Dev.routeCloseRun
  rw [h]
  exact if_neg (by simp [hs])

/-- With supplied counts. -/
theorem routeCloseRun_supplied (hs : b.table.bsrc = true) (hc : d.supplied rt ≠ []) :
    d.routeCloseRun sl rt = d.finishClose sl b (b.uses (d.supplied rt)) (fun a => a.setSupply rt []) := by
  unfold Dev.routeCloseRun
  rw [h]
  exact (if_pos hs).trans (if_neg hc)

/-- It waits where counts are to be supplied and none are. -/
theorem routeCloseRun_waits (hs : b.table.bsrc = true) (hc : d.supplied rt = []) (hw : b.waitCounts = none) :
    d.routeCloseRun sl rt = d.modBatch sl b.epoch (fun y => { y with waitCounts := some d.now }) := by
  unfold Dev.routeCloseRun
  rw [h]
  exact (if_pos hs).trans ((if_pos hc).trans (if_neg (by simp [hw])))

end

/-! ### Waiting opens -/

/-- A wait that is behind no batch and does not overlap stays so. -/
theorem RouteCtx.putBehind_none {x : RouteCtx} {y : OpenWait} (h : y.opens = true → x.batches.length < 4) :
    (x.putBehind { y with behind := none }).behind = none := by
  unfold RouteCtx.putBehind
  rw [if_neg ?_]
  simp only [Bool.and_eq_true, decide_eq_true_eq]
  rintro ⟨⟨hop, -⟩, hlen⟩
  exact absurd (h hop) (Nat.not_lt.2 hlen)

@[simp] theorem Dev.rctx_setRctx_self (d : Dev) (s : Nat) (x : RouteCtx) : (d.setRctx s x).rctx s = x := tget_tput_self _ _ _ _

/-- An operation that is behind nothing and can run leaves the list. -/
theorem resumeList_single {d d1 : Dev} {sl : Nat} {y : OpenWait} (hb : (d.rctx sl).heldBehind y = false)
    (ho : y.opens = true → (d.rctx sl).batches.length < 4) (hr : d.routeRun sl y.core y.kind y.desc = .ok d1) :
    d.resumeList sl [y] [] = (d1.unitDone sl 57, []) := by
  unfold Dev.resumeList
  dsimp only
  rw [hb, if_neg (by simp [RouteCtx.putBehind_none ho]), hr]
  rfl

/-- A single waiting operation that can run, runs. -/
theorem resumeOpens_single {d d1 : Dev} {sl : Nat} {y : OpenWait} (hw : (d.rctx sl).waits = [y])
    (hb : (d.rctx sl).heldBehind y = false) (ho : y.opens = true → (d.rctx sl).batches.length < 4)
    (hr : (d.setRctx sl { d.rctx sl with waits := [] }).routeRun sl y.core y.kind y.desc = .ok d1) (hs : d1.runs sl = true) :
    d.resumeOpens sl = (d1.unitDone sl 57).setRctx sl { d1.rctx sl with waits := [] } := by
  have hsame := d.rctx_setRctx_self sl { d.rctx sl with waits := [] }
  have hlist := resumeList_single (d := d.setRctx sl { d.rctx sl with waits := [] }) (by rw [hsame]; exact hb)
    (by rw [hsame]; exact ho) hr
  unfold Dev.resumeOpens
  dsimp only
  rw [hw, hlist]
  exact if_pos hs

/-! ### RSTAT -/

/-- RSTAT in a valid context, of a route table of its slot. -/
theorem rstat_runs {d : Dev} {x : Core} {rt : Option Nat} {k : Nat → IRes} (h : d.rb Reg.RTE_CTRL 0 = false)
    (hv : d.rctxValid x.slotN = true) (hrt : ∀ r, rt = some r → d.rtAllowed x.slotN r = true) : rstat d x rt k = k x.slotN := by
  unfold rstat
  dsimp only
  rw [if_neg (by simp [h]), if_neg ?_]
  cases rt with
  | none => simp [hv]
  | some r => simp [hv, hrt r rfl]

section
variable {w : IW} {s : State} (hi : Issues s.dev (cOp 0x29 false) (rstatLegal w) w) (hc : s.dev.rb Reg.RTE_CTRL 0 = false)
  (hv : s.dev.rctxValid (s.dev.core w.core).slotN = true)
include hi hc hv

/-- RSTAT read ledger writes the ledger block. -/
theorem rstatReadLedger_writes {d : Dev} {bs : List Byte} {ls : List Word} (hw : (Instr.rstatReadLedger w).wf = true)
    (hls : ls = (List.range 8).map (fun i => s.dev.reg (Reg.LEDG (s.dev.core w.core).slotN i))
      ++ [s.dev.reg (Reg.LEDG_INFO (s.dev.core w.core).slotN)])
    (hva : ((s.dev.core w.core).r2 w).toNat < 2 ^ 48)
    (hst : s.dev.unitStore w.core ((s.dev.core w.core).r2 w).toNat (ls.flatMap (fun v => leBytes 8 v.toNat)) = .ok d bs) :
    ∃ e, Does (.rstatReadLedger w) s e ∧ OnlyCore d e w.core
      (((d.core w.core).setG w.rd.toNat (s.dev.reg (Reg.LEDG_INFO (s.dev.core w.core).slotN))).retire (ilenOf w)) := by
  subst hls
  refine instr_done_mod (c := .rstatReadLedger w) (f := fun x => x.setG w.rd.toNat _) rfl hw hi
    ((rstat_runs hc hv (fun _ h => absurd h (by simp))).trans ?_)
  rw [if_neg (Nat.not_le.2 hva), hst]
  rfl

/-- RSTAT cancel. -/
theorem rstatCancel_cancels (hw : (Instr.rstatCancel w).wf = true)
    (hp : s.dev.rb (Reg.JOB_PROFILE (s.dev.core w.core).slotN) 0 = false) {d : Dev}
    (hd : d = s.dev.cancelBatch (s.dev.core w.core).slotN (fld ((s.dev.core w.core).r1 w) 11 0)) :
    ∃ e, Does (.rstatCancel w) s e ∧ OnlyCore d e w.core (((d.core w.core).setG w.rd.toNat 0).retire (ilenOf w)) := by
  subst hd
  refine instr_done_mod (c := .rstatCancel w) (f := fun x => x.setG w.rd.toNat 0) rfl hw hi
    ((rstat_runs hc hv (fun _ h => absurd h (by simp))).trans ?_)
  rw [if_neg (by rw [hp]; exact Bool.false_ne_true)]
  rfl

variable (ht : s.dev.rtAllowed (s.dev.core w.core).slotN (fld ((s.dev.core w.core).r1 w) 7 0) = true)
include ht

/-- RSTAT supply counts; a close that waits for them goes on. -/
theorem rstatSupplyCounts_takes {d d3 d4 : Dev} {bs : List Byte} {rt n : Nat} (hw : (Instr.rstatSupplyCounts w).wf = true)
    (hrt : rt = fld ((s.dev.core w.core).r1 w) 7 0) (hn : n = (s.dev.supplyTable (s.dev.core w.core).slotN rt).ecount)
    (ha : ((s.dev.core w.core).r2 w).toNat % 4 = 0) (hva : ((s.dev.core w.core).r2 w).toNat < 2 ^ 48)
    (hld : s.dev.unitLoad w.core ((s.dev.core w.core).r2 w).toNat (4 * n) = .ok d bs) (hd3 : d3 = d.setSupply rt (leWords 4 n bs))
    (hd4 : d4 = if (d3.closing (s.dev.core w.core).slotN rt).any (fun b => b.waitCounts.isSome) then
      d3.routeCloseRun (s.dev.core w.core).slotN rt else d3) :
    d3.supplied rt = leWords 4 n bs ∧ (∀ k, k ≠ rt → d3.supplied k = d.supplied k)
      ∧ ∃ e, Does (.rstatSupplyCounts w) s e ∧ OnlyCore d4 e w.core (((d4.core w.core).setG w.rd.toNat 0).retire (ilenOf w)) := by
  subst hrt hn
  refine ⟨by rw [hd3]; exact tget_tput_self _ _ _ _, fun k hk => by rw [hd3]; exact tget_tput_ne _ _ _ hk, ?_⟩
  refine instr_done_mod (c := .rstatSupplyCounts w) (f := fun x => x.setG w.rd.toNat 0) rfl hw hi
    ((rstat_runs hc hv (fun r h => by cases h; exact ht)).trans ?_)
  rw [if_neg (fun h => h ha), if_neg (Nat.not_le.2 hva), hld, hd4, hd3]
  rfl

/-- RSTAT reload marks its route table. -/
theorem rstatReload_marks (hw : (Instr.rstatReload w).wf = true) :
    ∃ d e, Does (.rstatReload w) s e
      ∧ (∀ k, tget (fun _ => false) d.rte.reload k = if k = fld ((s.dev.core w.core).r1 w) 7 0 then true
          else tget (fun _ => false) s.dev.rte.reload k)
      ∧ d = { s.dev with rte := { s.dev.rte with reload := d.rte.reload } }
      ∧ OnlyCore d e w.core (((s.dev.core w.core).setG w.rd.toNat 0).retire (ilenOf w)) := by
  obtain ⟨e, hdoes, honly⟩ := instr_done_mod (c := .rstatReload w) (f := fun x => x.setG w.rd.toNat 0) rfl hw hi
    (rstat_runs hc hv (fun r h => by cases h; exact ht))
  exact ⟨_, e, hdoes, fun k => tget_tput (fun _ => false) s.dev.rte.reload _ k true, rfl, honly⟩

end

end Sys2Proof.Machine

section

open Sys2Proof Sys2Proof.Machine Sys2Proof.Safety

/-- Settles O33. -/
theorem routeStatus : Obligations.RouteStatus := by
  refine ⟨fun w s d bs hw hi hc hv hva hst => rstatReadLedger_writes hi hc hv hw rfl hva hst,
    fun w s hw hi hc hv hp => rstatCancel_cancels hi hc hv hw hp rfl,
    fun w s d bs hw hi hc hv ht ha hva hld => rstatSupplyCounts_takes hi hc hv ht hw rfl rfl ha hva hld rfl rfl,
    fun w s hw hi hc hv ht => rstatReload_marks hi hc hv ht hw, fun v sl epoch s hw ho hs hp => ?_⟩
  have hdoes := host_open (f := fun a => if viaSees v sl then a.cancelGo sl epoch else a) hw ho
  rw [if_pos hs, Dev.cancelGo, if_neg (by simp [hp])] at hdoes
  exact hdoes

/-- Settles O34. -/
theorem routeCloseAndOpens : Obligations.RouteCloseAndOpens := by
  refine ⟨fun sl rt s hw => ⟨fun h => ?_, fun b h => ⟨fun hs => ?_, fun hs hc => ?_, fun hs hc hwait => ?_⟩⟩,
    fun sl rt t s b hw h ht hlate => ?_, fun sl s y hw h htaken hlate => ?_, fun sl s y d hw h hb ho hr hs => ?_⟩
  · have hdoes : Does (.routeClose sl rt) s _ := does_of_run rfl hw
    rwa [routeCloseRun_none h] at hdoes
  · have hdoes := does_of_run (c := .routeClose sl rt) (s := s) rfl hw
    rwa [routeCloseRun_turnstiles h hs] at hdoes
  · have hdoes := does_of_run (c := .routeClose sl rt) (s := s) rfl hw
    rwa [routeCloseRun_supplied h hs hc] at hdoes
  · have hdoes := does_of_run (c := .routeClose sl rt) (s := s) rfl hw
    rwa [routeCloseRun_waits h hs hc hwait] at hdoes
  · have hdoes := does_of_run (c := .routeCloseCountsTimeout sl rt) (s := s) rfl hw
    simp only [h, ht] at hdoes
    rw [if_neg (Nat.not_lt.2 hlate)] at hdoes
    exact ⟨_, rfl, hdoes⟩
  · have hdoes := does_of_run (c := .batchOpenEpochTimeout sl) (s := s) rfl hw
    simp only [h] at hdoes
    rw [if_neg (by simp [htaken, hlate])] at hdoes
    exact ⟨_, rfl, hdoes⟩
  · have hdoes := does_of_run (c := .batchOpenResume sl) (s := s) rfl hw
    rwa [resumeOpens_single h hb ho hr hs] at hdoes

end
end

section
/-! PROOFS. Routing instructions, Marver and sending (R42, R140 to R190, R201, R209, R243, R390 to R397, R427, R531, R535). -/

namespace Sys2Proof.Machine

open Sys2Proof.Safety

/-! ### Routing instructions -/

/-- The four routing instructions, their majors, their reserved fields and their kinds. -/
def routeRows : List ((IW → Instr) × Nat × (IW → Bool) × Nat) :=
  [(.rscore, 0x28, fun w => decide (fld w.fn 10 1 = 0), 0), (.rselect, 0x28, fun w => decide (fld w.fn 10 1 = 0), 1),
    (.rpackPack, 0x29, fun w => decide (fld w.fn 10 3 = 0), 2), (.rcombine, 0x29, fun w => decide (fld w.fn 10 2 = 0), 3)]

theorem exec_routeRows : ∀ r ∈ routeRows, ∀ (w : IW) (s : State), exec (r.1 w) s
    = run (r.1 w) (fun d => d.instr (cOp r.2.1 false) (r.2.2.1 w) w (routeInstr r.2.2.2 w)) s := by
  unfold routeRows
  simp only [List.forall_mem_cons]
  exact ⟨fun _ _ => rfl, fun _ _ => rfl, fun _ _ => rfl, fun _ _ => rfl, fun _ h => absurd h List.not_mem_nil⟩

section
variable {k : Nat} {w : IW} {d d1 : Dev} {x : Core} {ws : List Nat} (hc : d.rb Reg.RTE_CTRL 0 = false)
  (hd : d.desc w.core (x.r1 w) 8 = .ok d1 ws) (ho : d1.owns x.slotN (ropOf (ws.map (BitVec.ofNat 64))).so = true)
include hc hd ho

/-- One whose operation runs. -/
theorem routeInstr_done {d2 : Dev} (h : d1.routeIssue x.slotN w.core k (ws.map (BitVec.ofNat 64)) = .ok d2) :
    routeInstr k w d x = .done (d2.unitDone x.slotN 57) := by
  unfold routeInstr
  rw [if_neg (by rw [hc]; exact Bool.false_ne_true), hd]
  dsimp only
  rw [if_neg (by simp [ho]), h]

/-- One whose operation waits. -/
theorem routeInstr_waits {d2 : Dev} (h : d1.routeIssue x.slotN w.core k (ws.map (BitVec.ofNat 64)) = .wait d2) :
    routeInstr k w d x = .done (d2.addWait x.slotN w.core k (ws.map (BitVec.ofNat 64))) := by
  unfold routeInstr
  rw [if_neg (by rw [hc]; exact Bool.false_ne_true), hd]
  dsimp only
  rw [if_neg (by simp [ho]), h]

end

/-- With no operation of the context waiting, an operation is tried. -/
theorem routeIssue_runs {d d2 : Dev} {sl c k : Nat} {ds : List Word} (hv : d.rctxValid sl = true)
    (hrt : d.rtAllowed sl (ropOf ds).rt = true) (hw : (d.rctx sl).waits = []) (h : d.routeRun sl c k ds = .ok d2) :
    d.routeIssue sl c k ds = .ok d2 := by
  have htake : d.routeTake sl c k ds = .ok d2 := by
    unfold Dev.routeTake
    simp only [hw, List.any_nil, Bool.false_and, Bool.and_false, Bool.false_eq_true, if_false]
    rw [if_neg (by simp [hv, hrt]), h]
  unfold Dev.routeIssue
  rw [htake]

/-- Scoring a half of a batch that stands, with its rows at hand. -/
theorem runScore_scores {d d1 d5 : Dev} {sl c : Nat} {sel : Bool} {o : ROp} {b : Batch} {rows : List (List Byte)} {la : List Word}
    (hc : b.cancelled = false) (hp : pitchOk o.pitch (scoreRow sel b.table) = true)
    (hr : d.rdRanges (unitWho sl 57) (scoreRanges sel b.table o (b.count o.half)) [] = .ok d1 rows)
    (hla : (if sel then (d1, some []) else d1.stateWords sl b.table) = (d5, some la)) :
    d.runScore sl c sel o b = .ok ((((if sel then d5.scoreHalf sl b o.half (d5.halfRaws sel b.table (b.count o.half) rows)
      else (d5.scoreHalf sl b o.half (d5.halfRaws sel b.table (b.count o.half) rows)).lookahead sl b.table (b.first o.half)
        (b.count o.half) rows la).modBatch sl b.epoch (fun y => { y with core := c })).addOp sl c o.so false
        (some (b.epoch, o.half)) 48 [])) := by
  unfold Dev.runScore
  dsimp only
  rw [if_neg (by simp [hc]), if_neg (by simp [hp]), hr]
  dsimp only
  rw [hla]

/-- What is read for a score tells that it can be run. -/
theorem runScore_of_reads {d d4 : Dev} {sl c : Nat} {sel : Bool} {o : ROp} {b : Batch} (hc : b.cancelled = false)
    (hp : pitchOk o.pitch (scoreRow sel b.table) = true) (h : d.scoreReads sl sel b.table o (b.count o.half) = .ok d4) :
    ∃ d2, d.runScore sl c sel o b = .ok d2 := by
  unfold Dev.scoreReads at h
  split at h
  case h_1 => cases h
  case h_2 => cases h
  case h_3 d1 rows hr =>
    split at h
    case h_1 => cases h
    case h_2 d5 la hla => exact ⟨_, runScore_scores hc hp hr hla⟩

/-- What is at hand of a table's state: resident, or read. -/
def TableAtHand (d d0 : Dev) (sl rt : Nat) (x : Rtd) : Prop :=
  (d.residentAs rt x = true ∧ d0 = d) ∨ (d.residentAs rt x = false ∧ ∃ (d9 : Dev) (bs : List (List Byte)),
    d.rdRanges (unitWho sl 57) [(x.state, 16 * x.ecount)] [] = .ok d9 bs ∧ d0 = d9.loadTable rt x (bs.getD 0 []))

/-- The open of a batch with a legal table and pitch scores its H0. -/
theorem runOpen_scores {d d0 d3 d2 : Dev} {sl c : Nat} {sel : Bool} {o : ROp} {x : Rtd} {b : Batch}
    (hx : x = rtdOf (d.rtdWords o.rt)) (hok : d.rtdOk sl x = true)
    (hprof : d.rb (Reg.JOB_PROFILE sl) 0 = false ∨ x.bmode = 0 ∨ x.bsrc = true) (hpit : pitchOk o.pitch (scoreRow sel x) = true)
    (htab : TableAtHand d d0 sl o.rt x) (hreads : d0.scoreReads sl sel x o ((o.ntok + 1) / 2) = .ok d3)
    (hb : (d3.openBatch sl c o x).batchOf sl ((d3.openBatch sl c o x).rctx sl).epoch = some b)
    (hs : (d3.openBatch sl c o x).runScore sl c sel o b = .ok d2) : d.runOpen sl c sel o = .ok d2 := by
  subst hx
  have hgo : d0.openAndScore sl c sel o (rtdOf (d.rtdWords o.rt)) = .ok d2 := by
    unfold Dev.openAndScore
    rw [hreads]
    dsimp only
    rw [hb]
    exact hs
  have hbias : ¬ (d.rb (Reg.JOB_PROFILE sl) 0 && decide ((rtdOf (d.rtdWords o.rt)).bmode ≠ 0)
      && !(rtdOf (d.rtdWords o.rt)).bsrc) = true := by
    rcases hprof with h | h | h <;> simp [h]
  unfold Dev.runOpen
  dsimp only
  rw [if_neg (by simp [hok]), if_neg hbias, if_neg (by simp [hpit])]
  rcases htab with ⟨hres, rfl⟩ | ⟨hres, d9, bs, hrd, rfl⟩
  · rw [if_pos hres, hgo]
  · rw [if_neg (by simp [hres]), hrd]
    exact hgo

section
variable {d d2 : Dev} {sl c k : Nat} {ds : List Word}

/-- An operation on H0 of a table with no open of its own and none that waits opens a batch. -/
theorem routeRun_opens (hk : k ≤ 1) (hh : (ropOf ds).half = false) (hown : d.ownOpen (ropOf ds).rt = false)
    (hwait : d.openWaits sl (ropOf ds).rt = false) (h : d.runOpen sl c (k == 1) (ropOf ds) = .ok d2) :
    d.routeRun sl c k ds = .ok d2 := by
  unfold Dev.routeRun
  dsimp only
  rw [if_pos hk, if_neg (by simp [hh]), if_neg (by simp [hown]), if_neg (by simp [hwait]), h]

/-- One on H1 of the batch that is due scores it. -/
theorem routeRun_scores {b : Batch} (hk : k ≤ 1) (hh : (ropOf ds).half = true) (hb : d.dueBatch sl (ropOf ds).rt dueH1 = some b)
    (h : d.runScore sl c (k == 1) (ropOf ds) b = .ok d2) : d.routeRun sl c k ds = .ok d2 := by
  unfold Dev.routeRun
  dsimp only
  rw [if_pos hk, if_pos hh, hb]
  exact h

/-- RPACK pack of a half whose scoring has posted. -/
theorem routeRun_packs {b : Batch} {h : Half} (hb : d.dueBatch sl (ropOf ds).rt (duePack (ropOf ds).half) = some b)
    (hh : b.half (ropOf ds).half = some h) (hs : h.scored = true) (hp : d.runPack sl c ds b = .ok d2) :
    d.routeRun sl c 2 ds = .ok d2 := by
  unfold Dev.routeRun
  dsimp only
  rw [if_neg (by decide), if_pos rfl, hb]
  dsimp only
  rw [hh]
  exact (if_pos (by simp [hs])).trans hp

/-- RCOMBINE of a half that is due. -/
theorem routeRun_combines {b : Batch} (hb : d.dueBatch sl (ropOf ds).rt (dueCombine (ropOf ds).half) = some b)
    (hp : pitchOk (ropOf ds).pitch b.table.outBytes = true) {y : CombineOp}
    (hy : y = { core := c, so := (ropOf ds).so, buf := (ropOf ds).bufA, pitch := (ropOf ds).pitch, done := false }) :
    d.routeRun sl c 3 ds = .ok ((d.modHalf sl b.epoch (ropOf ds).half (fun h => { h with combine := some y })).combineHalf sl
      b.epoch (ropOf ds).half) := by
  subst hy
  unfold Dev.routeRun
  dsimp only
  rw [if_neg (by decide), if_neg (by decide), hb]
  exact if_neg (by simp [hp])

end

/-- RPACK pack into a pool of the slot whose buffers hold the bins, with no expert outside the job. -/
theorem runPack_packs {d : Dev} {sl c : Nat} {ds : List Word} {b : Batch} {h : Half} (hh : b.half (ropOf ds).half = some h)
    {toks : List TokSel} (ht : toks = if b.cancelled then h.toks else
      (capacityPass b.table b.work b.ntok (ropOf ds).half b.used0 h.toks).2) {p : BinKey × List (Nat × List Copy)}
    (hpb : p = d.packBins sl (b.setHalf (ropOf ds).half (some { h with toks := toks })) (ropOf ds).half)
    (hpit : pitchOk (ropOf ds).pitch (b.table.rowlen64 * 64) = true) (hpool : d.poolFor (ropOf ds).pool (some sl) = true)
    (hout : d.outsider sl toks = none) (hfit : d.binsFit (ropOf ds).pool b p.1 p.2 = true) :
    ∃ d2, d.runPack sl c ds b = .ok d2 := by
  subst hpb ht
  unfold Dev.runPack
  dsimp only
  rw [hh, Option.getD_some, if_neg (by simp [hpit]), if_neg (by simp [hpool]), hout]
  dsimp only
  rw [if_neg (by simp [hfit])]
  exact ⟨_, rfl⟩

/-- A routing instruction whose operation ends leaves the device that it left, and retires. -/
theorem routeRow_done {r : (IW → Instr) × Nat × (IW → Bool) × Nat} (hr : r ∈ routeRows) {w : IW} {s : State} {d d2 : Dev}
    {ws : List Nat} (hw : (r.1 w).wf = true) (hi : Issues s.dev (cOp r.2.1 false) (r.2.2.1 w) w)
    (hc : s.dev.rb Reg.RTE_CTRL 0 = false) (hd : s.dev.desc w.core ((s.dev.core w.core).r1 w) 8 = .ok d ws)
    (ho : d.owns (s.dev.core w.core).slotN (ropOf (ws.map (BitVec.ofNat 64))).so = true)
    (hv : d.rctxValid (s.dev.core w.core).slotN = true)
    (hrt : d.rtAllowed (s.dev.core w.core).slotN (ropOf (ws.map (BitVec.ofNat 64))).rt = true)
    (hwait : (d.rctx (s.dev.core w.core).slotN).waits = [])
    (h : d.routeRun (s.dev.core w.core).slotN w.core r.2.2.2 (ws.map (BitVec.ofNat 64)) = .ok d2) :
    ∃ e, exec (r.1 w) s = .next { s with dev := e }
      ∧ OnlyCore (d2.unitDone (s.dev.core w.core).slotN 57) e w.core ((d2.core w.core).retire (ilenOf w)) :=
  instr_done (exec_routeRows r hr w s) hw hi (routeInstr_done hc hd ho (routeIssue_runs hv hrt hwait h))

/-! ### Marver -/

/-- RPACK arrive on held bins that are at hand and fit. -/
theorem runArrive_starts {d d1 d2 : Dev} {sl c : Nat} {ds : List Word} {ls : List (List Byte)} {bs : List Bin} {held : List Nat}
    (hv : d.rctxValid sl = true) (hrt : d.rtAllowed sl (ropOf ds).rt = true) (hp : d.poolFor (ropOf ds).pool (some sl) = true)
    (hl : d.rdRanges (unitWho sl 57) [((ropOf ds).bufA, 8 * (ropOf ds).nbins)] [] = .ok d1 ls)
    (hheld : held = (leWords 8 (ropOf ds).nbins (ls.getD 0 [])).map (fun a => a % 2 ^ 48))
    (hb : d1.readBins (unitWho sl 57) held [] = .ok d2 bs) (hst : d2.stageComplete sl (d2.lastAxis sl) bs = true)
    (hfit : (mergeBins false bs).length * arrivalRow bs ≤ d2.bufSize (ropOf ds).pool) :
    d.runArrive sl c ds = .ok (d2.addPack {
      id := 0, kind := 1, slot := sl, core := c, pool := (ropOf ds).pool,
      desc := ds ++ [BitVec.ofNat 64 (d2.rf (Reg.RT_OBJ (ropOf ds).rt) 27 16)], held := held, stage := 0, need := 1, got := [] }) := by
  subst hheld
  unfold Dev.runArrive
  dsimp only
  rw [if_neg (by simp [hv, hrt]), if_neg (by simp [hp]), hl]
  dsimp only
  rw [hb]
  dsimp only
  rw [if_neg (by simp [hst]), if_neg (Nat.not_lt.2 hfit)]

/-- RPACK arrive starts a Marver operation and retires. -/
theorem rpackArrive_completes {w : IW} {s : State} {d d3 : Dev} {ws : List Nat} (hw : (Instr.rpackArrive w).wf = true)
    (hi : Issues s.dev (cOp 0x29 false) (decide (fld w.fn 10 3 = 0)) w) (hc : s.dev.rb Reg.RTE_CTRL 0 = false)
    (hd : s.dev.desc w.core ((s.dev.core w.core).r1 w) 8 = .ok d ws)
    (ho : d.owns (s.dev.core w.core).slotN (nfld (ws.getD 0 0) 47 32) = true)
    (hrun : d.runArrive (s.dev.core w.core).slotN w.core (ws.map (BitVec.ofNat 64)) = .ok d3) :
    ∃ e, exec (.rpackArrive w) s = .next { s with dev := e }
      ∧ OnlyCore (d3.unitDone (s.dev.core w.core).slotN 57) e w.core ((d3.core w.core).retire (ilenOf w)) := by
  refine instr_done (c := .rpackArrive w) rfl hw hi ?_
  rw [if_neg (by rw [hc]; exact Bool.false_ne_true), hd]
  dsimp only
  rw [if_neg (by rw [ho]; exact Bool.false_ne_true), hrun]

/-! ### Sending -/

/-- XSEND of a descriptor that passes its checks starts a message. -/
theorem xsend_starts {w : IW} {s : State} {d : Dev} {ws : List Nat} (hw : (Instr.xsend w).wf = true)
    (hi : Issues s.dev (cOp 0x2A false) (decide (fld w.fn 10 2 = 0)) w)
    (hd : s.dev.desc w.core ((s.dev.core w.core).r1 w) 4 = .ok d ws) {sl : Nat} (hsl : sl = (s.dev.core w.core).slotN)
    {y : SendDesc} (hy : y = sendDescOf ws) (hok : d.sendOk sl y = true) (ho : d.owns sl y.so = true)
    (hsp : d.spaceFailed { d.tx 0x08 0 y.dest (d.jobId sl) w.core with chan := y.chan } = false) :
    ∃ e, Does (.xsend w) s e ∧ OnlyCore (d.startMessage sl w.core y none) e w.core
      (((d.startMessage sl w.core y none).core w.core).retire (ilenOf w)) := by
  subst hsl hy
  refine instr_done (c := .xsend w) rfl hw hi ?_
  dsimp only
  rw [hd]
  dsimp only
  rw [if_neg (by simp [hok]), if_neg (by simp [ho]), if_neg (by rw [hsp]; exact Bool.false_ne_true)]

/-- The post at the end of a message: a message of a program posts nothing. -/
theorem Dev.sendPost_eq (d : Dev) (m : SendMsg) : d.sendPost m false = if m.body = none then d.unitPost m.slot m.so 1 false else d := by
  unfold Dev.sendPost
  cases m.body <;> rfl

end Sys2Proof.Machine

section

open Sys2Proof Sys2Proof.Machine Sys2Proof.Safety

/-- Settles O32. -/
theorem routingInstructions : Obligations.RoutingInstructions := by
  intro r hr w s d ws hw hi hc hd sl c ds o k ho hv hrt
  refine ⟨fun hwait => ⟨?open0, ?score1, ?pack, ?combine⟩, fun d2 h => ?wait⟩
  case open0 =>
    intro d0 d3 d4 b hk hh hown hopen x hok hprof hpit htab hreads hb hcan hpb hsc
    obtain ⟨d2, hrun⟩ := runScore_of_reads (c := c) hcan hpb (by rw [hh]; exact hsc)
    have hro := routeRun_opens hk hh hown hopen (runOpen_scores rfl hok hprof hpit htab hreads hb hrun)
    obtain ⟨e, he⟩ := routeRow_done hr hw hi hc hd ho hv hrt hwait hro
    exact ⟨d2, e, hrun, he⟩
  case score1 =>
    intro d1 d5 b rows la hk hh hb hcan hpit hr1 hla e1 e2 d2
    have hwords : (if (k == 1) = true then (d1, some []) else d1.stateWords sl b.table) = (d5, some la) := by
      rcases hla with ⟨h1, rfl, rfl⟩ | ⟨h0, hst⟩
      · rw [if_pos (by simp [h1])]
      · rw [if_neg (by simp [h0]), hst]
    have hrun := runScore_scores (c := c) hcan hpit (by rw [hh]; exact hr1) hwords
    rw [hh] at hrun
    exact routeRow_done hr hw hi hc hd ho hv hrt hwait (routeRun_scores hk hh hb hrun)
  case pack =>
    intro b h hk hb hh hs cp toks p hpit hpool hout hfit
    obtain ⟨d2, hrun⟩ := runPack_packs (c := c) hh rfl rfl hpit hpool hout hfit
    have hro := routeRun_packs hb hh hs hrun
    rw [← hk] at hro
    obtain ⟨e, he⟩ := routeRow_done hr hw hi hc hd ho hv hrt hwait hro
    exact ⟨d2, e, hrun, he⟩
  case combine =>
    intro b hk hb hpit y
    have hro := routeRun_combines (c := c) hb hpit rfl
    rw [← hk] at hro
    exact routeRow_done hr hw hi hc hd ho hv hrt hwait hro
  case wait =>
    exact instr_done (exec_routeRows r hr w s) hw hi (routeInstr_waits hc hd ho h)

/-- Settles O35. -/
theorem marverOperations : Obligations.MarverOperations := by
  refine ⟨fun w s d d1 d2 ws ls bs hw hi hc hd ho hv hrt hp hl hb hst hfit =>
      rpackArrive_completes hw hi hc hd ho (runArrive_starts hv hrt hp hl rfl hb hst hfit), ?restage, ?complete, ?handoff⟩
  case restage =>
    intro c pool stage sl held s d d0 bs hw hs hr hne hp hb hd hnext hall vs hfit
    subst hd
    have hdoes := does_of_run (c := .marverRestage c pool stage held) (s := s) rfl hw
    simp only [hs] at hdoes
    rw [if_neg (by simp [hr, hne]), if_neg (by simp [hp]), hb] at hdoes
    dsimp only at hdoes
    rw [if_neg (by simp [hnext, hall]), if_neg ?_] at hdoes
    · exact hdoes
    · simpa using hfit
  case complete =>
    intro k s o hw hk hfirst d d2
    have he : exec (.routingOperationComplete k) s = execRoutingOperationComplete k s := rfl
    rw [execRoutingOperationComplete] at he
    have hdoes := does_of_run he hw
    simp only [hk, hfirst] at hdoes
    rw [if_neg (fun h => h rfl)] at hdoes
    exact ⟨fun h => by rwa [h] at hdoes, fun h hs => by rwa [hs] at hdoes⟩
  case handoff =>
    intro c bin sl s pi d bs hw hs hf hr hrel hb r
    have hdoes := does_of_run (c := .returnBinHandoff c bin) (s := s) rfl hw
    simp only [hs, hf, hb] at hdoes
    rw [if_neg (by simp [hr, hrel])] at hdoes
    have hpair : r = (r.1, r.2) := rfl
    refine ⟨fun h => ?_, fun f h => ?_⟩
    · rw [h] at hpair
      rw [show ((d.unitDone sl 57).bufHand pi.1 pi.2 49).takeAnswers sl (bs.flatMap Bin.copies) = (r.1, none) from hpair] at hdoes
      exact hdoes
    · rw [h] at hpair
      rw [show ((d.unitDone sl 57).bufHand pi.1 pi.2 49).takeAnswers sl (bs.flatMap Bin.copies) = (r.1, some f) from hpair] at hdoes
      exact hdoes

/-- Settles O36. -/
theorem sendingMessages : Obligations.SendingMessages := by
  refine ⟨fun w s d ws hw hi hd hok ho hsp => xsend_starts hw hi hd rfl rfl hok ho hsp, ?_, ?_⟩
  · intro m s y hw hm
    have he : exec (.xsendComplete m) s = execXsendComplete m s := rfl
    rw [execXsendComplete] at he
    have hdoes := does_of_run he hw
    simp only [hm, Dev.sendPost_eq] at hdoes
    refine ⟨fun h => by rwa [if_pos h] at hdoes, fun hph hack => ?_⟩
    rw [if_neg (by rcases hph with h | h <;> simp [h]), if_pos ⟨hph, hack⟩] at hdoes
    refine ⟨fun hvc => by rwa [if_pos hvc] at hdoes, fun hvc hnote => ?_, fun hvc h2 hno => ?_⟩
    · rw [if_neg hvc] at hdoes
      rcases hnote with h6 | ⟨hbody, hchan⟩
      · rwa [if_pos h6, ite_self] at hdoes
      · rwa [if_pos ⟨Option.isSome_iff_ne_none.2 hbody, hchan⟩] at hdoes
    · rwa [if_neg hvc, if_neg ?_, if_neg (by simp [h2])] at hdoes
      rintro ⟨hbody, hchan⟩
      exact hno.elim (Option.isSome_iff_ne_none.1 hbody) (fun h => h hchan)
  · intro m s y hw hm hvc hsent a
    have he : exec (.chunkReceiptArrival m) s = execChunkReceiptArrival m s := rfl
    rw [execChunkReceiptArrival] at he
    have hdoes := does_of_run he hw
    simp only [hm] at hdoes
    refine ⟨fun h4 => ?_, fun h2 => ?_⟩
    · rw [if_pos ⟨hvc, hsent, h4⟩] at hdoes
      exact hdoes
    · rw [if_neg (by simp [h2]), if_pos ⟨hvc, hsent, h2⟩] at hdoes
      exact hdoes

end
end

section
/-! PROOFS. Management and attestation (R721, R723, R740 to R742, R763 to R767) and the reset state (R16). -/

namespace Sys2Proof.Machine

open Sys2Proof.Safety

/-! ### Management -/

section
variable {d : Dev} {f : Dev → Dev} (ha : d.awake = true)
include ha

/-- A device that is ready serves a PLDM request. -/
theorem Dev.pldm_serves (hs : d.serves = true) : d.pldm f = f d := by
  rw [Dev.pldm, if_neg (by simp [ha]), if_pos hs]

/-- One that is not ready says so. -/
theorem Dev.pldm_notReady (hs : d.serves = false) : d.pldm f = d.answer .errorNotReady := by
  rw [Dev.pldm, if_neg (by simp [ha]), if_neg (by simp [hs])]

end

/-- One that is not awake is silent. -/
theorem Dev.pldm_asleep {d : Dev} {f : Dev → Dev} (ha : d.awake = false) : d.pldm f = d := if_pos ha

/-- Each row of the table is answered by its response. -/
theorem exec_pldmRows (s : State) : ∀ r ∈ pldmRows, Does r.1 s (s.dev.pldm (fun a => a.answer r.2)) := by
  unfold pldmRows
  simp only [List.forall_mem_cons]
  exact ⟨rfl, rfl, rfl, rfl, fun _ h => absurd h List.not_mem_nil⟩

/-- What a control request does. -/
theorem exec_mctpControlRequest (q : Nat) (s : State) : Does (.mctpControlRequest q) s
    (if s.dev.awake = false then s.dev
     else if s.dev.serves then s.dev.answer (.mctp 0 (Config.mctpBody 0 q)) else s.dev.answer (.status s.dev.statusName)) :=
  rfl

/-! ### Attestation -/

/-- A request that is served is answered by its code, with a body that begins with what it holds. -/
theorem Dev.spdmAnswer_eq (d : Dev) (code : Nat) (holds req : List Byte) (signed : Bool) : ∃ rest,
    d.spdmAnswer code holds req signed = ({ d with free := d.free + 1 } : Dev).answer
      (.spdm code (holds ++ rest) (if signed then Config.falconSign d.sec.attKey (holds ++ rest) else [])) :=
  ⟨Config.spdmBody code req d.free, rfl⟩

/-- A device that is ready has not failed to boot. -/
theorem Dev.boot_of_serves {d : Dev} (h : d.serves = true) : d.rf Reg.SEC_BOOT 3 0 ≠ 8 := by
  rw [of_decide_eq_true h]
  decide

section
variable {d : Dev} {attest : Bool} {f : Dev → Dev} (hg : d.sec.inputGood = true) (hf : d.rb Reg.FAB_STATUS 0 = true)
include hg hf

/-- A device that is ready serves a request that may be answered. -/
theorem Dev.spdm_serves (hs : d.serves = true) (ha : attest = true → d.attests = true) : d.spdm attest f = f d := by
  rw [Dev.spdm, if_neg (by simp [hg, hf, Dev.boot_of_serves hs]), if_neg (by simp [hs]), if_neg (by simpa using ha)]

/-- One that attests is refused where the life cycle does not allow it. -/
theorem Dev.spdm_refused (hs : d.serves = true) (ha : attest = true) (hno : d.attests = false) :
    d.spdm attest f = d.spdmAnswer 0x7F [] [] false := by
  rw [Dev.spdm, if_neg (by simp [hg, hf, Dev.boot_of_serves hs]), if_neg (by simp [hs]), if_pos (by simp [ha, hno])]

/-- Before device-ready it is Busy. -/
theorem Dev.spdm_busy (hs : d.serves = false) (hb : d.rf Reg.SEC_BOOT 3 0 ≠ 8) : d.spdm attest f = d.answer .spdmBusy := by
  rw [Dev.spdm, if_neg (by simp [hg, hf, hb]), if_pos hs]

end

/-- Before fabric-ready it is silent. -/
theorem Dev.spdm_silent {d : Dev} {attest : Bool} {f : Dev → Dev} (hf : d.rb Reg.FAB_STATUS 0 = false) : d.spdm attest f = d :=
  if_pos (.inr (.inl hf))

/-- Each request of the table is answered by the code of its row. -/
theorem exec_spdmRows (req : List Byte) (s : State) : ∀ r ∈ spdmRows, (r.1 req).wf = true →
    ∃ q, Does (r.1 req) s (s.dev.spdm r.2.2.1 (fun a => a.spdmAnswer r.2.1 [] q r.2.2.2)) := by
  unfold spdmRows
  simp only [List.forall_mem_cons]
  exact ⟨fun _ => ⟨req, rfl⟩, fun _ => ⟨req, rfl⟩, fun _ => ⟨req, rfl⟩, fun _ => ⟨req ++ s.chain, rfl⟩,
    fun _ => ⟨req ++ s.chain, rfl⟩, fun _ => ⟨req ++ s.chain, rfl⟩, fun _ => ⟨req ++ s.chain, rfl⟩, fun _ => ⟨req, rfl⟩,
    fun _ => ⟨req, rfl⟩, fun _ => ⟨req, rfl⟩, fun _ => ⟨req, rfl⟩, fun _ => ⟨req, rfl⟩, fun _ h => absurd h List.not_mem_nil⟩

/-- A change of the secure streams extends MREG6; no change does nothing. -/
theorem Dev.ideRequest_eq (d : Dev) (req : List Byte) : d.ideRequest req
    = if Config.ideStreams (d.rf Reg.HST_STATUS 14 10) req % 32 = d.rf Reg.HST_STATUS 14 10 then d
      else (d.setRf Reg.HST_STATUS 14 10 (Config.ideStreams (d.rf Reg.HST_STATUS 14 10) req % 32)).extend 6 (Config.ideDigest req) :=
  rfl

/-! ### The reset state -/

/-- Registers hold their Reset values at reset. -/
theorem reset_reg (o : Nat) : State.reset.dev.reg o = resetVal o := rfl

theorem reset_rf (o hi lo : Nat) : State.reset.dev.rf o hi lo = fld (resetVal o) hi lo := rfl

theorem resetVal_jobAdmit : ∀ sl, sl < 16 → fld (resetVal (Reg.JOB_ADMIT sl)) 3 2 = 0 := by decide

theorem resetVal_portState : ∀ p, p < 8 → fld (resetVal (Reg.PORT_STATE p)) 3 0 = 0 := by decide

end Sys2Proof.Machine

section

open Sys2Proof Sys2Proof.Machine Sys2Proof.Safety

/-- Settles O57. -/
theorem management : Obligations.Management := by
  refine ⟨fun s ha => ⟨fun r hr => ⟨fun hs => ?_, fun hs => ?_⟩, fun id hw => ⟨fun hs => ?_, fun hs => ?_⟩, fun watts hw hs => ?_,
    fun q hw => ⟨fun hs => ?_, fun hs => ?_⟩, fun addr hw => ?_⟩, fun off len s hw => ?_, fun s ha r hr => ?_⟩
  · have hdoes := exec_pldmRows s r hr
    rwa [Dev.pldm_serves ha hs] at hdoes
  · have hdoes := exec_pldmRows s r hr
    rwa [Dev.pldm_notReady ha hs] at hdoes
  · have hdoes := does_of_run (c := .pldmSensorRead id) (s := s) rfl hw
    rwa [Dev.pldm_serves ha hs] at hdoes
  · have hdoes := does_of_run (c := .pldmSensorRead id) (s := s) rfl hw
    rwa [Dev.pldm_notReady ha hs] at hdoes
  · have hdoes : Does (.powerCapEffecterWrite watts) s (s.dev.pldm fun a =>
        (a.setRf Reg.PWR_CAP 10 0 (max 800 (min 1800 watts))).answer (.status "success")) := rfl
    rw [Dev.pldm_serves ha hs] at hdoes
    refine ⟨_, hdoes, ?_, rfl, fun o ho => Dev.reg_setRf_ne _ _ _ _ ho⟩
    refine (Dev.rf_setRf_self s.dev _ 10 0 _ (by decide)).trans (Nat.mod_eq_of_lt ?_)
    omega
  · have hdoes := exec_mctpControlRequest q s
    rwa [if_neg (by simp [ha]), if_pos hs] at hdoes
  · have hdoes := exec_mctpControlRequest q s
    rwa [if_neg (by simp [ha]), if_neg (by simp [hs])] at hdoes
  · have hdoes := does_of_run (c := .dynamicAddressAssignment addr) (s := s) rfl hw
    rwa [if_pos ha] at hdoes
  · exact ⟨_, rfl, by simp, rfl⟩
  · have hdoes := exec_pldmRows s r hr
    rwa [Dev.pldm_asleep ha] at hdoes

/-- Settles O58. -/
theorem attestation : Obligations.Attestation := by
  refine ⟨fun r hr req s hw hg hf => ⟨fun hs ha => ?_, fun hs ha hno => ?_, fun hs hb => ?_⟩, fun r hr req s hw hf => ?_,
    fun req s hw hg hf hs ha => ?_, fun req s hw hg hf hs ha => ?_⟩
  · obtain ⟨q, hdoes⟩ := exec_spdmRows req s r hr hw
    rw [Dev.spdm_serves hg hf hs ha] at hdoes
    exact ⟨_, hdoes⟩
  · obtain ⟨q, hdoes⟩ := exec_spdmRows req s r hr hw
    rw [Dev.spdm_refused hg hf hs ha hno] at hdoes
    exact ⟨_, hdoes⟩
  · obtain ⟨q, hdoes⟩ := exec_spdmRows req s r hr hw
    rwa [Dev.spdm_busy hg hf hs hb] at hdoes
  · obtain ⟨q, hdoes⟩ := exec_spdmRows req s r hr hw
    rwa [Dev.spdm_silent hf] at hdoes
  · have hdoes : Does (.getMeasurements req) s (s.dev.spdm true fun a =>
        a.spdmAnswer 0xE0 (a.measurements (req.getD 3 0).toNat) req (bitAt (req.getD 2 0) 0)) := rfl
    rw [Dev.spdm_serves hg hf hs (fun _ => ha)] at hdoes
    exact ⟨_, hdoes⟩
  · have hdoes : Does (.vendorDefinedRequest req) s (s.dev.spdm true fun a =>
        (a.ideRequest req).spdmAnswer 0xFE [] req false) := rfl
    rw [Dev.spdm_serves hg hf hs (fun _ => ha)] at hdoes
    exact ⟨_, _, hdoes, fun h => (s.dev.ideRequest_eq req).trans (if_pos h), fun h => (s.dev.ideRequest_eq req).trans (if_neg h)⟩

/-- Settles O59. -/
theorem resetState : Obligations.ResetState := by
  refine ⟨rfl, ⟨rfl, rfl, rfl, rfl, rfl⟩, rfl, rfl, rfl, rfl, fun c i => ⟨?_, rfl⟩, ?_, ?_, ?_, ?_, ?_, ?_, ?_, ?_⟩
  · unfold Core.getG
    split <;> rfl
  · intro sl hsl
    rw [Dev.jobState, reset_rf]
    exact resetVal_jobAdmit sl hsl
  · intro p hp
    rw [Dev.portState, reset_rf]
    exact resetVal_portState p hp
  all_goals rw [reset_reg]; decide

end
end

section
/-! PROOFS. Commands to the root core and the reset of a job (R17, R728 to R735, R743, R747). -/

namespace Sys2Proof.Machine

open Sys2Proof.Safety

/-! ### The outcome of a command -/

theorem Dev.cmdResult_reg (d : Dev) (k : Nat) {o : Nat} (h : o ≠ Reg.SEC_CMD) : (d.cmdResult k).reg o = d.reg o :=
  (Dev.reg_setRf_ne _ _ _ _ h).trans (Dev.reg_setRb_ne _ _ _ h)

theorem Dev.cmdResult_rf (d : Dev) (k hi lo : Nat) {o : Nat} (h : o ≠ Reg.SEC_CMD) : (d.cmdResult k).rf o hi lo = d.rf o hi lo :=
  (Dev.rf_setRf_ne _ _ _ _ _ _ h).trans (Dev.rf_setRb_ne _ _ _ _ _ h)

/-- The err bit shows whether there was an error. -/
theorem Dev.cmdResult_err (d : Dev) (k : Nat) : (d.cmdResult k).rb Reg.SEC_CMD 9 = decide (k ≠ 0) :=
  (Dev.rb_setRf_apart _ _ _ _ _ _ (.inl (by decide))).trans (Dev.rb_setRb_self _ _ _ _ (by decide))

theorem Dev.cmdResult_ecode (d : Dev) {k : Nat} (h : k < 16) : (d.cmdResult k).rf Reg.SEC_CMD 15 12 = k :=
  (Dev.rf_setRf_self _ _ _ _ _ (by decide)).trans (Nat.mod_eq_of_lt h)

/-- A command reaches the root core. -/
theorem hostCmd_open {s : State} {c : Instr} (op : Nat) (ho : HostOpen s.dev c bar0 true false) :
    s.hostCmd c op = s.secCmd op := by
  rw [State.hostCmd, State.barAccess, show s.dev.barStop c bar0 true false = none from ho]

/-! ### Each command -/

section
variable {s : State}

/-- With a job admitted a transition fails. -/
theorem cmdTransition_job (hj : s.dev.jobAdmitted = true) : s.cmdTransition = s.cmdFails 7 := if_pos hj

section
variable (hj : s.dev.jobAdmitted = false)
include hj

/-- With a token that is not accepted it fails with the token's error. -/
theorem cmdTransition_token (ht : s.dev.tokenError s.nv ≠ 0) : s.cmdTransition = s.cmdFails (s.dev.tokenError s.nv) := by
  rw [State.cmdTransition, if_neg (by simp [hj]), if_pos ht]

/-- An allowed one with a row left burns a row and resets the device. -/
theorem cmdTransition_burns (ht : s.dev.tokenError s.nv = 0) (hop : leNat (s.dev.mbox 0 1) = 1)
    (ha : transitionAllowed (lcOf s.nv.rows) (leNat (s.dev.mbox 1 1)) = true) (hr : s.nv.rows < 15) :
    s.cmdTransition = s.burn { s.nv with
      rows := s.nv.rows + 1, uds := if lcOf s.nv.rows = 0 then some Config.udsFused else s.nv.uds } := by
  rw [State.cmdTransition, if_neg (by simp [hj]), if_neg (by simp [ht]), if_neg (by simp [hop, ha]), if_neg (by omega)]

theorem cmdRetire_burns (h0 : lcOf s.nv.rows ≠ 0) (h4 : lcOf s.nv.rows ≠ 4) :
    s.cmdRetire = s.burn { s.nv with rows := 16, uds := none, udsBlown := true } := by
  rw [State.cmdRetire, if_neg (by simp [hj]), if_neg (by simp [h0, h4])]

theorem cmdRetire_refused (h : lcOf s.nv.rows = 0 ∨ lcOf s.nv.rows = 4) : s.cmdRetire = s.cmdFails 3 := by
  rw [State.cmdRetire, if_neg (by simp [hj]), if_pos h]

/-- Debug unlock of an accepted token, by what the token asks and the life cycle. -/
theorem cmdUnlock_eq (ht : s.dev.tokenError s.nv = 0) {scope : Nat} (hsc : scope = leNat (s.dev.mbox 1 1)) :
    s.cmdUnlock = if leNat (s.dev.mbox 0 1) ≠ 2 ∨ (lcOf s.nv.rows ≠ 1 ∧ lcOf s.nv.rows ≠ 3) ∨ (scope ≠ 1 ∧ scope ≠ 3)
      then s.cmdFails 3
      else s.cmdOk s.nv (fun d => { d with sec := { d.sec with pendingDebug := some scope } }.showLc s.nv) := by
  subst hsc
  rw [State.cmdUnlock, if_neg (by simp [hj]), if_neg (by simp [ht])]

end

/-- A change of the debug state waits: LC shows it, the command succeeds, nothing of the fuses changes. -/
theorem cmdOk_debug (s : State) (scope : Nat) :
    ∃ e : Dev, s.cmdOk s.nv (fun d => { d with sec := { d.sec with pendingDebug := some scope } }.showLc s.nv) = { s with dev := e }
      ∧ e.sec = { s.dev.sec with pendingDebug := some scope } ∧ e.rb Reg.SEC_CMD 9 = false ∧ e.rf Reg.SEC_CMD 15 12 = 0
      ∧ e.reg Reg.SEC_LC = lcWord s.nv e.sec :=
  ⟨_, rfl, rfl, Dev.cmdResult_err _ _, Dev.cmdResult_ecode _ (by decide),
    (Dev.cmdResult_reg _ _ (by decide)).trans (Dev.reg_setReg_self _ _ _)⟩

/-- A chunk beyond the slot fails. -/
theorem cmdChunk_beyond (h : slotBytes < leNat (s.dev.mbox 0 8) + 2048) : s.cmdChunk = s.cmdFails 5 := by
  rw [State.cmdChunk, if_pos h]

/-- A chunk goes to slot B while A runs. -/
theorem cmdChunk_B (h : leNat (s.dev.mbox 0 8) + 2048 ≤ slotBytes) (hf : s.dev.sec.fwSlot = 0) :
    s.cmdChunk = s.cmdOk { s.nv with imageB := wrBytes s.nv.imageB (leNat (s.dev.mbox 0 8)) (s.dev.mbox 64 2048) } id := by
  rw [State.cmdChunk, if_neg (Nat.not_lt.mpr h), if_neg (by simp [Sec.otherSlot, hf])]

/-- A chunk goes to slot A while B runs. -/
theorem cmdChunk_A (h : leNat (s.dev.mbox 0 8) + 2048 ≤ slotBytes) (hf : s.dev.sec.fwSlot ≠ 0) :
    s.cmdChunk = s.cmdOk { s.nv with imageA := wrBytes s.nv.imageA (leNat (s.dev.mbox 0 8)) (s.dev.mbox 64 2048) } id := by
  rw [State.cmdChunk, if_neg (Nat.not_lt.mpr h), if_pos (by simp [Sec.otherSlot, hf])]

theorem cmdSelect_verified (hsl : leNat (s.dev.mbox 0 1) < 2) (hv : s.nv.verifies (leNat (s.dev.mbox 0 1)) = true) :
    s.cmdSelect = s.cmdOk { s.nv with preferred := leNat (s.dev.mbox 0 1) } id := if_pos ⟨hsl, hv⟩

theorem cmdSelect_refused (h : 2 ≤ leNat (s.dev.mbox 0 1) ∨ s.nv.verifies (leNat (s.dev.mbox 0 1)) = false) :
    s.cmdSelect = s.cmdFails 6 := by
  refine if_neg fun hn => ?_
  obtain ⟨hlt, hv⟩ := hn
  cases h with
  | inl hge => omega
  | inr hno => exact Bool.false_ne_true (hno.symm.trans hv)

theorem cmdCommit_ready (h : s.dev.rf Reg.SEC_BOOT 3 0 = 7) {n : Nat} (hn : n = max s.nv.minSvn (min 64 (s.dev.rf Reg.SEC_FW 47 32))) :
    s.cmdCommit = s.cmdOk { s.nv with minSvn := n } (fun d => d.setRf Reg.SEC_FW 63 48 n) := by
  subst hn
  exact if_neg (not_not_intro h)

theorem cmdSettings_job (hj : s.dev.jobAdmitted = true) : s.cmdSettings = s.cmdFails 7 := if_pos hj

/-- The settings of the mailbox are saved. -/
theorem cmdSettings_saved (hj : s.dev.jobAdmitted = false) (hn : leNat (s.dev.mbox 0 2) ≤ 255) :
    s.cmdSettings = s.cmdOk { s.nv with
      settings := (List.range (leNat (s.dev.mbox 0 2))).map (fun i =>
        (leNat (s.dev.mbox (16 + 16 * i) 8), BitVec.ofNat 64 (leNat (s.dev.mbox (24 + 16 * i) 8)))) } id := by
  rw [State.cmdSettings, if_neg (by simp [hj]), if_neg (Nat.not_lt.mpr hn)]

end

/-! ### The reset of a job -/

/-- A stop of a job with none of it running keeps the device; here: what SEC_JRESET.go writes before it stops the job. -/
def Dev.jresetBegun (d : Dev) (sl : Nat) : Dev :=
  { (d.setRf Reg.SEC_JRESET 3 0 sl).setRb Reg.SEC_JRESET 5 true with
    sec := { d.sec with jreset := some sl } }

theorem Dev.jresetGo_refused {d : Dev} {sl : Nat} (h : d.rf Reg.SEC_BOOT 3 0 ≠ 7 ∨ d.rb Reg.SEC_JRESET 5 = true) :
    d.jresetGo sl = d.setRb Reg.SEC_JRESET 7 true := if_pos h

theorem Dev.jresetGo_begins {d : Dev} {sl : Nat} (hb : d.rf Reg.SEC_BOOT 3 0 = 7) (hr : d.rb Reg.SEC_JRESET 5 = false) :
    d.jresetGo sl = (d.jresetBegun sl).operatorStop sl := by
  rw [Dev.jresetGo, if_neg (by simp [hb, hr])]
  rfl

theorem Dev.jresetBegun_regs (d : Dev) (sl o : Nat) :
    (d.jresetBegun sl).reg o = ((d.setRf Reg.SEC_JRESET 3 0 sl).setRb Reg.SEC_JRESET 5 true).reg o := rfl

theorem Dev.jresetBegun_slot (d : Dev) {sl : Nat} (h : sl < 16) : (d.jresetBegun sl).rf Reg.SEC_JRESET 3 0 = sl :=
  (congrArg (fun w => fld w 3 0) (d.jresetBegun_regs sl _)).trans <| (Dev.rf_setRb_apart _ _ _ _ _ _ (.inl (by decide))).trans
    ((Dev.rf_setRf_self _ _ _ _ _ (by decide)).trans (Nat.mod_eq_of_lt h))

theorem Dev.jresetBegun_busy (d : Dev) (sl : Nat) : (d.jresetBegun sl).rb Reg.SEC_JRESET 5 = true :=
  (congrArg (fun w => bitAt w 5) (d.jresetBegun_regs sl _)).trans (Dev.rb_setRb_self _ _ _ _ (by decide))

theorem Dev.jresetBegun_reg (d : Dev) (sl : Nat) {o : Nat} (h : o ≠ Reg.SEC_JRESET) : (d.jresetBegun sl).reg o = d.reg o :=
  (d.jresetBegun_regs sl o).trans ((Dev.reg_setRb_ne _ _ _ h).trans (Dev.reg_setRf_ne _ _ _ _ h))

theorem Dev.poolShow_fab (d : Dev) (p : Nat) : (d.poolShow p).fab = d.fab := (Dev.setReg_fab _ _ _).trans (Dev.setReg_fab _ _ _)

theorem Dev.framesDrop_fab (d : Dev) (fs : List Nat) : (d.framesDrop fs).fab = d.fab :=
  foldl_keeps (π := Dev.fab) (fun a f => by split <;> rfl) fs d

theorem Dev.framesDrop_reg (d : Dev) (fs : List Nat) (o : Nat) : (d.framesDrop fs).reg o = d.reg o :=
  foldl_keeps (π := fun a => Dev.reg a o) (fun a f => by split <;> rfl) fs d

theorem Dev.editLost_fab (d0 d : Dev) (sl : Nat) : (Dev.editLost d0 d sl).fab = d.fab := by
  unfold Dev.editLost
  split <;> rfl

theorem Dev.restoreScoped_fab (d : Dev) (sl : Nat) : (d.restoreScoped sl).fab = d.fab :=
  foldl_keeps (f := fun (a : Dev) n => a.setCadence n Cadence.reset) (π := Dev.fab) (fun _ _ => rfl) _ _

theorem Dev.poolShows_fab (d : Dev) (ps : List Nat) : (ps.foldl Dev.poolShow d).fab = d.fab :=
  foldl_keeps (π := Dev.fab) Dev.poolShow_fab ps d

/-- What shows of pools stands beyond the registers of slots. -/
theorem Dev.poolShows_reg (d : Dev) (ps : List Nat) {o : Nat} (h : o < Reg.POOL_STAT 0) : (ps.foldl Dev.poolShow d).reg o = d.reg o :=
  foldl_keeps (π := fun a => Dev.reg a o)
    (fun a p => Dev.poolShow_reg a p (by unfold Reg.POOL_STAT at *; omega) (by unfold Reg.POOL_STAT Reg.POOL_HELD at *; omega)) ps d

/-- A completed reset: the sequence spaces of its job are gone and its slot is empty before pools and SEC_JRESET show it. -/
theorem Dev.jobResetDone_eq (d : Dev) (sl : Nat) : ∃ (d4 : Dev) (fs : List Nat),
    (∀ x ∈ d4.fab.send, x.key.job ≠ d.jobId sl) ∧ (∀ x ∈ d4.fab.recv, x.key.job ≠ d.jobId sl) ∧ d4.jobState sl = 0
    ∧ (d.jobResetDone sl).fab = ((d.poolsOf sl).foldl Dev.poolShow (d4.framesDrop fs)).fab
    ∧ ∀ o, (d.jobResetDone sl).reg o = ((((d.poolsOf sl).foldl Dev.poolShow (d4.framesDrop fs)).setRb Reg.SEC_JRESET 5 false).setRb
        Reg.SEC_JRESET 6 true).reg o := by
  refine ⟨_, _, ?_, ?_, ?_, rfl, fun _ => rfl⟩
  · rw [Dev.setRf_fab, Dev.setReg_fab, Dev.showMovers, Dev.setRf_fab, Dev.editLost_fab, Dev.restoreScoped_fab]
    exact fun x hx => of_decide_eq_true (List.mem_filter.mp hx).2
  · rw [Dev.setRf_fab, Dev.setReg_fab, Dev.showMovers, Dev.setRf_fab, Dev.editLost_fab, Dev.restoreScoped_fab]
    exact fun x hx => of_decide_eq_true (List.mem_filter.mp hx).2
  · exact Dev.rf_setRf_self _ _ _ _ _ (by decide)

/-- At its end the slot's job is gone, SEC_JRESET is done and no longer busy. -/
theorem Dev.jobResetDone_shows (d : Dev) {sl : Nat} (h : sl < 16) : (d.jobResetDone sl).jobState sl = 0
    ∧ (d.jobResetDone sl).rb Reg.SEC_JRESET 5 = false ∧ (d.jobResetDone sl).rb Reg.SEC_JRESET 6 = true := by
  obtain ⟨d4, fs, -, -, hjob, -, hreg⟩ := d.jobResetDone_eq sl
  have hne : Reg.JOB_ADMIT sl ≠ Reg.SEC_JRESET := by unfold Reg.JOB_ADMIT Reg.SEC_JRESET; omega
  have hlt : Reg.JOB_ADMIT sl < Reg.POOL_STAT 0 := by unfold Reg.JOB_ADMIT Reg.POOL_STAT; omega
  have hadmit : (d.jobResetDone sl).reg (Reg.JOB_ADMIT sl) = d4.reg (Reg.JOB_ADMIT sl) := by
    rw [hreg, Dev.reg_setRb_ne _ _ _ hne, Dev.reg_setRb_ne _ _ _ hne, Dev.poolShows_reg _ _ hlt, Dev.framesDrop_reg]
  refine ⟨(congrArg (fun w => fld w 3 2) hadmit).trans hjob, ?_, ?_⟩
  · exact (congrArg (fun w => bitAt w 5) (hreg _)).trans
      ((Dev.rb_setRb_apart _ _ _ _ _ (by decide) (by decide)).trans (Dev.rb_setRb_self _ _ _ _ (by decide)))
  · exact (congrArg (fun w => bitAt w 6) (hreg _)).trans (Dev.rb_setRb_self _ _ _ _ (by decide))

/-- At its end the job has no sequence spaces. -/
theorem Dev.jobResetDone_spaces (d : Dev) (sl : Nat) : (∀ x ∈ (d.jobResetDone sl).fab.send, x.key.job ≠ d.jobId sl)
    ∧ ∀ x ∈ (d.jobResetDone sl).fab.recv, x.key.job ≠ d.jobId sl := by
  obtain ⟨d4, fs, hsend, hrecv, -, hfab, -⟩ := d.jobResetDone_eq sl
  rw [hfab, Dev.poolShows_fab, Dev.framesDrop_fab]
  exact ⟨hsend, hrecv⟩

end Sys2Proof.Machine

section

open Sys2Proof Sys2Proof.Machine Sys2Proof.Safety

/-- Settles O55. -/
theorem rootCommands : Obligations.RootCommands := by
  refine ⟨fun s ho => ?_, fun s ho hj => ?_, fun s ho hj ht => ?_, fun s ho => ?_, fun s ho => ?_, fun s ho => ?_, fun s ho hr => ?_,
    fun s ho => ?_, fun s k h0 hk => ?_⟩
  · have he : exec .secCmdTransition s = .next s.cmdTransition := congrArg Host.Outcome.next (hostCmd_open 1 ho)
    refine ⟨fun hj => he.trans ?_, fun hj ht => he.trans ?_, fun hj ht hop ha hr => ?_⟩
    · rw [cmdTransition_job hj]
    · rw [cmdTransition_token hj ht]
    · exact ⟨_, he.trans (congrArg _ (cmdTransition_burns hj ht hop ha hr)), rfl, rfl, rfl⟩
  · have he : exec .secCmdRetire s = .next s.cmdRetire := congrArg Host.Outcome.next (hostCmd_open 8 ho)
    refine ⟨fun h0 h4 => ⟨_, he.trans (congrArg _ (cmdRetire_burns hj h0 h4)), rfl, rfl⟩, fun h => he.trans ?_⟩
    rw [cmdRetire_refused hj h]
  · have he : exec .secCmdDebugUnlock s = .next s.cmdUnlock := congrArg Host.Outcome.next (hostCmd_open 2 ho)
    rw [cmdUnlock_eq hj ht rfl] at he
    refine ⟨fun hok => ?_, fun hno => ?_⟩
    · rw [if_neg (by omega)] at he
      obtain ⟨e, hok', he'⟩ := cmdOk_debug s (leNat (s.dev.mbox 1 1))
      exact ⟨e, he.trans (congrArg _ hok'), he'⟩
    · rwa [if_pos (by omega)] at he
  · have he : exec .secCmdDebugLock s = .next s.cmdLock := congrArg Host.Outcome.next (hostCmd_open 3 ho)
    obtain ⟨e, hok, hsec, herr, -⟩ := cmdOk_debug s 0
    exact ⟨e, he.trans (congrArg _ hok), hsec, herr⟩
  · have he : exec .secCmdWriteImageChunk s = .next s.cmdChunk := congrArg Host.Outcome.next (hostCmd_open 4 ho)
    exact ⟨fun h => he.trans (congrArg _ (cmdChunk_beyond h)), fun h hf => he.trans (congrArg _ (cmdChunk_B h hf)),
      fun h hf => he.trans (congrArg _ (cmdChunk_A h hf))⟩
  · have he : exec .secCmdSelectSlot s = .next s.cmdSelect := congrArg Host.Outcome.next (hostCmd_open 5 ho)
    exact ⟨fun hsl hv => he.trans (congrArg _ (cmdSelect_verified hsl hv)), fun h => he.trans (congrArg _ (cmdSelect_refused h))⟩
  · have he : exec .secCmdCommitSvn s = .next s.cmdCommit := congrArg Host.Outcome.next (hostCmd_open 6 ho)
    refine ⟨_, he.trans (congrArg _ (cmdCommit_ready hr rfl)), rfl, rfl, ?_⟩
    exact (Dev.cmdResult_rf _ _ _ _ (by decide)).trans (Dev.rf_setRf_self _ _ _ _ _ (by decide))
  · have he : exec .secCmdSaveSettings s = .next s.cmdSettings := congrArg Host.Outcome.next (hostCmd_open 7 ho)
    refine ⟨fun hj => he.trans (congrArg _ (cmdSettings_job hj)), fun hj hn => ?_⟩
    refine ⟨_, he.trans (congrArg _ (cmdSettings_saved hj hn)), rfl, rfl, ?_, fun i hi => ?_⟩
    · simp [State.cmdOk]
    · simp [State.cmdOk, hi]
  · exact ⟨rfl, (Dev.cmdResult_err _ _).trans (by simp; omega), Dev.cmdResult_ecode _ hk, fun o ho => Dev.cmdResult_reg _ _ ho⟩

/-- Settles O56. -/
theorem jobReset : Obligations.JobReset := by
  refine ⟨fun sl s hw ho => ⟨fun h => ?_, fun hb hr => ?_⟩, fun sl s hs hsl => ?_, fun d sl job => ⟨?_, ?_, ?_, rfl, rfl⟩⟩
  · have he := host_open (f := fun a => a.jresetGo sl) hw ho
    rwa [Dev.jresetGo_refused h] at he
  · have he := host_open (f := fun a => a.jresetGo sl) hw ho
    rw [Dev.jresetGo_begins hb hr] at he
    exact ⟨_, he, Dev.jresetBegun_slot _ (of_decide_eq_true hw), Dev.jresetBegun_busy _ _, rfl, fun o ho' => Dev.jresetBegun_reg _ _ ho'⟩
  · have hdoes : Does .jobResetComplete s (s.dev.jobResetDone sl) := by
      rw [Does, exec, execJobResetComplete, run_wf rfl, hs]
    obtain ⟨hjob, hbusy, hdone⟩ := s.dev.jobResetDone_shows hsl
    obtain ⟨hsend, hrecv⟩ := s.dev.jobResetDone_spaces sl
    exact ⟨_, hdoes, rfl, hjob, hbusy, hdone, hsend, hrecv⟩
  · exact fun x hx => of_decide_eq_true (List.mem_filter.mp hx).2
  · exact fun x hx => of_decide_eq_true (List.mem_filter.mp hx).2
  · exact fun x hx => of_decide_eq_true (List.mem_filter.mp hx).2

end
end

section
/-! PROOFS. Resets and the steps of start-up (R16, R69, R716 to R727, R735 to R740). -/

namespace Sys2Proof.Machine

open Sys2Proof.Safety

/-! ### Registers written in a row -/

/-- The registers of a row of writes read what was written. -/
theorem Dev.reg_foldl_setReg_self (f : Nat → Nat) (g : Nat → Word) (ks : List Nat) (d : Dev) {k : Nat} (hk : k ∈ ks)
    (hf : ∀ j, f j = f k → j = k) : (ks.foldl (fun a j => a.setReg (f j) (g j)) d).reg (f k) = g k := by
  induction ks generalizing d with
  | nil => exact absurd hk List.not_mem_nil
  | cons j ks ih =>
    rw [List.foldl_cons]
    by_cases hin : k ∈ ks
    · exact ih _ hin
    · obtain rfl : k = j := (List.mem_cons.mp hk).resolve_right hin
      rw [Dev.reg_foldl_setReg f (fun _ j => g j) ks _ _ (fun i hi he => hin (hf i he.symm ▸ hi)), Dev.reg_setReg_self]

/-! ### The start of a reset -/

/-- The registers that the board or the flash fill; the others keep their values. -/
theorem Dev.loadRegs_reg (d : Dev) (nv : NonVol) {o : Nat}
    (h : o ∉ [Reg.MODULE_ID, Reg.MEM_FRAMES, Reg.MEM_STATUS, Reg.FAB_NODE, Reg.FAB_TOPO])
    (hvf : o ∉ (List.range 33).map Reg.PWR_VF) : (d.loadRegs nv).reg o = d.reg o := by
  simp only [List.mem_cons, List.not_mem_nil, or_false, not_or] at h
  obtain ⟨hid, hframes, hmem, hnode, htopo⟩ := h
  unfold Dev.loadRegs
  dsimp only
  rw [Dev.reg_setReg_ne _ _ htopo, Dev.reg_setReg_ne _ _ hnode, Dev.reg_setRb_ne _ _ _ hmem, Dev.reg_setReg_ne _ _ hframes,
    Dev.reg_setReg_ne _ _ hid]
  exact Dev.reg_foldl_setReg Reg.PWR_VF (fun a i => vfWord (a.board.vtab.getD i 0)) _ _ _
    (fun k hk he => hvf (he ▸ List.mem_map_of_mem hk))

theorem Dev.loadRegs_topo (d : Dev) (nv : NonVol) : (d.loadRegs nv).reg Reg.FAB_TOPO = nv.fabTopo := Dev.reg_setReg_self _ _ _

theorem Dev.loadRegs_node (d : Dev) (nv : NonVol) : (d.loadRegs nv).reg Reg.FAB_NODE = nv.fabNode :=
  (Dev.reg_setReg_ne _ _ (by decide)).trans (Dev.reg_setReg_self _ _ _)

/-- The step at which a reset starts. -/
def Dev.firstStep (d : Dev) (k : ResetKind) : Nat := if k = .cold ∨ (d.sec.running = true ∧ d.rf Reg.SEC_BOOT 3 0 = 1) then 1 else 2

theorem Dev.firstStep_lt (d : Dev) (k : ResetKind) : d.firstStep k < 16 := by
  unfold Dev.firstStep
  split <;> decide

/-- A reset begins from registers at their Reset values. -/
theorem Dev.startReset_eq (d : Dev) (nv : NonVol) (k : ResetKind) : ∃ e : Dev,
    (∀ o, e.reg o = resetVal o) ∧ e.mem = { Dev.reset.mem with t3 := d.mem.t3 } ∧ e.sec = d.sec.restart k (lcOf nv.rows)
    ∧ (e.sch = Dev.reset.sch ∧ e.rte = Dev.reset.rte ∧ e.xch = Dev.reset.xch ∧ e.fab = Dev.reset.fab ∧ e.cul = Dev.reset.cul
      ∧ e.twin = [] ∧ e.force = [] ∧ e.cores = [] ∧ e.eng = [])
    ∧ d.startReset nv k = ((e.loadRegs nv).showLc nv).setRf Reg.SEC_BOOT 3 0 (d.firstStep k) := by
  refine ⟨_, ?_, ?_, ?_, ?_, rfl⟩
  · exact fun _ => rfl
  · rfl
  · rfl
  · exact ⟨rfl, rfl, rfl, rfl, rfl, rfl, rfl, rfl, rfl⟩

/-- What shows at the start of a reset changes registers alone. -/
theorem Dev.shown_keeps {β : Type} {π : Dev → β} (h : ∀ d o v, π (d.setReg o v) = π d) (e : Dev) (nv : NonVol) (step : Nat) :
    π (((e.loadRegs nv).showLc nv).setRf Reg.SEC_BOOT 3 0 step) = π e := by
  rw [Dev.setRf, h, Dev.showLc, h, Dev.loadRegs_keeps h]

/-- The registers at the start of a reset. -/
theorem Dev.startReset_reg (d : Dev) (nv : NonVol) (k : ResetKind) {o : Nat}
    (h : o ∉ [Reg.MODULE_ID, Reg.MEM_FRAMES, Reg.MEM_STATUS, Reg.FAB_NODE, Reg.FAB_TOPO, Reg.SEC_LC, Reg.SEC_BOOT])
    (hvf : o ∉ (List.range 33).map Reg.PWR_VF) : (d.startReset nv k).reg o = resetVal o := by
  obtain ⟨e, hreg, -, -, -, heq⟩ := d.startReset_eq nv k
  simp only [List.mem_cons, List.not_mem_nil, or_false, not_or] at h
  obtain ⟨hid, hframes, hmem, hnode, htopo, hlc, hboot⟩ := h
  rw [heq, Dev.reg_setRf_ne _ _ _ _ hboot, Dev.showLc, Dev.reg_setReg_ne _ _ hlc,
    Dev.loadRegs_reg _ _ (by simp [hid, hframes, hmem, hnode, htopo]) hvf, hreg]

theorem Dev.startReset_node (d : Dev) (nv : NonVol) (k : ResetKind) : (d.startReset nv k).reg Reg.FAB_NODE = nv.fabNode := by
  obtain ⟨e, -, -, -, -, heq⟩ := d.startReset_eq nv k
  rw [heq, Dev.reg_setRf_ne _ _ _ _ (by decide), Dev.showLc, Dev.reg_setReg_ne _ _ (by decide), Dev.loadRegs_node]

theorem Dev.startReset_topo (d : Dev) (nv : NonVol) (k : ResetKind) : (d.startReset nv k).reg Reg.FAB_TOPO = nv.fabTopo := by
  obtain ⟨e, -, -, -, -, heq⟩ := d.startReset_eq nv k
  rw [heq, Dev.reg_setRf_ne _ _ _ _ (by decide), Dev.showLc, Dev.reg_setReg_ne _ _ (by decide), Dev.loadRegs_topo]

theorem Dev.startReset_step (d : Dev) (nv : NonVol) (k : ResetKind) : (d.startReset nv k).rf Reg.SEC_BOOT 3 0 = d.firstStep k :=
  (Dev.rf_setRf_self _ _ _ _ _ (by decide)).trans (Nat.mod_eq_of_lt (d.firstStep_lt k))

/-- The parts of the device at the start of a reset. -/
theorem Dev.startReset_parts (d : Dev) (nv : NonVol) (k : ResetKind) {e : Dev} (he : e = d.startReset nv k) :
    e.mem = { Dev.reset.mem with t3 := d.mem.t3 } ∧ e.cores = [] ∧ e.eng = [] ∧ e.sch = Dev.reset.sch ∧ e.rte = Dev.reset.rte
    ∧ e.xch = Dev.reset.xch ∧ e.fab = Dev.reset.fab ∧ e.cul = Dev.reset.cul ∧ e.twin = [] ∧ e.force = []
    ∧ e.sec = d.sec.restart k (lcOf nv.rows) := by
  obtain ⟨e', -, hmem, hsec, ⟨hsch, hrte, hxch, hfab, hcul, htwin, hforce, hcores, heng⟩, heq⟩ := d.startReset_eq nv k
  rw [he, heq]
  exact ⟨(Dev.shown_keeps Dev.setReg_mem _ _ _).trans hmem, (Dev.shown_keeps Dev.setReg_cores _ _ _).trans hcores,
    (Dev.shown_keeps Dev.setReg_eng _ _ _).trans heng, (Dev.shown_keeps Dev.setReg_sch _ _ _).trans hsch,
    (Dev.shown_keeps Dev.setReg_rte _ _ _).trans hrte, (Dev.shown_keeps Dev.setReg_xch _ _ _).trans hxch,
    (Dev.shown_keeps Dev.setReg_fab _ _ _).trans hfab, (Dev.shown_keeps Dev.setReg_cul _ _ _).trans hcul,
    (Dev.shown_keeps Dev.setReg_twin _ _ _).trans htwin, (Dev.shown_keeps Dev.setReg_force _ _ _).trans hforce,
    (Dev.shown_keeps Dev.setReg_sec _ _ _).trans hsec⟩

/-- A device reset that is heard. -/
theorem State.deviceReset_runs {s : State} (hb : s.dev.bootOver = true) (hr : s.dev.resetRefused = false) :
    s.deviceReset = { s with dev := s.dev.startReset s.nv .device } := by
  rw [State.deviceReset, if_pos (by rw [hb, hr]; rfl)]

theorem State.deviceReset_refused {s : State} (hr : s.dev.resetRefused = true) : s.deviceReset = s := by
  rw [State.deviceReset, if_neg (by simp [hr])]

/-! ### The steps of start-up -/

/-- The new words of an extended measurement register. -/
theorem Dev.extend_self (d : Dev) (m : Nat) (bs : List Byte) {w : Nat} (hw : w < 8) :
    (d.extend m bs).reg (Reg.SEC_MREG m w) = BitVec.ofNat 64 ((leWords 8 8 (shake256 64 (d.mreg m ++ bs))).getD w 0) :=
  Dev.reg_foldl_setReg_self (Reg.SEC_MREG m) (fun w => BitVec.ofNat 64 ((leWords 8 8 (shake256 64 (d.mreg m ++ bs))).getD w 0)) _ _
    (List.mem_range.mpr hw) (fun j hj => by unfold Reg.SEC_MREG at hj; omega)

/-- An extension leaves the registers below the measurement registers. -/
theorem Dev.extend_reg (d : Dev) (m : Nat) (bs : List Byte) {o : Nat} (h : o < Reg.SEC_MREG 0 0) : (d.extend m bs).reg o = d.reg o :=
  Dev.reg_foldl_setReg (Reg.SEC_MREG m) _ _ _ _ (fun k _ => by unfold Reg.SEC_MREG at *; omega)

theorem Dev.stepTime_reg (d : Dev) (k ms : Nat) {o : Nat} (h : o ≠ Reg.SEC_BTIME) : (d.stepTime k ms).reg o = d.reg o :=
  Dev.reg_setRf_ne _ _ _ _ h

/-- The next step shows. -/
theorem Dev.nextStep_shows (d : Dev) {k : Nat} (h : k < 15) : (d.nextStep k).rf Reg.SEC_BOOT 3 0 = k + 1 :=
  (Dev.rf_setRf_self _ _ _ _ _ (by decide)).trans (Nat.mod_eq_of_lt (by omega))

theorem Dev.bootFail_regs (d : Dev) (reason o : Nat) :
    (d.bootFail reason).reg o = ((d.setRf Reg.SEC_BOOT 3 0 8).setRf Reg.SEC_BOOT 11 8 reason).reg o := rfl

/-- Boot-failed shows with its reason, and start-up has ended. -/
theorem Dev.bootFail_shows (d : Dev) {reason : Nat} (h : reason < 16) : (d.bootFail reason).rf Reg.SEC_BOOT 3 0 = 8
    ∧ (d.bootFail reason).rf Reg.SEC_BOOT 11 8 = reason ∧ (d.bootFail reason).sec.running = false := by
  refine ⟨?_, ?_, rfl⟩
  · exact (congrArg (fun w => fld w 3 0) (d.bootFail_regs reason _)).trans
      ((Dev.rf_setRf_apart _ _ _ _ _ _ _ (.inl (by decide))).trans (Dev.rf_setRf_self _ _ _ _ _ (by decide)))
  · exact (congrArg (fun w => fld w 11 8) (d.bootFail_regs reason _)).trans
      ((Dev.rf_setRf_self _ _ _ _ _ (by decide)).trans (Nat.mod_eq_of_lt h))

/-- Step 2 fails with flash that cannot be read, on a retired device, and where no slot verifies. -/
theorem Dev.bootFirmware_fails {d : Dev} {nv : NonVol} {r : BootResult} {reason : Nat}
    (h : (r.readable = false ∧ reason = 3) ∨ (r.readable = true ∧ lcOf nv.rows = 4 ∧ reason = 4)
      ∨ (r.readable = true ∧ lcOf nv.rows ≠ 4 ∧ nv.bootSlot = none ∧ reason = 1)) : d.bootFirmware nv r = d.bootFail reason := by
  obtain ⟨hr, rfl⟩ | ⟨hr, hlc, rfl⟩ | ⟨hr, hlc, hsl, rfl⟩ := h
  · rw [Dev.bootFirmware, if_pos hr]
  · rw [Dev.bootFirmware, if_neg (by simp [hr]), if_pos hlc]
  · rw [Dev.bootFirmware, if_neg (by simp [hr]), if_neg hlc, hsl]

/-- What step 2 writes of a slot that boots, before it shows the world. -/
def Dev.bootedSlot (d : Dev) (nv : NonVol) (r : BootResult) (sl : Nat) : Dev :=
  ((((((List.range 4).foldl (fun a i => a.setReg (Reg.SEC_NONCE i) (BitVec.ofNat 64 (r.nonce.toNat / 2 ^ (64 * i)))) d).extend 0
      (Config.romVersion ++ Config.fuseBytes (lcOf nv.rows) nv.revoked.toNat nv.minSvn)).extend 1 (nv.bytes sl 0 80)).setReg
        Reg.SEC_FW (fwWord nv sl)).setRb Reg.SEC_BOOT 4 (decide (sl = 1))).setRb Reg.SEC_BOOT 5 (decide (sl ≠ nv.preferred % 2))

/-- The slot that runs. -/
def Dev.withFwSlot (d : Dev) (sl : Nat) : Dev := { d with sec := { d.sec with fwSlot := sl } }

theorem Dev.withFwSlot_reg (d : Dev) (sl o : Nat) : (d.withFwSlot sl).reg o = d.reg o := rfl

theorem Dev.withFwSlot_sec (d : Dev) (sl : Nat) : (d.withFwSlot sl).sec.fwSlot = sl := rfl

/-- A slot that verifies boots. -/
theorem Dev.bootFirmware_boots {d : Dev} {nv : NonVol} {r : BootResult} {sl : Nat} (hr : r.readable = true) (hlc : lcOf nv.rows ≠ 4)
    (hsl : nv.bootSlot = some sl) : d.bootFirmware nv r
      = ((d.bootedSlot nv r sl).withFwSlot sl).showWorld.nextStep 2 := by
  rw [Dev.bootFirmware, if_neg (by simp [hr]), if_neg hlc, hsl]
  rfl

/-- What the firmware shows of the world stands in HST registers. -/
theorem Dev.showWorld_reg (d : Dev) {o : Nat} (h : o < Reg.HST_STATUS) : d.showWorld.reg o = d.reg o := by
  unfold Dev.showWorld
  dsimp only
  rw [Dev.reg_setRb_ne _ _ _ (Nat.ne_of_lt h), Dev.reg_setRf_ne _ _ _ _ (Nat.ne_of_lt h), Dev.reg_setRf_ne _ _ _ _]
  unfold Reg.HST_STATUS Reg.HST_INPUT at *
  omega

theorem Dev.showWorld_sec (d : Dev) : d.showWorld.sec = d.sec := rfl

theorem Dev.bootedSlot_nonce (d : Dev) (nv : NonVol) (r : BootResult) (sl : Nat) {i : Nat} (h : i < 4) :
    ((d.bootedSlot nv r sl).reg (Reg.SEC_NONCE i)) = BitVec.ofNat 64 (r.nonce.toNat / 2 ^ (64 * i)) := by
  have hfw : Reg.SEC_NONCE i ≠ Reg.SEC_FW := by unfold Reg.SEC_NONCE Reg.SEC_FW; omega
  have hboot : Reg.SEC_NONCE i ≠ Reg.SEC_BOOT := by unfold Reg.SEC_NONCE Reg.SEC_BOOT; omega
  have hlt : Reg.SEC_NONCE i < Reg.SEC_MREG 0 0 := by unfold Reg.SEC_NONCE Reg.SEC_MREG; omega
  rw [Dev.bootedSlot, Dev.reg_setRb_ne _ _ _ hboot, Dev.reg_setRb_ne _ _ _ hboot, Dev.reg_setReg_ne _ _ hfw, Dev.extend_reg _ _ _ hlt,
    Dev.extend_reg _ _ _ hlt]
  exact Dev.reg_foldl_setReg_self Reg.SEC_NONCE (fun i => BitVec.ofNat 64 (r.nonce.toNat / 2 ^ (64 * i))) _ _ (List.mem_range.mpr h)
    (fun j hj => by unfold Reg.SEC_NONCE at hj; omega)

theorem Dev.bootedSlot_fw (d : Dev) (nv : NonVol) (r : BootResult) (sl : Nat) :
    (d.bootedSlot nv r sl).reg Reg.SEC_FW = fwWord nv sl :=
  (Dev.reg_setRb_ne _ _ _ (by decide)).trans ((Dev.reg_setRb_ne _ _ _ (by decide)).trans (Dev.reg_setReg_self _ _ _))

/-- SEC_BOOT shows the slot and whether it is the preferred one. -/
theorem Dev.bootedSlot_shows (d : Dev) (nv : NonVol) (r : BootResult) (sl : Nat) :
    (d.bootedSlot nv r sl).rb Reg.SEC_BOOT 4 = decide (sl = 1)
    ∧ (d.bootedSlot nv r sl).rb Reg.SEC_BOOT 5 = decide (sl ≠ nv.preferred % 2) :=
  ⟨(Dev.rb_setRb_apart _ _ _ _ _ (by decide) (by decide)).trans (Dev.rb_setRb_self _ _ _ _ (by decide)),
    Dev.rb_setRb_self _ _ _ _ (by decide)⟩

/-- The next step leaves every other register, and of SEC_BOOT the other fields. -/
theorem Dev.nextStep_reg (d : Dev) (k : Nat) {o : Nat} (h : o ≠ Reg.SEC_BOOT) : (d.nextStep k).reg o = d.reg o :=
  Dev.reg_setRf_ne _ _ _ _ h

/-- What stands after step 2 of a slot that boots. -/
theorem Dev.bootFirmware_stands {d e : Dev} {nv : NonVol} {r : BootResult} {sl : Nat} (hr : r.readable = true)
    (hlc : lcOf nv.rows ≠ 4) (hsl : nv.bootSlot = some sl) (he : e = d.bootFirmware nv r) :
    e.rf Reg.SEC_BOOT 3 0 = 3 ∧ e.reg Reg.SEC_FW = fwWord nv sl ∧ e.rb Reg.SEC_BOOT 4 = decide (sl = 1)
    ∧ e.rb Reg.SEC_BOOT 5 = decide (sl ≠ nv.preferred % 2) ∧ e.sec.fwSlot = sl
    ∧ ∀ i, i < 4 → (e.reg (Reg.SEC_NONCE i)).toNat = r.nonce.toNat / 2 ^ (64 * i) % 2 ^ 64 := by
  rw [Dev.bootFirmware_boots hr hlc hsl] at he
  subst he
  obtain ⟨h4, h5⟩ := d.bootedSlot_shows nv r sl
  refine ⟨Dev.nextStep_shows _ (by decide), ?_, ?_, ?_, ?_, fun i hi => ?_⟩
  · rw [Dev.nextStep_reg _ _ (by decide), Dev.showWorld_reg _ (by decide), Dev.withFwSlot_reg]
    exact d.bootedSlot_fw nv r sl
  · refine (Dev.rb_setRf_apart _ _ _ _ _ _ (.inr (by decide))).trans (Eq.trans ?_ h4)
    exact congrArg (fun w => bitAt w 4) ((Dev.showWorld_reg _ (by decide)).trans (Dev.withFwSlot_reg _ _ _))
  · refine (Dev.rb_setRf_apart _ _ _ _ _ _ (.inr (by decide))).trans (Eq.trans ?_ h5)
    exact congrArg (fun w => bitAt w 5) ((Dev.showWorld_reg _ (by decide)).trans (Dev.withFwSlot_reg _ _ _))
  · rw [Dev.nextStep, Dev.setRf_sec, Dev.showWorld_sec, Dev.withFwSlot_sec]
  · have hlt : Reg.SEC_NONCE i < Reg.HST_STATUS := by unfold Reg.SEC_NONCE Reg.HST_STATUS; omega
    have hne : Reg.SEC_NONCE i ≠ Reg.SEC_BOOT := by unfold Reg.SEC_NONCE Reg.SEC_BOOT; omega
    rw [Dev.nextStep_reg _ _ hne, Dev.showWorld_reg _ hlt, Dev.withFwSlot_reg]
    exact (congrArg BitVec.toNat (d.bootedSlot_nonce nv r sl hi)).trans (BitVec.toNat_ofNat _ _)

/-- What the repair decision writes stands in the engines' registers. -/
theorem Dev.repairEngine_reg (d : Dev) (e : Nat) (bad : BitVec 9) {o : Nat} (h : o < 0x2000000) :
    (d.repairEngine e bad).reg o = d.reg o := by
  have hst : o ≠ Reg.ENG_STATUS e := by unfold Reg.ENG_STATUS; omega
  unfold Dev.repairEngine
  dsimp only
  rw [Dev.reg_setRb_ne _ _ _ hst, Dev.reg_setRb_ne _ _ _ hst, Dev.reg_setReg_ne, Dev.reg_setReg_ne]
  · unfold Reg.ENG_REPAIR; omega
  · unfold Reg.ENG_SKEW; omega

/-- The channels' training shows outside MEM_STATUS. -/
theorem Dev.channels_reg (d : Dev) (trained : BitVec 32) {o : Nat} (h : o < Reg.MEM_CH 0) :
    ((List.range 32).foldl (fun a c => a.setRb (Reg.MEM_CH c) 32 (bitAt trained c)) d).reg o = d.reg o :=
  foldl_keeps (π := fun a => Dev.reg a o) (fun a c => Dev.reg_setRb_ne a _ _ (by unfold Reg.MEM_CH at *; omega)) _ d

/-- Step 3 ends in step 4 where every channel trains, or where none has to. -/
theorem Dev.trainAndRepair_trained {d e : Dev} {nv : NonVol} {r : BootResult}
    (h : d.sec.train = false ∨ r.trained = BitVec.allOnes 32) (he : e = d.trainAndRepair nv r) :
    e.rf Reg.SEC_BOOT 3 0 = 4 ∧ e.rf Reg.MEM_STATUS 31 0 = 2 ^ 32 - 1 := by
  have htr : (if d.sec.train then r.trained else BitVec.allOnes 32) = BitVec.allOnes 32 := by
    cases h with
    | inl h => rw [if_neg (by simp [h])]
    | inr h => rw [h, ite_self]
  rw [Dev.trainAndRepair] at he
  rw [htr, if_neg (not_not_intro rfl)] at he
  subst he
  refine ⟨Dev.nextStep_shows _ (by decide), ?_⟩
  have hreg : ∀ x : Dev, (((List.range 32).foldl (fun a e => a.repairEngine e (badRows nv r e))
      ((List.range 32).foldl (fun a c => a.setRb (Reg.MEM_CH c) 32 (bitAt (BitVec.allOnes 32) c)) x)).nextStep 3).reg Reg.MEM_STATUS
      = x.reg Reg.MEM_STATUS := fun x =>
    (Dev.nextStep_reg _ _ (by decide)).trans ((foldl_keeps (f := fun (a : Dev) e => a.repairEngine e (badRows nv r e))
      (π := fun a => Dev.reg a Reg.MEM_STATUS) (fun a e => Dev.repairEngine_reg a e _ (by decide)) _ _).trans
        (Dev.channels_reg x _ (by decide)))
  exact (congrArg (fun w => fld w 31 0) (hreg _)).trans (Dev.rf_setRf_self _ _ _ _ _ (by decide))

/-- Step 3 fails where memory does not train. -/
theorem Dev.trainAndRepair_fails {d e : Dev} {nv : NonVol} {r : BootResult} (ht : d.sec.train = true)
    (h : r.trained ≠ BitVec.allOnes 32) (he : e = d.trainAndRepair nv r) :
    e.rf Reg.SEC_BOOT 3 0 = 8 ∧ e.rf Reg.SEC_BOOT 11 8 = 2 ∧ e.sec.running = false := by
  rw [Dev.trainAndRepair] at he
  rw [if_pos ht, if_pos h] at he
  subst he
  exact Dev.bootFail_shows _ (by decide)

/-- Changes of ports leave the registers. -/
theorem Dev.modPorts_reg (d : Dev) (f : Dev → Nat → Port → Port) (ps : List Nat) (o : Nat) :
    (ps.foldl (fun a p => a.modPort p (f a p)) d).reg o = d.reg o :=
  foldl_keeps (f := fun (a : Dev) p => a.modPort p (f a p)) (π := fun a => Dev.reg a o) (fun _ _ => rfl) ps d

/-- Step 5 ends with the fabric ready. -/
theorem Dev.fabricReady_shows {d e : Dev} {nv : NonVol} (he : e = d.fabricReady nv) :
    e.rf Reg.SEC_BOOT 3 0 = 6 ∧ e.rb Reg.FAB_STATUS 0 = true := by
  subst he
  have hreg : ∃ x : Dev, ∀ o, (d.fabricReady nv).reg o = ((x.setRb Reg.FAB_STATUS 0 true).nextStep 5).reg o :=
    ⟨_, fun o => Dev.modPorts_reg _ (fun a p x => { x with since := a.now, downSince := if a.portUsed p then some a.now else none }) _ o⟩
  obtain ⟨x, hx⟩ := hreg
  refine ⟨(congrArg (fun w => fld w 3 0) (hx _)).trans (Dev.nextStep_shows _ (by decide)), ?_⟩
  exact (congrArg (fun w => bitAt w 0) (hx _)).trans
    ((congrArg (fun w => bitAt w 0) (Dev.nextStep_reg _ _ (by decide))).trans (Dev.rb_setRb_self _ _ _ _ (by decide)))

/-- Start-up has ended. -/
def Dev.bootEnded (d : Dev) : Dev := { d with sec := { d.sec with running := false } }

theorem Dev.bootEnded_reg (d : Dev) (o : Nat) : d.bootEnded.reg o = d.reg o := rfl

theorem Dev.bootEnded_sec (d : Dev) : d.bootEnded.sec.running = false := rfl

/-- Step 6 ends with the device ready, and its linked ports open. -/
theorem Dev.deviceReady_eq (d : Dev) (nv : NonVol) : ∃ d2 : Dev, d.deviceReady nv = (List.range 8).foldl Dev.openPort d2
    ∧ d2.rf Reg.SEC_BOOT 3 0 = 7 ∧ d2.rb Reg.FAB_STATUS 1 = true ∧ d2.sec.running = false := by
  obtain ⟨x, hx⟩ : ∃ x : Dev, d.deviceReady nv
      = (List.range 8).foldl Dev.openPort ((x.setRb Reg.FAB_STATUS 1 true).setRf Reg.SEC_BOOT 3 0 7).bootEnded := by
    refine ⟨(((d.extend 2 (Config.firmwareDigest 0)).extend 2 (Config.firmwareDigest 1)).extend 3 (Config.firmwareDigest 2)).attest nv, ?_⟩
    rw [Dev.deviceReady]
    exact congrArg ((List.range 8).foldl Dev.openPort) rfl
  refine ⟨_, hx, ?_, ?_, Dev.bootEnded_sec _⟩
  · exact (congrArg (fun w => fld w 3 0) (Dev.bootEnded_reg _ _)).trans (Dev.rf_setRf_self _ _ _ _ _ (by decide))
  · exact (congrArg (fun w => bitAt w 1) ((Dev.bootEnded_reg _ _).trans (Dev.reg_setRf_ne _ _ _ _ (by decide)))).trans
      (Dev.rb_setRb_self _ _ _ _ (by decide))

/-- An ageing evaluation leaves the hours. -/
theorem ageingStep_jHours (nv : NonVol) (d : Dev) : (ageingStep nv d).1.jHours = nv.jHours := by
  unfold ageingStep
  split
  · rfl
  · split <;> rfl

/-- The ageing evaluation that follows a cold reset counts the hours powered and is no longer due. -/
theorem State.coldAgeing_due {s t : State} {p : Pwr} (h : p.ageDue = true) (ht : t = s.coldAgeing p) :
    t.pending = s.pending ∧ t.dev.pwr.ageDue = false ∧ t.nv.jHours = s.nv.jHours + p.powered / hourCclk := by
  rw [State.coldAgeing, if_pos h] at ht
  subst ht
  exact ⟨rfl, rfl, ageingStep_jHours _ _⟩

theorem State.coldAgeing_notDue {s : State} {p : Pwr} (h : p.ageDue = false) : s.coldAgeing p = s :=
  if_neg (by rw [h]; exact Bool.false_ne_true)

/-- What a step's end does, but for the ageing evaluation after step 5. -/
theorem powerUpStepEnd_eq {r : BootResult} {s : State} (hrun : s.dev.sec.running = true) {d : Dev}
    (hd : s.dev.stepEnd s.nv r = d) :
    (s.dev.rf Reg.SEC_BOOT 3 0 ≠ 5 ∨ s.dev.pwr.ageDue = false → Does (.powerUpStepEnd r) s d)
    ∧ (s.dev.rf Reg.SEC_BOOT 3 0 = 5 → exec (.powerUpStepEnd r) s = .next (({ s with dev := d } : State).coldAgeing s.dev.pwr)) := by
  subst hd
  refine ⟨fun h => ?_, fun h => ?_⟩
  · refine congrArg Host.Outcome.next ?_
    split
    · next h5 =>
      refine State.coldAgeing_notDue (h.resolve_left (not_not_intro ?_))
      simpa [hrun] using h5
    · rfl
  · exact congrArg Host.Outcome.next (if_pos (by simp [hrun, h]))

/-- The end of step k. -/
def Dev.endOfStep (d : Dev) (nv : NonVol) (r : BootResult) (k : Nat) : Dev :=
  match k with
  | 1 => ({ d.stepTime k r.ms with
      now := 0, sec := { (d.stepTime k r.ms).sec with t0 := min r.ms 1023 } } : Dev).nextStep 1
  | 2 => (d.stepTime k r.ms).bootFirmware nv r
  | 3 => (d.stepTime k r.ms).trainAndRepair nv r
  | 4 => (d.stepTime k r.ms).wipe.nextStep 4
  | 5 => (d.stepTime k r.ms).fabricReady nv
  | 6 => (d.stepTime k r.ms).deviceReady nv
  | _ => d

/-- The step that ends is the one in progress. -/
theorem Dev.stepEnd_of {d : Dev} {nv : NonVol} {r : BootResult} (hrun : d.sec.running = true) {k : Nat}
    (hk : d.rf Reg.SEC_BOOT 3 0 = k) : d.stepEnd nv r = d.endOfStep nv r k := by
  subst hk
  rw [Dev.stepEnd, if_neg (by simp [hrun])]
  rfl

/-- The slot that boots verifies, and is the other one only where the preferred one does not. -/
theorem NonVol.bootSlot_verifies {nv : NonVol} {sl : Nat} (h : nv.bootSlot = some sl) : nv.verifies sl = true
    ∧ (sl = nv.preferred % 2 ∨ (nv.verifies (nv.preferred % 2) = false ∧ sl = 1 - nv.preferred % 2)) := by
  unfold NonVol.bootSlot at h
  dsimp only at h
  split at h
  · next hv =>
    obtain rfl := Option.some.inj h
    exact ⟨hv, .inl rfl⟩
  · next hv =>
    split at h
    · next hv' =>
      obtain rfl := Option.some.inj h
      exact ⟨hv', .inr ⟨by simpa using hv, rfl⟩⟩
    · exact absurd h (by simp)

/-- What a slot that verifies has. -/
theorem NonVol.verifies_has {nv : NonVol} {sl : Nat} (h : nv.verifies sl = true) : nv.minSvn ≤ nv.field sl 8 4 ∧ nv.field sl 0 1 = 1
    ∧ nv.keyUsable (nv.field sl 1 1) = true ∧ (nv.field sl 2 1).testBit (lcOf nv.rows) = true := by
  unfold NonVol.verifies at h
  simp only [Bool.and_eq_true, decide_eq_true_eq] at h
  obtain ⟨⟨⟨⟨⟨⟨hv, hkey⟩, -⟩, hlc⟩, hsvn⟩, -⟩, -⟩ := h
  exact ⟨hsvn, hv, hkey, hlc⟩

end Sys2Proof.Machine

section

open Sys2Proof Sys2Proof.Machine Sys2Proof.Safety

/-- Settles O53. -/
theorem resets : Obligations.Resets := by
  refine ⟨fun d nv k => ?_, fun s => ⟨fun hg hst hoff => ?_, fun hp hg hr => ?_, fun hb hr => ⟨?_, fun hd3 => ?_⟩, fun hb hr => ?_⟩⟩
  · obtain ⟨hmem, hcores, heng, hsch, hrte, hxch, hfab, hcul, htwin, hforce, hsec⟩ := d.startReset_parts nv k rfl
    exact ⟨hmem, hcores, heng, hsch, hrte, hxch, hfab, hcul, htwin, hforce, congrArg Sec.running hsec, congrArg Sec.inputGood hsec,
      d.startReset_step nv k, d.startReset_node nv k, d.startReset_topo nv k, fun o ho hvf => d.startReset_reg nv k ho hvf⟩
  · exact congrArg Host.Outcome.next (if_pos (by simp [hg, hst, hoff]))
  · refine congrArg Host.Outcome.next ?_
    dsimp only
    rw [if_pos ⟨hp, hg, hr⟩]
  · exact congrArg Host.Outcome.next (State.deviceReset_runs hb hr)
  · refine congrArg Host.Outcome.next ?_
    rw [State.secReset, if_neg (by simp [hd3]), State.deviceReset_runs hb hr]
  · exact congrArg Host.Outcome.next (State.deviceReset_refused hr)

/-- Settles O54. -/
theorem startUpSteps : Obligations.StartUpSteps := by
  refine ⟨fun r s hrun => ?_, fun d reason h => d.bootFail_shows h, fun nv sl h => NonVol.bootSlot_verifies h,
    fun nv sl h => NonVol.verifies_has h, fun d m w bs _ hw => d.extend_self m bs hw, fun n s hw ho h8 h16 => ?_⟩
  · refine ⟨fun hk => ?_, fun hk reason h => ?_, fun sl hk hr hlc hsl => ?_, fun hk h => ?_, fun hk ht h => ?_, fun hk => ?_, fun hk => ?_,
      fun hk => ?_⟩
    · obtain ⟨hdoes, -⟩ := powerUpStepEnd_eq hrun (Dev.stepEnd_of (nv := s.nv) (r := r) hrun hk)
      rw [Dev.endOfStep] at hdoes
      exact ⟨_, hdoes (.inl (by omega)), Dev.nextStep_shows _ (by decide), rfl⟩
    · obtain ⟨hdoes, -⟩ := powerUpStepEnd_eq hrun (Dev.stepEnd_of (nv := s.nv) (r := r) hrun hk)
      rw [Dev.endOfStep] at hdoes
      have hdoes := hdoes (.inl (by omega))
      rw [Dev.bootFirmware_fails h] at hdoes
      rwa [hk]
    · obtain ⟨hdoes, -⟩ := powerUpStepEnd_eq hrun (Dev.stepEnd_of (nv := s.nv) (r := r) hrun hk)
      rw [Dev.endOfStep] at hdoes
      exact ⟨_, hdoes (.inl (by omega)), Dev.bootFirmware_stands hr hlc hsl rfl⟩
    · obtain ⟨hdoes, -⟩ := powerUpStepEnd_eq hrun (Dev.stepEnd_of (nv := s.nv) (r := r) hrun hk)
      rw [Dev.endOfStep] at hdoes
      exact ⟨_, hdoes (.inl (by omega)), Dev.trainAndRepair_trained (d := s.dev.stepTime 3 r.ms) h rfl⟩
    · obtain ⟨hdoes, -⟩ := powerUpStepEnd_eq hrun (Dev.stepEnd_of (nv := s.nv) (r := r) hrun hk)
      rw [Dev.endOfStep] at hdoes
      exact ⟨_, hdoes (.inl (by omega)), Dev.trainAndRepair_fails (d := s.dev.stepTime 3 r.ms) ht h rfl⟩
    · obtain ⟨hdoes, -⟩ := powerUpStepEnd_eq hrun (Dev.stepEnd_of (nv := s.nv) (r := r) hrun hk)
      rw [Dev.endOfStep] at hdoes
      exact ⟨_, hdoes (.inl (by omega)), Dev.nextStep_shows _ (by decide), rfl⟩
    · obtain ⟨hdoes, hcold⟩ := powerUpStepEnd_eq hrun (Dev.stepEnd_of (nv := s.nv) (r := r) hrun hk)
      obtain ⟨hstep, hfab⟩ := Dev.fabricReady_shows (d := s.dev.stepTime 5 r.ms) (nv := s.nv) rfl
      refine ⟨_, hstep, hfab, fun h => hdoes (.inr h), fun h => ?_⟩
      obtain ⟨hpend, hdue, hhours⟩ := State.coldAgeing_due (s := { s with dev := (s.dev.stepTime 5 r.ms).fabricReady s.nv }) h rfl
      exact ⟨hcold hk, hpend, hdue, hhours⟩
    · obtain ⟨hdoes, -⟩ := powerUpStepEnd_eq hrun (Dev.stepEnd_of (nv := s.nv) (r := r) hrun hk)
      obtain ⟨d2, heq, hstep, hready, hend⟩ := (s.dev.stepTime 6 r.ms).deviceReady_eq s.nv
      rw [Dev.endOfStep, heq] at hdoes
      exact ⟨d2, hdoes (.inl (by omega)), hstep, hready, hend⟩
  · have he := host_open (f := fun a => (a.setRf Reg.SEC_MEXT 3 0 n).secMext n) hw ho
    rwa [Dev.secMext, if_pos ⟨h8, h16⟩] at he

end
end

section
/-! PROOFS. The input stage, the PCIe link and power states, failed requests (R720, R749 to R753, R761, R768 to R771). -/

namespace Sys2Proof.Machine

open Sys2Proof.Safety

/-! ### The input stage -/

/-- Input that stays good only shows. -/
theorem inputVoltage_good {dv : Int} {us : Nat} {s : State} (hlo : -700 ≤ dv) (hhi : dv ≤ 800)
    (hw : (Instr.inputVoltageChange dv us).wf = true) (he : inputEnds dv us = false) (hs : s.dev.hst.stayOff = false) :
    Does (.inputVoltageChange dv us) s (s.dev.showInput dv) := by
  have hexec : exec (.inputVoltageChange dv us) s = execInputVoltageChange dv us s := rfl
  rw [Does, hexec, execInputVoltageChange, if_neg (by omega), run_wf hw]
  dsimp only
  rw [if_neg (c := (inputEnds dv us && (s.dev.showInput dv).sec.inputGood) = true) (by simp [he]), if_neg]
  rw [show (s.dev.showInput dv).hst.stayOff = false from hs]
  exact Bool.false_ne_true

/-- The device that lost its input. -/
def Dev.Lost (d e : Dev) : Prop :=
  e.sec.inputGood = false ∧ e.cores = [] ∧ e.eng = [] ∧ e.mem = { Dev.reset.mem with t3 := d.mem.t3 }
  ∧ ∀ o, o ≠ Reg.HST_INPUT → e.reg o = resetVal o

/-- A loss of the input loses all but host memory. -/
theorem Dev.inputLost_lost (d : Dev) : d.Lost d.inputLost :=
  ⟨rfl, rfl, rfl, rfl, fun o ho => by rw [Dev.inputLost, Dev.reg_setReg_ne _ _ ho]; rfl⟩

/-- The state of the input stage is no part of what is lost. -/
theorem Dev.Lost.withHst {d e : Dev} (h : d.Lost e) (x : Hst) : d.Lost { e with hst := x } := h

/-- Counted trips are no part of host memory. -/
theorem Dev.Lost.ofTrips {d e : Dev} {n : Nat} (h : (d.setTrips n).Lost e) : d.Lost e := h

/-- What shows of the input is no part of host memory. -/
theorem Dev.Lost.ofShown {d e : Dev} {dv : Int} (h : (d.showInput dv).Lost e) : d.Lost e := h

/-- Input that ends. -/
theorem inputVoltage_ends {dv : Int} {us : Nat} {s : State} (hlo : -700 ≤ dv) (hhi : dv ≤ 800)
    (hw : (Instr.inputVoltageChange dv us).wf = true) (he : inputEnds dv us = true) (hg : s.dev.sec.inputGood = true) :
    ∃ e, Does (.inputVoltageChange dv us) s e ∧ s.dev.Lost e := by
  have hexec : exec (.inputVoltageChange dv us) s = execInputVoltageChange dv us s := rfl
  have hlost : s.dev.Lost ((s.dev.showInput dv).setTrips 0).inputLost := (Dev.inputLost_lost _).ofTrips.ofShown
  rw [execInputVoltageChange, if_neg (by omega), run_wf hw] at hexec
  dsimp only at hexec
  rw [if_pos (c := (inputEnds dv us && (s.dev.showInput dv).sec.inputGood) = true) (by rw [he]; exact hg)] at hexec
  split at hexec
  · exact ⟨_, hexec, hlost.withHst _⟩
  · exact ⟨_, hexec, hlost⟩

theorem inputEnds_iff (dv : Int) (us : Nat) : inputEnds dv us = true
    ↔ dv < -5 ∨ (dv < 540 ∧ 1000 ≤ us) ∨ (740 < dv ∧ 100 ≤ us) := by
  simp [inputEnds, or_assoc]

/-- The number of trips shows in HST_INPUT over the loss of the input. -/
theorem Dev.inputLost_trips (d : Dev) {n : Nat} (h : n < 16) : (d.setTrips n).inputLost.rf Reg.HST_INPUT 35 32 = n := by
  have hreg : (d.setTrips n).inputLost.reg Reg.HST_INPUT = (d.setTrips n).reg Reg.HST_INPUT := Dev.reg_setReg_self _ _ _
  exact (congrArg (fun w => fld w 35 32) hreg).trans
    ((Dev.rf_setRf_self _ _ _ _ _ (by decide)).trans (Nat.mod_eq_of_lt h))

theorem Dev.inputLost_hst (d : Dev) (n : Nat) : (d.setTrips n).inputLost.hst.clock = d.hst.clock + d.now
    ∧ (d.setTrips n).inputLost.hst.trips = d.hst.trips := ⟨rfl, rfl⟩

/-- The input stage goes off, for good after three trips within 60 s. -/
def Dev.stageOff (d : Dev) : Dev :=
  let ts := (d.hst.clock :: d.hst.trips).take 3
  { d with hst := { d.hst with stageOn := false, trips := ts, stayOff := threeTrips ts } }

theorem Dev.stageOff_shows (d : Dev) : (∀ o, d.stageOff.reg o = d.reg o) ∧ d.stageOff.sec = d.sec ∧ d.stageOff.hst.stageOn = false
    ∧ d.stageOff.hst.stayOff = threeTrips ((d.hst.clock :: d.hst.trips).take 3) := ⟨fun _ => rfl, rfl, rfl, rfl⟩

/-- An overcurrent turns the input stage off. -/
theorem overcurrent_trips {ma us : Nat} {s : State} (hw : (Instr.inputOvercurrentTrip ma us).wf = true) (hs : s.dev.hst.stageOn = true)
    (h : (42000 < ma ∧ 100 ≤ us) ∨ 60000 < ma) :
    Does (.inputOvercurrentTrip ma us) s (s.dev.setTrips (min 15 (fld s.dev.hst.input 35 32 + 1))).inputLost.stageOff := by
  have hexec : exec (.inputOvercurrentTrip ma us) s = execInputOvercurrentTrip ma us s := rfl
  rw [Does, hexec, execInputOvercurrentTrip, run_wf hw]
  dsimp only
  rw [if_pos (by simpa [hs] using h)]
  rfl

/-- Open contacts limit the current. -/
theorem inputContactOpen_does {rtn : Bool} {mask : BitVec 8} {s : State} (hw : (Instr.inputContactOpen rtn mask).wf = true) :
    let w := if rtn then setFld s.dev.hst.input 31 24 mask.toNat else setFld s.dev.hst.input 23 16 mask.toNat
    let d := if rtn then s.dev.setRf Reg.HST_INPUT 31 24 mask.toNat else s.dev.setRf Reg.HST_INPUT 23 16 mask.toNat
    let n := max (openCount (fld w 23 16)) (openCount (fld w 31 24))
    Does (.inputContactOpen rtn mask) s
      { d with hst := { d.hst with input := w, limitMa := if 2 < n then some (7000 * (8 - n)) else none } } := by
  have hexec : exec (.inputContactOpen rtn mask) s = execInputContactOpen rtn mask s := rfl
  rw [execInputContactOpen, run_wf hw] at hexec
  exact hexec

/-! ### Requests that fail -/

theorem Dev.ideFailed_eq {d : Dev} (bar off : Nat) {s : State} (hs : s.dev = d) (hw : (Instr.ideIntegrityFailure bar off).wf = true)
    (hb : d.bootOver = true) :
    (barSlot bar off < 16 ∧ (d.satRf Reg.HST_IDE 31 0 1).hasJob (barSlot bar off) = true →
      Does (.ideIntegrityFailure bar off) s
        ((d.satRf Reg.HST_IDE 31 0 1).recordOnly (barSlot bar off) (mkFault 0x0A02 0 59 0 0 0)))
    ∧ (¬ (barSlot bar off < 16 ∧ (d.satRf Reg.HST_IDE 31 0 1).hasJob (barSlot bar off) = true) →
      Does (.ideIntegrityFailure bar off) s (d.satRf Reg.HST_IDE 31 0 1)) := by
  subst hs
  have hexec : exec (.ideIntegrityFailure bar off) s = execIdeIntegrityFailure bar off s := rfl
  rw [execIdeIntegrityFailure, run_wf hw] at hexec
  dsimp only at hexec
  rw [if_neg (by simp [hb])] at hexec
  refine ⟨fun h => ?_, fun h => ?_⟩
  · rwa [if_pos h] at hexec
  · rwa [if_neg h] at hexec

/-- A failed read of host memory, by who waits for it. -/
def Dev.t3Failed (d : Dev) (r : LineRead) : Dev :=
  match r.use with
  | .mover m _ => d.moverPoisoned m (readFault r 0x0601 0)
  | _ => d.readPoisoned r

theorem Dev.t3Failed_mover {d : Dev} {r : LineRead} {m i : Nat} (h : r.use = .mover m i) :
    d.t3Failed r = d.moverPoisoned m (readFault r 0x0601 0) := by
  rw [Dev.t3Failed, h]

theorem Dev.t3Failed_other {d : Dev} {r : LineRead} (h : ∀ m i, r.use ≠ .mover m i) : d.t3Failed r = d.readPoisoned r := by
  unfold Dev.t3Failed
  split
  · next m i hm => exact absurd hm (h m i)
  · rfl

theorem t3RequestFailure_does {k : Nat} {s : State} {r : LineRead} (hw : (Instr.t3RequestFailure k).wf = true)
    (hr : s.dev.fab.reads.find? (fun y => y.host && decide (y.k = k)) = some r) :
    Does (.t3RequestFailure k) s (((s.dev.dropRead k).satRf Reg.HST_T3ERR 31 0 1).t3Failed r) := by
  have hexec : exec (.t3RequestFailure k) s = execT3RequestFailure k s := rfl
  rw [Does, hexec, execT3RequestFailure, run_wf hw, hr]
  rfl

end Sys2Proof.Machine

section

open Sys2Proof Sys2Proof.Machine Sys2Proof.Safety

/-- Settles O50. -/
theorem edgeEvents : Obligations.EdgeEvents := by
  refine ⟨fun dv us s => ⟨fun h => if_pos h, fun hlo hhi hw => ⟨fun he hs => inputVoltage_good hlo hhi hw he hs, fun he hg => ?_⟩⟩,
    inputEnds_iff, fun ma us s hw hs h => ?_, fun s hon hoff => ?_, fun rtn mask s hw => inputContactOpen_does hw,
    fun s hg => ⟨?_, fun hp => ⟨fun speed width hw hb h1 h7 hwid => ?_, fun hoff => ?_⟩⟩, fun s hp => ?_, fun s hb => ?_, fun s => ?_,
    fun bar off s hw hb => ⟨fun hsl hj => ?_, fun hno => ?_⟩, fun k s r hw hr => ⟨fun m i hm => ?_, fun hno => ?_⟩⟩
  · exact inputVoltage_ends hlo hhi hw he hg
  · obtain ⟨hreg, hsec, hon, hoff⟩ := (s.dev.setTrips (min 15 (fld s.dev.hst.input 35 32 + 1))).inputLost.stageOff_shows
    obtain ⟨hclock, htrips⟩ := s.dev.inputLost_hst (min 15 (fld s.dev.hst.input 35 32 + 1))
    rw [hclock, htrips] at hoff
    exact ⟨_, overcurrent_trips hw hs h, congrArg Sec.inputGood hsec, hon,
      (congrArg (fun w => fld w 35 32) (hreg _)).trans (Dev.inputLost_trips _ (by omega)), hoff⟩
  · have hexec : exec .inputStageRestart s = execInputStageRestart s := rfl
    rwa [execInputStageRestart, run_wf rfl, if_neg (by simp [hon, hoff])] at hexec
  · have hexec : exec .refclkLoss s = execRefclkLoss s := rfl
    rw [execRefclkLoss, run_wf rfl, if_pos hg] at hexec
    refine ⟨_, hexec, ?_, rfl, rfl⟩
    exact Dev.rb_setRb_self _ _ _ _ (by decide)
  · have hdoes := does_of_run (c := .pcieLinkTrainingDone speed width) (s := s) rfl hw
    rw [if_pos ⟨hg, hp, hb, h1, h7, hwid⟩] at hdoes
    have hwidth : width < 32 := by
      simp only [List.mem_cons, List.not_mem_nil, or_false] at hwid
      omega
    refine ⟨_, hdoes, ?_, ?_, rfl⟩
    · exact (Dev.rf_setRf_apart _ _ _ _ _ _ _ (.inl (by decide))).trans
        ((Dev.rf_setRf_self _ _ _ _ _ (by decide)).trans (Nat.mod_eq_of_lt (by omega)))
    · exact (Dev.rf_setRf_self _ _ _ _ _ (by decide)).trans (Nat.mod_eq_of_lt (by omega))
  · have hexec : exec .pcieConfigRequest s = execPcieConfigRequest s := rfl
    rwa [execPcieConfigRequest, run_wf rfl, if_neg (by simp [hg, hp, hoff])] at hexec
  · exact congrArg (fun d => Host.Outcome.next { s with dev := d }) (if_pos hp)
  · exact congrArg (fun d => Host.Outcome.next { s with dev := d }) (if_pos hb)
  · rfl
  · exact ⟨_, rfl, (Dev.ideFailed_eq bar off rfl hw hb).1 ⟨hsl, hj⟩⟩
  · exact (Dev.ideFailed_eq bar off rfl hw hb).2 hno
  · have hdoes := t3RequestFailure_does hw hr
    rwa [Dev.t3Failed_mover hm] at hdoes
  · have hdoes := t3RequestFailure_does hw hr
    rwa [Dev.t3Failed_other hno] at hdoes

end
end

section
/-! PROOFS. LOOPN and the loop stack, DIGEST of a twin (R406 to R408, R412). -/

namespace Sys2Proof.Machine

open Sys2Proof.Safety

/-- An instruction whose body goes on elsewhere counts and goes there. -/
theorem instr_goesTo {c : Instr} {op : Op} {legal : Bool} {w : IW} {body : Dev → Core → IRes} {s : State} {t : Nat}
    (he : exec c s = run c (fun d => d.instr op legal w body) s) (hw : c.wf = true) (hi : Issues s.dev op legal w)
    (hb : body s.dev (s.dev.core w.core) = .go s.dev t) :
    ∃ e, Does c s e ∧ OnlyCore s.dev e w.core
      ((({ (s.dev.core w.core).setCsr 0x401 ((s.dev.core w.core).csrOf 0x401 + 1) with
        frozen := false } : Core).goTo t).resume) := by
  refine ⟨_, does_instr he hw hi, ?_⟩
  rw [hb]
  have hgo := onlyCore_trans (onlyCore_endReads s.dev w.core) (onlyCore_modCore _ w.core
    (fun x => ({ x.setCsr 0x401 (x.csrOf 0x401 + 1) with frozen := false } : Core).goTo t |>.resume))
  rwa [Dev.endReads_core] at hgo

/-! ### LOOPN -/

/-- The core with a loop level more. -/
def Core.pushLoop (x : Core) (first last n : Nat) : Core :=
  { x with loops := { first := first, last := last, count := n } :: x.loops }

section
variable {w : IW} {x : Core} {first last : Nat} (hfirst : first = x.pc.toNat + ilenOf w) (hlast : last = first + 4 * w.fn.toNat - 4)
  (hf : x.frozen = false) (hroom : x.loops.length < 4) (hin : ∀ l, x.loops.head? = some l → last ≤ l.last)
include hfirst hlast hf hroom hin

/-- There is room for the level, inside the one around it. -/
theorem loopPush_fits (n : Nat) (d : Dev) : loopPush w w.fn.toNat n d x
    = if n = 0 then .go d (last + 4) else .done (d.modCore w.core (fun y => y.pushLoop first last n)) := by
  subst hlast hfirst
  unfold loopPush
  dsimp only
  rw [if_neg]
  · rfl
  · simp only [hf, Bool.false_or, Bool.or_eq_true, decide_eq_true_eq, not_or, Nat.not_le]
    refine ⟨hroom, ?_⟩
    cases hx : x.loops with
    | nil => simp
    | cons l ls =>
      have hle := hin l (by rw [hx]; rfl)
      simpa using hle

end

section
variable {w : IW} {s : State} {first last : Nat} (hw : (Instr.loopn w).wf = true)
  (hi : Issues s.dev (cOp 0x2D false) (decide (w.rd = 0) && decide (fld w.rs2 4 1 = 0)) w)
  (hfirst : first = (s.dev.core w.core).pc.toNat + ilenOf w) (hlast : last = first + 4 * w.fn.toNat - 4)
  (h1 : 1 ≤ w.fn.toNat) (h2 : w.fn.toNat < 1024) (hf : (s.dev.core w.core).frozen = false)
  (hroom : (s.dev.core w.core).loops.length < 4) (hin : ∀ l, (s.dev.core w.core).loops.head? = some l → last ≤ l.last)
include hw hi hfirst hlast h1 h2 hf hroom hin

/-- LOOPN with its count in g[rs1]. -/
theorem loopn_register_body {n : Nat} (hr : bitAt w.rs2 0 = false) (h0 : fld ((s.dev.core w.core).r1 w) 63 32 = 0)
    (hn : n = fld ((s.dev.core w.core).r1 w) 31 0) :
    (n ≠ 0 → ∃ e, Does (.loopn w) s e
      ∧ OnlyCore s.dev e w.core (((s.dev.core w.core).pushLoop first last n).retire (ilenOf w)))
    ∧ (n = 0 → ∃ e, Does (.loopn w) s e ∧ OnlyCore s.dev e w.core
      ((({ (s.dev.core w.core).setCsr 0x401 ((s.dev.core w.core).csrOf 0x401 + 1) with
        frozen := false } : Core).goTo (last + 4)).resume)) := by
  subst hn
  refine ⟨fun hne => ?_, fun hz => ?_⟩
  · refine instr_done_mod (c := .loopn w) (f := fun y => y.pushLoop first last _) rfl hw hi ?_
    dsimp only
    rw [if_neg (by simp [hr]), if_neg (by simp; omega), if_neg (by simp [h0]), loopPush_fits hfirst hlast hf hroom hin, if_neg hne]
  · refine instr_goesTo (c := .loopn w) rfl hw hi ?_
    dsimp only
    rw [if_neg (by simp [hr]), if_neg (by simp; omega), if_neg (by simp [h0]), loopPush_fits hfirst hlast hf hroom hin, if_pos hz]

/-- LOOPN with its count in memory. -/
theorem loopn_memory {d : Dev} {bs : List Byte} (hr : bitAt w.rs2 0 = true) (ha : ((s.dev.core w.core).r1 w).toNat % 4 = 0)
    (hl : fld ((s.dev.core w.core).r1 w) 63 48 = 0)
    (hb : s.dev.unitLoad w.core ((s.dev.core w.core).r1 w).toNat 4 = .ok d bs) (hne : leNat bs ≠ 0) :
    ∃ e, Does (.loopn w) s e ∧ OnlyCore d e w.core (((d.core w.core).pushLoop first last (leNat bs)).retire (ilenOf w)) := by
  refine instr_done_mod (c := .loopn w) (f := fun y => y.pushLoop first last _) rfl hw hi ?_
  dsimp only
  rw [if_pos hr, addrCheck_pass ha hl, hb]
  dsimp only
  rw [if_neg (by simp; omega), loopPush_fits hfirst hlast hf hroom hin, if_neg hne]

end

/-- The last instruction of a level that still counts returns to its first. -/
theorem loopEnd_again {l : LoopLevel} {ls : List LoopLevel} {npc : Nat} (h : l.count - 1 ≠ 0) :
    loopEnd l.last npc (l :: ls) = ({ l with count := l.count - 1 } :: ls, l.first) := by
  rw [loopEnd, if_pos rfl, if_pos h]

theorem Core.retire_again {x : Core} {n : Nat} {l : LoopLevel} {ls : List LoopLevel} (hf : x.frozen = false) (hx : x.loops = l :: ls)
    (hl : l.last = x.pc.toNat + n - 4) (hc : l.count - 1 ≠ 0) :
    (x.retire n).pc = pcMask l.first ∧ (x.retire n).loops = { l with count := l.count - 1 } :: ls := by
  rw [Core.retire]
  dsimp only
  rw [if_neg (by simp [hf]), hx, ← hl, loopEnd_again hc]
  exact ⟨rfl, rfl⟩

/-! ### DIGEST -/

theorem digestFold_untwinned {w : IW} {s : State} (hw : (Instr.digestFold w).wf = true)
    (hi : Issues s.dev (cOp 0x2F false) (decide (fld w.fn 10 2 = 0)) w) (ht : s.dev.twinCore (s.dev.core w.core) = false) :
    ∃ e, Does (.digestFold w) s e ∧ OnlyCore s.dev e w.core ((s.dev.core w.core).retire (ilenOf w)) := by
  refine instr_done (c := .digestFold w) rfl hw hi ?_
  rw [if_pos (by simp [ht])]

theorem digestFold_folds {w : IW} {s : State} {d : Dev} {bs : List Byte} (hw : (Instr.digestFold w).wf = true)
    (hi : Issues s.dev (cOp 0x2F false) (decide (fld w.fn 10 2 = 0)) w) (ht : s.dev.twinCore (s.dev.core w.core) = true)
    (hl : ((s.dev.core w.core).r1 w).toNat < 2 ^ 48)
    (hb : s.dev.unitLoad w.core ((s.dev.core w.core).r1 w).toNat ((s.dev.core w.core).r2 w).toNat = .ok d bs) :
    ∃ e, Does (.digestFold w) s e ∧ OnlyCore (d.commitUnit w.core 2 4096 bs) e w.core
      (((d.commitUnit w.core 2 4096 bs).core w.core).retire (ilenOf w)) := by
  refine instr_done (c := .digestFold w) rfl hw hi ?_
  rw [if_neg (by simp [ht]), if_neg (Nat.not_le.mpr hl), hb]

/-- The end of a core's reads leaves the twins. -/
theorem ended_twin (d : Dev) (c : Nat) (b : Bool) : (ended d c b).twin = d.twin := by
  cases b with
  | false => rfl
  | true => rw [ended, if_pos rfl, Dev.endReads_eq]

theorem onlyCore_twin {d e : Dev} {c : Nat} {x : Core} (h : OnlyCore d e c x) : e.twin = d.twin := by
  obtain ⟨⟨b, he⟩, -⟩ := h
  rw [he]
  exact ended_twin d c b

/-- The twins after DIGEST level. -/
def Dev.levelTwins (d : Dev) (x : Core) (w : IW) : Tab Twin :=
  if d.twinCore x then tput (fun _ => Twin.reset) d.twin x.slotN { d.twinOf x.slotN with level := fld (x.r1 w) 1 0 } else d.twin

theorem Dev.levelTwins_level (d : Dev) (x : Core) (w : IW) : (tget (fun _ => Twin.reset) (d.levelTwins x w) x.slotN).level
    = if d.twinCore x then fld (x.r1 w) 1 0 else (d.twinOf x.slotN).level := by
  unfold Dev.levelTwins
  split
  · rw [tget_tput_self]
  · rfl

theorem digestLevel_sets {w : IW} {s : State} (hw : (Instr.digestLevel w).wf = true)
    (hi : Issues s.dev (cOp 0x2F false) (decide (fld w.fn 10 2 = 0)) w) :
    ∃ e, Does (.digestLevel w) s e ∧ OnlyCore { s.dev with twin := s.dev.levelTwins (s.dev.core w.core) w } e w.core
      ((s.dev.core w.core).retire (ilenOf w)) := by
  refine instr_done (c := .digestLevel w) (d := { s.dev with twin := s.dev.levelTwins (s.dev.core w.core) w }) rfl hw hi ?_
  dsimp only [Dev.levelTwins]
  split <;> rfl

end Sys2Proof.Machine

section

open Sys2Proof Sys2Proof.Machine Sys2Proof.Safety

/-- Settles O43. -/
theorem loopsAndDigests : Obligations.LoopsAndDigests := by
  refine ⟨fun w s hw hi h1 h2 hf hroom hin => ⟨fun hr h0 => ?_, fun d bs hr ha hl hb hne => ?_⟩, fun x n l ls hf hx hl hc => ?_,
    fun w s d bs hw hi => ⟨fun ht => digestFold_untwinned hw hi ht, fun ht hl hb => digestFold_folds hw hi ht hl hb⟩,
    fun w s hw hi => ?_, fun w s hw hi => ?_⟩
  · exact loopn_register_body hw hi rfl rfl h1 h2 hf hroom hin hr h0 rfl
  · exact loopn_memory hw hi rfl rfl h1 h2 hf hroom hin hr ha hl hb hne
  · exact Core.retire_again hf hx hl hc
  · exact instr_done_mod (c := .digestRead w) (f := fun y => y.setG w.rd.toNat _) rfl hw hi rfl
  · obtain ⟨e, hdoes, honly⟩ := digestLevel_sets hw hi
    refine ⟨e, _, hdoes, honly, ?_⟩
    rw [Dev.twinOf, onlyCore_twin honly]
    exact s.dev.levelTwins_level _ w

end
end

section
/-! PROOFS. Streams, prefetch, pins and hints (R403 to R405, R411, R497, R699). -/

namespace Sys2Proof.Machine

open Sys2Proof.Safety

/-! ### Tables that are filtered and joined -/

/-- Entries kept by their key. -/
theorem tfind_filter {α : Type} (p : Nat → Bool) (t : Tab α) (k : Nat) :
    tfind (t.filter (fun y => p y.1)) k = if p k then tfind t k else none := by
  induction t with
  | nil => simp
  | cons y t ih =>
    obtain ⟨j, x⟩ := y
    by_cases hj : j = k
    · subst hj
      cases hp : p j <;> simp [tfind, hp, ih]
    · cases hp : p j <;> simp [tfind, hp, ih, hj]

theorem tfind_append {α : Type} (t u : Tab α) (k : Nat) : tfind (t ++ u) k = (tfind t k).or (tfind u k) := by
  induction t with
  | nil => rfl
  | cons y t ih =>
    obtain ⟨j, x⟩ := y
    rw [List.cons_append, tfind, tfind]
    split
    · rfl
    · exact ih

/-- A hint that is set is found; the others stay. -/
theorem Dev.setHint_hints (d : Dev) (u : Nat) (h : Option (Nat × Nat × Bool)) (k : Nat) :
    tfind (d.setHint u h).pwr.hints k = if k = u then h else tfind d.pwr.hints k := by
  cases h with
  | none =>
    refine (tfind_filter (fun j => decide (j ≠ u)) d.pwr.hints k).trans ?_
    by_cases hk : k = u <;> simp [hk]
  | some v =>
    have hparts : tfind (d.setHint u (some v)).pwr.hints k
        = ((tfind ((d.pwr.hints.filter (fun y => decide (y.1 ≠ u))).filter (fun y => decide (y.1 < u))) k).or (tfind [(u, v)] k)).or
          (tfind ((d.pwr.hints.filter (fun y => decide (y.1 ≠ u))).filter (fun y => decide (u < y.1))) k) := by
      rw [← tfind_append, ← tfind_append]
      rfl
    rw [hparts, tfind_filter (fun j => decide (j < u)), tfind_filter (fun j => decide (u < j)), tfind_filter (fun j => decide (j ≠ u))]
    obtain hlt | rfl | hgt := Nat.lt_trichotomy k u
    · simp [tfind, hlt, Nat.ne_of_lt hlt, Nat.ne_of_gt hlt, Nat.lt_asymm hlt]
    · simp [tfind]
    · simp [tfind, hgt, Nat.ne_of_gt hgt, Nat.ne_of_lt hgt, Nat.lt_asymm hgt]

/-! ### TSTREAM -/

theorem Dev.dropRing_core (d : Dev) (e c : Nat) (i : Option Nat) : (d.dropRing e i).core c = d.core c := by
  rw [Dev.core, (d.dropRing_frame e i).1, Dev.core]

theorem Dev.dropRing_engine (d : Dev) (e c : Nat) (i : Option Nat) : (d.dropRing e i).engine c = d.engine c := by
  rw [Dev.engine, (d.dropRing_frame e i).2.1, Dev.engine]

section
variable {w : IW} {s : State} {d : Dev} {ws : List Nat} (hw : (Instr.tstream w).wf = true)
  (hi : Issues s.dev (cOp 0x2C false) (decide (fld w.fn 10 2 = 0) && decide (fld w.rd 4 3 = 0)) w) (hc : w.core < 32)
  (hd : s.dev.desc w.core ((s.dev.core w.core).r1 w) 4 = .ok d ws)
include hw hi hc hd

/-- A TSTREAM whose descriptor is at hand opens or closes a stream, as its descriptor says. -/
theorem tstream_sets {a : Dev} {n : Option PStream}
    (hgo : tstreamGo w (s.dev.core w.core) ws d = .done (a.setStream w.core (fld w.rd 2 0) n)) :
    ∃ e, Does (.tstream w) s e ∧ OnlyEngine (a.dropRing w.core (some (fld w.rd 2 0))) e w.core
      ((a.core w.core).retire (ilenOf w)) ((a.engine w.core).openStream (fld w.rd 2 0) n) := by
  have h := instr_engine (c := .tstream w) (d := a.dropRing w.core (some (fld w.rd 2 0)))
    (y := ((a.dropRing w.core (some (fld w.rd 2 0))).engine w.core).openStream (fld w.rd 2 0) n) rfl hw hi (by
      rw [if_neg (Nat.not_le.mpr hc), hd]
      exact hgo)
  rwa [Dev.dropRing_core, Dev.dropRing_engine] at h

end

section
variable {w : IW} {x : Core} {ws : List Nat} {d : Dev} {p : PStream} (hp : p = streamOf x.slotN w.core x.pc.toNat ws [])
include hp

theorem tstreamGo_closes (h0 : p.slots = 0) : tstreamGo w x ws d = .done (d.setStream w.core (fld w.rd 2 0) none) := by
  subst hp
  exact if_pos h0

theorem tstreamGo_opens (h0 : p.slots ≠ 0) (hf : d.streamFault w.core x.slotN p = none) (hpred : p.pred = false) :
    tstreamGo w x ws d = .done (d.setStream w.core (fld w.rd 2 0) (some p)) := by
  subst hp
  rw [tstreamGo, if_neg h0, hf]
  exact if_neg (by simp [hpred])

theorem tstreamGo_opensMap {d1 : Dev} {map : List Byte} (h0 : p.slots ≠ 0) (hf : d.streamFault w.core x.slotN p = none)
    (hpred : p.pred = true) (hm : d.unitLoad w.core (nfld (dw ws 2) 47 0) ((p.nblk + 3) / 4) = .ok d1 map) :
    tstreamGo w x ws d = .done (d1.setStream w.core (fld w.rd 2 0) (some { p with pmap := map })) := by
  subst hp
  rw [tstreamGo, if_neg h0, hf]
  dsimp only
  rw [if_pos hpred, hm]

end

/-! ### TPREF and TPIN -/

theorem Dev.askMoves_core (d : Dev) (k : MoveKind) (s gob more c : Nat) (dst : MoveDest) :
    (d.askMoves k s gob dst more).core c = d.core c := by
  unfold Dev.askMoves
  split <;> rfl

section
variable {w : IW} {s : State} {va n : Nat} (hw : (Instr.tpref w).wf = true)
  (hi : Issues s.dev (cOp 0x2C false) (decide (fld w.fn 10 4 = 0)) w)
  (hva : va = ((s.dev.core w.core).r1 w).toNat) (hn : n = fld ((s.dev.core w.core).r2 w) 31 0)
include hw hi hva hn

theorem tpref_nothing (h : 2 ≤ fld w.fn 3 2 ∨ n = 0 ∨ 0xFFFF00000000 < va + n * 65536) :
    ∃ e, Does (.tpref w) s e ∧ OnlyCore s.dev e w.core ((s.dev.core w.core).retire (ilenOf w)) := by
  subst hva hn
  refine instr_done (c := .tpref w) rfl hw hi ?_
  dsimp only
  rw [if_pos h]

theorem tpref_asks (hk : fld w.fn 3 2 < 2) (h0 : n ≠ 0) (hle : va + n * 65536 ≤ 0xFFFF00000000) {d : Dev}
    (hd : d = s.dev.askMoves .tpref (s.dev.core w.core).slotN (va / 65536) (if fld w.fn 3 2 = 0 then .gobCache else .t1copy) (n - 1)) :
    ∃ e, Does (.tpref w) s e ∧ OnlyCore d e w.core ((s.dev.core w.core).retire (ilenOf w)) := by
  have hcore : d.core w.core = s.dev.core w.core := by rw [hd, Dev.askMoves_core]
  rw [← hcore]
  subst hva hn hd
  refine instr_done (c := .tpref w) rfl hw hi ?_
  dsimp only
  rw [if_neg (by omega)]

end

section
variable {w : IW} {s : State} {va n t : Nat} (hw : (Instr.tpin w).wf = true)
  (hi : Issues s.dev (cOp 0x2C false) (decide (fld w.fn 10 5 = 0)) w)
  (hva : va = ((s.dev.core w.core).r1 w).toNat) (hn : n = fld ((s.dev.core w.core).r2 w) 31 0) (ht : t = fld w.fn 3 2)
  (hlt : va < 2 ^ 48) (htier : t < 2)
include hw hi hva hn ht hlt htier

/-- A TPIN that a run over its gobs answers. -/
theorem tpin_answers {a : Dev} {v : Word} (hrun : Dev.tpinRun w.core (s.dev.core w.core).slotN w.rd.toNat (va / 65536) n t (bitAt w.fn 4)
      (n + 1) false 0 s.dev = .done (a.modCore w.core (fun x => x.setG w.rd.toNat v))) :
    ∃ e, Does (.tpin w) s e ∧ OnlyCore a e w.core (((a.core w.core).setG w.rd.toNat v).retire (ilenOf w)) := by
  subst hva hn ht
  refine instr_done_mod (c := .tpin w) (f := fun x => x.setG w.rd.toNat v) rfl hw hi ?_
  dsimp only
  rw [if_neg (Nat.not_le.mpr hlt), if_neg (Nat.not_le.mpr htier), hrun]

/-- A TPIN that waits for a copy. -/
theorem tpin_waits {a : Dev} {wt : Wait} (hrun : Dev.tpinRun w.core (s.dev.core w.core).slotN w.rd.toNat (va / 65536) n t (bitAt w.fn 4)
      (n + 1) false 0 s.dev = .stall a wt) :
    ∃ e, Does (.tpin w) s e ∧ OnlyCore a e w.core { a.core w.core with wait := some wt, ilen := ilenOf w } := by
  subst hva hn ht
  refine instr_stall (c := .tpin w) rfl hw hi ?_
  dsimp only
  rw [if_neg (Nat.not_le.mpr hlt), if_neg (Nat.not_le.mpr htier), hrun]

end

/-- A run over no gobs, or over all, is done. -/
theorem tpinRun_over {c s rd gob n tier fuel done : Nat} {clear copied : Bool} {d : Dev} (h : n ≤ done) :
    Dev.tpinRun c s rd gob n tier clear (fuel + 1) copied done d
      = .done (d.modCore c (fun x => x.setG rd (pinStatus done false false false))) := by
  rw [Dev.tpinRun, if_pos h]

section
variable {c s rd gob n tier fuel : Nat} {clear : Bool} {d d1 : Dev} (hn : n ≠ 0)
include hn

theorem tpinRun_stops {q f p : Bool} (h : d.pinGob c s gob tier clear false = .stop d1 q f p) :
    Dev.tpinRun c s rd gob n tier clear (fuel + 1) false 0 d = .done (d1.modCore c (fun x => x.setG rd (pinStatus 0 q f p))) := by
  rw [Dev.tpinRun, if_neg (by omega), Nat.add_zero, h]

theorem tpinRun_waits (h : d.pinGob c s gob tier clear false = .wait d1) :
    Dev.tpinRun c s rd gob n tier clear (fuel + 1) false 0 d = .stall d1 (.tpin rd gob n tier 0 (b2n clear)) := by
  rw [Dev.tpinRun, if_neg (by omega), Nat.add_zero, h]

theorem tpinRun_next (h : d.pinGob c s gob tier clear false = .next d1) :
    Dev.tpinRun c s rd gob n tier clear (fuel + 1) false 0 d = Dev.tpinRun c s rd gob n tier clear fuel false 1 d1 := by
  rw [Dev.tpinRun, if_neg (by omega), Nat.add_zero, h]

end

/-! ### PHINT -/

/-- PHINT on one unit. -/
def Dev.hintUnit (w : IW) (d : Dev) (u : Nat) : Dev :=
  if bitAt w.rs2 u then
    (d.setHint u (some (fld w.fn 5 0, d.pwr.aclks + 64 * 2 ^ fld w.fn 9 6, false))).modPwr
      (fun x => { x with dies := tput (fun _ => 4) x.dies u (dieOfCore w.core) })
  else d

/-- A hint changes hints and dies of the power state alone. -/
theorem Dev.hintUnit_frame (w : IW) (d : Dev) (u : Nat) :
    d.hintUnit w u = { d with pwr := { d.pwr with hints := (d.hintUnit w u).pwr.hints, dies := (d.hintUnit w u).pwr.dies } } := by
  unfold Dev.hintUnit
  split <;> rfl

theorem Dev.hintUnit_hints (w : IW) (d : Dev) (u k : Nat) : tfind (d.hintUnit w u).pwr.hints k = if k = u ∧ bitAt w.rs2 u = true then
    some (fld w.fn 5 0, d.pwr.aclks + 64 * 2 ^ fld w.fn 9 6, false) else tfind d.pwr.hints k := by
  unfold Dev.hintUnit
  split
  · next hb =>
    refine (d.setHint_hints u (some (fld w.fn 5 0, d.pwr.aclks + 64 * 2 ^ fld w.fn 9 6, false)) k).trans ?_
    by_cases hk : k = u <;> simp [hk, hb]
  · next hb => simp [hb]

theorem Dev.hintUnit_dies (w : IW) (d : Dev) (u k : Nat) : tget (fun _ => 4) (d.hintUnit w u).pwr.dies k
    = if k = u ∧ bitAt w.rs2 u = true then dieOfCore w.core else tget (fun _ => 4) d.pwr.dies k := by
  unfold Dev.hintUnit
  split
  · next hb =>
    refine (tget_tput (fun _ => 4) d.pwr.dies u k (dieOfCore w.core)).trans ?_
    by_cases hk : k = u <;> simp [hk, hb]
  · next hb => simp [hb]

/-- PHINT on units one after another: what stands afterwards of hints and dies, and that nothing else changes. -/
theorem Dev.hintUnits (w : IW) (us : List Nat) (d : Dev) :
    us.foldl (Dev.hintUnit w) d = { d with pwr := { d.pwr with
        hints := (us.foldl (Dev.hintUnit w) d).pwr.hints, dies := (us.foldl (Dev.hintUnit w) d).pwr.dies } }
    ∧ (∀ k, tfind (us.foldl (Dev.hintUnit w) d).pwr.hints k = if k ∈ us ∧ bitAt w.rs2 k = true then
        some (fld w.fn 5 0, d.pwr.aclks + 64 * 2 ^ fld w.fn 9 6, false) else tfind d.pwr.hints k)
    ∧ ∀ k, k ∈ us → bitAt w.rs2 k = true → tget (fun _ => 4) (us.foldl (Dev.hintUnit w) d).pwr.dies k = dieOfCore w.core := by
  induction us using List.reverseRecOn with
  | nil => exact ⟨rfl, fun k => by simp, fun k hk => absurd hk List.not_mem_nil⟩
  | append_singleton us u ih =>
    obtain ⟨hframe, hhints, hdies⟩ := ih
    rw [List.foldl_append, List.foldl_cons, List.foldl_nil]
    generalize us.foldl (Dev.hintUnit w) d = a at hframe hhints hdies ⊢
    have haclks : a.pwr.aclks = d.pwr.aclks := by rw [hframe]
    refine ⟨?_, fun k => ?_, fun k hk hb => ?_⟩
    · have hunit := a.hintUnit_frame w u
      generalize (a.hintUnit w u).pwr.hints = x at hunit ⊢
      generalize (a.hintUnit w u).pwr.dies = y at hunit ⊢
      rw [hunit, hframe]
    · rw [Dev.hintUnit_hints, hhints, haclks]
      by_cases hku : k = u
      · subst hku
        by_cases hb : bitAt w.rs2 k = true <;> simp [hb]
      · simp [hku]
    · rw [Dev.hintUnit_dies]
      split
      · rfl
      · next hno =>
        have hku : k ≠ u := fun h => hno ⟨h, h ▸ hb⟩
        exact hdies k (by simpa [hku] using hk) hb

theorem phint_sets {w : IW} {s : State} (hw : (Instr.phint w).wf = true)
    (hi : Issues s.dev { major := 0x2E, takesImm := false, branch := false, eOnly := false }
      (!bitAt w.fn 10 && decide (w.rd = 0) && decide (w.rs1 = 0)) w) :
    ∃ e, Does (.phint w) s e ∧ OnlyCore ((List.range 5).foldl (Dev.hintUnit w) s.dev) e w.core
      ((((List.range 5).foldl (Dev.hintUnit w) s.dev).core w.core).retire (ilenOf w)) :=
  instr_done (c := .phint w) rfl hw hi rfl

/-- The end of a core's reads leaves the power state. -/
theorem onlyCore_pwr {d e : Dev} {c : Nat} {x : Core} (h : OnlyCore d e c x) : e.pwr = d.pwr := by
  obtain ⟨⟨b, he⟩, -⟩ := h
  rw [he]
  cases b with
  | false => rfl
  | true =>
    rw [ended, if_pos rfl, Dev.endReads_eq]

end Sys2Proof.Machine

section

open Sys2Proof Sys2Proof.Machine Sys2Proof.Safety

/-- Settles O46. -/
theorem streamsAndHints : Obligations.StreamsAndHints := by
  refine ⟨fun w s d ws hw hi hc hd => ⟨fun h0 => ?_, fun h0 hf hp => ?_, fun d1 map h0 hf hp hm => ?_⟩,
    fun w s hw hi => ⟨fun h => tpref_nothing hw hi rfl rfl h, fun hk h0 hle => tpref_asks hw hi rfl rfl hk h0 hle rfl⟩,
    fun w s hw hi hlt ht => ⟨fun h0 => ?_, fun d h1 hg => ?_, fun d q f p h0 hg => ?_, fun d h0 hg => ?_⟩,
    fun w s hw hi => ?_, fun u lv t s => ⟨fun hw hu ht => ?_, fun hw hu ht => ?_⟩⟩
  · exact tstream_sets hw hi hc hd (tstreamGo_closes rfl h0)
  · exact tstream_sets hw hi hc hd (tstreamGo_opens rfl h0 hf hp)
  · exact tstream_sets hw hi hc hd (tstreamGo_opensMap rfl h0 hf hp hm)
  · exact tpin_answers hw hi rfl rfl rfl hlt ht (tpinRun_over (Nat.le_of_eq h0))
  · refine tpin_answers hw hi rfl rfl rfl hlt ht ((tpinRun_next (by omega) hg).trans ?_)
    rw [h1]
    exact tpinRun_over (Nat.le_refl 1)
  · exact tpin_answers hw hi rfl rfl rfl hlt ht (tpinRun_stops h0 hg)
  · obtain ⟨e, hdoes, -, hcore⟩ := tpin_waits hw hi rfl rfl rfl hlt ht (tpinRun_waits h0 hg)
    have hcore := (hcore w.core).trans (if_pos rfl)
    exact ⟨e, hdoes, by rw [hcore]; simp [Core.takes], by rw [hcore], by rw [hcore]⟩
  · obtain ⟨e, hdoes, honly⟩ := phint_sets hw hi
    obtain ⟨hframe, hhints, hdies⟩ := Dev.hintUnits w (List.range 5) s.dev
    have hpwr := onlyCore_pwr honly
    rw [← hpwr] at hhints hdies
    refine ⟨e, _, _, hdoes, hframe ▸ honly, fun u hu hb => hdies u (List.mem_range.mpr hu) hb, fun u => ?_⟩
    simpa using hhints u
  · have hexec : exec (.phintBoostStart u) s = execPhintBoostStart u s := rfl
    rw [execPhintBoostStart, run_wf hw, hu] at hexec
    dsimp only at hexec
    rw [if_pos ht] at hexec
    exact ⟨_, hexec, (Dev.setHint_hints _ _ _ _).trans (if_pos rfl), rfl⟩
  · have hexec : exec (.phintBoostEnd u) s = execPhintBoostEnd u s := rfl
    rw [execPhintBoostEnd, run_wf hw, hu] at hexec
    dsimp only at hexec
    rw [if_pos ht] at hexec
    exact ⟨_, hexec, (Dev.setHint_hints _ _ _ _).trans (if_pos rfl), rfl⟩

end
end

section
/-! PROOFS. Arrivals and the receiving units (R588, R591 to R604, R614, R622, R623). -/

namespace Sys2Proof.Machine

open Sys2Proof.Safety

/-! ### Arrivals -/

/-- A transaction within its credits is counted and goes on. -/
theorem Dev.receive_within {d : Dev} {p : Nat} {x : Tx} (h : WithinCredit d p x) (k : Dev → Nat → Dev) :
    d.receive p x k = k (counted d p x) (d.inKey p x) := by
  obtain ⟨hlink, hcred⟩ := h
  rw [Dev.receive, if_neg (by simp [hlink])]
  exact if_neg (Nat.not_lt.mpr hcred)

/-- One for this device is checked by its unit, and its credits return. -/
theorem Dev.arriveAt_within {d : Dev} {p : Nat} {x : Tx} (hh : d.isHere x = true) (h : WithinCredit d p x) (k : Dev → Dev) :
    d.arriveAt p x k = ((counted d p x).crcChecked x k).freeCredits p (d.inKey p x) (txUnits x) := by
  rw [Dev.arriveAt, if_pos hh, Dev.receive_within h]

section
variable {c : Instr} {p : Nat} {x : Tx} {s : State} {k : Dev → Dev} (he : exec c s = run c (fun d => d.arriveAt p x k) s)
  (hw : c.wf = true) (hh : s.dev.isHere x = true) (h : WithinCredit s.dev p x)
include he hw hh h

/-- A transaction with a good crc is taken by its unit. -/
theorem arrives_good (hcrc : x.crc = txCrc x) :
    Does c s ((k (counted s.dev p x)).freeCredits p (s.dev.inKey p x) (txUnits x)) := by
  have hdoes := does_of_run he hw
  rwa [Dev.arriveAt_within hh h, Dev.crcChecked, if_pos hcrc] at hdoes

/-- One with a bad crc changes FAB_OOS and the credits. -/
theorem arrives_bad (hcrc : x.crc ≠ txCrc x) :
    Does c s (((counted s.dev p x).satRf Reg.FAB_OOS 31 0 1).freeCredits p (s.dev.inKey p x) (txUnits x)) := by
  have hdoes := does_of_run he hw
  rwa [Dev.arriveAt_within hh h, Dev.crcChecked, if_neg hcrc] at hdoes

/-- What a good and a bad crc do. -/
theorem arrives : (x.crc = txCrc x → Does c s ((k (counted s.dev p x)).freeCredits p (s.dev.inKey p x) (txUnits x)))
    ∧ (x.crc ≠ txCrc x →
      Does c s (((counted s.dev p x).satRf Reg.FAB_OOS 31 0 1).freeCredits p (s.dev.inKey p x) (txUnits x))) :=
  ⟨arrives_good he hw hh h, arrives_bad he hw hh h⟩

end

/-- The answer to a discovery request. -/
def Dev.discAnswer (d : Dev) (x : Tx) : Tx :=
  { d.tx 0x10 5 x.src x.job 0 with
    lenM1 := ((Config.discBody (b2n d.ready)).take 448).length - 1, payload := (Config.discBody (b2n d.ready)).take 448 }

/-- A discovery request without payload is answered where none was before. -/
theorem Dev.takeDisc_answers {d : Dev} {p : Nat} {x : Tx} (hp : x.payload = []) (ht : (d.port p).discTime = none) :
    ∃ t : Tx, d.takeDisc p x = (d.setPort p { d.port p with discTime := some d.now }).launch t
      ∧ t.op = 0x10 ∧ t.dst = x.src ∧ t.vc = 5 := by
  have htake : d.takeDisc p x = (d.setPort p { d.port p with discTime := some d.now }).launch (d.discAnswer x) := by
    rw [Dev.takeDisc, ht]
    exact if_pos (by simp [hp])
  exact ⟨d.discAnswer x, htake, rfl, rfl, rfl⟩

section
variable {d : Dev} {p node n port : Nat} {x : Tx} (hnode : node = leNat (x.payload.take 2)) (hn : n = x.offset % 65536)
include hnode hn

/-- A notice seen before does nothing. -/
theorem Dev.takeLsn_seen (h : (node, n) ∈ d.fab.seen) : d.takeLsn p x = d := by
  subst hnode hn
  rw [Dev.takeLsn]
  exact if_pos (List.contains_iff_mem.mpr h)

/-- A notice that is new, of a link without a mark, marks it or not, and is forwarded. -/
theorem Dev.takeLsn_new (hport : port = leNat ((x.payload.drop 2).take 1) % 8) (h : (node, n) ∉ d.fab.seen) (hm : tget (fun _ => none) d.fab.marks (node * 8 + port) = none) :
    ∃ a : Dev, d.takeLsn p x = a.floodNotice x (decide (6 ≤ port)) p ∧ (node, n) ∈ a.fab.seen
      ∧ tget (fun _ => none) a.fab.marks (node * 8 + port)
        = if leNat ((x.payload.drop 3).take 1) % 2 = 1 then some n else none := by
  subst hnode hport hn
  rw [Dev.takeLsn, if_neg (by simpa using h)]
  dsimp only
  rw [hm]
  refine ⟨_, rfl, List.mem_cons_self, (tget_tput_self _ _ _ _).trans ?_⟩
  simp

end

/-! ### The receivers -/

section
variable {d : Dev} {x : Tx} {k : Dev → Dev}

/-- What is due, with room for its space, is acted on. -/
theorem Dev.inSequence_due (hs : x.seq = d.expectSeq (d.recvKey x))
    (hroom : (d.recvSpace (d.recvKey x)).isSome = true ∨ d.fab.recv.length < maxSpaces) : d.inSequence x k = k d := by
  have hno : ((d.recvSpace (d.recvKey x)).isNone && decide (maxSpaces ≤ d.fab.recv.length)) = false := by
    cases hroom with
    | inl h => simp [Option.isNone_eq_false_iff.mpr h]
    | inr h => simp [h]
  rw [Dev.inSequence, if_pos hs]
  exact if_neg (by rw [hno]; exact Bool.false_ne_true)

/-- What is beyond the sequence expected changes FAB_OOS alone. -/
theorem Dev.inSequence_beyond (hs : x.seq ≠ d.expectSeq (d.recvKey x)) (hb : seqBefore x.seq (d.expectSeq (d.recvKey x)) = false) :
    d.inSequence x k = d.satRf Reg.FAB_OOS 31 0 1 := by
  rw [Dev.inSequence, if_neg hs]
  exact if_neg (by rw [hb]; exact Bool.false_ne_true)

end

/-- Sequence numbers are not before each other both ways. -/
theorem seqBefore_asymm {a b : Nat} (h : seqBefore a b = true) : seqBefore b a = false := by
  unfold seqBefore at *
  simp only [Bool.and_eq_true, decide_eq_true_eq] at h
  simp only [Bool.and_eq_false_iff, decide_eq_false_iff_not]
  omega

end Sys2Proof.Machine

section

open Sys2Proof Sys2Proof.Machine Sys2Proof.Safety

/-- Settles O38. -/
theorem arrivalsReachTheirUnits : Obligations.ArrivalsReachTheirUnits := by
  refine ⟨?_, fun p x s hw hh hc => ?_, fun p x s hw hh hc hcrc hp ht => ?_, fun p x s hw hh hc hcrc => ⟨fun hseen => ?_, fun hnew hm => ?_⟩⟩
  · unfold arrivalRows
    simp only [List.forall_mem_cons]
    exact ⟨fun p x s hw hh hc => arrives (k := fun a => a.takeWrite x) rfl hw hh hc,
      fun p x s hw hh hc => arrives (k := fun a => a.takeWrite x) rfl hw hh hc,
      fun p x s hw hh hc => arrives (k := fun a => a.takeRead x) rfl hw hh hc,
      fun p x s hw hh hc => arrives (k := fun a => a.takeRdr x) rfl hw hh hc,
      fun p x s hw hh hc => arrives (k := fun a => a.takeRts x) rfl hw hh hc,
      fun p x s hw hh hc => arrives (k := fun a => a.takeFragment x) rfl hw hh hc,
      fun p x s hw hh hc => arrives (k := fun a => a.takePost x) rfl hw hh hc,
      fun p x s hw hh hc => arrives (k := fun a => a.takeNotice x) rfl hw hh hc,
      fun p x s hw hh hc => arrives (k := fun a => a.takeAck x) rfl hw hh hc,
      fun p x s hw hh hc => arrives (k := fun a => a.takeGrant x) rfl hw hh hc,
      fun p x s hw hh hc => arrives (k := fun a => a.satRf Reg.FAB_DROPS 31 0 1) rfl hw hh hc,
      fun p x s hw hh hc => arrives (k := fun a => a.takeHintTx x) rfl hw hh hc,
      fun p x s hw hh hc => arrives (k := fun a => a.takeBundle x) rfl hw hh hc,
      fun _ h => absurd h List.not_mem_nil⟩
  · have hdoes := does_of_run (c := .transitForward p x) (s := s) rfl hw
    rwa [Dev.transit, if_neg (by simp [hh]), Dev.receive_within hc] at hdoes
  · have hdoes := arrives_good (c := .discReceive p x) (k := fun a => a.takeDisc p x) rfl hw hh hc hcrc
    obtain ⟨t, htake, hop⟩ := Dev.takeDisc_answers hp ht
    rw [htake] at hdoes
    exact ⟨t, hdoes, hop⟩
  · have hdoes := arrives_good (c := .lsnReceive p x) (k := fun a => a.takeLsn p x) rfl hw hh hc hcrc
    rwa [Dev.takeLsn_seen rfl rfl hseen] at hdoes
  · have hdoes := arrives_good (c := .lsnReceive p x) (k := fun a => a.takeLsn p x) rfl hw hh hc hcrc
    obtain ⟨a, htake, hin, hmark⟩ := Dev.takeLsn_new (p := p) rfl rfl rfl hnew hm
    rw [htake] at hdoes
    exact ⟨a, hdoes, hin, hmark⟩

/-- Settles O39. -/
theorem receiversAct : Obligations.ReceiversAct := by
  refine ⟨fun d d2 x sl a bs hs hroom hcheck hwr => ?_, fun d x r hs hroom hcheck => ?_,
    fun d e x sl ok hs hroom hcore hsl howner hpost => ?_, fun d x hs hb => ⟨?_, ?_, ?_, ?_, ?_⟩, fun a b h => seqBefore_asymm h⟩
  · rw [Dev.takeWrite, Dev.inSequence_due hs hroom]
    dsimp only
    rw [hcheck]
    dsimp only
    rw [hwr]
  · rw [Dev.takeWrite, Dev.inSequence_due hs hroom]
    dsimp only
    rw [hcheck]
  · rw [Dev.takePost, Dev.inSequence_due hs hroom, if_neg hcore, hsl]
    dsimp only
    rw [if_pos howner, hpost]
  · exact Dev.inSequence_beyond hs hb
  · exact Dev.inSequence_beyond hs hb
  · exact Dev.inSequence_beyond hs hb
  · exact Dev.inSequence_beyond hs hb
  · rw [Dev.takeRts, if_neg hs]
    exact if_neg (by rw [hb]; exact Bool.false_ne_true)

end
end

section
/-! PROOFS. The timers and answers of the end-to-end protocol (R609, R611, R625 to R630, R768). -/

namespace Sys2Proof.Machine

open Sys2Proof.Safety

/-- A saturating field of 32 bits counts up to its end. -/
theorem Dev.satRf_word (d : Dev) (o n : Nat) : (d.satRf o 31 0 n).rf o 31 0 = min (d.rf o 31 0 + n) (2 ^ 32 - 1) := by
  refine (Dev.rf_setRf_self _ _ _ _ _ (by decide)).trans (Nat.mod_eq_of_lt ?_)
  omega

/-- A record of a sequence space leaves the registers. -/
theorem Dev.setSpace_reg (d : Dev) (x : SendSpace) (o : Nat) : (d.setSpace x).reg o = d.reg o := by
  unfold Dev.setSpace
  split <;> rfl

/-! ### Line reads -/

/-- The time of the next resend of a read. -/
def Dev.rereads (d : Dev) (r : LineRead) : Dev :=
  { d.satRf Reg.FAB_RETX 31 0 1 with
    fab := { d.fab with reads := d.fab.reads.map (fun (y : LineRead) => if y.k = r.k then { y with last := d.now + d.e2e } else y) } }

theorem Dev.rereads_counts (d : Dev) (r : LineRead) : (d.rereads r).rf Reg.FAB_RETX 31 0 = min (d.rf Reg.FAB_RETX 31 0 + 1) (2 ^ 32 - 1) :=
  d.satRf_word Reg.FAB_RETX 1

theorem Dev.rereads_length (d : Dev) (r : LineRead) : (d.rereads r).fab.reads.length = d.fab.reads.length := List.length_map _

section
variable {rid : Nat} {s : State} {r : LineRead} (hw : (Instr.rdlResend rid).wf = true)
  (hr : s.dev.fab.reads.find? (fun r => !r.host && decide (r.rid = rid) && decide (r.last ≤ s.dev.now)
    && (s.dev.space (spaceKeyOf r.tx)).waiting.all (fun w => decide (w.1.op ≠ 0x01) || decide (w.1.rid ≠ rid))) = some r)
include hw hr

/-- A line read past its time fails after 100 ms. -/
theorem rdlResend_fails (h : r.first + 100000000 ≤ s.dev.now) :
    Does (.rdlResend rid) s (((s.dev.dropRead r.k).sstat r.tx.job 1).readFails r (readFault r 0x0504 0)) := by
  have hexec : exec (.rdlResend rid) s = execRdlResend rid s := rfl
  rw [Does, hexec, execRdlResend, run_wf hw, hr]
  dsimp only
  rw [if_pos h]

/-- Before that it is sent again. -/
theorem rdlResend_resends (h : s.dev.now < r.first + 100000000) :
    Does (.rdlResend rid) s ((s.dev.rereads r).launch { r.tx with retx := true }) := by
  have hexec : exec (.rdlResend rid) s = execRdlResend rid s := rfl
  rw [Does, hexec, execRdlResend, run_wf hw, hr]
  dsimp only
  rw [if_neg (Nat.not_le.mpr h)]
  rfl

end

/-- The first elements of a list, one by one. -/
theorem range_map_getD {α : Type} (l : List α) (z : α) {n : Nat} (h : l.length = n) : (List.range n).map (fun i => l.getD i z) = l := by
  subst h
  refine List.ext_getElem (by simp) (fun i hi hj => ?_)
  simp [hj]

theorem t3ReadCompletion_does {k : Nat} {data : List Byte} {s : State} {r : LineRead} (hw : (Instr.t3ReadCompletion k data).wf = true)
    (hr : s.dev.fab.reads.find? (fun r => r.host && decide (r.k = k)) = some r) (hl : data.length = 128) :
    Does (.t3ReadCompletion k data) s ((s.dev.dropRead k).readArrives r data) := by
  have hexec : exec (.t3ReadCompletion k data) s = execT3ReadCompletion k data s := rfl
  rw [Does, hexec, execT3ReadCompletion, run_wf hw, hr]
  dsimp only
  rw [range_map_getD data 0 hl]

/-! ### Grants -/

/-- The device with a grant entered: the message stands in the queue, its buffer in the hand of the receiver. -/
def Dev.granted (d : Dev) (sl q p i : Nat) (w : WaitRts) (ws : List WaitRts) (is : List Nat) : Dev :=
  let x := d.rqueue sl q
  (d.setRqueue sl q { x with
    rts := ws, reserved := is,
    msgs := x.msgs ++ [{ key := w.key, seq := w.seq, bytes := w.bytes, pool := p, buf := i, got := 0, src := w.key.src, complete := false }] }).bufHand
      p i 50

section
variable (d : Dev) (sl q p i : Nat) (w : WaitRts) (ws : List WaitRts) (is : List Nat)

/-- What a grant leaves of its queue. -/
theorem Dev.granted_rqueue : (d.granted sl q p i w ws is).rqueue sl q = { d.rqueue sl q with
    rts := ws, reserved := is,
    msgs := (d.rqueue sl q).msgs ++
      [{ key := w.key, seq := w.seq, bytes := w.bytes, pool := p, buf := i, got := 0, src := w.key.src, complete := false }] } :=
  tget_tput_self _ _ _ _

/-- What a grant leaves of its buffer. -/
theorem Dev.granted_buffer : ((d.granted sl q p i w ws is).pool p).recOf i
    = { held := true, holders := [50], releaser := 50, relNode := false, released := false, reserved := false } := by
  rw [Dev.granted, Dev.bufHand, Dev.pool_setPool_self]
  rw [Pool.recOf, Pool.setRec, tget_tput_self]

end

theorem grantSend_grants {sl q p i : Nat} {s : State} {w : WaitRts} {ws : List WaitRts} {is : List Nat}
    (hw : (Instr.grantSend sl q).wf = true) (hp : (s.dev.rqueue sl q).pool = some p) (hrts : (s.dev.rqueue sl q).rts = w :: ws)
    (hres : (s.dev.rqueue sl q).reserved = i :: is) (hb : w.bytes ≤ s.dev.bufSize p) :
    Does (.grantSend sl q) s (((s.dev.granted sl q p i w ws is).poolDone p).sendGrant w.key q w.seq 0 0) := by
  have hexec : exec (.grantSend sl q) s = execGrantSend sl q s := rfl
  rw [Does, hexec, execGrantSend, run_wf hw, Dev.granted]
  dsimp only
  rw [hp, hrts]
  dsimp only
  rw [if_neg (Nat.not_lt.mpr hb), hres]

/-! ### Messages that wait for their grant -/

section
variable {m : Nat} {s : State} {y : SendMsg} {u : Sent} (hy : s.dev.sendMsg m = some y) (hu : s.dev.sentRts y = some u)
include hy hu

theorem rtsBusyResend_resends (hw : (Instr.rtsBusyResend m).wf = true) (hp : y.phase = 1) (ht : y.since + 10000 ≤ s.dev.now) :
    Does (.rtsBusyResend m) s ((s.dev.putMsg { y with phase := 0, since := s.dev.now }).launch { u.tx with rid := 0 }) := by
  have hexec : exec (.rtsBusyResend m) s = execRtsBusyResend m s := rfl
  rw [Does, hexec, execRtsBusyResend, run_wf hw, hy]
  dsimp only
  rw [if_pos ⟨hp, ht⟩, hu]

theorem grantTimeout_fails (hw : (Instr.grantTimeout m).wf = true) (hp : y.phase ≤ 1) (ht : u.first + 100000000 ≤ s.dev.now) :
    Does (.grantTimeout m) s (s.dev.sendFails y (msgFault y 0x0506 0 u.tx.seq)) := by
  have hexec : exec (.grantTimeout m) s = execGrantTimeout m s := rfl
  rw [Does, hexec, execGrantTimeout, run_wf hw, hy]
  dsimp only
  rw [hu]
  dsimp only
  rw [if_pos ⟨hp, ht⟩]

end

/-! ### Spaces with transactions unacknowledged -/

section
variable {k : SpaceKey} {s : State} {u : Sent} {us : List Sent} (hk : (s.dev.space k).unacked = u :: us)
  (hf : (s.dev.space k).failed = false)
include hk hf

/-- What the timer of a space sends again is counted, with its new times. -/
theorem e2eTimerExpiry_resends (hw : (Instr.e2eTimerExpiry k).wf = true) (ht : u.last ≤ s.dev.now) : ∃ x : SendSpace,
    Does (.e2eTimerExpiry k) s ((u :: us).foldl (fun (a : Dev) (v : Sent) =>
      a.launch { v.tx with retx := true, rid := if v.tx.op = 0x08 then 0 else v.tx.rid })
        ((s.dev.satRf Reg.FAB_RETX 31 0 (us.length + 1)).setSpace x)) := by
  have hexec : exec (.e2eTimerExpiry k) s = execE2eTimerExpiry k s := rfl
  rw [execE2eTimerExpiry, run_wf hw] at hexec
  dsimp only at hexec
  rw [hk] at hexec
  dsimp only at hexec
  rw [if_neg (by simp [hf, ht])] at hexec
  exact ⟨_, hexec⟩

theorem e2eWriteFail_fails (hw : (Instr.e2eWriteFail k).wf = true) (hop : u.tx.op ≠ 0x08) (ht : u.first + 100000000 ≤ s.dev.now) :
    Does (.e2eWriteFail k) s (s.dev.failSpace (s.dev.space k)) := by
  have hexec : exec (.e2eWriteFail k) s = execE2eWriteFail k s := rfl
  rw [Does, hexec, execE2eWriteFail, run_wf hw]
  dsimp only
  rw [if_pos (by rw [hf, hk]; simp [hop, ht])]

end

theorem bundleClose_sends {p i : Nat} {s : State} {b : Bundle} (hw : (Instr.bundleClose p i).wf = true)
    (hb : (s.dev.bundles p)[i]? = some b)
    (h : 4096 ≤ (bundleBytes b).length ∨ b.since + s.dev.rf Reg.FAB_CFG 35 24 ≤ s.dev.now) :
    Does (.bundleClose p i) s ((s.dev.setBundles p ((s.dev.bundles p).eraseIdx i)).sendBundle p b) := by
  have hexec : exec (.bundleClose p i) s = execBundleClose p i s := rfl
  rw [Does, hexec, execBundleClose, run_wf hw, hb]
  dsimp only
  rw [if_pos h]

end Sys2Proof.Machine

section

open Sys2Proof Sys2Proof.Machine Sys2Proof.Safety

/-- Settles O40. -/
theorem fabricTimers : Obligations.FabricTimers := by
  refine ⟨fun rid s r hw hr => ⟨fun h => ⟨_, rfl, rdlResend_fails hw hr h⟩, fun h => ?_⟩, fun k data s r hw hr hl => t3ReadCompletion_does hw hr hl,
    fun sl q p i s w ws is hw hp hrts hres hb => ?_, fun m s y u hy hu => ⟨fun hw hp ht => rtsBusyResend_resends hy hu hw hp ht,
      fun hw hp ht => ⟨_, rfl, grantTimeout_fails hy hu hw hp ht⟩⟩,
    fun k s u us hk hf => ⟨fun hw ht => ?_, fun hw hop ht => e2eWriteFail_fails hk hf hw hop ht⟩, fun p i s b hw hb h => bundleClose_sends hw hb h⟩
  · exact ⟨_, rdlResend_resends hw hr h, s.dev.rereads_counts r, s.dev.rereads_length r⟩
  · have hq := s.dev.granted_rqueue sl q p i w ws is
    have hbuf := s.dev.granted_buffer sl q p i w ws is
    exact ⟨_, _, grantSend_grants hw hp hrts hres hb, congrArg RecvQueue.rts hq, congrArg RecvQueue.reserved hq,
      congrArg RecvQueue.msgs hq, rfl, rfl, rfl, rfl, rfl, rfl, rfl, congrArg BufRec.held hbuf, congrArg BufRec.holders hbuf⟩
  · obtain ⟨x, hdoes⟩ := e2eTimerExpiry_resends hk hf hw ht
    refine ⟨_, hdoes, ?_⟩
    exact (congrArg (fun w => fld w 31 0) (Dev.setSpace_reg _ x _)).trans (s.dev.satRf_word Reg.FAB_RETX _)

end
end

section
/-! PROOFS. Ports: training, flits and retry (R569 to R590, R596, R615, R618). -/

namespace Sys2Proof.Machine

open Sys2Proof.Safety

/-! ### What a full training leaves -/

/-- A port without what it holds. -/
def Port.bare (x : Port) : Port := { x with held := [] }

/-- What two ports share that differ in what they hold. -/
theorem Port.of_bare {x y : Port} (h : x.bare = y.bare) : x.txNext = y.txNext ∧ x.rxExpect = y.rxExpect ∧ x.replay = y.replay
    ∧ x.credits = y.credits ∧ x.since = y.since :=
  ⟨(congrArg Port.txNext h :), (congrArg Port.rxExpect h :), (congrArg Port.replay h :), (congrArg Port.credits h :),
    (congrArg Port.since h :)⟩

/-- A full training of a port touches of the others only where held transactions came from. -/
theorem Dev.clearOrigins_bare (d : Dev) (p q : Nat) : ((d.clearOrigins p).port q).bare = (d.port q).bare := by
  unfold Dev.clearOrigins
  refine foldl_keeps (π := fun a => (Dev.port a q).bare) (fun a k => ?_) (List.range 8) d
  dsimp only [Dev.modPort]
  rw [Dev.port_setPort]
  split
  · next h => subst h; rfl
  · rfl

theorem Dev.clearOrigins_reg (d : Dev) (p o : Nat) : (d.clearOrigins p).reg o = d.reg o := by
  unfold Dev.clearOrigins
  exact foldl_keeps (π := fun a => Dev.reg a o) (fun a q => Dev.reg_setPort a q o _) (List.range 8) d

/-- The port after a full training began. -/
def Port.anew (x : Port) (now : Nat) : Port :=
  { x.leaveUp now with
    rxExpect := 0, nakSent := false, txNext := 0, replay := [], nakFor := 0, nakCount := 0, ackTime := now,
    since := now, credits := [], due := [], tail := [], part := [], fresh := true }

theorem Dev.portFull_bare (d : Dev) (p : Nat) : ((d.portFull p).port p).bare = ((d.port p).anew d.now).bare := by
  rw [Dev.portFull, Dev.clearOrigins_bare, Dev.port_setPort_self]
  rfl

theorem Dev.reg_commit (d : Dev) (r o : Nat) : (d.commit r).reg o = d.reg o := rfl

theorem Dev.portFull_state (d : Dev) (p : Nat) : (d.portFull p).reg (Reg.PORT_STATE p) = 1 := by
  rw [Dev.portFull, Dev.clearOrigins_reg, Dev.reg_setPort, Dev.reg_commit, Dev.reg_setReg_self]

/-! ### The states of a port -/

/-- Linked is established or UP. -/
theorem Dev.portState_of_linked {d : Dev} {p : Nat} (h : d.portLinked p = true) : d.portState p = 3 ∨ d.portState p = 4 := by
  simpa [Dev.portLinked] using h

/-- A state that is set is shown. -/
theorem Dev.setPortState_shows (d : Dev) (p : Nat) {st : Nat} (h : st < 16) : (d.setPortState p st).portState p = st :=
  (Dev.rf_setRf_self _ _ _ _ _ (by decide)).trans (Nat.mod_eq_of_lt h)

/-! ### Training -/

theorem widthOf_lt (failed : BitVec 8) : widthOf failed < 4 := by
  unfold widthOf
  dsimp only
  split
  · decide
  · split
    · decide
    · split <;> decide

/-- What shows of the lanes and the width when training is done. -/
def Dev.widthShown (d : Dev) (p : Nat) (r : TrainResult) : Dev :=
  ((d.setReg (Reg.PORT_LANES p) (BitVec.ofNat 64 (r.failed.toNat + r.inverted.toNat * 2 ^ 8 + b2n r.reversed * 2 ^ 16))).setPortState
    p 2).setRf (Reg.PORT_STATE p) 5 4 (widthOf r.failed)

/-- An ident flit leaves. -/
def Dev.sendIdent (d : Dev) (p n : Nat) : Dev := { d with out := { d.out with idents := (p, n) :: d.out.idents } }

theorem Dev.sendIdent_reg (d : Dev) (p n o : Nat) : (d.sendIdent p n).reg o = d.reg o := rfl

theorem Dev.widthShown_shows (d : Dev) (p : Nat) (r : TrainResult) : (d.widthShown p r).portState p = 2
    ∧ (d.widthShown p r).rf (Reg.PORT_STATE p) 5 4 = widthOf r.failed :=
  ⟨(Dev.rf_setRf_apart _ _ _ _ _ _ _ (.inl (by decide))).trans (Dev.setPortState_shows _ _ (by decide)),
    (Dev.rf_setRf_self _ _ _ _ _ (by decide)).trans (Nat.mod_eq_of_lt (widthOf_lt _))⟩

theorem portTrainingDone_does {p : Nat} {r : TrainResult} {s : State} (hw : (Instr.portTrainingDone p r).wf = true)
    (hs : s.dev.portState p = 1) (hwid : s.dev.minWidth p ≤ widthOf r.failed) :
    Does (.portTrainingDone p r) s ((s.dev.widthShown p r).sendIdent p (s.dev.port p).rxExpect) := by
  have hexec : exec (.portTrainingDone p r) s = execPortTrainingDone p r s := rfl
  rw [Does, hexec, execPortTrainingDone, run_wf hw, if_pos hs]
  dsimp only
  rw [if_pos hwid]
  rfl

/-- The port of a fast retrain. -/
def Dev.fastBegun (d : Dev) (p : Nat) : Dev :=
  ((((d.satRf (Reg.PORT_RETRY p) 47 32 1).setRb (Reg.PORT_STATE p) 8 true).setPortState p 1).commit (Reg.PORT_CTRL p)).setPort p
    { (d.port p).leaveUp d.now with nakSent := false, nakFor := 0, nakCount := 0, since := d.now }

theorem Dev.fastBegun_regs (d : Dev) (p o : Nat) : (d.fastBegun p).reg o
    = (((d.satRf (Reg.PORT_RETRY p) 47 32 1).setRb (Reg.PORT_STATE p) 8 true).setPortState p 1).reg o := by
  rw [Dev.fastBegun, Dev.reg_setPort, Dev.reg_commit]

theorem Dev.fastBegun_shows (d : Dev) (p : Nat) : (d.fastBegun p).portState p = 1
    ∧ (d.fastBegun p).rb (Reg.PORT_STATE p) 8 = true :=
  ⟨(congrArg (fun w => fld w 3 0) (d.fastBegun_regs p _)).trans (Dev.setPortState_shows _ _ (by decide)),
    (congrArg (fun w => bitAt w 8) (d.fastBegun_regs p _)).trans
      ((Dev.rb_setRf_apart _ _ _ _ _ _ (.inr (by decide))).trans (Dev.rb_setRb_self _ _ _ _ (by decide)))⟩

theorem Dev.fastBegun_port (d : Dev) (p : Nat) : (d.fastBegun p).port p
    = { (d.port p).leaveUp d.now with nakSent := false, nakFor := 0, nakCount := 0, since := d.now } := Dev.port_setPort_self _ _ _

theorem fastRetrainStart_does {p : Nat} {s : State} (hw : (Instr.fastRetrainStart p).wf = true) (hl : s.dev.portLinked p = true)
    (h : 8 ≤ (s.dev.port p).nakCount ∨ ((s.dev.port p).replay ≠ [] ∧ (s.dev.port p).ackTime + 10000 ≤ s.dev.now)) :
    Does (.fastRetrainStart p) s (s.dev.fastBegun p) := by
  have hexec : exec (.fastRetrainStart p) s = execFastRetrainStart p s := rfl
  rw [Does, hexec, execFastRetrainStart, run_wf hw]
  dsimp only
  rw [if_pos (by simpa [hl] using h)]
  rfl

/-- The port goes down where training takes too long. -/
def Dev.trainDown (d : Dev) (p : Nat) : Dev := (d.setReg (Reg.PORT_STATE p) 7).modPort p (fun x => { x with since := d.now })

theorem Dev.trainDown_state (d : Dev) (p : Nat) : (d.trainDown p).reg (Reg.PORT_STATE p) = 7 := Dev.reg_setReg_self _ _ _

theorem portTrainingTimeout_fails {p : Nat} {s : State} (hw : (Instr.portTrainingTimeout p).wf = true)
    (hs : s.dev.portState p = 1 ∨ s.dev.portState p = 2) (hfast : s.dev.rb (Reg.PORT_STATE p) 8 = false)
    (ht : (s.dev.port p).since + 50000000 ≤ s.dev.now) :
    Does (.portTrainingTimeout p) s ((s.dev.trainDown p).recordAll ((s.dev.trainDown p).portFault 0x0507 p)) := by
  have hexec : exec (.portTrainingTimeout p) s = execPortTrainingTimeout p s := rfl
  rw [Does, hexec, execPortTrainingTimeout, run_wf hw, if_pos ⟨hs, hfast, ht⟩, Dev.trainDown]

/-! ### What is held at a port that is not UP -/

section
variable {p : Nat} {s : State} (hw : (Instr.portHoldExpiry p).wf = true) (hup : s.dev.portUp p = false) {x : Port} {gone : List HeldTx}
  {d : Dev} (hx : x = s.dev.port p) (hgone : gone = x.held.filter (fun h => decide (h.since + s.dev.portHold ≤ s.dev.now)))
  (hd : d = gone.foldl (fun (a : Dev) (h : HeldTx) => a.freeOrigin h.origin)
    ((s.dev.setPort p { x with held := x.held.filter (fun h => decide (s.dev.now < h.since + s.dev.portHold)) }).satRf
      Reg.FAB_DROPS 31 0 gone.length))
include hw hup hx hgone hd

/-- What was held too long is discarded. -/
theorem portHoldExpiry_discards (h : x.downSince = none ∨ x.noticed = true) : Does (.portHoldExpiry p) s d := by
  subst hd hgone hx
  have hexec : exec (.portHoldExpiry p) s = execPortHoldExpiry p s := rfl
  rw [Does, hexec, execPortHoldExpiry, run_wf hw, if_neg (by simp [hup])]
  dsimp only
  cases ht : (s.dev.port p).downSince with
  | none => rfl
  | some t =>
    have hn : (s.dev.port p).noticed = true := h.resolve_left (by simp [ht])
    dsimp only
    rw [if_neg (by simp [hn])]

/-- A link down too long is noticed. -/
theorem portHoldExpiry_notices {t : Nat} (ht : x.downSince = some t) (hle : t + s.dev.portHold ≤ s.dev.now) (hn : x.noticed = false) :
    Does (.portHoldExpiry p) s ((d.modPort p (fun y => { y with noticed := true })).sendNotice p true) := by
  subst hd hgone hx
  have hexec : exec (.portHoldExpiry p) s = execPortHoldExpiry p s := rfl
  rw [Does, hexec, execPortHoldExpiry, run_wf hw, if_neg (by simp [hup])]
  dsimp only
  rw [ht]
  dsimp only
  rw [if_pos ⟨hle, hn⟩]

end

/-! ### The partner's ident -/

/-- What an ident shows of the partner. -/
def Dev.partnerShown (d : Dev) (p : Nat) (x : Ident) : Dev :=
  (d.setReg (Reg.PORT_PARTNER p) (BitVec.ofNat 64 (x.node % 65536 + x.port % 8 * 2 ^ 16 + 2 ^ 19))).setRf (Reg.PORT_STATE p) 7 6
    (min 3 x.level)

/-- The port is miswired. -/
def Dev.miswired (d : Dev) (p now : Nat) : Dev :=
  ((d.setPortState p 5).setRb (Reg.PORT_STATE p) 8 false).modPort p (fun y => { y with since := now })

/-- The port is linked. -/
def Dev.established (d : Dev) (p now : Nat) : Dev := (d.setPortState p 3).modPort p (fun y => { y with since := now })

theorem Dev.partnerShown_node (d : Dev) (p : Nat) (x : Ident) : (d.partnerShown p x).rf (Reg.PORT_PARTNER p) 15 0 = x.node % 65536 := by
  have hne : Reg.PORT_PARTNER p ≠ Reg.PORT_STATE p := by unfold Reg.PORT_PARTNER Reg.PORT_STATE; omega
  refine (Dev.rf_setRf_ne _ _ _ _ _ _ hne).trans ?_
  rw [Dev.rf, Dev.reg_setReg_self, fld, nfld, BitVec.toNat_ofNat]
  omega

theorem Dev.miswired_regs (d : Dev) (p now o : Nat) :
    (d.miswired p now).reg o = ((d.setPortState p 5).setRb (Reg.PORT_STATE p) 8 false).reg o := rfl

theorem Dev.established_regs (d : Dev) (p now o : Nat) : (d.established p now).reg o = (d.setPortState p 3).reg o := rfl

theorem Dev.miswired_shows (d : Dev) (p now : Nat) (x : Ident) : ((d.partnerShown p x).miswired p now).portState p = 5
    ∧ ((d.partnerShown p x).miswired p now).rf (Reg.PORT_PARTNER p) 15 0 = x.node % 65536 := by
  have hne : Reg.PORT_PARTNER p ≠ Reg.PORT_STATE p := by unfold Reg.PORT_PARTNER Reg.PORT_STATE; omega
  constructor
  · exact (congrArg (fun w => fld w 3 0) (Dev.miswired_regs _ p now _)).trans
      ((Dev.rf_setRb_apart _ _ _ _ _ _ (.inl (by decide))).trans (Dev.setPortState_shows _ _ (by decide)))
  · exact (congrArg (fun w => fld w 15 0) (Dev.miswired_regs _ p now _)).trans
      ((Dev.rf_setRb_ne _ _ _ _ _ hne).trans ((Dev.rf_setRf_ne _ _ _ _ _ _ hne).trans (d.partnerShown_node p x)))

theorem Dev.established_shows (d : Dev) (p now : Nat) (x : Ident) : ((d.partnerShown p x).established p now).portState p = 3
    ∧ ((d.partnerShown p x).established p now).rf (Reg.PORT_PARTNER p) 15 0 = x.node % 65536 := by
  have hne : Reg.PORT_PARTNER p ≠ Reg.PORT_STATE p := by unfold Reg.PORT_PARTNER Reg.PORT_STATE; omega
  constructor
  · exact (congrArg (fun w => fld w 3 0) (Dev.established_regs _ p now _)).trans (Dev.setPortState_shows _ _ (by decide))
  · exact (congrArg (fun w => fld w 15 0) (Dev.established_regs _ p now _)).trans
      ((Dev.rf_setRf_ne _ _ _ _ _ _ hne).trans (d.partnerShown_node p x))

section
variable {p : Nat} {x : Ident} {s : State} (hw : (Instr.identFlitReceive p x).wf = true) (hs : s.dev.portState p = 2)
  (hself : ¬ (x.node = s.dev.node ∧ x.port = p))
include hw hs hself

/-- A wrong partner marks the port miswired. -/
theorem identFlitReceive_wrong
    (h : x.topo ≠ s.dev.rf Reg.FAB_TOPO 15 0 ∨ x.node ≠ s.dev.neighbour s.dev.node p ∨ x.port ≠ farPort p) {d : Dev}
    (hd : d = (s.dev.partnerShown p x).miswired p s.dev.now) : Does (.identFlitReceive p x) s (d.recordAll (d.portFault 0x0508 p)) := by
  subst hd
  have hexec : exec (.identFlitReceive p x) s = execIdentFlitReceive p x s := rfl
  rw [Does, hexec, execIdentFlitReceive, run_wf hw, Dev.miswired, Dev.partnerShown]
  dsimp only
  rw [hs, if_neg (by decide), if_pos (by decide), if_neg (by decide), if_neg hself, if_pos h]

/-- The right partner links the port. -/
theorem identFlitReceive_links
    (h : ¬ (x.topo ≠ s.dev.rf Reg.FAB_TOPO 15 0 ∨ x.node ≠ s.dev.neighbour s.dev.node p ∨ x.port ≠ farPort p))
    (hfast : s.dev.rb (Reg.PORT_STATE p) 8 = false) {d : Dev} (hd : d = (s.dev.partnerShown p x).established p s.dev.now) :
    Does (.identFlitReceive p x) s (if s.dev.ready then (d.grantVc p 5).openPort p else (d.grantVc p 5).flushPort p) := by
  subst hd
  have hexec : exec (.identFlitReceive p x) s = execIdentFlitReceive p x s := rfl
  rw [Does, hexec, execIdentFlitReceive, run_wf hw, Dev.established, Dev.partnerShown]
  dsimp only
  rw [hs, if_neg (by decide), if_pos (by decide), if_neg (by decide), if_neg hself, if_neg h, if_neg (by simp [hfast])]

end

theorem miswiredIdentSend_does {p : Nat} {s : State} (hw : (Instr.miswiredIdentSend p).wf = true) (hs : s.dev.portState p = 5)
    (ht : (s.dev.port p).since + 1000000 ≤ s.dev.now) : Does (.miswiredIdentSend p) s
      ((s.dev.modPort p (fun y => { y with since := s.dev.now })).sendIdent p (s.dev.port p).rxExpect) := by
  have hexec : exec (.miswiredIdentSend p) s = execMiswiredIdentSend p s := rfl
  rw [Does, hexec, execMiswiredIdentSend, run_wf hw, if_pos ⟨hs, ht⟩]
  rfl

/-! ### Flits -/

section
variable {p : Nat} {x : Flit} {s : State} (hw : (Instr.flitReceive p x).wf = true)
include hw

/-- At a port that does not take flits one is discarded. -/
theorem flitReceive_discards (h : s.dev.portState p = 0 ∨ s.dev.portState p = 1 ∨ s.dev.portState p = 7 ∨ s.dev.portState p = 8) :
    Does (.flitReceive p x) s (s.dev.satRf Reg.FAB_DROPS 31 0 1) := by
  have hexec : exec (.flitReceive p x) s = execFlitReceive p x s := rfl
  rw [Does, hexec, execFlitReceive, run_wf hw]
  dsimp only
  rw [if_pos h]

/-- At a linked port a flit counts its errors, and goes by whether it is bad and whether it is sequenced. -/
theorem flitReceive_linked (hl : s.dev.portLinked p = true) {d1 d2 : Dev} (h1 : d1 = s.dev.fecCount p x.errs)
    (h2 : d2 = d1.ackFlits p x.ack) : Does (.flitReceive p x) s
      (if flitBad x then (if flitSequenced x then d1.refuseBad p x else d1)
       else if !flitSequenced x then (if x.kind = 2 then d2.nakArrives p ((x.ack + 1) % 8192) else d2)
       else if x.fseq = (d2.port p).rxExpect then d2.takeFlit p x else d2.refuseFlit p) := by
  subst h2 h1
  have hst := Dev.portState_of_linked hl
  have hexec : exec (.flitReceive p x) s = execFlitReceive p x s := rfl
  rw [Does, hexec, execFlitReceive, run_wf hw]
  dsimp only
  rw [if_neg (by omega), if_neg (by simp [hl])]

end

/-- A refusal asks again for the flit expected. -/
theorem Dev.refuseFlit_asks {d : Dev} {p : Nat} (h : (d.port p).nakSent = false) :
    (d.refuseFlit p).out.naks = (p, (d.port p).rxExpect) :: d.out.naks
    ∧ (d.refuseFlit p).port p = { d.port p with nakSent := true } ∧ (d.refuseFlit p).cores = d.cores := by
  rw [Dev.refuseFlit, if_neg (by rw [h]; exact Bool.false_ne_true)]
  exact ⟨rfl, Dev.port_setPort_self _ _ _, rfl⟩

theorem Dev.refuseBad_asks {d : Dev} {p : Nat} {x : Flit} (h : (d.port p).nakSent = false ∨ x.fseq = (d.port p).rxExpect) :
    (d.refuseBad p x).out.naks = (p, (d.port p).rxExpect) :: d.out.naks
    ∧ ((d.refuseBad p x).port p).nakSent = true ∧ ((d.refuseBad p x).port p).rxExpect = (d.port p).rxExpect
    ∧ (d.refuseBad p x).cores = d.cores := by
  unfold Dev.refuseBad
  by_cases hseq : x.fseq = (d.port p).rxExpect
  · have hport : (d.modPort p (fun y => { y with nakSent := false })).port p = { d.port p with nakSent := false } :=
      Dev.port_setPort_self _ _ _
    obtain ⟨hnaks, hafter, hcores⟩ := Dev.refuseFlit_asks (d := d.modPort p (fun y => { y with nakSent := false })) (p := p)
      (by rw [hport])
    rw [if_pos hseq, hafter, hnaks, hcores, hport]
    exact ⟨rfl, rfl, rfl, rfl⟩
  · obtain ⟨hnaks, hafter, hcores⟩ := Dev.refuseFlit_asks (h.resolve_right hseq)
    rw [if_neg hseq, hafter, hnaks, hcores]
    exact ⟨rfl, rfl, rfl, rfl⟩

/-- Counted errors leave ports, cores and what was sent. -/
theorem Dev.fecCount_keeps (d : Dev) (p errs : Nat) : (d.fecCount p errs).port p = d.port p ∧ (d.fecCount p errs).out = d.out
    ∧ (d.fecCount p errs).cores = d.cores := by
  unfold Dev.fecCount
  split <;> exact ⟨rfl, rfl, rfl⟩

/-- A NAK sends again what is kept from the flit that it names on. -/
theorem Dev.nakArrives_resends {d : Dev} {p fseq : Nat} {keep : List Flit}
    (hk : keep = (d.port p).replay.dropWhile (fun f => decide (f.fseq ≠ fseq))) (hne : keep ≠ []) :
    (d.nakArrives p fseq).out.flits = (keep.map (fun f => (p, f))).reverse ++ d.out.flits
    ∧ ((d.nakArrives p fseq).port p).replay = (d.port p).replay ∧ (d.nakArrives p fseq).regs = d.regs := by
  subst hk
  rw [Dev.nakArrives, if_neg hne]
  have hport := Dev.port_setPort_self d p { d.port p with
    nakFor := fseq, nakCount := if (d.port p).nakFor = fseq then (d.port p).nakCount + 1 else 1 }
  exact ⟨rfl, (congrArg Port.replay hport).trans rfl, rfl⟩

/-- What sending a flit leaves. -/
theorem Dev.sendFlit_sends (d : Dev) (p kind : Nat) (area : List Byte) (hb : List HbEntry) : ∃ f : Flit,
    (d.sendFlit p kind area hb).out.flits = (p, f) :: d.out.flits ∧ f.kind = kind ∧ f.fseq = (d.port p).txNext ∧ f.hb = hb
    ∧ f.crc = flitCrc f ∧ ((d.sendFlit p kind area hb).port p).txNext = ((d.port p).txNext + 1) % 8192
    ∧ ((d.sendFlit p kind area hb).port p).replay = (d.port p).replay ++ [f] :=
  ⟨_, rfl, rfl, rfl, rfl, rfl, congrArg Port.txNext (Dev.port_setPort_self _ _ _),
    congrArg Port.replay (Dev.port_setPort_self _ _ _)⟩

/-- A heartbeat names the credits of every class. -/
def Port.heartbeat (x : Port) : List HbEntry :=
  (List.range 24).map (fun k =>
    let c := x.credit k
    ({ vc := k / 4, cls := k % 4, c := c.c, gs := c.gs } : HbEntry))

theorem Port.heartbeat_length (x : Port) : x.heartbeat.length = 24 := by
  simp [Port.heartbeat]

theorem heartbeatSend_sends {p : Nat} {s : State} (hw : (Instr.heartbeatSend p).wf = true) (hl : s.dev.portLinked p = true)
    (hr : (s.dev.port p).replay.length < replaySize p) :
    Does (.heartbeatSend p) s (s.dev.sendFlit p 3 (List.replicate 248 0#8) (s.dev.port p).heartbeat) := by
  have hexec : exec (.heartbeatSend p) s = execHeartbeatSend p s := rfl
  rw [Does, hexec, execHeartbeatSend, run_wf hw]
  dsimp only
  rw [if_pos (by simp [hl, hr])]
  rfl

end Sys2Proof.Machine

section

open Sys2Proof Sys2Proof.Machine Sys2Proof.Safety

/-- Settles O41. -/
theorem portsTrain : Obligations.PortsTrain := by
  refine ⟨fun p s hw hs hfab hnode hused hctl ht => ?_, fun p s hw hs ht => ?_, fun p s hw hs ht => ?_, fun p s hw ho h0 h8 hc => ?_,
    fun d p => ?_, fun p r s hw hs hwid => ?_, fun p s hw hs hfast ht => ?_, fun p s hw hl h => ?_,
    fun p s hw hup => ⟨fun h => portHoldExpiry_discards hw hup rfl rfl rfl h,
      fun t ht hle hn => portHoldExpiry_notices hw hup rfl rfl rfl ht hle hn⟩,
    fun p x s hw hs hself => ⟨fun h => ?_, fun h hfast => ?_⟩, fun p s hw hs ht => ?_⟩
  · have hdoes := does_of_run (c := .portTrainStart p) (s := s) rfl hw
    rwa [if_pos ⟨hs, hfab, hnode, hused, hctl, ht⟩] at hdoes
  · have hdoes := does_of_run (c := .portDownRetry p) (s := s) rfl hw
    rwa [if_pos ⟨hs, ht⟩] at hdoes
  · have hdoes := does_of_run (c := .fastRetrainTimeout p) (s := s) rfl hw
    rwa [if_pos ⟨hs, ht⟩] at hdoes
  · have he := host_open (f := fun a => a.portRetrain p) hw ho
    rwa [Dev.portRetrain, if_pos ⟨h0, h8, hc⟩] at he
  · exact ⟨d.portFull_state p, Port.of_bare (d.portFull_bare p)⟩
  · obtain ⟨hstate, hwidth⟩ := s.dev.widthShown_shows p r
    exact ⟨_, portTrainingDone_does hw hs hwid, hstate, hwidth, rfl, rfl⟩
  · exact ⟨_, _, portTrainingTimeout_fails hw hs hfast ht, rfl, s.dev.trainDown_state p⟩
  · obtain ⟨hstate, hfast⟩ := s.dev.fastBegun_shows p
    have hport := s.dev.fastBegun_port p
    exact ⟨_, fastRetrainStart_does hw hl h, hstate, hfast, (congrArg Port.replay hport :),
      (congrArg Port.rxExpect hport :), (congrArg Port.nakCount hport :)⟩
  · obtain ⟨hstate, hnode⟩ := s.dev.miswired_shows p s.dev.now x
    exact ⟨_, _, identFlitReceive_wrong hw hs hself h rfl, rfl, hstate, hnode⟩
  · obtain ⟨hstate, hnode⟩ := s.dev.established_shows p s.dev.now x
    exact ⟨_, hstate, hnode, identFlitReceive_links hw hs hself h hfast rfl⟩
  · exact ⟨_, miswiredIdentSend_does hw hs ht, rfl, congrArg Port.since (Dev.port_setPort_self _ _ _), rfl⟩

/-- Settles O42. -/
theorem flitsAndRetry : Obligations.FlitsAndRetry := by
  refine ⟨fun p x s hw hl => ⟨fun hbad hseq hin => ?_, fun hbad hseq hout => ?_, fun hbad hseq h => ?_⟩,
    fun p x s hw h => flitReceive_discards hw h, fun p fseq s hw hl hne => ?_, fun p s hw hl hr => ?_⟩
  · have hdoes := flitReceive_linked hw hl rfl rfl
    rwa [if_neg (by simp [hbad]), if_neg (by simp [hseq]), if_pos hin] at hdoes
  · have hdoes := flitReceive_linked hw hl rfl rfl
    rwa [if_neg (by simp [hbad]), if_neg (by simp [hseq]), if_neg hout] at hdoes
  · have hdoes := flitReceive_linked hw hl rfl rfl
    rw [if_pos hbad, if_pos hseq] at hdoes
    obtain ⟨hport, hout, hcores⟩ := s.dev.fecCount_keeps p x.errs
    rw [← hport] at h
    have hasks := Dev.refuseBad_asks h
    rw [hport, hout, hcores] at hasks
    exact ⟨_, hdoes, hasks⟩
  · have hdoes := does_of_run (c := .nakReceive p fseq) (s := s) rfl hw
    rw [if_pos hl] at hdoes
    exact ⟨_, hdoes, Dev.nakArrives_resends rfl hne⟩
  · obtain ⟨f, hflits, hkind, hfseq, hhb, hcrc, htx, hreplay⟩ :=
      s.dev.sendFlit_sends p 3 (List.replicate 248 0#8) (s.dev.port p).heartbeat
    exact ⟨_, f, heartbeatSend_sends hw hl hr, hflits, hkind, hfseq, hhb ▸ Port.heartbeat_length _, hcrc, htx, hreplay⟩

end
end

section
/-! PROOFS. Command lists and entries (R414 to R418, R435, R440, R452). -/

namespace Sys2Proof.Machine

open Sys2Proof.Safety

/-! ### Lists -/

/-- The address of the ring word that names the next list of a queue. -/
def Dev.ringAddr (d : Dev) (sl q : Nat) : Nat :=
  d.inf (Reg.SQ_BASE sl q) 47 0 + 8 * (d.rf (Reg.SQ_TAKEN sl q) 63 0
    % 2 ^ (if 4 ≤ d.inf (Reg.SQ_CFG sl q) 3 0 ∧ d.inf (Reg.SQ_CFG sl q) 3 0 ≤ 12 then d.inf (Reg.SQ_CFG sl q) 3 0 else 4))

/-- The list that a ring word names. -/
def listOfWord (sl q taken w : Nat) : CmdList :=
  { slot := sl, queue := q, taken := taken, serial := w.testBit 48, next := nfld w 47 0, pos := 0, lastIn := false, faulted := false,
    win := [], running := 0 }

section
variable {sl q : Nat} {s : State} (hw : (Instr.submitListTake sl q).wf = true) (hr : s.dev.runs sl = true)
  (hon : s.dev.inf (Reg.SQ_CFG sl q) 32 32 ≠ 0) (hgo : tget (fun _ => false) s.dev.sch.queueStopped (sl * 4 + q) = false)
  {obj : Nat} (hobj : obj = s.dev.inf (Reg.SQ_CFG sl q) 31 16) (howns : s.dev.owns sl obj = true) (hcount : s.dev.synCount obj ≠ 0)
  (hslot : (s.dev.openLists sl).length < 8) (hall : (slots16.flatMap s.dev.openLists).length < 64)
include hw hr hon hgo hobj howns hcount hslot hall

/-- A queue that is on, with a post at its object and room, takes the list that its ring names. -/
theorem submitListTake_takes {d : Dev} {bs : List Byte} (hrd : s.dev.unitRead sl 59 (s.dev.ringAddr sl q) 8 = .ok d bs)
    (h1 : nfld (leNat bs) 63 49 = 0) (h2 : nfld (leNat bs) 5 0 = 0) {d2 : Dev}
    (hd2 : d2 = ((d.lapse (ledConsumed (d.group obj))).takeObj obj).addRf (Reg.SQ_TAKEN sl q) 63 0 1) :
    Does (.submitListTake sl q) s { d2 with
      sch := { d2.sch with lists := d2.sch.lists ++ [listOfWord sl q (s.dev.rf (Reg.SQ_TAKEN sl q) 63 0) (leNat bs)] } } := by
  subst hd2 hobj
  have hdoes := does_of_run (c := .submitListTake sl q) (s := s) rfl hw
  rw [Dev.takeList, if_neg (by simp [hr, hon, hgo]), if_neg (by simp [howns]), if_neg (by omega), Dev.schRead] at hdoes
  rw [Dev.ringAddr] at hrd
  dsimp only at hdoes
  rw [hrd] at hdoes
  dsimp only at hdoes
  rwa [if_neg (by simp [h1, h2])] at hdoes

end

/-! ### Entries -/

/-- An entry as it enters its window. -/
def Dev.windowEntry (d : Dev) (l : CmdList) (bs : List Byte) : WinEntry :=
  { pos := l.pos, addr := l.next, words := (leWords 8 8 bs).map (BitVec.ofNat 64), expired := false,
    met := if d.depsMet ((leWords 8 8 bs).map (BitVec.ofNat 64)) then some d.now else none,
    epochs := d.depEpochs ((leWords 8 8 bs).map (BitVec.ofNat 64)) }

/-- The next entry of a list enters its window. -/
theorem entryEnterWindow_enters {sl q taken : Nat} {s : State} {l : CmdList} {d : Dev} {bs : List Byte}
    (hw : (Instr.entryEnterWindow sl q taken).wf = true) (hl : s.dev.listOf sl q taken = some l) (hm : s.dev.mayEnter l = true)
    (hrd : s.dev.unitRead sl 59 l.next 64 = .ok d bs) : Does (.entryEnterWindow sl q taken) s
      ((d.putProgress sl l.next 0 1 0).modList sl q taken (fun m => { m with
        next := m.next + 64, pos := m.pos + 1, lastIn := (entWord (d.windowEntry l bs).words 0).testBit 52,
        win := m.win ++ [d.windowEntry l bs] })) := by
  have hexec : exec (.entryEnterWindow sl q taken) s = execEntryEnterWindow sl q taken s := rfl
  rw [Does, hexec, execEntryEnterWindow, run_wf hw, hl]
  dsimp only
  rw [if_neg (by simp [hm]), Dev.schRead, hrd]
  rfl

section
variable {sl q taken pos : Nat} {s : State} {e : WinEntry} (he : s.dev.winEntry sl q taken pos = some e)
include he

/-- An entry with an error at a dependency leaves. -/
theorem entrySkip_skips (hw : (Instr.entrySkip sl q taken pos).wf = true) (hr : s.dev.runs sl = true)
    (hd : s.dev.depsErr e.words = true) : Does (.entrySkip sl q taken pos) s
      (((s.dev.leaveWindow sl q taken pos).skipEntry sl e.addr e.words).pruneLists) := by
  have hexec : exec (.entrySkip sl q taken pos) s = execEntrySkip sl q taken pos s := rfl
  rw [Does, hexec, execEntrySkip, run_wf hw, he]
  dsimp only
  rw [if_pos (by rw [hr, hd]; rfl)]

/-- An entry whose affinity wait is over is marked so. -/
theorem affinityWaitExpiry_marks {t : Nat} (hw : (Instr.affinityWaitExpiry sl q taken pos).wf = true) (hm : e.met = some t)
    (ht : t + s.dev.inf (Reg.SCH_SHARE sl) 47 32 * 64 ≤ s.dev.now) :
    Does (.affinityWaitExpiry sl q taken pos) s (s.dev.modList sl q taken (fun l =>
      { l with win := l.win.map (fun y => if y.pos = pos then { y with expired := true } else y) })) := by
  have hexec : exec (.affinityWaitExpiry sl q taken pos) s = execAffinityWaitExpiry sl q taken pos s := rfl
  rw [Does, hexec, execAffinityWaitExpiry, run_wf hw, he]
  dsimp only
  rw [hm]
  dsimp only
  rw [if_neg (Nat.not_lt.mpr ht)]

section
variable (hm : s.dev.mayStart sl = true) (hv : entryInvalid e.words = false) (ho : ∀ o ∈ entryObjs e.words, s.dev.owns sl o = true)
  (hready : (s.dev.schCommit sl).readyEntry e = true)
include hm hv ho hready

/-- A valid entry that is ready starts by its kind and its place. -/
theorem Dev.entryStart_ready {d : Dev} (hd : d = s.dev.schCommit sl) : s.dev.entryStart sl q taken pos
    = if kindOf e.words = 0 then d.startOn sl q taken e none
      else if d.preceded sl q taken e then s.dev
      else match d.place sl e with
        | some c => d.startOn sl q taken e (some c)
        | none => s.dev := by
  subst hd
  have hfind : (entryObjs e.words).find? (fun o => !s.dev.owns sl o) = none :=
    List.find?_eq_none.mpr (fun o hin => by simp [ho o hin])
  rw [Dev.entryStart, he]
  dsimp only
  rw [if_neg (by simp [hm]), if_neg (by simp [hv]), hfind]
  exact (if_neg (by simp [hready])).trans rfl

theorem entryStart_onNone (hw : (Instr.entryStart sl q taken pos).wf = true) (hk : kindOf e.words = 0) :
    Does (.entryStart sl q taken pos) s ((s.dev.schCommit sl).startOn sl q taken e none) := by
  have hdoes := does_of_run (c := .entryStart sl q taken pos) (s := s) rfl hw
  rwa [Dev.entryStart_ready he hm hv ho hready rfl, if_pos hk] at hdoes

theorem entryStart_onCore {c : Nat} (hw : (Instr.entryStart sl q taken pos).wf = true) (hk : kindOf e.words ≠ 0)
    (hp : (s.dev.schCommit sl).preceded sl q taken e = false) (hc : (s.dev.schCommit sl).place sl e = some c) :
    Does (.entryStart sl q taken pos) s ((s.dev.schCommit sl).startOn sl q taken e (some c)) := by
  have hdoes := does_of_run (c := .entryStart sl q taken pos) (s := s) rfl hw
  rwa [Dev.entryStart_ready he hm hv ho hready rfl, if_neg hk, if_neg (by simp [hp]), hc] at hdoes

end

end

/-- An entry whose core has ended and is quiet completes. -/
theorem entryComplete_completes {c : Nat} {s : State} {r : EntryRun} (hw : (Instr.entryComplete c).wf = true)
    (hr : (s.dev.core c).entry = some r) (hq : s.dev.coreQuiet c = true) (ht : c < 32 → (s.dev.engine c).liveTiles = [])
    (hl : (s.dev.core c).loops = []) {d : Dev} (hd : d = (s.dev.setCore c { s.dev.core c with entry := none }).finishEntry r c) :
    Does (.entryComplete c) s ((if c < 32 then d.commit (Reg.ENG_CFG c) else d).schCommit r.slot) := by
  subst hd
  have hdoes := does_of_run (c := .entryComplete c) (s := s) rfl hw
  rw [Dev.entryComplete, hr] at hdoes
  dsimp only at hdoes
  rwa [if_neg (by simp [hq]), if_neg (by simpa using ht), if_neg (by simp [hl])] at hdoes

/-! ### A core at the start of an entry -/

/-- A pc is a multiple of 4 below 2^48. -/
theorem pcMask_pcMask (a : Nat) : pcMask (pcMask a).toNat = pcMask a := by
  unfold pcMask
  rw [BitVec.toNat_ofNat]
  congr 1
  omega

theorem Core.mret_getG (x : Core) (i : Nat) : x.mret.getG i = x.getG i := rfl

/-- Entering J clears priv and goes to the pc given. -/
theorem Core.enterJ_enters (x : Core) (a : Nat) : bitAt ((x.enterJ (pcMask a)).csrOf 0x800) 0 = false
    ∧ (x.enterJ (pcMask a)).pc = pcMask a ∧ ∀ i, (x.enterJ (pcMask a)).getG i = x.getG i := by
  unfold Core.enterJ
  split
  · refine ⟨?_, ?_, fun i => ?_⟩
    · rw [Core.mret_xstatus, Core.csrOf_setCsr, if_neg (by decide), Core.csrOf_setCsr_self, bitAt_setBit _ _ _ _ (by decide), if_pos rfl,
        bitAt_setBit _ _ _ _ (by decide), if_pos rfl]
    · rw [Core.mret, Core.csrOf_setCsr_self]
      exact pcMask_pcMask a
    · rw [Core.mret_getG, Core.getG_setCsr, Core.getG_setCsr]
  · next h => exact ⟨Bool.eq_false_iff.mpr h, rfl, fun _ => rfl⟩

/-- The registers that the start of an entry sets. -/
def Core.argued (x : Core) (ws : List Word) : Core :=
  (((x.setG 1 (ws.getD 1 0)).setG 2 (ws.getD 2 0)).setG 3 (ws.getD 3 0)).setG 31 (BitVec.ofNat 64 entryEnd)

theorem Core.argued_getG (x : Core) (ws : List Word) : (x.argued ws).getG 1 = ws.getD 1 0 ∧ (x.argued ws).getG 2 = ws.getD 2 0
    ∧ (x.argued ws).getG 3 = ws.getD 3 0 ∧ (x.argued ws).getG 31 = 0xFFFFFFFFFFFC
    ∧ ∀ i, i ≠ 1 → i ≠ 2 → i ≠ 3 → i ≠ 31 → (x.argued ws).getG i = x.getG i := by
  unfold Core.argued
  refine ⟨?_, ?_, ?_, ?_, fun i h1 h2 h3 h31 => ?_⟩
  · simp [Core.getG_setG]
  · simp [Core.getG_setG]
  · simp [Core.getG_setG]
  · simp [Core.getG_setG, entryEnd]
  · simp [Core.getG_setG, h1, h2, h3, h31]

/-- The core that enters J for an entry of a slot, which CSR 0x810 names. -/
def Core.entering (x : Core) (v : Word) (ws : List Word) : Core := ((x.argued ws).setCsr 0x810 v).enterJ (pcMask (entWord ws 0))

/-- What the start of an entry leaves of the core that enters J. -/
theorem Core.start_eq (x : Core) (sl : Nat) (ws : List Word) (r : EntryRun) {y : Core} {v : Word} (hy : y = x.start sl ws r)
    (hv : v = BitVec.ofNat 64 (sl + 2 ^ 31)) :
    (∀ i, y.getG i = (x.entering v ws).getG i) ∧ y.pc = (x.entering v ws).pc ∧ (∀ n, y.csrOf n = (x.entering v ws).csrOf n)
    ∧ y.run = .running ∧ y.entry = some r ∧ y.loops = [] := by
  have hz : y = { x.entering v ws with
      loops := [], frozen := false, wait := none, lines := [], run := .running, entry := some r, coll := none } := by
    rw [hy, Core.start, ← hv]
    rfl
  generalize x.entering v ws = z at hz ⊢
  subst hz
  exact ⟨fun _ => rfl, rfl, fun _ => rfl, rfl, rfl, rfl⟩

end Sys2Proof.Machine

section

open Sys2Proof Sys2Proof.Machine Sys2Proof.Safety

/-- Settles O44. -/
theorem listsAndEntries : Obligations.ListsAndEntries := by
  refine ⟨fun sl q s d bs hw hr hon hgo howns hcount hslot hall hrd h1 h2 => ?_, fun sl q taken s l d bs hw hl hm hrd => ?_,
    fun sl q taken pos s e he => ⟨fun hw hr hd => entrySkip_skips he hw hr hd, fun hw hm hv ho hready =>
      ⟨fun hk => entryStart_onNone he hm hv ho hready hw hk, fun c hk hp hc => entryStart_onCore he hm hv ho hready hw hk hp hc⟩,
      fun t hw hm ht => affinityWaitExpiry_marks he hw hm ht⟩, fun x sl ws r => ?_,
    fun c s r hw hr hq ht hl => entryComplete_completes hw hr hq ht hl rfl⟩
  · exact ⟨_, submitListTake_takes hw hr hon hgo rfl howns hcount hslot hall hrd h1 h2 rfl, rfl, rfl, rfl, rfl, rfl, rfl, rfl, rfl⟩
  · exact ⟨d.windowEntry l bs, rfl, rfl, rfl, entryEnterWindow_enters hw hl hm hrd⟩
  · obtain ⟨hg, hpc, hcsr, hrun, hentry, hloops⟩ := x.start_eq sl ws r rfl rfl
    obtain ⟨hpriv, htarget, hsame⟩ :=
      ((x.argued ws).setCsr 0x810 (BitVec.ofNat 64 (sl + 2 ^ 31))).enterJ_enters (entWord ws 0)
    obtain ⟨h1, h2, h3, h31, hother⟩ := x.argued_getG ws
    have hreg : ∀ i, (x.start sl ws r).getG i = (x.argued ws).getG i := fun i =>
      (hg i).trans ((hsame i).trans (Core.getG_setCsr _ _ _ _))
    refine ⟨(hreg 1).trans h1, (hreg 2).trans h2, (hreg 3).trans h3, (hreg 31).trans h31, hpc.trans htarget, ?_, hrun, hentry, hloops,
      fun i hi1 hi2 hi3 hi31 => (hreg i).trans (hother i hi1 hi2 hi3 hi31)⟩
    exact (congrArg (fun w => bitAt w 0) (hcsr _)).trans hpriv

end
end

section
/-! PROOFS. Engines and slots, twins, admission, cadences (R428 to R432, R446 to R449, R458, R463, R666 to R669). -/

namespace Sys2Proof.Machine

open Sys2Proof.Safety

/-! ### Engines and twins -/

theorem engineReassign_gives {e sl : Nat} {s : State} (hw : (Instr.engineReassign e).wf = true) (hf : s.dev.engFree e = true)
    (hr : s.dev.engReleased e = true) (hc : s.dev.chooseSlot = some sl) (hne : s.dev.engSlot e ≠ some sl) :
    Does (.engineReassign e) s (s.dev.setEngine e { s.dev.engine e with moving := some (sl, s.dev.now + 256) }) := by
  have hexec : exec (.engineReassign e) s = execEngineReassign e s := rfl
  rw [Does, hexec, execEngineReassign, run_wf hw, if_pos (by rw [hf, hr]; rfl), hc]
  dsimp only
  rw [if_neg hne]
  rfl

section
variable {sl : Nat} {m : TwinMsg} {s : State} {w : TwinWait} (hw : (Instr.twinDigestCompare sl m).wf = true)
  (hf : (s.dev.twinOf sl).waits.find? (fun y => decide (y.msg.ident = m.ident)) = some w) (hr : s.dev.runs sl = true)
  (ht : s.dev.twinOn sl = true) {d : Dev}
  (hd : d = s.dev.setTwin sl { s.dev.twinOf sl with waits := (s.dev.twinOf sl).waits.filter (fun y => decide (y ≠ w)) })
include hw hf hr ht hd

/-- A twin's equal digest ends the entry that awaits it. -/
theorem twinDigestCompare_equal (he : w.msg = m) : Does (.twinDigestCompare sl m) s
    ((d.addRf (Reg.TWIN_STATUS sl) 31 0 1).entryEnds sl w.queue w.taken w.addr w.units w.core w.faulted w.doneEn w.doneObj w.dcount) := by
  subst hd
  have hexec : exec (.twinDigestCompare sl m) s = execTwinDigestCompare sl m s := rfl
  rw [Does, hexec, execTwinDigestCompare, run_wf hw]
  dsimp only
  rw [hf]
  dsimp only
  rw [if_neg (by simp [hr, ht]), if_pos he]

/-- Another digest is a difference. -/
theorem twinDigestCompare_differs (he : w.msg ≠ m) : Does (.twinDigestCompare sl m) s (d.twinDiffers sl w m) := by
  subst hd
  have hexec : exec (.twinDigestCompare sl m) s = execTwinDigestCompare sl m s := rfl
  rw [Does, hexec, execTwinDigestCompare, run_wf hw]
  dsimp only
  rw [hf]
  dsimp only
  rw [if_neg (by simp [hr, ht]), if_neg he]

end

/-- A first difference stops the job with 0x0110, shown in TWIN_STATUS and TWIN_FIRST. -/
theorem Dev.twinDiffers_stops (d : Dev) (sl : Nat) (w : TwinWait) (m : TwinMsg) : ∃ (d2 : Dev) (f : FaultInfo), f.code = 0x0110
    ∧ d.twinDiffers sl w m = d2.stopWith sl f ∧ d2.rb (Reg.TWIN_STATUS sl) 41 = true ∧ d2.reg (Reg.TWIN_FIRST sl) = w.msg.ident := by
  have h1 : Reg.TWIN_FIRST sl ≠ Reg.TWIN_STATUS sl := by unfold Reg.TWIN_FIRST Reg.TWIN_STATUS; omega
  have h2 : Reg.TWIN_FIRST sl ≠ Reg.TWIN_WHERE sl := by unfold Reg.TWIN_FIRST Reg.TWIN_WHERE; omega
  exact ⟨_, _, rfl, rfl, Dev.rb_setRb_self _ _ _ _ (by decide),
    (Dev.reg_setRb_ne _ _ _ h1).trans ((Dev.reg_setReg_ne _ _ h2).trans (Dev.reg_setReg_self _ _ _))⟩

/-- A digest that comes too late stops the job with 0x0111. -/
theorem twinTimeout_stops {sl : Nat} {s : State} {w : TwinWait} (hw : (Instr.twinTimeout sl).wf = true) (hr : s.dev.runs sl = true)
    (ht : s.dev.twinOn sl = true) (hin : w ∈ (s.dev.twinOf sl).waits) (hms : s.dev.rf (Reg.TWIN_CFG sl) 47 32 ≠ 0)
    (hlate : w.since + s.dev.rf (Reg.TWIN_CFG sl) 47 32 * 1000000 ≤ s.dev.now) :
    ∃ f, f.code = 0x0111 ∧ Does (.twinTimeout sl) s ((s.dev.setRb (Reg.TWIN_STATUS sl) 42 true).stopWith sl f) := by
  have hexec : exec (.twinTimeout sl) s = execTwinTimeout sl s := rfl
  rw [execTwinTimeout, run_wf hw] at hexec
  dsimp only at hexec
  have hsome : ((s.dev.twinOf sl).waits.find? (fun w => decide (w.since + (if s.dev.rf (Reg.TWIN_CFG sl) 47 32 = 0 then 100
      else s.dev.rf (Reg.TWIN_CFG sl) 47 32) * 1000000 ≤ s.dev.now))).isSome = true := by
    rw [List.find?_isSome]
    exact ⟨w, hin, by rw [if_neg hms]; exact decide_eq_true hlate⟩
  rw [if_pos (by rw [hr, ht, hsome]; rfl)] at hexec
  exact ⟨_, rfl, hexec⟩

/-! ### Admission -/

theorem Dev.admitCheck_lt (d : Dev) (sl : Nat) : d.admitCheck sl < 16 := by
  unfold Dev.admitCheck
  dsimp only
  split
  · decide
  · split
    · decide
    · split
      · decide
      · split
        · decide
        · split <;> decide

section
variable {d0 d : Dev} {sl k : Nat} (hk : k = (d0.slotBusy sl).admitCheck sl)
  (hd : d = (if k = 0 then d0.slotBusy sl else d0).clearLog sl)
include hk hd

/-- A job that passes its checks is admitted. -/
theorem Dev.admitJob_admits (h0 : k = 0) {d2 : Dev}
    (hd2 : d2 = ((((d.setRf (Reg.JOB_ADMIT sl) 7 4 0).setRf (Reg.JOB_ADMIT sl) 3 2 1).mapSlot sl).schCommit sl).linkRings sl)
    (ht : d2.rb (Reg.TWIN_CFG sl) 19 = false) : d0.admitJob sl = d2 := by
  subst hd2 hd
  rw [Dev.admitJob, ← hk, h0]
  dsimp only
  rw [if_pos rfl]
  subst h0
  exact if_neg (by rw [ht]; exact Bool.false_ne_true)

/-- One that does not shows the check. -/
theorem Dev.admitJob_refuses (h0 : k ≠ 0) (h5 : k ≠ 5) : d0.admitJob sl = d.setRf (Reg.JOB_ADMIT sl) 7 4 k := by
  subst hd
  rw [Dev.admitJob, ← hk]
  dsimp only
  rw [if_neg h0, if_neg h0, if_neg h5]

end

/-- The check shown leaves the state of the job. -/
theorem Dev.checkShown (d : Dev) (sl : Nat) {k : Nat} (hk : k < 16) : (d.setRf (Reg.JOB_ADMIT sl) 7 4 k).rf (Reg.JOB_ADMIT sl) 7 4 = k
    ∧ (d.setRf (Reg.JOB_ADMIT sl) 7 4 k).jobState sl = d.jobState sl :=
  ⟨(Dev.rf_setRf_self _ _ _ _ _ (by decide)).trans (Nat.mod_eq_of_lt hk), Dev.rf_setRf_apart _ _ _ _ _ _ _ (.inl (by decide))⟩

theorem Dev.operatorStop_stops {d : Dev} {sl : Nat} (h : d.runs sl = true) :
    d.operatorStop sl = (d.stopJob sl).writeRecord sl (mkFault 0x0A01 0 59 0 0 0) false true false := if_pos h

/-! ### Cadences -/

theorem Dev.cadence_setCadence_self (d : Dev) (n : Nat) (x : Cadence) : (d.setCadence n x).cadence n = x := tget_tput_self _ _ _ _

theorem Dev.reg_setCadence (d : Dev) (n o : Nat) (x : Cadence) : (d.setCadence n x).reg o = d.reg o := rfl

/-- A cadence that is on opens its period, with its tick posted and its done post awaited. -/
theorem Dev.periodStart_opens {d0 : Dev} {n sl : Nat} (ho : d0.cadOwner n = some sl) {x : Cadence} (hx : x = d0.cadence n) {d : Dev}
    (hd : d = d0.cadCommit n) (hon : x.on = true) (hopen : x.open_ = false) (hs : x.s ≤ d0.now)
    (hj : d0.hasJob sl = true → d0.runs sl = true) (htick : d.owns sl (d.inf (Reg.CAD_CFG n) 47 32) = true)
    (hdone : d.owns sl (d.inf (Reg.CAD_CFG n) 63 48) = true) : ∃ (d1 : Dev) (len : Nat), len ≤ max 16 (d.inf (Reg.CAD_CFG n) 19 0) * 1000
      ∧ d0.periodStart n = ((d1.setCadence n { x with
          pn := max 16 (d.inf (Reg.CAD_CFG n) 19 0) * 1000, len := len, tick := d.inf (Reg.CAD_CFG n) 47 32,
          done := d.inf (Reg.CAD_CFG n) 63 48, open_ := true }).lapse (ledConsumed (d.group (d.inf (Reg.CAD_CFG n) 63 48)))).cadenceCheck
            (d.inf (Reg.CAD_CFG n) 63 48) := by
  subst hx hd
  have hrun : ¬ ((d0.cadence n).on = false ∨ (d0.cadence n).open_ = true ∨ d0.now < (d0.cadence n).s
      ∨ (d0.hasJob sl = true ∧ d0.runs sl = false)) := by
    simp only [hon, hopen, Bool.true_eq_false, Bool.false_eq_true, false_or, not_or, not_and]
    exact ⟨Nat.not_lt.mpr hs, fun h => by simp [hj h]⟩
  have hfind : [(d0.cadCommit n).inf (Reg.CAD_CFG n) 47 32, (d0.cadCommit n).inf (Reg.CAD_CFG n) 63 48].find?
      (fun o => !(d0.cadCommit n).owns sl o) = none := by simp [htick, hdone]
  generalize hstart : d0.periodStart n = e
  rw [Dev.periodStart, ho] at hstart
  dsimp only at hstart
  rw [if_neg hrun, hfind] at hstart
  exact ⟨_, _, Nat.sub_le _ _, hstart.symm⟩

/-- What was kept of a cadence's registers leaves them, and its owner. -/
theorem Dev.cadKeep_reg (d : Dev) (n o : Nat) : (d.cadKeep n).reg o = d.reg o := by
  unfold Dev.cadKeep
  dsimp only
  split <;> rfl

theorem Dev.cadKeep_now (d : Dev) (n : Nat) : (d.cadKeep n).now = d.now := by
  unfold Dev.cadKeep
  dsimp only
  split <;> rfl

/-- The owner's bit of a cadence that has an owner. -/
theorem Dev.cadOwner_owned {d : Dev} {n sl : Nat} (h : d.cadOwner n = some sl) : d.rb (Reg.CAD_OWN n) 4 = true := by
  unfold Dev.cadOwner at h
  by_contra hno
  rw [if_neg hno] at h
  exact absurd h (by simp)

theorem Dev.cadOwner_of_reg {d e : Dev} {n : Nat} (h : ∀ o, e.reg o = d.reg o) : e.cadOwner n = d.cadOwner n := by
  rw [Dev.cadOwner, Dev.cadOwner, Dev.rb, Dev.rb, Dev.rf, Dev.rf, h]

/-- A cadence that is enabled: on, from the next CCLK, from period 0 and without debt. -/
theorem Dev.cadWrite_enables {d : Dev} {n sl : Nat} {x : Word} (hx : bitAt x 22 = true) (ho : d.cadOwner n = some sl)
    (hoff : d.rb (Reg.CAD_CFG n) 22 = false) (hp : d.rb (Reg.JOB_PROFILE sl) 0 = false) : ∃ (a : Dev) (y : Cadence),
      d.cadWrite n x = ((a.setRb (Reg.CAD_CFG n) 22 true).setReg (Reg.CAD_STATE n) 0).setCadence n { y with
        on := true, s := d.now + 1, debt := 0, number := 0, open_ := false, prior := none } := by
  have hreg := d.cadKeep_reg n
  have hown : (d.cadKeep n).rb (Reg.CAD_OWN n) 4 = true := (congrArg (fun w => bitAt w 4) (hreg _)).trans (Dev.cadOwner_owned ho)
  have hwas : (d.cadKeep n).rb (Reg.CAD_CFG n) 22 = false := (congrArg (fun w => bitAt w 22) (hreg _)).trans hoff
  have hprof : (d.cadKeep n).rb (Reg.JOB_PROFILE sl) 0 = false := (congrArg (fun w => bitAt w 0) (hreg _)).trans hp
  generalize hwrite : d.cadWrite n x = e
  rw [Dev.cadWrite] at hwrite
  dsimp only at hwrite
  rw [hwas, hown, hx, if_neg (by decide), if_neg (by decide), (Dev.cadOwner_of_reg hreg).trans ho] at hwrite
  dsimp only at hwrite
  rw [if_neg (by simp [hprof]), Dev.cadKeep_now] at hwrite
  exact ⟨_, (d.cadKeep n).cadence n, hwrite.symm⟩

/-- A cadence that is disabled stops. -/
theorem Dev.cadWrite_disables {d : Dev} {n : Nat} {x : Word} (hx : bitAt x 22 = false) (hon : d.rb (Reg.CAD_CFG n) 22 = true) :
    ∃ a : Dev, d.cadWrite n x = a.cadStop n := by
  have hwas : (d.cadKeep n).rb (Reg.CAD_CFG n) 22 = true := (congrArg (fun w => bitAt w 22) (d.cadKeep_reg n _)).trans hon
  generalize hwrite : d.cadWrite n x = e
  rw [Dev.cadWrite] at hwrite
  dsimp only at hwrite
  rw [hwas, hx, if_neg (by simp), if_pos (by simp)] at hwrite
  exact ⟨_, hwrite.symm⟩

/-- What a stopped cadence shows. -/
theorem Dev.cadStop_shows (d : Dev) (n : Nat) : (d.cadStop n).rb (Reg.CAD_CFG n) 22 = false ∧ ((d.cadStop n).cadence n).on = false
    ∧ ((d.cadStop n).cadence n).open_ = false := by
  rw [Dev.cadStop, Dev.cadence_setCadence_self]
  exact ⟨(congrArg (fun w => bitAt w 22) (Dev.reg_setCadence _ _ _ _)).trans (Dev.rb_setRb_self _ _ _ _ (by decide)), rfl, rfl⟩

end Sys2Proof.Machine

section

open Sys2Proof Sys2Proof.Machine Sys2Proof.Safety

/-- Settles O45. -/
theorem jobsAndCadences : Obligations.JobsAndCadences := by
  refine ⟨fun e sl s hw hf hr hc hne => engineReassign_gives hw hf hr hc hne,
    fun sl m s w hw hf hr ht => ⟨fun he => twinDigestCompare_equal hw hf hr ht rfl he, fun he => ?_⟩,
    fun sl s w hw hr ht hin hms hlate => twinTimeout_stops hw hr ht hin hms hlate,
    fun sl s hw ho => ⟨fun hk ht => ?_, fun hk h5 => ?_⟩, fun sl s hw ho hr => ?_,
    fun n sl s hw ho hon hopen hs hj htick hdone => ?_, fun v n sl x s hw ho hv hx hown hoff hp => ?_,
    fun v n x s hw ho hv hx hon => ?_⟩
  · obtain ⟨d2, f, hcode, heq, hbit, hfirst⟩ := Dev.twinDiffers_stops
      (s.dev.setTwin sl { s.dev.twinOf sl with waits := (s.dev.twinOf sl).waits.filter (fun y => decide (y ≠ w)) }) sl w m
    have hdoes := twinDigestCompare_differs hw hf hr ht rfl he
    rw [heq] at hdoes
    exact ⟨d2, f, hcode, hdoes, hbit, hfirst.trans (by simpa using List.find?_some hf)⟩
  · have he := host_open (f := fun a => a.admitJob sl) hw ho
    rwa [Dev.admitJob_admits rfl rfl hk rfl ht] at he
  · have he := host_open (f := fun a => a.admitJob sl) hw ho
    rw [Dev.admitJob_refuses rfl rfl hk h5] at he
    obtain ⟨hcheck, hstate⟩ := Dev.checkShown ((if (s.dev.slotBusy sl).admitCheck sl = 0 then s.dev.slotBusy sl else s.dev).clearLog sl)
      sl (Dev.admitCheck_lt (s.dev.slotBusy sl) sl)
    exact ⟨_, he, hcheck, hstate, rfl⟩
  · have he := host_open (f := fun a => a.operatorStop sl) hw ho
    rw [Dev.operatorStop_stops hr] at he
    exact ⟨_, rfl, he⟩
  · obtain ⟨d1, len, hlen, heq⟩ := Dev.periodStart_opens ho rfl rfl hon hopen hs hj htick hdone
    have hdoes := does_of_run (c := .cadencePeriodStart n) (s := s) rfl hw
    rw [heq] at hdoes
    refine ⟨_, hdoes, ?_, ?_, ?_, ?_, ?_⟩ <;> rw [Dev.cadence_setCadence_self]
    exact hlen
  · have he := host_open (f := fun a => if a.viaCad v n && bitAt x 22 then a.cadWrite n x else a) hw ho
    obtain ⟨a, y, heq⟩ := Dev.cadWrite_enables hx hown hoff hp
    rw [if_pos (by rw [hv, hx]; rfl), heq] at he
    have hne : Reg.CAD_CFG n ≠ Reg.CAD_STATE n := by unfold Reg.CAD_CFG Reg.CAD_STATE; omega
    refine ⟨_, he, ?_, ?_, ?_, ?_, ?_, ?_⟩
    · exact (Dev.rb_setReg_ne _ _ _ hne).trans (Dev.rb_setRb_self _ _ _ _ (by decide))
    · rw [Dev.cadence_setCadence_self]
    · rw [Dev.cadence_setCadence_self]
    · rw [Dev.cadence_setCadence_self]
    · rw [Dev.cadence_setCadence_self]
    · exact Dev.reg_setReg_self _ _ _
  · have he := host_open (f := fun a => if a.viaCad v n && !bitAt x 22 then a.cadWrite n x else a) hw ho
    obtain ⟨a, heq⟩ := Dev.cadWrite_disables hx hon
    rw [if_pos (by rw [hv, hx]; rfl), heq] at he
    exact ⟨_, he, a.cadStop_shows n⟩

end
end

section
/-! PROOFS. Stream prefetch, the movers' choice of work, and the placing of copies (R329, R330, R357, R404, R489 to R493). -/

namespace Sys2Proof.Machine

open Sys2Proof.Safety

/-! ### Prefetch -/

section
variable {e i : Nat} {s : State} {p : PStream} (hw : (Instr.prefetchRefill e i).wf = true) {d : Dev}
  (hd : d = s.dev.modEngine e (fun x => x.settleStream i)) (hp : (d.engine e).pstream i = some p) (hopen : p.closing = false)
  (hmore : p.next < p.ngobs) (hroom : (d.engine e).slotFree i p p.next = true)
include hw hd hp hopen hmore hroom

/-- A gob that the stream's map says is zero is skipped and counted. -/
theorem prefetchRefill_skips (hz : p.predictedZero p.next = true) :
    Does (.prefetchRefill e i) s ((d.modEngine e (fun x => x.setPstream i (some { p.advance with
      skipped := tput (fun _ => false) p.advance.skipped p.next true }))).addRf (Reg.ENG_PFSKIP e) 63 0 1) := by
  subst hd
  have hdoes := does_of_run (c := .prefetchRefill e i) (s := s) rfl hw
  rw [Dev.prefetchRefill] at hdoes
  dsimp only at hdoes
  rw [hp] at hdoes
  dsimp only at hdoes
  rwa [if_neg (by simp [hopen, hmore, hroom]), if_pos hz] at hdoes

/-- A gob that is not predicted zero is asked of the movers, while the engine's limit is not reached. -/
theorem prefetchRefill_asks (hz : p.predictedZero p.next = false) (hlim : (d.engine e).inflight < d.pfLimit e) :
    Does (.prefetchRefill e i) s ((d.modEngine e (fun x => x.setPstream i (some { p.advance with
      asked := p.asked ++ [p.next] }))).askMove .stream p.slot (p.src / 65536 + p.next) (.ring e i p.next)) := by
  subst hd
  have hdoes := does_of_run (c := .prefetchRefill e i) (s := s) rfl hw
  rw [Dev.prefetchRefill] at hdoes
  dsimp only at hdoes
  rw [hp] at hdoes
  dsimp only at hdoes
  rwa [if_neg (by simp [hopen, hmore, hroom]), if_neg (by simp [hz]), if_neg (by omega)] at hdoes

end

/-- The fill at the head of an engine's fills reads pairs. -/
def Dev.headPairs (d : Dev) (e : Nat) : Bool :=
  match (d.engine e).fills with
  | f :: _ => d.fillPairs e f.wd f.q f.kb
  | [] => false

/-- A gob whose directory and format are right stands in its ring slot. -/
theorem Dev.ringPlace_stands {d : Dev} {e i q : Nat} {p : PStream} {r : MoveReq} {bs : List Byte} (hdir : p.dirOk q bs = true)
    (hform : p.src / 65536 + q < 0xFFFF0000 → d.formOk p.slot (p.src / 65536 + q) bs = true) :
    d.ringPlace e i q p r bs =
      ((((((d.streamCopy p.slot (p.src / 65536 + q) bs).endMove r.id).modEngine e (fun x => x.noteWaits (d.headPairs e))).esWrite e
        ((p.slot0 + q % p.slots) * 65536) bs).modEngine e (fun x =>
        { x with heads := tput (fun _ => none) x.heads (p.slot0 + q % p.slots) none }.setPstream i (some
          { p with asked := p.asked.filter (fun y => decide (y ≠ q)), present := tput (fun _ => false) p.present q true,
                   fetched := p.fetched + 1 }))).engMoved e) := by
  have hgood : (p.dirOk q bs && (decide (0xFFFF0000 ≤ p.src / 65536 + q) || d.formOk p.slot (p.src / 65536 + q) bs)) = true := by
    rw [hdir, Bool.true_and, Bool.or_eq_true, decide_eq_true_eq]
    exact (Nat.lt_or_ge (p.src / 65536 + q) 0xFFFF0000).symm.imp_right hform
  rw [Dev.ringPlace]
  exact if_pos hgood

/-- A gob whose read by a mover is over, with a crc that verifies, is placed in the ring. -/
theorem prefetchGobArrival_places {e i q : Nat} {r : MoveReq} {s : State} {p : PStream} {d : Dev} {bs : List Byte}
    (hw : (Instr.prefetchGobArrival e i).wf = true) (hp : (s.dev.engine e).pstream i = some p)
    (hdone : s.dev.ringDone e i p.asked = (d, some (q, r, .ok d bs))) (hcrc : d.ringCrc r bs = none) :
    Does (.prefetchGobArrival e i) s (d.ringPlace e i q p r bs) := by
  have hdoes := does_of_run (c := .prefetchGobArrival e i) (s := s) rfl hw
  rw [Dev.prefetchArrival, hp] at hdoes
  dsimp only at hdoes
  rw [hdone] at hdoes
  dsimp only at hdoes
  rwa [hcrc] at hdoes

/-! ### What a free mover takes -/

/-- The work chosen is in the queue, and none there stands higher. -/
theorem bestWork_highest : ∀ (rs : List MoveReq) (r : MoveReq), bestWork rs = some r →
    r ∈ rs ∧ ∀ x ∈ rs, r.kind.rank ≤ x.kind.rank := by
  intro rs
  induction rs with
  | nil => intro r h; cases h
  | cons y ys ih =>
    intro r h
    rw [bestWork] at h
    cases hb : bestWork ys with
    | none =>
      have hys : ys = [] := by
        cases ys with
        | nil => rfl
        | cons z zs =>
          rw [bestWork] at hb
          split at hb
          · cases hb
          · split at hb <;> cases hb
      rw [hb] at h
      cases h
      simp [hys]
    | some b =>
      obtain ⟨hmem, hmin⟩ := ih b hb
      rw [hb] at h
      dsimp only at h
      split at h <;> cases h
      · exact ⟨List.mem_cons_of_mem _ hmem, List.forall_mem_cons.2 ⟨by omega, hmin⟩⟩
      · exact ⟨List.mem_cons_self, List.forall_mem_cons.2 ⟨le_rfl, fun x hx => by have := hmin x hx; omega⟩⟩

/-- A copy of a readable gob that its policy lets the work make, with none there yet, begins with its first line. -/
theorem Dev.beginCopy_gobCache {d : Dev} {r : MoveReq} {a w0 w1 : Nat} (hwalk : d.walk r.slot r.gob false = .leaf a w0 w1)
    (hdest : d.destOf r = .gobCache) (hpois : w0.testBit 5 = false) (hlets : d.policyLets r = true)
    (hnew : d.gcFind r.slot r.gob = none) :
    d.beginCopy r = ((d.beginMove r).askLine { r with buf := [] }, true) := by
  have hobj : (d.objOfGob r.slot r.gob).isNone = false := by
    rw [Dev.policyLets] at hlets
    split at hlets
    · next h => rw [h]; rfl
    · cases hlets
  rw [Dev.beginCopy, hwalk]
  dsimp only
  rw [if_neg (by simp [hobj]), if_neg (by simp [hpois, hlets]), hdest]
  dsimp only
  rw [if_neg (by simp [hnew])]

/-- What a mover does with the work it has taken from the queue. -/
def Dev.takeUp (d : Dev) (r : MoveReq) : Dev :=
  match r.kind with
  | .refetch =>
    if d.underRepair r.slot r.gob then
      (d.beginMove r).nextReplica { r with more := 0, since := (d.beginMove r).now, buf := [], hdr := [] } 0
    else d
  | .editMove => (d.beginMove r).askLine { r with buf := [] }
  | _ =>
    match r.dest with
    | .ring e i q => d.beginRing r e i q
    | _ => if (d.beginCopy r).2 then (d.beginCopy r).1 else (d.beginCopy r).1.copyDropped r

/-- A refetch of a gob under repair begins with its first replica. -/
theorem Dev.takeUp_refetch {d : Dev} {r : MoveReq} (hk : r.kind = .refetch) (hrep : d.underRepair r.slot r.gob = true) :
    d.takeUp r = (d.beginMove r).nextReplica { r with more := 0, since := (d.beginMove r).now, buf := [], hdr := [] } 0 := by
  rw [Dev.takeUp, hk]
  exact if_pos hrep

section
variable {d : Dev} {r : MoveReq} (hk : r.kind ≠ .refetch) (hk' : r.kind ≠ .editMove)
include hk hk'

/-- Work that reads for a ring begins as the ring asks. -/
theorem Dev.takeUp_ring {e i q : Nat} (hdest : r.dest = .ring e i q) : d.takeUp r = d.beginRing r e i q := by
  rw [Dev.takeUp]
  split
  · contradiction
  · contradiction
  · rw [hdest]

/-- Other work begins its copy. -/
theorem Dev.takeUp_copy (hring : r.toRing = false) :
    d.takeUp r = if (d.beginCopy r).2 then (d.beginCopy r).1 else (d.beginCopy r).1.copyDropped r := by
  rw [Dev.takeUp]
  split
  · contradiction
  · contradiction
  · split
    · next h => rw [MoveReq.toRing, h] at hring; cases hring
    · rfl

end

/-- The read of a stream gob that its stream still asks for begins with the first line. -/
theorem Dev.beginRing_begins {d : Dev} {r : MoveReq} {e i q : Nat} {p : PStream} (hp : (d.engine e).pstream i = some p)
    (hslot : p.slot = r.slot) (hq : q ∈ p.asked) : d.beginRing r e i q = (d.beginMove r).askLine { r with buf := [] } := by
  rw [Dev.beginRing, hp]
  exact if_pos ⟨hslot, hq⟩

/-- A free mover takes the work that stands highest. -/
theorem moverTakeWork_takesUp {s : State} {r : MoveReq} {d : Dev} (hd : d = s.dev.retryRepairs) (hfree : d.tir.busy.length < 16)
    (hbest : bestWork (d.tir.queue.filter d.takable) = some r) : Does .moverTakeWork s ((d.popWork r).takeUp r) := by
  subst hd
  have hexec : exec .moverTakeWork s = execMoverTakeWork s := rfl
  rw [Does, hexec, execMoverTakeWork, run_wf rfl, Dev.moverTake]
  dsimp only
  rw [if_neg (by omega), hbest]
  rfl

/-! ### The end of a copy -/

/-- The work copies into the key store. -/
def MoveReq.toKeyStore (r : MoveReq) : Bool :=
  match r.dest with
  | .keyStore _ => true
  | _ => false

/-- A copy whose payload stands here and verifies is placed, and what waits for it goes on. -/
theorem moverCopyComplete_places {k : Nat} {s : State} {r : MoveReq} {a w0 w1 : Nat} {bs hd : List Byte}
    (hhand : s.dev.moveInHand k = some r) (hk : r.kind ≠ .refetch) (hk' : r.kind ≠ .editMove) (hring : r.toRing = false) {d : Dev}
    (hd' : d = s.dev.sweepCopy r.slot r.gob) (hwalk : d.walk r.slot r.gob false = .leaf a w0 w1)
    (hpay : d.payload r w0 w1 = some (bs, hd)) (hheld : d.heldByBatch r = false) (hpois : w0.testBit 5 = false)
    (ht1 : leafTier w0 = 1 → d.t1Bad (nfld w1 21 0 * 65536) 65536 = false) (hcrc : crcBad hd bs = false) :
    Does (.moverCopyComplete k) s
      (((((d.readSeen r w0 w1).placeCopy r a w0 bs hd).endMove k).retryMemory r.slot r.gob).tpinOn r.slot r.gob r.toKeyStore) := by
  subst hd'
  have hexec : exec (.moverCopyComplete k) s = execMoverCopyComplete k s := rfl
  rw [Does, hexec, execMoverCopyComplete, run_wf rfl, Dev.copyComplete, hhand]
  dsimp only
  rw [if_neg (by simp [hk, hk', hring]), hwalk]
  dsimp only
  rw [hpay]
  dsimp only
  rw [if_neg (by simp [hheld]), if_neg (by simp [hpois]), if_neg (by simp +contextual [ht1]), if_neg (by simp [hcrc])]
  rfl

end Sys2Proof.Machine

section

open Sys2Proof Sys2Proof.Machine Sys2Proof.Safety

/-- Settles O47. -/
theorem prefetchAndCopies : Obligations.PrefetchAndCopies := by
  refine ⟨fun e i s p hw hp hopen hmore hroom => ⟨prefetchRefill_skips hw rfl hp hopen hmore hroom,
      prefetchRefill_asks hw rfl hp hopen hmore hroom⟩,
    fun e i q r s p d bs hw hp hdone hcrc hdir hform => ⟨d.headPairs e, ?_⟩,
    fun s r _ hfree hbest => ?_, bestWork_highest,
    fun k s r a w0 w1 bs hd _ hhand hk hk' hring hwalk hpay hheld hpois ht1 hcrc =>
      moverCopyComplete_places hhand hk hk' hring rfl hwalk hpay hheld hpois ht1 hcrc⟩
  · have h := prefetchGobArrival_places hw hp hdone hcrc
    rwa [Dev.ringPlace_stands hdir hform] at h
  · have htake := moverTakeWork_takesUp rfl hfree hbest
    refine ⟨fun a w0 w1 hk hk' hring hdest hwalk hpois hlets hnew => ?_, fun e i q p hk hk' hdest hp hslot hq => ?_,
      fun hk hrep => ?_⟩
    · rwa [Dev.takeUp_copy hk hk' hring, Dev.beginCopy_gobCache hwalk hdest hpois hlets hnew] at htake
    · rwa [Dev.takeUp_ring hk hk' hdest, Dev.beginRing_begins hp hslot hq] at htake
    · rwa [Dev.takeUp_refetch hk hrep] at htake

end
end

section
/-! PROOFS. TIR_EDIT, moves of homes, time limits of a refetch, the window and patrol scrub (R475 to R477, R490, R492, R508, R514). -/

namespace Sys2Proof.Machine

open Sys2Proof.Safety

/-! ### TIR_EDIT -/

/-- A device whose TIR_EDIT is busy. -/
def Dev.editBusy (d : Dev) : Dev := d.setRb Reg.TIR_EDIT_OP 3 true

/-- A device with no TIR_EDIT that waits for a move. -/
def Dev.editFree (d : Dev) : Dev := { d with tir := { d.tir with edit := none } }

section
variable {d : Dev} (h : d.rb Reg.TIR_EDIT_OP 3 = false)
include h

/-- A write or a move makes TIR_EDIT busy and runs. -/
theorem Dev.tirEdit_runs {op : Nat} (hop : op = 1 ∨ op = 3) : d.tirEdit op
    = d.editBusy.editRun op (d.reg Reg.TIR_EDIT_VA).toNat (d.reg Reg.TIR_EDIT_W0).toNat (d.reg Reg.TIR_EDIT_W1).toNat := by
  rw [Dev.tirEdit]
  obtain rfl | rfl := hop <;> exact if_neg (by rw [h]; exact Bool.false_ne_true)

theorem Dev.tirEdit_reads : d.tirEdit 2 = d.editBusy.editRead (d.reg Reg.TIR_EDIT_VA).toNat := by
  rw [Dev.tirEdit]
  exact if_neg (by rw [h]; exact Bool.false_ne_true)

theorem Dev.tirEdit_invalidates : d.tirEdit 4 = d.editBusy.editInvalidate (d.reg Reg.TIR_EDIT_VA).toNat := by
  rw [Dev.tirEdit]
  exact if_neg (by rw [h]; exact Bool.false_ne_true)

end

/-- The words of a leaf as TIR_EDIT shows them. -/
def Dev.leafShown (d : Dev) (a : Nat) : Dev :=
  (d.setReg Reg.TIR_EDIT_W0 (BitVec.ofNat 64 (d.t1w a))).setReg Reg.TIR_EDIT_W1 (BitVec.ofNat 64 (d.t1w (a + 8)))

theorem Dev.leafShown_words (d : Dev) (a : Nat) : ((d.leafShown a).reg Reg.TIR_EDIT_W0).toNat = d.t1w a % 2 ^ 64
    ∧ ((d.leafShown a).reg Reg.TIR_EDIT_W1).toNat = d.t1w (a + 8) % 2 ^ 64 := by
  generalize hx : d.t1w a = x
  generalize hy : d.t1w (a + 8) = y
  rw [Dev.leafShown, hx, hy]
  constructor
  · rw [Dev.reg_setReg_ne _ _ (by decide), Dev.reg_setReg_self, BitVec.toNat_ofNat]
  · rw [Dev.reg_setReg_self, BitVec.toNat_ofNat]

/-- An edit that succeeds shows no ecode and is over; every other register stays. -/
theorem Dev.editDone_shows (d : Dev) : (d.editDone 0).rb Reg.TIR_EDIT_OP 3 = false ∧ (d.editDone 0).rf Reg.TIR_EDIT_OP 11 8 = 0
    ∧ ∀ o, o ≠ Reg.TIR_EDIT_OP → (d.editDone 0).reg o = d.reg o := by
  have heq : d.editDone 0 = (d.setRb Reg.TIR_EDIT_OP 3 false).setRf Reg.TIR_EDIT_OP 11 8 0 := rfl
  rw [heq]
  refine ⟨?_, Dev.rf_setRf_self _ _ _ _ _ (by decide), fun o ho => ?_⟩
  · rw [Dev.rb_setRf_apart _ _ _ _ _ _ (Or.inl (by decide)), Dev.rb_setRb_self _ _ _ _ (by decide)]
  · exact (Dev.reg_setReg_ne _ _ ho).trans (Dev.reg_setReg_ne _ _ ho)

/-- Setting registers sets registers. -/
theorem Dev.editDone_regs (d : Dev) : d.editDone 0 = { d with regs := (d.editDone 0).regs } := rfl

theorem Dev.setReg_regs (d : Dev) (o : Nat) (w : Word) (t : Tab Word) : { d.setReg o w with regs := t } = { d with regs := t } := rfl

theorem Dev.leafShown_regs (d : Dev) (a : Nat) (t : Tab Word) : { d.leafShown a with regs := t } = { d with regs := t } := by
  rw [Dev.leafShown, Dev.setReg_regs, Dev.setReg_regs]

/-- Operation 2 shows the words of the leaf that the address names. -/
theorem Dev.editRead_shows {d : Dev} {va a : Nat} (ha : d.leafAddr (nfld va 51 48) (nfld va 47 16) = .ok a) :
    ∃ e, d.editRead va = e ∧ (e.reg Reg.TIR_EDIT_W0).toNat = d.t1w a % 2 ^ 64 ∧ (e.reg Reg.TIR_EDIT_W1).toNat = d.t1w (a + 8) % 2 ^ 64
      ∧ e.rb Reg.TIR_EDIT_OP 3 = false ∧ e.rf Reg.TIR_EDIT_OP 11 8 = 0 ∧ e = { d with regs := e.regs } := by
  obtain ⟨hbusy, hcode, hreg⟩ := (d.leafShown a).editDone_shows
  obtain ⟨h0, h1⟩ := d.leafShown_words a
  refine ⟨(d.leafShown a).editDone 0, ?_, (congrArg BitVec.toNat (hreg _ (by decide))).trans h0,
    (congrArg BitVec.toNat (hreg _ (by decide))).trans h1, hbusy, hcode,
    (Dev.editDone_regs _).trans (Dev.leafShown_regs d a _)⟩
  rw [Dev.editRead, ha]
  dsimp only
  rw [Dev.leafShown]

section
variable {d : Dev} {va a : Nat} (ha : d.leafAddr (nfld va 51 48) (nfld va 47 16) = .ok a)
include ha

/-- A write or a move of a leaf whose home is not being moved runs at once. -/
theorem Dev.editRun_runs (hmoving : (d.t1w a).testBit 6 = false) (op w0 w1 : Nat) :
    d.editRun op va w0 w1 = if op = 1 then d.editFree.editWrite va w0 w1 else d.editFree.editMoveStart va w0 w1 := by
  have hnot : d.leafMoving va = false := by
    rw [Dev.leafMoving, ha]
    exact hmoving
  rw [Dev.editRun]
  exact if_neg (by rw [hnot]; exact Bool.false_ne_true)

variable {w0 w1 : Nat} (htier : leafTier w0 ≠ 1) (htarget : d.editTarget w0 w1 = 0)
include htier htarget

/-- A valid leaf with a home outside T1 is written with its fields, and what waits for the gob looks again. -/
theorem Dev.editWrite_writes (hvalid : w0.testBit 0 = true) : ∃ d2 : Dev, d.editWrite va w0 w1 =
    (((d2.setLeaf a (nfld w0 2 0 + nfld w0 4 3 * 8 + nfld w0 47 32 * 2 ^ 32) w1).declare (nfld va 51 48) (nfld va 47 16)
      false).editDone 0).resumeGob (nfld va 51 48) (nfld va 47 16) := by
  generalize h : d.editWrite va w0 w1 = e
  rw [Dev.editWrite] at h
  dsimp only at h
  rw [ha] at h
  dsimp only at h
  rw [if_neg (by rw [if_pos hvalid]; exact not_not_intro htarget), if_neg (by simp [htier])] at h
  exact ⟨_, h.symm⟩

/-- A move to a home outside T1 marks the leaf and asks the movers. -/
theorem Dev.editMoveStart_starts (hform : malformedLeaf d.frames (d.t1w a) (d.t1w (a + 8)) = false)
    (hvalid : (d.t1w a).testBit 0 = true) : d.editMoveStart va w0 w1 =
      (d.setLeaf0 a (nset (d.t1w a) 6 6 1)).askMove .editMove (nfld va 51 48) (nfld va 47 16) (.home (leafTier w0) w1) := by
  rw [Dev.editMoveStart]
  dsimp only
  rw [ha]
  dsimp only
  rw [if_neg (by simp [hvalid]), if_neg (by simp [hform, htarget]), if_neg (by simp [htier]), if_neg htier]

end

/-! ### The tables of a slot -/

theorem Dev.framesUse_reg (d : Dev) (fs : List Nat) (b : Bool) (o : Nat) : (d.framesUse fs b).reg o = d.reg o :=
  foldl_keeps (f := fun (a : Dev) f => a.frameUse f b) (π := fun a => Dev.reg a o) (fun _ _ => rfl) fs d

theorem Dev.keepTables_reg (d : Dev) (sl : Nat) (fs : List Nat) (o : Nat) : (d.keepTables sl fs).reg o = d.reg o := rfl

theorem Dev.keepTables_kept (d : Dev) (sl : Nat) (fs : List Nat) : (d.keepTables sl fs).tablesKept sl = fs := tget_tput_self _ _ _ _

theorem Dev.rereadTables_kept (d : Dev) (sl : Nat) : (d.rereadTables sl).tablesKept sl = d.tableFrames sl := by
  rw [Dev.rereadTables]
  exact Dev.keepTables_kept _ sl _

theorem Dev.rereadTables_used (d : Dev) (sl : Nat) : (d.rereadTables sl).rf (Reg.USAGE sl) 21 0
    = (d.rf (Reg.USAGE sl) 21 0 + (d.tableFrames sl).length - (d.tablesKept sl).length) % 2 ^ 22 := by
  rw [Dev.rereadTables, Dev.rf, Dev.keepTables_reg]
  exact Dev.rf_setRf_self _ _ 21 0 _ (by decide)

/-- Reading the tables again counts their frames and keeps them. -/
theorem Dev.rereadTables_shows (d : Dev) (sl : Nat) :
    (d.rereadTables sl).rf (Reg.USAGE sl) 21 0
      = (d.rf (Reg.USAGE sl) 21 0 + (d.tableFrames sl).length - (d.tablesKept sl).length) % 2 ^ 22
    ∧ (d.rereadTables sl).tablesKept sl = d.tableFrames sl :=
  ⟨d.rereadTables_used sl, d.rereadTables_kept sl⟩

/-! ### Moves of homes -/

section
variable {k a tier w1 : Nat} {s : State} {r : MoveReq} {bs hd : List Byte} (hhand : s.dev.moveInHand k = some r)
  (hdest : r.dest = .home tier w1) (ha : s.dev.leafAddr r.slot r.gob = .ok a)
  (hpay : s.dev.payload r (s.dev.t1w a) (s.dev.t1w (a + 8)) = some (bs, hd)) (hrep : s.dev.underRepair r.slot r.gob = false)
include hhand hdest ha hpay hrep

/-- A move whose payload stands here and verifies writes its new home, or sends it to another node. -/
theorem moveComplete_moves (hgate : r.gate = none) (hpois : (s.dev.t1w a).testBit 5 = false)
    (ht1 : leafTier (s.dev.t1w a) = 1 → s.dev.t1Bad (nfld (s.dev.t1w (a + 8)) 21 0 * 65536) 65536 = false)
    (hcrc : crcBad hd bs = false) :
    Does (.moveComplete k) s (if tier = 2 then (s.dev.readSeen r (s.dev.t1w a) (s.dev.t1w (a + 8))).sendHome r w1 bs
      else ((s.dev.readSeen r (s.dev.t1w a) (s.dev.t1w (a + 8))).writeHome tier w1 bs hd).moveEnds r a tier w1 hd) := by
  have hexec : exec (.moveComplete k) s = execMoveComplete k s := rfl
  rw [Does, hexec, execMoveComplete, run_wf rfl, Dev.moveComplete, hhand]
  dsimp only
  rw [hdest, ha]
  dsimp only
  rw [hpay]
  dsimp only
  rw [if_neg (by simp [hrep]), hgate]
  dsimp only
  have hgood : ((decide (leafTier (s.dev.t1w a) = 1) && s.dev.t1Bad (nfld (s.dev.t1w (a + 8)) 21 0 * 65536) 65536)
      || (s.dev.t1w a).testBit 5 || crcBad hd bs) = false := by
    simp +contextual [hpois, hcrc, ht1]
  rw [if_neg (by rw [hgood]; exact Bool.false_ne_true)]

/-- A move whose lines are acknowledged ends with the new home in the leaf. -/
theorem moveComplete_ends {g : Gate} (hgate : r.gate = some g)
    (hspace : (s.dev.space (s.dev.moverSpace r.slot (nfld w1 63 48))).failed = false) (hopen : s.dev.gateOpen g = true) :
    Does (.moveComplete k) s (s.dev.moveEnds r a tier w1 hd) := by
  have hexec : exec (.moveComplete k) s = execMoveComplete k s := rfl
  rw [Does, hexec, execMoveComplete, run_wf rfl, Dev.moveComplete, hhand]
  dsimp only
  rw [hdest, ha]
  dsimp only
  rw [hpay]
  dsimp only
  rw [if_neg (by simp [hrep]), hgate]
  dsimp only
  rw [if_neg (by simp [hspace]), if_pos hopen]

end

/-- The header of a gob at the place that its new leaf words give it. -/
def Dev.headerMoved (d : Dev) (r : MoveReq) (n0 w1 : Nat) (hd : List Byte) : Dev :=
  match d.headerAddr r.slot r.gob n0 w1 with
  | some h => { d with mem := { d.mem with t1 := wrBytes d.mem.t1 h hd } }
  | none => d

/-- A home that was not in T1 leaves no frame and no pin behind. -/
theorem Dev.moveEnds_far {d : Dev} {r : MoveReq} {a tier w1 : Nat} {hd : List Byte} (h : leafTier (d.t1w a) ≠ 1) {n0 : Nat}
    (hn0 : n0 = nset (nset (d.t1w a) 4 3 tier) 6 6 0) :
    d.moveEnds r a tier w1 hd =
      (((((d.setLeaf a n0 w1).headerMoved r n0 w1 hd).editDone 0).endMove r.id).resumeGob r.slot r.gob).nextEdit d.tir.edit := by
  subst hn0
  have hpin : ∀ e : Dev, e.unpinMoved r.slot a (d.t1w a) tier = e := fun e => by
    rw [Dev.unpinMoved, if_neg (by simp [h])]
  rw [Dev.moveEnds]
  dsimp only
  rw [if_neg h, hpin]
  rfl

/-! ### Time limits of a refetch -/

section
variable {k : Nat} {s : State} {r : MoveReq} (hhand : s.dev.moveInHand k = some r) (hlate : r.since + 100000000 ≤ s.dev.now)
include hhand hlate

/-- A replica not read in time gives way to the next; its lines are forgotten. -/
theorem replicaReadTimeout_next (hk : r.kind = .refetch) (hwait : r.waitFrame = false) :
    ∃ fab, Does (.replicaReadTimeout k) s ((({ s.dev with fab := fab } : Dev)).nextReplica r (r.replica + 1)) := by
  have hexec : exec (.replicaReadTimeout k) s = execReplicaReadTimeout k s := rfl
  rw [execReplicaReadTimeout, run_wf rfl, Dev.replicaTimeout, hhand] at hexec
  dsimp only at hexec
  rw [if_pos ⟨hk, hwait, hlate⟩] at hexec
  exact ⟨_, hexec⟩

/-- A frame not found in time ends the repair. -/
theorem refetchFrameWaitTimeout_ends (hretry : s.dev.retryRepairs = s.dev) (hwait : r.waitFrame = true) {o : Nat} {x : ObjDesc}
    (hobj : s.dev.objOfGob r.slot r.gob = some (o, x)) : Does (.refetchFrameWaitTimeout k) s (s.dev.unrecoverable r o x) := by
  have hexec : exec (.refetchFrameWaitTimeout k) s = execRefetchFrameWaitTimeout k s := rfl
  rw [Does, hexec, execRefetchFrameWaitTimeout, run_wf rfl, Dev.frameTimeout, hretry, hhand]
  dsimp only
  rw [if_pos ⟨hwait, hlate⟩, hobj]

end

/-! ### The window -/

/-- A field of the low bits kept of a word is the word's. -/
theorem fld_low (x : Word) {m hi lo : Nat} (hm : m < 64) (h : hi ≤ m) : fld (BitVec.ofNat 64 (fld x m 0)) hi lo = fld x hi lo := by
  apply Nat.eq_of_testBit_eq
  intro i
  rw [testBit_fld, testBit_fld]
  by_cases hi' : i < hi + 1 - lo
  · rw [bitAt, BitVec.toNat_ofNat, Nat.testBit_mod_two_pow, testBit_fld]
    simp [show lo + i < 64 by omega, show lo + i < m + 1 by omega]
  · simp [hi']

/-- The window register as written. -/
def Dev.windowSet (d : Dev) (sl : Nat) (x : Word) : Dev := d.setReg (Reg.WINDOW sl) (BitVec.ofNat 64 (fld x 36 0))

theorem Dev.windowSet_rf (d : Dev) (sl : Nat) (x : Word) {hi : Nat} (lo : Nat) (h : hi ≤ 36) :
    (d.windowSet sl x).rf (Reg.WINDOW sl) hi lo = fld x hi lo := by
  rw [Dev.windowSet, Dev.rf, Dev.reg_setReg_self, fld_low x (by decide) h]

/-- A window without layers is only written. -/
theorem Dev.windowWrite_off {d : Dev} {sl : Nat} {x : Word} (h : fld x 31 16 = 0) : d.windowWrite sl x = d.windowSet sl x := by
  rw [Dev.windowWrite]
  exact if_pos ((d.windowSet_rf sl x 16 (by decide)).trans h)

/-- A device without the window work of a slot. -/
def Dev.windowCleared (d : Dev) (sl : Nat) : Dev :=
  { d with tir := { d.tir with queue := d.tir.queue.filter (fun (r : MoveReq) => !(decide (r.kind = .window) && decide (r.slot = sl))) } }

/-- A window with layers asks for the objects of its layers, nearest first. -/
theorem Dev.windowWrite_asks {d : Dev} {sl : Nat} {x : Word} (h : fld x 31 16 ≠ 0) : d.windowWrite sl x =
    (List.range (min (fld x 35 32) (fld x 31 16 - 1) + 1)).foldl (fun (a : Dev) n =>
      (a.windowObjs sl n).foldl (fun (b : Dev) ox => b.windowAsk sl ox) a) ((d.windowSet sl x).windowCleared sl) := by
  rw [← d.windowSet_rf sl x 16 (by decide)] at h ⊢
  rw [← d.windowSet_rf sl x 32 (by decide), Dev.windowWrite]
  exact if_neg h

/-! ### Patrol scrub -/

/-- The patrol scrub, due and with nothing else to do, reads a frame without an uncorrectable error and goes on. -/
theorem Dev.patrol_reads {d : Dev} (hcfg : d.rf Reg.MEM_CFG 7 0 ≠ 0) (hoff : d.rb Reg.TIR_CTRL 0 = false)
    (hfree : d.tir.busy.length < 16) (hidle : ∀ r ∈ d.tir.queue, d.takable r = false) (hdue : d.tir.scrubAt ≤ d.now) {f : Nat}
    (hf : f = d.rf Reg.MEM_SCRUB 21 0) (hgood : d.t1Bad (f * 65536) 65536 = false) {t : Tir}
    (ht : t = { d.tir with scrubAt := d.tir.scrubAt + d.scrubPeriod }) :
    d.patrol = if f + 1 < d.frames then (({ d with tir := t } : Dev).correct (f * 65536) 65536).setRf Reg.MEM_SCRUB 21 0 (f + 1)
      else ((({ d with tir := t } : Dev).correct (f * 65536) 65536).setRf Reg.MEM_SCRUB 21 0 0).addRf Reg.MEM_SCRUB 63 32 1 := by
  subst hf
  have hany : d.tir.queue.any d.takable = false := List.any_eq_false.mpr (fun r hr => by simp [hidle r hr])
  have hrf : ({ d with tir := t } : Dev).rf Reg.MEM_SCRUB 21 0 = d.rf Reg.MEM_SCRUB 21 0 := rfl
  have hframes : ({ d with tir := t } : Dev).frames = d.frames := rfl
  have hbad : ({ d with tir := t } : Dev).t1Bad (d.rf Reg.MEM_SCRUB 21 0 * 65536) 65536 = false := hgood
  rw [Dev.patrol]
  dsimp only
  rw [if_neg (by simp [hcfg, hoff, hany, Nat.not_lt.mpr hdue, Nat.not_le.mpr hfree]), ← ht, hrf, hframes, hbad,
    if_neg Bool.false_ne_true]

theorem patrolScrub_does (s : State) : Does .patrolScrub s s.dev.patrol := by
  have hexec : exec .patrolScrub s = execPatrolScrub s := rfl
  rw [Does, hexec, execPatrolScrub, run_wf rfl]

/-- After the last frame of a pass the next is frame 0. -/
theorem Dev.scrubWraps (d : Dev) : ((d.setRf Reg.MEM_SCRUB 21 0 0).addRf Reg.MEM_SCRUB 63 32 1).rf Reg.MEM_SCRUB 21 0 = 0 := by
  rw [Dev.addRf, Dev.rf_setRf_apart _ _ _ _ _ _ _ (Or.inl (by decide)), Dev.rf_setRf_self _ _ _ _ _ (by decide),
    Nat.zero_mod]

end Sys2Proof.Machine

section

open Sys2Proof Sys2Proof.Machine Sys2Proof.Safety

/-- Settles O48. -/
theorem editsMovesScrub : Obligations.EditsMovesScrub := by
  refine ⟨fun s a hb ha => ⟨fun ho => ?_, fun ho hm => ⟨?_, fun hv ht hz => ?_⟩, fun ho hm => ⟨?_, fun hf hv ht hz => ?_⟩⟩,
    fun s ho hb => ⟨?_, Dev.rereadTables_shows _ _⟩,
    fun k a tier w1 s r bs hd _ hhand hdest ha hpay hrep => ⟨fun hgate hpois ht1 hcrc => ?_,
      fun g hgate hsp hopen => moveComplete_ends hhand hdest ha hpay hrep hgate hsp hopen⟩,
    fun d r a tier w1 hd h => Dev.moveEnds_far h rfl,
    fun k s r hhand hlate => ⟨fun _ hk hwait => replicaReadTimeout_next hhand hlate hk hwait,
      fun _ hretry hwait o x hobj => refetchFrameWaitTimeout_ends hhand hlate hretry hwait hobj⟩,
    fun v sl x s hw ho hs => ⟨fun h => ?_, fun h => ?_⟩,
    fun s _ hcfg hoff hfree hidle hdue => ⟨fun hgood => ⟨fun hlt => ?_, fun hge => ?_⟩, rfl⟩⟩
  · obtain ⟨e, he, hrest⟩ := Dev.editRead_shows (d := s.dev.editBusy) ha
    have hdoes := host_open (f := fun d => d.tirEdit 2) rfl ho
    rw [Dev.tirEdit_reads hb, he] at hdoes
    exact ⟨e, hdoes, hrest⟩
  · have hdoes := host_open (f := fun d => d.tirEdit 1) rfl ho
    rwa [Dev.tirEdit_runs hb (Or.inl rfl), Dev.editRun_runs (d := s.dev.editBusy) ha hm 1, if_pos rfl] at hdoes
  · exact Dev.editWrite_writes (d := s.dev.editBusy.editFree) ha ht hz hv
  · have hdoes := host_open (f := fun d => d.tirEdit 3) rfl ho
    rwa [Dev.tirEdit_runs hb (Or.inr rfl), Dev.editRun_runs (d := s.dev.editBusy) ha hm 3, if_neg (by decide)] at hdoes
  · exact Dev.editMoveStart_starts (d := s.dev.editBusy.editFree) ha ht hz hf hv
  · have hdoes := host_open (f := fun d => d.tirEdit 4) rfl ho
    rwa [Dev.tirEdit_invalidates hb] at hdoes
  · have hdoes := moveComplete_moves hhand hdest ha hpay hrep hgate hpois ht1 hcrc
    exact ⟨fun h => by rwa [if_pos h] at hdoes, fun h => by rwa [if_neg h] at hdoes⟩
  · have hdoes := host_open (f := fun d => if viaSees v sl then d.windowWrite sl x else d) hw ho
    rwa [if_pos hs, Dev.windowWrite_off h] at hdoes
  · have hdoes := host_open (f := fun d => if viaSees v sl then d.windowWrite sl x else d) hw ho
    rwa [if_pos hs, Dev.windowWrite_asks h] at hdoes
  · have hdoes := patrolScrub_does s
    rwa [Dev.patrol_reads hcfg hoff hfree hidle hdue rfl hgood rfl, if_pos hlt] at hdoes
  · have hdoes := patrolScrub_does s
    rw [Dev.patrol_reads hcfg hoff hfree hidle hdue rfl hgood rfl, if_neg (Nat.not_lt.mpr hge)] at hdoes
    exact ⟨_, hdoes, Dev.scrubWraps _⟩

end
end

section
/-! PROOFS. What the host's accesses do (R14, R18, R26, R548, R551, R557, R723, R772, R774, R776, R779). -/

namespace Sys2Proof.Machine

open Sys2Proof.Safety

/-! ### Reads -/

section
variable {v : Via} {o : Nat} {s : State} (hw : (Instr.registerRcRead v o).wf = true)
include hw

/-- In boot-failed a read outside the TOP and SEC blocks gives zeros. -/
theorem registerRcRead_failed (hf : s.dev.failedRead v o = true) :
    Does (.registerRcRead v o) s (s.dev.complete (.ok (List.replicate 8 0#8))) := by
  have hdoes := does_of_run (c := .registerRcRead v o) (s := s) rfl hw
  rwa [if_pos hf] at hdoes

variable (hf : s.dev.failedRead v o = false) (ho : HostOpen s.dev (.registerRcRead v o) v (secBlock v o) false)
include hf ho

/-- A read of a register shows its value, that of a ledger after the majority of its copies, and clears its RC fields. -/
theorem registerRcRead_shows {y : Nat × RDesc × List Nat} (hy : s.dev.regOf v o = some y) (hb : y.2.1.base ≠ Reg.HMB_OUT 0 0)
    {d : Dev} (hd : d = s.dev.ledgerReads (shownLedger y.2.1 (y.2.2.headD 0))) :
    Does (.registerRcRead v o) s
      ((d.complete (.ok (leBytes 8 (d.regValue y.1 y.2.1 y.2.2).toNat))).clearRc y.1 y.2.1.fields) := by
  subst hd
  have hout : s.dev.outWaits y.2.1 y.2.2 = false := by
    rw [Dev.outWaits, decide_eq_false hb, Bool.false_and]
  have hdoes := does_of_run (c := .registerRcRead v o) (s := s) rfl hw
  rw [HostOpen] at ho
  rw [if_neg (by simp [hf]), Dev.hostRegRead, Dev.barAccess, ho] at hdoes
  dsimp only at hdoes
  rw [hy] at hdoes
  dsimp only at hdoes
  rwa [if_neg (by simp [hout]), Dev.regRead, if_neg hb] at hdoes

/-- A read where no register stands. -/
theorem registerRcRead_other (hy : s.dev.regOf v o = none) :
    Does (.registerRcRead v o) s (s.dev.complete (.ok (leBytes 8 (s.dev.otherRead v o).toNat))) := by
  have hdoes := does_of_run (c := .registerRcRead v o) (s := s) rfl hw
  rw [HostOpen] at ho
  rw [if_neg (by simp [hf]), Dev.hostRegRead, Dev.barAccess, ho] at hdoes
  dsimp only at hdoes
  rwa [hy] at hdoes

end

/-! ### Writes -/

/-- A message goes again where a write has cleared irq_pend and the condition still holds. -/
theorem Dev.pendCleared_eq (d : Dev) (i : Nat) (was : Bool) :
    d.pendCleared i was = if was = true ∧ d.rb (Reg.SYN_CTL i) 5 = false then d.synIrq i else d := by
  simp [Dev.pendCleared]

/-- A write to a register that neither commands the root core nor has a command of its own. -/
theorem State.fieldWrite_fields {s : State} {v : Via} {off : Nat} {r : RDesc} {is : List Nat} {x : Word}
    (hbase : r.base ∉ [Reg.SEC_CMD, Reg.SEC_RESET, Reg.SEC_JRESET, Reg.SEC_MEXT, Reg.SYN_POST, Reg.SYN_RESET, Reg.SYN_RANGE 0,
      Reg.WINDOW 0, Reg.CAD_CFG 0, Reg.CAD_QUOTA 0]) :
    s.fieldWrite v off r is x = if v.slot.isSome && decide (r.view = .jr) then s else
      { s with dev := if r.base = Reg.SYN_CTL 0 then (s.dev.writeFields off r is x).pendCleared (is.headD 0) (s.dev.rb (Reg.SYN_CTL (is.headD 0)) 5)
        else (s.dev.writeFields off r is x).regTrigger r (is.headD 0) x } := by
  simp only [List.mem_cons, List.not_mem_nil, or_false, not_or] at hbase
  obtain ⟨h1, h2, h3, h4, h5, h6, h7, h8, h9, h10⟩ := hbase
  rw [State.fieldWrite, if_neg h1, if_neg h2, if_neg h3, if_neg h4, Dev.regWrite]
  rw [if_neg h5, if_neg h6, if_neg h7, if_neg h8, if_neg h9, if_neg h10]
  split <;> rfl

/-- A write of a register, but for SEC_RESET through BAR0, reaches the fields of the register. -/
theorem registerWrite_does {v : Via} {o : Nat} {x : Word} {s : State} {off : Nat} {r : RDesc} {is : List Nat}
    (hw : (Instr.registerWrite v o x).wf = true)
    (ho : HostOpen s.dev (.registerWrite v o x) v (secBlock v o) (s.dev.postsObject v o)) (hreset : o = Reg.SEC_RESET → v.slot ≠ none)
    (hy : s.dev.regOf v o = some (off, r, is)) :
    exec (.registerWrite v o x) s = .next (s.fieldWrite v off r is x) := by
  have hexec : exec (.registerWrite v o x) s = execRegisterWrite v o x s := rfl
  rw [HostOpen] at ho
  rw [hexec, execRegisterWrite, if_pos hw, if_neg (fun h => hreset h.1 (Option.isNone_iff_eq_none.mp h.2)), State.barAccess, ho]
  dsimp only
  rw [State.regWrite, hy]

/-- No job view names a P register. -/
theorem Dev.regOf_view {d : Dev} {v : Via} {o : Nat} {y : Nat × RDesc × List Nat} (hy : d.regOf v o = some y) (hv : v.slot ≠ none) :
    y.2.1.view ≠ .p := by
  intro hp
  rw [Dev.regOf] at hy
  split at hy
  · cases hy
  · split at hy
    · cases hy
    · split at hy
      · cases hy
      · next h =>
        cases hy
        exact h (by rw [Option.isSome_iff_ne_none.mpr hv, decide_eq_true hp]; rfl)

section
variable (d : Dev) (off : Nat) (busy : Bool) (x : Word) {f : RField}

/-- An RW field takes its value, but for an L field whose block is busy. -/
theorem Dev.writeField_rw (hhi : f.hi < 64) (ha : f.acc = .rw) (hl : ¬ (f.cls = .l ∧ busy = true)) :
    (d.writeField off busy x f).rf off f.hi f.lo = fld x f.hi f.lo := by
  rw [Dev.writeField, ha]
  dsimp only
  rw [if_neg hl, Dev.rf_setRf_self _ _ _ _ _ hhi]
  exact Nat.mod_eq_of_lt (fld_lt x f.hi f.lo)

/-- An L field whose block is busy stays. -/
theorem Dev.writeField_busy (ha : f.acc = .rw) (hc : f.cls = .l) (hb : busy = true) : d.writeField off busy x f = d := by
  rw [Dev.writeField, ha]
  exact if_pos ⟨hc, hb⟩

/-- A W1C field is cleared by ones, bit by bit. -/
theorem Dev.writeField_w1c (hhi : f.hi < 64) (ha : f.acc = .w1c) {i : Nat} (hlo : f.lo ≤ i) (hi : i ≤ f.hi) :
    (d.writeField off busy x f).rb off i = (d.rb off i && !bitAt x i) := by
  rw [Dev.writeField, ha]
  dsimp only
  rw [Dev.rb, Dev.setRf, Dev.reg_setReg_self, bitAt_setFld _ _ _ _ _ (by omega), if_pos (by omega), Nat.testBit_and, Dev.rf,
    testBit_fld, Nat.testBit_xor, Nat.testBit_two_pow_sub_one, testBit_fld, Nat.add_sub_cancel' hlo, Dev.rb,
    decide_eq_true (show i - f.lo < f.hi + 1 - f.lo by omega), decide_eq_true (show i - f.lo < 64 by omega), Bool.true_and,
    Bool.true_and, Bool.true_xor]

/-- Fields of the other codes take no write. -/
theorem Dev.writeField_other (ha : f.acc = .ro ∨ f.acc = .rc ∨ f.acc = .wo) : d.writeField off busy x f = d := by
  obtain h | h | h := ha <;> rw [Dev.writeField, h]

end

/-! ### Apertures -/

section
variable {a : Bar4} {s : State} (hw : (Instr.bar4Access a).wf = true)
  (ho : HostOpen s.dev (.bar4Access a) { slot := some a.slot, ide := a.ide } false false)
include hw ho

theorem bar4Access_reads (hr : a.write = none) : Does (.bar4Access a) s (s.dev.apertureRead a) := by
  have hexec : exec (.bar4Access a) s = execBar4Access a s := rfl
  rw [execBar4Access, host_open hw ho, hr] at hexec
  exact hexec

theorem bar4Access_writes {bs : List Byte} (hr : a.write = some bs) : Does (.bar4Access a) s (s.dev.apertureWrite a bs) := by
  have hexec : exec (.bar4Access a) s = execBar4Access a s := rfl
  rw [execBar4Access, host_open hw ho, hr] at hexec
  exact hexec

end

/-- A read through an aperture that is on, in its slot's memory, completes with the bytes. -/
theorem Dev.apertureRead_bytes {d d1 : Dev} {a : Bar4} {bs : List Byte} (hon : d.rb (Reg.HST_APER a.slot) 0 = true)
    (hin : d.apertureAddr a + a.len ≤ 2 ^ 48) (hrd : d.rd (unitWho a.slot 56) (d.apertureAddr a) a.len = .ok d1 bs) :
    d.apertureRead a = (d1.unitDone a.slot 56).complete (.ok bs) := by
  rw [Dev.apertureRead]
  rw [if_neg (by rw [hon]; exact not_or.mpr ⟨Bool.true_eq_false_eq_False, Nat.not_lt.mpr hin⟩), hrd]

/-- A write through an aperture that is on and writable, in its slot's memory, stores the bytes. -/
theorem Dev.apertureWrite_bytes {d d1 : Dev} {a : Bar4} {bs : List Byte} {xs : List Byte} (hon : d.rb (Reg.HST_APER a.slot) 0 = true)
    (hwr : d.rb (Reg.HST_APER a.slot) 1 = true) (hin : d.apertureAddr a + bs.length ≤ 2 ^ 48)
    (hrd : d.wr (unitWho a.slot 56) (d.apertureAddr a) bs = .ok d1 xs) : d.apertureWrite a bs = d1.unitDone a.slot 56 := by
  rw [Dev.apertureWrite]
  rw [if_neg (by rw [hon, hwr]; simpa using hin), hrd]

/-! ### Sync objects -/

section
variable {v : Via} {x : Word} {s : State}

theorem synPost_does (hw : (Instr.synPost v x).wf = true) (ho : HostOpen s.dev (.synPost v x) v false true) :
    Does (.synPost v x) s (s.dev.synPostWrite v x) := host_open (f := fun a => a.synPostWrite v x) hw ho

theorem synReset_does (hw : (Instr.synReset v x).wf = true) (ho : HostOpen s.dev (.synReset v x) v false false) :
    Does (.synReset v x) s (s.dev.synResetWrite v x) := host_open (f := fun a => a.synResetWrite v x) hw ho

variable {d : Dev}

/-- A write to an object that its job view does not own is counted alone. -/
theorem Dev.synPostWrite_rejected {sl : Nat} (h : d.hostRejects v (fld x 15 0) = some sl) :
    d.synPostWrite v x = d.satRf (Reg.SYN_HREJ sl) 31 0 1 := by
  rw [Dev.synPostWrite]
  dsimp only
  rw [h]

theorem Dev.synResetWrite_rejected {sl : Nat} (h : d.hostRejects v (fld x 15 0) = some sl) :
    d.synResetWrite v x = d.satRf (Reg.SYN_HREJ sl) 31 0 1 := by
  rw [Dev.synResetWrite]
  rw [h]

variable (h : d.hostRejects v (fld x 15 0) = none)
include h

theorem Dev.synPostWrite_posts {e : Dev} (hp : d.post (fld x 15 0) (fld x 63 32) (bitAt x 16) = (e, true)) :
    d.synPostWrite v x = e := by
  rw [Dev.synPostWrite]
  dsimp only
  rw [h]
  dsimp only
  rw [hp]
  exact if_pos rfl

theorem Dev.synResetWrite_resets : d.synResetWrite v x = d.synReset (fld x 15 0) := by
  rw [Dev.synResetWrite]
  rw [h]

end

section
variable {sl : Nat} {x : Word} {s : State} (hw : (Instr.synRangeWrite sl x).wf = true)
  (ho : HostOpen s.dev (.synRangeWrite sl x) bar0 false false) {w : Word} (hx : w = BitVec.ofNat 64 (fld x 32 0))
  (hnew : w ≠ s.dev.reg (Reg.SYN_RANGE sl))
include hw ho hx hnew

/-- A new range of a slot with a job is ignored and flagged. -/
theorem synRangeWrite_flagged (hj : s.dev.hasJob sl = true) : Does (.synRangeWrite sl x) s (s.dev.setRb Reg.SYN_STATUS 1 true) := by
  subst hx
  have he := host_open (f := fun a => a.synRangeWrite sl x) hw ho
  rwa [Dev.synRangeWrite, if_neg hnew, if_pos (by rw [hj]; rfl)] at he

/-- A new range takes force at once where no count stands. -/
theorem synRangeWrite_sets {d : Dev} (hd : d = s.dev.setReg (Reg.SYN_RANGE sl) w) (hj : s.dev.hasJob sl = false)
    (htakes : takesFromJob s.dev d = false) (hstand : s.dev.standing = []) (hover : d.overlapping = false) :
    ∃ e, Does (.synRangeWrite sl x) s e ∧ e = { d with hst := { d.hst with lwrites := e.hst.lwrites } } := by
  subst hx hd
  have he := host_open (f := fun a => a.synRangeWrite sl x) hw ho
  rw [Dev.synRangeWrite, if_neg hnew, if_neg (by rw [hj, htakes]; exact Bool.false_ne_true), Dev.synRangeSet, hstand] at he
  rw [List.foldl_nil, if_neg (by rw [hover]; exact Bool.false_ne_true)] at he
  exact ⟨_, he, rfl⟩

end

/-- The devices of a sweep of one group once the group's counters are repaired and its sum shown. -/
def Dev.groupShown (d : Dev) (g : Nat) : Dev :=
  if g < 16 then
    ((((d.lapse (ledApplied g)).lapse (ledConsumed g)).ledgerRepair (ledApplied g)).ledgerRepair (ledConsumed g)).setReg
      (Reg.LSYN_STANDING g) (d.groupSum g)
  else (((d.lapse (ledApplied g)).lapse (ledConsumed g)).ledgerRepair (ledApplied g)).ledgerRepair (ledConsumed g)

/-- The counts that a group's ledger says stand. -/
def Dev.groupNet (d : Dev) (g : Nat) : Word := d.ledgerVal (ledApplied g) - d.ledgerVal (ledConsumed g)

theorem Dev.sweepGroup_eq (d : Dev) (g : Nat) : d.sweepGroup g =
    if d.groupSum g = (d.groupShown g).groupNet g then d.groupShown g
    else (d.groupShown g).ledgerStop 0x0B01 3 g (d.groupSum g) ((d.groupShown g).groupNet g) ((d.groupShown g).groupSlots g) := rfl

/-! ### The mailbox -/

section
variable {d : Dev} {sl : Nat} (hon : d.rb (Reg.HMB_CFG sl) 0 = true)
include hon

section
variable {o : Nat} (hobj : o = d.rf (Reg.HMB_OBJ sl) 15 0) (howner : d.owner o = some sl) {n : Nat}
include hobj howner

/-- A length that is not legal is flagged. -/
theorem Dev.hmbSend_illegal (h : n < 8 ∨ 2040 < n ∨ n % 8 ≠ 0) : d.hmbSend sl n = d.setRb (Reg.HMB_STATUS sl) 1 true := by
  subst hobj
  rw [Dev.hmbSend]
  dsimp only
  rw [if_neg (by simp [hon]), if_neg (by simp [Dev.mailboxRejects, howner]), if_pos h]

variable (hlo : 8 ≤ n) (hhi : n ≤ 2040) (hmul : n % 8 = 0)
include hlo hhi hmul

/-- A message while the one before stands is flagged. -/
theorem Dev.hmbSend_full (hc : d.synCount o ≠ 0) : d.hmbSend sl n = d.setRb (Reg.HMB_STATUS sl) 0 true := by
  subst hobj
  rw [Dev.hmbSend]
  dsimp only
  rw [if_neg (by simp [hon]), if_neg (by simp [Dev.mailboxRejects, howner]), if_neg (by omega), if_pos hc]

/-- A message stands in the in-area, and its object is posted. -/
theorem Dev.hmbSend_sends (hc : d.synCount o = 0) {e : Dev} {xs : List Byte}
    (hwr : d.wr (unitWho sl 56) (d.rf (Reg.HMB_CFG sl) 47 12 * 4096)
      (leBytes 8 n ++ (List.range (n / 8)).flatMap (fun i => leBytes 8 (d.reg (Reg.HMB_DATA sl i)).toNat)) = .ok e xs) :
    d.hmbSend sl n = (e.unitDone sl 56).donePost sl 56 o 1 false := by
  subst hobj
  rw [Dev.hmbSend]
  dsimp only
  rw [if_neg (by simp [hon]), if_neg (by simp [Dev.mailboxRejects, howner]), if_neg (by omega), if_neg (not_not_intro hc), hwr]

end

/-- An acknowledgement resets the out object and posts the ack object. -/
theorem Dev.hmbAck_acks (hout : d.owner (d.rf (Reg.HMB_OBJ sl) 31 16) = some sl)
    (hack : d.owner (d.rf (Reg.HMB_OBJ sl) 47 32) = some sl) :
    d.hmbAck sl = ((d.synReset (d.rf (Reg.HMB_OBJ sl) 31 16)).post (d.rf (Reg.HMB_OBJ sl) 47 32) 1 false).1 := by
  rw [Dev.hmbAck]
  rw [if_neg (by simp [hon]), if_neg (by simp [Dev.mailboxRejects, hout, hack])]

end

section
variable {v : Via} {sl : Nat} {s : State} (hs : viaSees v sl = true)
include hs

theorem hmbSend_does {n : Nat} (hw : (Instr.hmbSend v sl n).wf = true) (ho : HostOpen s.dev (.hmbSend v sl n) v false true) :
    Does (.hmbSend v sl n) s (s.dev.hmbSend sl n) := by
  have he := host_open (f := fun a => if viaSees v sl then a.hmbSend sl n else a) hw ho
  rwa [if_pos hs] at he

theorem hmbAck_does (hw : (Instr.hmbAck v sl).wf = true) (ho : HostOpen s.dev (.hmbAck v sl) v false false) :
    Does (.hmbAck v sl) s (s.dev.hmbAck sl) := by
  have he := host_open (f := fun a => if viaSees v sl then a.hmbAck sl else a) hw ho
  rwa [if_pos hs] at he

end

end Sys2Proof.Machine

section

open Sys2Proof Sys2Proof.Machine Sys2Proof.Safety

/-- Settles O49. -/
theorem hostAccesses : Obligations.HostAccesses := by
  refine ⟨fun v o s hw hf ho => ⟨fun y hy hb => registerRcRead_shows hw hf ho hy hb rfl, fun hy => registerRcRead_other hw hf ho hy⟩,
    fun v o s hw hf => registerRcRead_failed hw hf, fun v o x s off r is hw ho hreset hy hbase => ?_,
    fun d v o y hy hv => Dev.regOf_view hy hv,
    fun d off busy x f hhi _ => ⟨Dev.writeField_rw d off busy x hhi, Dev.writeField_busy d off busy x,
      fun ha i hlo hi => Dev.writeField_w1c d off busy x hhi ha hlo hi, Dev.writeField_other d off busy x⟩,
    fun a s hw ho => ⟨fun d bs hr hon hin hrd => ?_, fun d bs xs hr hon hwr hin hrd => ?_, fun hoff => ⟨fun hr => ?_, fun bs hr => ?_⟩⟩,
    fun v x s e => ⟨fun sl h => ⟨fun hw ho => ?_, fun hw ho => ?_⟩, fun h => ⟨fun hw ho hp => ?_, fun hw ho => ?_⟩⟩,
    fun sl x s hw ho => ⟨fun hnew hj => synRangeWrite_flagged hw ho rfl hnew hj,
      fun hnew hj htakes hstand hover => synRangeWrite_sets hw ho rfl hnew rfl hj htakes hstand hover⟩,
    fun s => rfl, fun d g => ⟨fun h => (d.sweepGroup_eq g).trans (if_pos h), fun h => (d.sweepGroup_eq g).trans (if_neg h)⟩,
    fun v sl n s hw ho hs hon howner => ⟨fun h => ?_, fun hlo hhi hmul => ⟨fun hc => ?_, fun d xs hc hwr => ?_⟩⟩,
    fun v sl s hw ho hs hon hout hack => ?_⟩
  · have hexec := registerWrite_does hw ho hreset hy
    rw [State.fieldWrite_fields hbase] at hexec
    refine ⟨fun hjr => ?_, fun hjr hctl => ?_, fun hjr hctl => ?_⟩
    · rwa [if_pos (by simp [Option.isSome_iff_ne_none.mpr hjr.1, hjr.2])] at hexec
    · rwa [if_neg (by simpa [Option.isSome_iff_ne_none] using hjr), if_neg hctl] at hexec
    · rwa [if_neg (by simpa [Option.isSome_iff_ne_none] using hjr), if_pos hctl, Dev.pendCleared_eq] at hexec
  · have hdoes := bar4Access_reads hw ho hr
    rwa [Dev.apertureRead_bytes hon hin hrd] at hdoes
  · have hdoes := bar4Access_writes hw ho hr
    rwa [Dev.apertureWrite_bytes hon hwr hin hrd] at hdoes
  · have hdoes := bar4Access_reads hw ho hr
    rwa [Dev.apertureRead, if_pos (Or.inl hoff)] at hdoes
  · have hdoes := bar4Access_writes hw ho hr
    rwa [Dev.apertureWrite, if_pos (Or.inl hoff)] at hdoes
  · have hdoes := synPost_does hw ho
    rwa [Dev.synPostWrite_rejected h] at hdoes
  · have hdoes := synReset_does hw ho
    rwa [Dev.synResetWrite_rejected h] at hdoes
  · have hdoes := synPost_does hw ho
    rwa [Dev.synPostWrite_posts h hp] at hdoes
  · have hdoes := synReset_does hw ho
    rwa [Dev.synResetWrite_resets h] at hdoes
  · have hdoes := hmbSend_does hs hw ho
    rwa [Dev.hmbSend_illegal hon rfl howner h] at hdoes
  · have hdoes := hmbSend_does hs hw ho
    rwa [Dev.hmbSend_full hon rfl howner hlo hhi hmul hc] at hdoes
  · have hdoes := hmbSend_does hs hw ho
    rwa [Dev.hmbSend_sends hon rfl howner hlo hhi hmul hc hwr] at hdoes
  · have hdoes := hmbAck_does hs hw ho
    rwa [Dev.hmbAck_acks hon hout hack] at hdoes

end
end

section
/-! PROOFS. The register map of Lehr gives PWR_TSENS[32] and PWR_THERM one address (file 14). -/

namespace Sys2Proof.Machine

/-- Forty sensors that all read 30 °C. -/
def thirtyDegrees : List Int := List.replicate 40 300

/-- The hottest junction is then sensor 0. -/
theorem thirtyDegrees_hottest : hottest (junctions thirtyDegrees) = some (0, 300) := by decide

/-- The word of sensor 32 stands where PWR_THERM does. -/
theorem pwrTsens_32 : Reg.PWR_TSENS 32 = Reg.PWR_THERM := rfl

/-- No device shows a valid sensor 32 at 30 °C and sensor 0 as the hottest: bit 16 is the valid bit of the one and the lowest bit of
the sensor index of the other. -/
theorem Dev.not_tsens_and_therm (d : Dev) (hsens : d.reg (Reg.PWR_TSENS 32) = BitVec.ofNat 64 (temp16 300 + b2n (tempValid 300) * 2 ^ 16)) :
    d.rf Reg.PWR_THERM 21 16 ≠ 0 := by
  rw [Dev.rf, ← pwrTsens_32, hsens]
  decide

end Sys2Proof.Machine

section

open Sys2Proof Sys2Proof.Machine Sys2Proof.Safety

/-- Refutes O51: PWR_TSENS[32] and PWR_THERM have one address, 0x200300, in the spec's register map as in the model. After a sample of
40 sensors at 30 °C at the reset state that word would have to hold sensor 32 with its valid bit, bit 16, and the index 0 of the
hottest sensor in bits 21 to 16. -/
theorem not_powerAndThermal : ¬ Obligations.PowerAndThermal := by
  rintro ⟨-, hthermal⟩
  obtain ⟨hcool, -⟩ := hthermal thirtyDegrees State.reset 0 300 (by decide) thirtyDegrees_hottest
  obtain ⟨e, -, -, -, hsensor, hsens, -⟩ := hcool (by decide)
  exact e.not_tsens_and_therm (hsens 32 (by decide)) hsensor

end
end

section
/-! PROOFS. The pace epoch, its agreement and its boundary, and ageing (R676, R677, R682 to R687, R711, R712). -/

namespace Sys2Proof.Machine

open Sys2Proof.Safety

/-! ### The local proposal -/

/-- A device that has made its proposal. -/
def Dev.proposed (d : Dev) (k : Nat) : Dev := (d.modPwr (fun x => { x with own := some k })).setRf Reg.PWR_STATUS 22 16 k

/-- A device that shows a bin as agreed. -/
def Dev.agreedOn (d : Dev) (k : Nat) : Dev := (d.modPwr (fun x => { x with agreed := some k })).setRf Reg.PWR_STATUS 14 8 k

/-- What PWR_STATUS shows has no part in the pace tree. -/
theorem Dev.paceBound_setStatus (d : Dev) (w : Word) : (d.setReg Reg.PWR_STATUS w).paceBound = d.paceBound := by
  have hjob : (d.setReg Reg.PWR_STATUS w).hasJob = d.hasJob := by
    funext sl
    rw [Dev.hasJob, Dev.hasJob, Dev.jobState, Dev.jobState,
      Dev.rf_setReg_ne _ _ _ _ (show Reg.JOB_ADMIT sl ≠ Reg.PWR_STATUS by rw [Reg.JOB_ADMIT, Reg.PWR_STATUS]; omega)]
  rw [Dev.paceBound, Dev.paceBound, Dev.paceRole, Dev.paceRole, Dev.anyJob, Dev.anyJob, Dev.jobSlots, Dev.jobSlots, hjob,
    Dev.rf_setReg_ne _ _ _ _ (by decide)]

theorem Dev.paceBound_proposed (d : Dev) (k : Nat) : (d.proposed k).paceBound = d.paceBound := Dev.paceBound_setStatus _ _

/-- At 250 µs the device proposes, and runs at its proposal where it is bound to no tree. -/
theorem localProposal_does {s : State} (ht : 250000 ≤ s.dev.epochTime) (hown : s.dev.pwr.own = none) {k : Nat}
    (hk : k = s.dev.proposal) :
    Does .localProposal s (if s.dev.paceBound then s.dev.proposed k else (s.dev.proposed k).agreedOn k) := by
  subst hk
  have hexec : exec .localProposal s = execLocalProposal s := rfl
  rw [Does, hexec, execLocalProposal, run_wf rfl, if_neg (by simp [hown, Nat.not_lt.mpr ht]), ← Dev.paceBound_proposed]
  rfl

theorem Dev.proposed_shows (d : Dev) (k : Nat) : (d.proposed k).rf Reg.PWR_STATUS 22 16 = k % 2 ^ 7 :=
  Dev.rf_setRf_self _ _ 22 16 k (by decide)

theorem Dev.agreedOn_shows (d : Dev) (k : Nat) :
    (d.agreedOn k).rf Reg.PWR_STATUS 14 8 = k % 2 ^ 7 ∧ (d.agreedOn k).rf Reg.PWR_STATUS 22 16 = d.rf Reg.PWR_STATUS 22 16 :=
  ⟨Dev.rf_setRf_self _ _ 14 8 k (by decide), Dev.rf_setRf_apart _ _ 14 8 k 22 16 (Or.inr (by decide))⟩

/-! ### The bin proposed -/

theorem Dev.le_firstBin (d : Dev) (n k : Nat) : k ≤ d.firstBin n k := by
  induction n generalizing k with
  | zero => exact le_rfl
  | succ n ih =>
    rw [Dev.firstBin]
    split
    · exact le_rfl
    · exact (Nat.le_succ k).trans (ih (k + 1))

/-- A proposal lies between the fastest bin allowed and 64. -/
theorem Dev.proposal_bounds (d : Dev) : d.proposal ≤ 64 ∧ d.dmin ≤ d.proposal := by
  have hdmin : d.dmin ≤ 64 := by rw [Dev.dmin]; omega
  have hstart : d.dmin ≤ (if d.pwr.blind then max (max (d.rf Reg.PWR_AGE 14 8) (max d.dmin (d.dcur - 2))) d.dcur
      else max (d.rf Reg.PWR_AGE 14 8) (max d.dmin (d.dcur - 2))) := by
    split <;> omega
  have hbin := hstart.trans (d.le_firstBin 33 _)
  refine ⟨Nat.min_le_left _ _, le_min hdmin ?_⟩
  split
  · exact hbin.trans (Nat.le_max_left _ _)
  · exact hbin

/-! ### The tree -/

/-- A device whose up post is done. -/
def Dev.upSent (d : Dev) : Dev := d.modPwr (fun x => { x with upDone := true })

section
variable {s : State} {own : Nat} (hown : s.dev.pwr.own = some own) (hup : s.dev.pwr.upDone = false)
  (hwhen : (List.range s.dev.paceKids).all (fun j => (tfind s.dev.pwr.ups j).isSome) = true
    ∨ (if s.dev.paceRole = 2 then 480000 else 400000) ≤ s.dev.epochTime)
include hown hup hwhen

/-- With every child's post, or at its limit, a device of the tree goes on with what its subtree proposes. -/
theorem paceUpPost_does (hrole : s.dev.paceRole ≠ 0) {r : Nat × Bool} (hr : r = s.dev.subtree own) :
    Does .paceUpPost s
      (if s.dev.paceRole = 1 then s.dev.upSent.pacePost (s.dev.rf Reg.PWR_PACE 31 16) (0xFF00 + s.dev.rf Reg.PWR_PACE 5 2)
        (paceCount r.1 r.2 s.dev.treeEpoch)
      else if s.dev.paceBound then
        ((if r.2 then s.dev.upSent.paceLate else s.dev.upSent).modPwr (fun x =>
          { x with agreed := some (if r.2 then 64 else r.1), own := some (if r.2 then 64 else r.1) })).setRf Reg.PWR_STATUS 14 8
          (if r.2 then 64 else r.1)
      else (if r.2 then s.dev.upSent.paceLate else s.dev.upSent).modPwr (fun x =>
          { x with own := some (if r.2 then 64 else r.1) })) := by
  subst hr
  have hexec : exec .paceUpPost s = execPaceUpPost s := rfl
  have hgo : ¬ (s.dev.paceRole = 0 ∨ s.dev.pwr.upDone = true
      ∨ ((List.range s.dev.paceKids).all (fun j => (tfind s.dev.pwr.ups j).isSome) = false
        ∧ s.dev.epochTime < if s.dev.paceRole = 2 then 480000 else 400000)) := by
    rintro (h | h | ⟨hall, hlate⟩)
    · exact hrole h
    · exact absurd (hup.symm.trans h) Bool.false_ne_true
    · exact hwhen.elim (fun h => Bool.false_ne_true (hall.symm.trans h)) (Nat.not_le.mpr hlate)
  rw [Does, hexec, execPaceUpPost, run_wf rfl, hown]
  dsimp only
  rw [if_neg hgo]
  cases s.dev.paceBound <;> rfl

end

/-- A fold whose steps never fall ends no lower than it began. -/
theorem le_foldl {β : Type} {f : Nat → β → Nat} (hf : ∀ a b, a ≤ f a b) (l : List β) (a : Nat) : a ≤ l.foldl f a :=
  List.foldlRecOn (motive := fun x => a ≤ x) l f le_rfl (fun x hx b _ => hx.trans (hf x b))

/-- A fold whose steps never fall ends no lower than a value that one of its steps reaches. -/
theorem le_foldl_of_mem {β : Type} {f : Nat → β → Nat} (hf : ∀ a b, a ≤ f a b) {v : Nat} {x : β} (hx : ∀ a, v ≤ f a x) {l : List β}
    (hmem : x ∈ l) (a : Nat) : v ≤ l.foldl f a := by
  induction l generalizing a with
  | nil => cases hmem
  | cons y ys ih =>
    obtain rfl | h := List.mem_cons.mp hmem
    · exact (hx a).trans (le_foldl hf ys _)
    · exact ih h _

/-- The proposal of a subtree is no less than the device's own and its children's. -/
theorem Dev.subtree_largest (d : Dev) (own : Nat) : own ≤ (d.subtree own).1
    ∧ ∀ j p, j < d.paceKids → tfind d.pwr.ups j = some p → p.1 ≤ (d.subtree own).1 := by
  have hstep : ∀ (a : Nat) (u : Option (Nat × Bool)), a ≤ (match u with | some x => max a x.1 | none => a) := fun a u => by
    cases u with
    | none => exact le_rfl
    | some x => exact Nat.le_max_left _ _
  refine ⟨le_foldl hstep _ own, fun j p hj hp => le_foldl_of_mem hstep (x := some p) (fun a => Nat.le_max_right a p.1) ?_ own⟩
  exact List.mem_map.mpr ⟨j, List.mem_range.mpr hj, hp⟩

/-- The leader sends the agreement down at 500 µs. -/
theorem paceDownPost_sends {s : State} {k : Nat} (hown : s.dev.pwr.own = some k) (hrole : s.dev.paceRole = 2)
    (hup : s.dev.pwr.upDone = true) (hdown : s.dev.pwr.downDone = false) (ht : 500000 ≤ s.dev.epochTime) :
    Does .paceDownPost s ((s.dev.modPwr (fun x => { x with downDone := true })).postDown k s.dev.treeEpoch) := by
  have hexec : exec .paceDownPost s = execPaceDownPost s := rfl
  rw [Does, hexec, execPaceDownPost, run_wf rfl, hown]
  dsimp only
  rw [if_neg (by simp [hrole, hup, hdown, Nat.not_lt.mpr ht])]

/-- A member that has heard nothing runs at 64. -/
def Dev.unheard (d : Dev) : Dev :=
  (d.modPwr (fun x => { x with agreed := some 64, downDone := true, boundary := x.start + 1000000 })).setRf Reg.PWR_STATUS 14 8 64

/-- The flags of an incomplete agreement. -/
def Dev.lateShown (d : Dev) : Dev := (d.setRb Reg.PWR_STATUS 28 true).satRf Reg.PWR_EVENTS 47 32 1

theorem Dev.lateShown_status (d : Dev) : d.lateShown.rb Reg.PWR_STATUS 28 = true
    ∧ d.lateShown.rf Reg.PWR_STATUS 14 8 = d.rf Reg.PWR_STATUS 14 8 := by
  have hreg : d.lateShown.reg Reg.PWR_STATUS = (d.setRb Reg.PWR_STATUS 28 true).reg Reg.PWR_STATUS :=
    Dev.reg_satRf_ne _ _ _ _ (by decide)
  exact ⟨(congrArg (fun w => bitAt w 28) hreg).trans (Dev.rb_setRb_self _ _ _ _ (by decide)),
    (congrArg (fun w => fld w 14 8) hreg).trans (Dev.rf_setRb_apart _ _ _ _ _ _ (Or.inl (by decide)))⟩

/-- A member that hears nothing by 950 µs runs at 64 and records it. -/
theorem paceDownMissing_records {s : State} (hrole : s.dev.paceRole = 1) (hjob : s.dev.anyJob = true)
    (hdown : s.dev.pwr.downDone = false) (ht : 950000 ≤ s.dev.epochTime) :
    Does .paceDownMissing s (s.dev.unheard.lateShown.recordAll (s.dev.unheard.powerFault 0x0905 0)) := by
  have hexec : exec .paceDownMissing s = execPaceDownMissing s := rfl
  rw [Does, hexec, execPaceDownMissing, run_wf rfl, if_neg (by simp [hrole, hjob, hdown, Nat.not_lt.mpr ht])]
  rfl

/-! ### The boundary -/

/-- What a boundary leaves once it has set it: PWR_STATUS, and Lehr's state but for the slack that is measured. -/
def Dev.epochPart (d : Dev) : Word × Pwr := (d.reg Reg.PWR_STATUS, { d.pwr with minSlack := 0 })

theorem Dev.readMonitors_part (d : Dev) : d.readMonitors.epochPart = d.epochPart := by
  refine foldl_keeps (π := Dev.epochPart) (fun a k => ?_) _ d
  have hset : ∀ w, (a.setReg (Reg.PWR_PMON k) w).epochPart = a.epochPart := fun w =>
    Prod.ext (Dev.reg_setReg_ne _ _ (show Reg.PWR_STATUS ≠ Reg.PWR_PMON k by rw [Reg.PWR_STATUS, Reg.PWR_PMON]; omega)) rfl
  dsimp only
  split
  · exact hset _
  · exact hset _

theorem Dev.setLeaf0_part (d : Dev) (a w : Nat) : (d.setLeaf0 a w).epochPart = d.epochPart := rfl

theorem Dev.modEngine_part (d : Dev) (e : Nat) (f : Eng → Eng) : (d.modEngine e f).epochPart = d.epochPart := rfl

theorem Dev.halveCounts_part (d : Dev) (sl : Nat) : (d.halveCounts sl).epochPart = d.epochPart := by
  rw [Dev.halveCounts]
  refine foldl_keeps (π := Dev.epochPart) (fun a l => ?_) _ d
  exact Dev.setLeaf0_part a _ _

/-- The engines of a device begin to count anew what they serve. -/
def Dev.servedAnew (d : Dev) : Dev :=
  (List.range 32).foldl (fun a e => a.modEngine e (fun x => { x with servedLast := x.served, served := [] })) d

theorem Dev.servedAnew_part (d : Dev) : d.servedAnew.epochPart = d.epochPart := by
  rw [Dev.servedAnew]
  refine foldl_keeps (π := Dev.epochPart) (fun a e => ?_) _ d
  exact Dev.modEngine_part a e _

/-- The access counts of the slots with a job are halved. -/
def Dev.countsHalved (d : Dev) : Dev := (slots16.filter d.hasJob).foldl Dev.halveCounts d

theorem Dev.countsHalved_part (d : Dev) : d.countsHalved.epochPart = d.epochPart :=
  foldl_keeps (π := Dev.epochPart) Dev.halveCounts_part _ d

/-- A device at a boundary, with the divider and the number of the epoch set. -/
def Dev.epochShown (d : Dev) (k : Nat) : Dev :=
  (((d.commitAll [Reg.PWR_CAP, Reg.PWR_LIMIT, Reg.PWR_AGE]).setRf Reg.PWR_STATUS 6 0 k).setRf Reg.PWR_STATUS 14 8 k).setRf
    Reg.PWR_STATUS 63 32 (d.rf Reg.PWR_STATUS 63 32 + 1)

theorem Dev.epochShown_status (d : Dev) (k : Nat) : (d.epochShown k).rf Reg.PWR_STATUS 6 0 = k % 2 ^ 7
    ∧ (d.epochShown k).rf Reg.PWR_STATUS 63 32 = (d.rf Reg.PWR_STATUS 63 32 + 1) % 2 ^ 32 := by
  rw [Dev.epochShown]
  refine ⟨?_, Dev.rf_setRf_self _ _ 63 32 _ (by decide)⟩
  rw [Dev.rf_setRf_apart _ _ _ _ _ _ _ (Or.inl (by decide)), Dev.rf_setRf_apart _ _ _ _ _ _ _ (Or.inl (by decide))]
  exact Dev.rf_setRf_self _ _ 6 0 k (by decide)

/-- A device whose ageing offset is in force. -/
def Dev.epochAged (d : Dev) : Dev := d.setRf Reg.PWR_AGE 6 0 d.pwr.offset

/-- A device with an epoch begun at a boundary. -/
def Dev.epochBegun (d : Dev) (boundary k : Nat) : Dev :=
  d.modPwr (fun x =>
    { x with agreed := none, start := boundary, boundary := boundary + 1000000, own := none, upDone := false, downDone := false,
             ups := [], leaderEpoch := (x.leaderEpoch + 1) % 65536, divider := k, voltage := d.voltAt k })

theorem Dev.epochAged_status (d : Dev) : d.epochAged.reg Reg.PWR_STATUS = d.reg Reg.PWR_STATUS := Dev.reg_setReg_ne _ _ (by decide)

theorem Dev.epochBegun_reg (d : Dev) (boundary k o : Nat) : (d.epochBegun boundary k).reg o = d.reg o := rfl

theorem Dev.epochBegun_pwr (d : Dev) (boundary k : Nat) : (d.epochBegun boundary k).pwr.start = boundary
    ∧ (d.epochBegun boundary k).pwr.boundary = boundary + 1000000 ∧ (d.epochBegun boundary k).pwr.agreed = none
    ∧ (d.epochBegun boundary k).pwr.own = none ∧ (d.epochBegun boundary k).pwr.divider = k := ⟨rfl, rfl, rfl, rfl, rfl⟩

/-- Devices that agree in what a boundary sets agree in PWR_STATUS, the epoch's times and its bins. -/
theorem Dev.epochPart_shows {d e : Dev} (h : d.epochPart = e.epochPart) : d.reg Reg.PWR_STATUS = e.reg Reg.PWR_STATUS
    ∧ d.pwr.start = e.pwr.start ∧ d.pwr.boundary = e.pwr.boundary ∧ d.pwr.agreed = e.pwr.agreed ∧ d.pwr.own = e.pwr.own
    ∧ d.pwr.divider = e.pwr.divider := by
  obtain ⟨hreg, hpwr⟩ := Prod.ext_iff.mp h
  exact ⟨hreg, (congrArg Pwr.start hpwr :), (congrArg Pwr.boundary hpwr :), (congrArg Pwr.agreed hpwr :), (congrArg Pwr.own hpwr :),
    (congrArg Pwr.divider hpwr :)⟩

section
variable {d : Dev} (h : d.pwr.boundary ≤ d.now) {k : Nat}
  (hk : k = (if d.paceBound then d.pwr.agreed else none).getD (d.rf Reg.PWR_STATUS 22 16))
include h hk

theorem Dev.epochBoundary_eq : d.epochBoundary =
    ((d.epochShown k).epochAged.epochBegun d.pwr.boundary k).readMonitors.servedAnew.countsHalved := by
  subst hk
  rw [Dev.epochBoundary, if_neg (Nat.not_lt.mpr h)]
  rfl

/-- At a boundary the divider and the number of the epoch are shown, and the next epoch begins. -/
theorem Dev.epochBoundary_shows : d.epochBoundary.rf Reg.PWR_STATUS 6 0 = k % 2 ^ 7
    ∧ d.epochBoundary.rf Reg.PWR_STATUS 63 32 = (d.rf Reg.PWR_STATUS 63 32 + 1) % 2 ^ 32
    ∧ d.epochBoundary.pwr.start = d.pwr.boundary ∧ d.epochBoundary.pwr.boundary = d.pwr.boundary + 1000000
    ∧ d.epochBoundary.pwr.agreed = none ∧ d.epochBoundary.pwr.own = none ∧ d.epochBoundary.pwr.divider = k := by
  have hpart : d.epochBoundary.epochPart = ((d.epochShown k).epochAged.epochBegun d.pwr.boundary k).epochPart := by
    rw [Dev.epochBoundary_eq h hk, Dev.countsHalved_part, Dev.servedAnew_part, Dev.readMonitors_part]
  obtain ⟨hreg, hstart, hbound, hagreed, hown, hdiv⟩ := Dev.epochPart_shows hpart
  obtain ⟨hstart', hbound', hagreed', hown', hdiv'⟩ := (d.epochShown k).epochAged.epochBegun_pwr d.pwr.boundary k
  obtain ⟨hcur, hcount⟩ := d.epochShown_status k
  rw [Dev.epochBegun_reg, Dev.epochAged_status] at hreg
  exact ⟨(congrArg (fun w => fld w 6 0) hreg).trans hcur, (congrArg (fun w => fld w 63 32) hreg).trans hcount,
    hstart.trans hstart', hbound.trans hbound', hagreed.trans hagreed', hown.trans hown', hdiv.trans hdiv'⟩

end

theorem paceEpochBoundary_does (s : State) : Does .paceEpochBoundary s s.dev.epochBoundary := by
  have hexec : exec .paceEpochBoundary s = execPaceEpochBoundary s := rfl
  rw [Does, hexec, execPaceEpochBoundary, run_wf rfl]

/-! ### Ageing -/

/-- The journal of an ageing evaluation before its result. -/
def State.aged (s : State) : NonVol :=
  { s.nv with jHours := s.nv.jHours + 168, jHist := Config.histogram s.nv.jHist s.dev.hotNow }

/-- The device of an ageing evaluation after its result. -/
def Dev.hoursShown (d : Dev) (hours : Nat) : Dev :=
  (d.setRf Reg.PWR_AGE 63 24 hours).modPwr (fun x => { x with hours168 := x.hours168 + ageingPeriod, minSlack := 255 })

theorem ageingPeriod_eq : 168 * 3600 * 10 ^ 9 = ageingPeriod := by rw [ageingPeriod, hourCclk, Nat.mul_assoc]

theorem ageingEvaluation_early {s : State} (h : s.dev.now < s.dev.pwr.hours168 + ageingPeriod) : Idle .ageingEvaluation s := by
  have hexec : exec .ageingEvaluation s = execAgeingEvaluation s := rfl
  rw [Idle, hexec, execAgeingEvaluation, if_pos h]

theorem ageingEvaluation_due {s : State} (h : s.dev.pwr.hours168 + ageingPeriod ≤ s.dev.now) : exec .ageingEvaluation s =
    .next { s with nv := (ageingStep s.aged s.dev).1, dev := (ageingStep s.aged s.dev).2.hoursShown (ageingStep s.aged s.dev).1.jHours } := by
  have hexec : exec .ageingEvaluation s = execAgeingEvaluation s := rfl
  rw [hexec, execAgeingEvaluation, if_neg (Nat.not_lt.mpr h)]
  rfl

section
variable {nv : NonVol} {d : Dev}

theorem ageingStep_slack (h : d.inf Reg.PWR_AGE 23 16 ≤ d.pwr.minSlack) : ageingStep nv d = (nv, d) := if_pos h

variable (h : d.pwr.minSlack < d.inf Reg.PWR_AGE 23 16)
include h

theorem ageingStep_offset (hj : nv.jOffset < 60) : ageingStep nv d =
    ({ nv with jOffset := nv.jOffset + 5 }, d.modPwr (fun x => { x with offset := nv.jOffset + 5 })) := by
  rw [ageingStep, if_neg (Nat.not_le.mpr h), if_pos hj]

theorem ageingStep_dtop (hj : 60 ≤ nv.jOffset) : (ageingStep nv d).1 = { nv with jDtop := min 64 (nv.jDtop + 1) } := by
  rw [ageingStep, if_neg (Nat.not_le.mpr h), if_neg (Nat.not_lt.mpr hj)]

end

end Sys2Proof.Machine

section

open Sys2Proof Sys2Proof.Machine Sys2Proof.Safety

/-- Settles O52. -/
theorem paceEpochs : Obligations.PaceEpochs := by
  refine ⟨fun s ht hown => ?_, Dev.proposal_bounds, fun s own hown hup hwhen => ⟨fun hrole => ?_, fun hrole hr hb => ?_, fun hrole hr hb => ?_⟩,
    Dev.subtree_largest, fun s k hown hrole hup hdown ht => paceDownPost_sends hown hrole hup hdown ht,
    fun s hrole hjob hdown ht => ?_, fun s ht => ?_, fun s => ?_⟩
  · have hdoes := localProposal_does ht hown rfl
    cases hb : s.dev.paceBound with
    | true =>
      rw [if_pos hb] at hdoes
      exact ⟨_, hdoes, rfl, Dev.proposed_shows _ _, fun h => absurd h.symm Bool.false_ne_true, fun _ => rfl⟩
    | false =>
      rw [if_neg (by rw [hb]; exact Bool.false_ne_true)] at hdoes
      obtain ⟨hagreed, hown'⟩ := Dev.agreedOn_shows (s.dev.proposed s.dev.proposal) s.dev.proposal
      exact ⟨_, hdoes, rfl, hown'.trans (Dev.proposed_shows _ _), fun _ => ⟨rfl, hagreed⟩, fun h => absurd h Bool.false_ne_true⟩
  · have hdoes := paceUpPost_does hown hup hwhen (by omega) rfl
    rwa [if_pos hrole] at hdoes
  · have hdoes := paceUpPost_does hown hup hwhen (by omega) rfl
    rw [if_neg (by omega), if_pos hb, hr] at hdoes
    exact ⟨_, hdoes, rfl, rfl, Dev.rf_setRf_self _ _ 14 8 _ (by decide), rfl⟩
  · have hdoes := paceUpPost_does hown hup hwhen (by omega) rfl
    rw [if_neg (by omega), if_pos hb, hr] at hdoes
    exact hdoes
  · obtain ⟨hlate, hshown⟩ := s.dev.unheard.lateShown_status
    exact ⟨_, _, rfl, paceDownMissing_records hrole hjob hdown ht, rfl, rfl,
      hshown.trans (Dev.rf_setRf_self _ _ 14 8 64 (by decide)), hlate⟩
  · exact ⟨_, paceEpochBoundary_does s, Dev.epochBoundary_shows ht rfl⟩
  · rw [ageingPeriod_eq]
    refine ⟨ageingEvaluation_early, fun h =>
      ⟨_, ageingEvaluation_due h, ageingStep_jHours s.aged s.dev, rfl, fun hs => ?_, fun hs hj => ?_, fun hs hj => ?_⟩⟩
    · rw [ageingStep_slack (nv := s.aged) hs]
      exact ⟨rfl, rfl⟩
    · rw [ageingStep_offset (nv := s.aged) hs hj]
      exact ⟨rfl, rfl⟩
    · rw [ageingStep_dtop (nv := s.aged) hs hj]
      exact ⟨rfl, rfl⟩

end
end

section
/-! PROOFS. XRECV and XTAG (R242, R243, R398 to R401). -/

namespace Sys2Proof.Machine

open Sys2Proof.Safety

/-! ### What the end of an instruction leaves -/

theorem ended_reg (d : Dev) (c : Nat) (b : Bool) (o : Nat) : (ended d c b).reg o = d.reg o := by
  cases b with
  | false => rfl
  | true =>
    rw [ended, if_pos rfl, Dev.endReads]
    split <;> rfl

theorem onlyCore_reg {d e : Dev} {c : Nat} {x : Core} (h : OnlyCore d e c x) (o : Nat) : e.reg o = d.reg o := by
  obtain ⟨⟨b, he⟩, -⟩ := h
  exact (congrArg (fun a : Dev => a.reg o) he).trans (ended_reg d c b o)

theorem onlyCore_rf {d e : Dev} {c : Nat} {x : Core} (h : OnlyCore d e c x) (o hi lo : Nat) : e.rf o hi lo = d.rf o hi lo :=
  congrArg (fun v => fld v hi lo) (onlyCore_reg h o)

theorem onlyCore_xch {d e : Dev} {c : Nat} {x : Core} (h : OnlyCore d e c x) : e.xch = d.xch := by
  obtain ⟨⟨b, he⟩, -⟩ := h
  refine (congrArg Dev.xch he).trans ?_
  cases b with
  | false => rfl
  | true =>
    dsimp only
    rw [ended, if_pos rfl, Dev.endReads]
    split <;> rfl

theorem onlyCore_rqueue {d e : Dev} {c : Nat} {x : Core} (h : OnlyCore d e c x) (sl q : Nat) : e.rqueue sl q = d.rqueue sl q := by
  rw [Dev.rqueue, onlyCore_xch h, Dev.rqueue]

/-! ### A look at the queue -/

section
variable {c sl : Nat} {y : RecvWait} {n : Nat} {e : Dev}

/-- With no whole message the core waits. -/
theorem recvGo_waits (h : (e.rqueue sl y.queue).msgs.find? (fun m => m.complete) = none) :
    Dev.recvGo c sl y (n + 1) e = .stall e y.wait := by
  rw [Dev.recvGo, h]

variable {m : RecvMsg} (hm : (e.rqueue sl y.queue).msgs.find? (fun m => m.complete) = some m) {r : Dev × Bool}
  (hr : r = e.recvWhole sl m) (hwhole : r.2 = true)
  (htag : leNat (((r.1.recvBytes sl m 64).drop (if y.kind = 0 then 16 else 0)).take 8) = y.tag)
include hm hr hwhole htag

/-- A message of another kind than bin and chunk is taken. -/
theorem recvGo_data (h0 : y.kind ≠ 0) (h1 : y.kind ≠ 1) :
    Dev.recvGo c sl y (n + 1) e = (r.1.unitDone sl 60).takeMessage c sl y m := by
  subst hr
  rw [Dev.recvGo, hm]
  dsimp only
  rw [if_neg (by rw [hwhole]; exact Bool.true_eq_false_eq_False), if_neg (not_not_intro htag), if_neg h0, if_neg h1]

/-- A bin that passes its checks is taken. -/
theorem recvGo_bin (h0 : y.kind = 0) (hcode : r.1.binCode sl y.axis y.tag m = 0) :
    Dev.recvGo c sl y (n + 1) e = ((r.1.unitDone sl 60).binTaken sl y.axis y.tag m.src).takeMessage c sl y m := by
  subst hr
  rw [Dev.recvGo, hm]
  dsimp only
  rw [if_neg (by rw [hwhole]; exact Bool.true_eq_false_eq_False), if_neg (not_not_intro htag), if_pos h0, if_pos hcode]

end

/-- A device that has noted a chunk as committed. -/
def Dev.chunkNoted (d : Dev) (sl tag idx : Nat) : Dev := { d with xch := { d.xch with chunks := (sl, tag, idx) :: d.xch.chunks } }

/-- A device that has noted the head of a chunk, with its saturation mark. -/
def Dev.chunkSeen (d : Dev) (sl tag idx : Nat) (head : List Byte) : Dev :=
  if ((head.getD 15 0).toNat).testBit 1 then (d.chunkNoted sl tag idx).setRb (Reg.XCH_STATUS sl) 2 true else d.chunkNoted sl tag idx

/-- A device that has posted the receipt of a chunk in its queue and sent it. -/
def Dev.chunkReceipted (d : Dev) (sl q c tag idx src : Nat) : Dev :=
  ((d.setAttempts sl tag idx 0 0).recvPost sl q).sendReceipt sl c tag 0 idx src

/-- A chunk that is not committed yet and verifies is taken, and its receipt sent. -/
theorem recvGo_chunk {c sl : Nat} {y : RecvWait} {n : Nat} {e : Dev} {m : RecvMsg}
    (hm : (e.rqueue sl y.queue).msgs.find? (fun m => m.complete) = some m) {r : Dev × Bool} (hr : r = e.recvWhole sl m)
    (hwhole : r.2 = true) (htag : leNat (((r.1.recvBytes sl m 64).drop (if y.kind = 0 then 16 else 0)).take 8) = y.tag)
    (h1 : y.kind = 1) {idx : Nat} (hidx : idx = leNat (((r.1.recvBytes sl m 64).drop 8).take 4))
    (hnew : (sl, y.tag, idx) ∉ (r.1.unitDone sl 60).xch.chunks) (hok : chunkOk (r.1.recvBytes sl m m.bytes) = true) :
    Dev.recvGo c sl y (n + 1) e = (((r.1.unitDone sl 60).chunkSeen sl y.tag idx (r.1.recvBytes sl m 64)).chunkReceipted sl y.queue c y.tag
      idx m.src).takeMessage c sl y m := by
  subst hr hidx
  rw [Dev.recvGo, hm]
  dsimp only
  rw [if_neg (by rw [hwhole]; exact Bool.true_eq_false_eq_False), if_neg (not_not_intro htag), if_neg (by rw [h1]; decide), if_pos h1,
    if_pos h1, if_neg (by rw [List.contains_iff_mem]; exact hnew), if_pos hok]
  rfl

/-! ### A message is taken -/

/-- A device that has handed the buffer of a message to a core. -/
def Dev.messageHanded (d : Dev) (sl q : Nat) (m : RecvMsg) (c : Nat) : Dev := (d.dropRecv sl q m).bufHand m.pool m.buf c

theorem Dev.messageHanded_core (d : Dev) (sl q : Nat) (m : RecvMsg) (c k : Nat) : (d.messageHanded sl q m c).core k = d.core k := rfl

theorem Dev.messageHanded_reg (d : Dev) (sl q : Nat) (m : RecvMsg) (c o : Nat) : (d.messageHanded sl q m c).reg o = d.reg o := rfl

/-- The whole word of a register after it was set. -/
theorem Dev.rf_setRf_word (d : Dev) (o x : Nat) : (d.setRf o 63 0 x).rf o 63 0 = x % 2 ^ 64 := Dev.rf_setRf_self d o 63 0 x (by decide)

theorem Dev.messageHanded_rf (d : Dev) (sl q : Nat) (m : RecvMsg) (c o hi lo : Nat) :
    (d.messageHanded sl q m c).rf o hi lo = d.rf o hi lo := rfl

theorem Dev.core_addRf (d : Dev) (o hi lo n k : Nat) : (d.addRf o hi lo n).core k = d.core k := rfl

theorem Dev.messageHanded_counted (d : Dev) (sl q : Nat) (m : RecvMsg) (c : Nat) :
    ((d.messageHanded sl q m c).addRf (Reg.XCH_BINS sl) 63 0 1).rf (Reg.XCH_BINS sl) 63 0 = (d.rf (Reg.XCH_BINS sl) 63 0 + 1) % 2 ^ 64 := by
  rw [Dev.addRf, Dev.rf_setRf_word, Dev.messageHanded_rf]

/-- Taking a bin changes the bins noted alone. -/
theorem Dev.binTaken_eq (d : Dev) (sl axis tag src : Nat) :
    ∃ bs, d.binTaken sl axis tag src = { d with xch := { d.xch with bins := bs } } := ⟨_, rfl⟩

theorem Dev.binTaken_rf (d : Dev) (sl axis tag src o hi lo : Nat) : (d.binTaken sl axis tag src).rf o hi lo = d.rf o hi lo := by
  obtain ⟨bs, h⟩ := d.binTaken_eq sl axis tag src
  rw [h]
  rfl

theorem Dev.binTaken_core (d : Dev) (sl axis tag src k : Nat) : (d.binTaken sl axis tag src).core k = d.core k := by
  obtain ⟨bs, h⟩ := d.binTaken_eq sl axis tag src
  rw [h]
  rfl

theorem Dev.binTaken_recvAddr (d : Dev) (sl axis tag src : Nat) (m : RecvMsg) : (d.binTaken sl axis tag src).recvAddr m = d.recvAddr m := by
  obtain ⟨bs, h⟩ := d.binTaken_eq sl axis tag src
  rw [h]
  rfl

/-- A message that is no bin gives its buffer and its address to the core. -/
theorem Dev.takeMessage_hands {d : Dev} {c sl : Nat} {y : RecvWait} {m : RecvMsg} (h0 : y.kind ≠ 0) : d.takeMessage c sl y m =
    .done ((d.messageHanded sl y.queue m c).modCore c (fun x => x.setG y.rd (BitVec.ofNat 64 (d.recvAddr m)))) := by
  rw [Dev.takeMessage]
  rw [if_neg h0]
  rfl

/-- A bin is counted too. -/
theorem Dev.takeMessage_counts {d : Dev} {c sl : Nat} {y : RecvWait} {m : RecvMsg} (h0 : y.kind = 0) : d.takeMessage c sl y m =
    .done (((d.messageHanded sl y.queue m c).addRf (Reg.XCH_BINS sl) 63 0 1).modCore c
      (fun x => x.setG y.rd (BitVec.ofNat 64 (d.recvAddr m)))) := by
  rw [Dev.takeMessage]
  rw [if_pos h0]
  rfl

/-- An instruction that completes with a register written. -/
theorem Dev.finish_done_setG (d : Dev) (c n rd : Nat) (v : Word) :
    (Dev.finish c n (.done (d.modCore c (fun x => x.setG rd v)))).core c = ((d.core c).setG rd v).retire n
    ∧ ∀ o hi lo, (Dev.finish c n (.done (d.modCore c (fun x => x.setG rd v)))).rf o hi lo = d.rf o hi lo := by
  have honly := onlyCore_done_mod d c n (fun x => x.setG rd v)
  exact ⟨(honly.2 c).trans (if_pos rfl), onlyCore_rf honly⟩

/-! ### XRECV -/

/-- What an XRECV waits for, as its descriptor says. -/
def recvWaitOf (d : Dev) (w : IW) (sl : Nat) (ws : List Nat) : RecvWait :=
  { rd := w.rd.toNat, queue := nfld (ws.getD 1 0) 3 0, tag := ws.getD 0 0, kind := nfld (ws.getD 1 0) 5 4,
    axis := nfld (ws.getD 1 0) 7 6, limit := d.recvLimit sl (nfld (ws.getD 1 0) 47 32) }

section
variable {w : IW} {s : State} {d : Dev} {ws : List Nat} (hw : (Instr.xrecvReceive w).wf = true)
  (hi : Issues s.dev (cOp 0x2A false) (decide (fld w.fn 10 2 = 0)) w)
  (hdesc : s.dev.desc w.core ((s.dev.core w.core).r1 w) 4 = .ok d ws) {sl : Nat} (hsl : sl = (s.dev.core w.core).slotN)
  (hkind : nfld (ws.getD 1 0) 5 4 ≠ 3) {y : RecvWait} (hy : y = recvWaitOf d w sl ws)
include hw hi hdesc hsl hkind hy

/-- An XRECV with a legal descriptor looks at its queue. -/
theorem xrecvReceive_looks : Does (.xrecvReceive w) s
    (Dev.finish w.core (ilenOf w) (Dev.recvGo w.core sl y ((d.rqueue sl y.queue).msgs.length + 1) d)) := by
  subst hsl hy
  have hdoes := does_instr (c := .xrecvReceive w) rfl hw hi
  dsimp only at hdoes
  rw [hdesc] at hdoes
  dsimp only at hdoes
  rw [if_neg hkind] at hdoes
  exact hdoes

/-- With no whole message the core waits in it, and nothing else changes. -/
theorem xrecvReceive_waits (h : (d.rqueue sl y.queue).msgs.find? (fun m => m.complete) = none) :
    ∃ e, Does (.xrecvReceive w) s e ∧ (e.core w.core).takes = false ∧ (e.core w.core).pc = (d.core w.core).pc
      ∧ (e.core w.core).getG = (d.core w.core).getG ∧ e = { d with cores := e.cores } := by
  have hdoes := xrecvReceive_looks hw hi hdesc hsl hkind hy
  rw [recvGo_waits h, Dev.finish] at hdoes
  refine ⟨_, hdoes, ?_, ?_, ?_, rfl⟩
  · rw [Dev.core_modCore_self, Core.takes]
    exact Bool.and_false _
  · rw [Dev.core_modCore_self]
  · rw [Dev.core_modCore_self]
    rfl

variable {m : RecvMsg} (hm : (d.rqueue sl y.queue).msgs.find? (fun m => m.complete) = some m) {r : Dev × Bool}
  (hr : r = d.recvWhole sl m) (hwhole : r.2 = true)
  (htag : leNat (((r.1.recvBytes sl m 64).drop (if y.kind = 0 then 16 else 0)).take 8) = y.tag) {e1 : Dev}
  (he1 : e1 = r.1.unitDone sl 60)
include hm hr hwhole htag he1

/-- A message of another kind than bin and chunk passes to the core. -/
theorem xrecvReceive_data (h0 : y.kind ≠ 0) (h1 : y.kind ≠ 1) :
    ∃ e, Does (.xrecvReceive w) s e ∧ OnlyCore (e1.messageHanded sl y.queue m w.core) e w.core
      (((e1.core w.core).setG y.rd (BitVec.ofNat 64 (e1.recvAddr m))).retire (ilenOf w)) := by
  subst he1
  have hdoes := xrecvReceive_looks hw hi hdesc hsl hkind hy
  rw [recvGo_data hm hr hwhole htag h0 h1, Dev.takeMessage_hands h0] at hdoes
  exact ⟨_, hdoes, onlyCore_done_mod _ _ _ _⟩

/-- A bin passes to the core and is counted. -/
theorem xrecvReceive_bin (h0 : y.kind = 0) (hcode : r.1.binCode sl y.axis y.tag m = 0) :
    ∃ e, Does (.xrecvReceive w) s e ∧ e.core w.core = ((e1.core w.core).setG y.rd (BitVec.ofNat 64 (e1.recvAddr m))).retire (ilenOf w)
      ∧ e.rf (Reg.XCH_BINS sl) 63 0 = (e1.rf (Reg.XCH_BINS sl) 63 0 + 1) % 2 ^ 64 := by
  subst he1
  have hdoes := xrecvReceive_looks hw hi hdesc hsl hkind hy
  rw [recvGo_bin hm hr hwhole htag h0 hcode, Dev.takeMessage_counts h0] at hdoes
  obtain ⟨hcore, hrf⟩ := Dev.finish_done_setG ((((r.1.unitDone sl 60).binTaken sl y.axis y.tag m.src).messageHanded sl y.queue m
    w.core).addRf (Reg.XCH_BINS sl) 63 0 1) w.core (ilenOf w) y.rd
    (BitVec.ofNat 64 (((r.1.unitDone sl 60).binTaken sl y.axis y.tag m.src).recvAddr m))
  refine ⟨_, hdoes, hcore.trans ?_, (hrf _ 63 0).trans ((Dev.messageHanded_counted _ sl y.queue m w.core).trans ?_)⟩
  · rw [Dev.core_addRf, Dev.messageHanded_core, Dev.binTaken_core, Dev.binTaken_recvAddr]
  · rw [Dev.binTaken_rf]

/-- A chunk passes to the core, its receipt to its sender. -/
theorem xrecvReceive_chunk (h1 : y.kind = 1) {idx : Nat} (hidx : idx = leNat (((r.1.recvBytes sl m 64).drop 8).take 4))
    (hnew : (sl, y.tag, idx) ∉ e1.xch.chunks) (hok : chunkOk (r.1.recvBytes sl m m.bytes) = true) {d2 d3 : Dev}
    (hd2 : d2 = (e1.chunkSeen sl y.tag idx (r.1.recvBytes sl m 64)).chunkReceipted sl y.queue w.core y.tag idx m.src)
    (hd3 : d3 = d2.messageHanded sl y.queue m w.core) :
    ∃ e, Does (.xrecvReceive w) s e ∧ OnlyCore d3 e w.core
      (((d3.core w.core).setG y.rd (BitVec.ofNat 64 (d2.recvAddr m))).retire (ilenOf w)) := by
  subst he1 hd3 hd2
  have hdoes := xrecvReceive_looks hw hi hdesc hsl hkind hy
  rw [recvGo_chunk hm hr hwhole htag h1 hidx hnew hok, Dev.takeMessage_hands (by rw [h1]; decide)] at hdoes
  exact ⟨_, hdoes, onlyCore_done_mod _ _ _ _⟩

end

/-- A wait beyond its limit raises 0x0402. -/
theorem xrecvTimeout_raises {c rd q kind axis limit : Nat} {tag : Word} {s : State} (hw : (Instr.xrecvTimeout c).wf = true)
    (hwait : (s.dev.core c).wait = some (.recv rd q tag kind axis limit)) (hlate : limit ≤ s.dev.now) :
    ∃ f, f.code = 0x0402 ∧ Does (.xrecvTimeout c) s
      (Dev.finish c (s.dev.core c).ilen (.raise (s.dev.xchShow (s.dev.core c).slotN 0x0402 0) 8 f)) := by
  have hdoes := does_of_run (c := .xrecvTimeout c) (s := s) rfl hw
  dsimp only at hdoes
  rw [hwait] at hdoes
  dsimp only at hdoes
  rw [if_pos hlate] at hdoes
  exact ⟨_, rfl, hdoes⟩

/-! ### XRECV bind -/

theorem Dev.rqueue_setRqueue_self (d : Dev) (sl q : Nat) (x : RecvQueue) : (d.setRqueue sl q x).rqueue sl q = x := tget_tput_self _ _ _ _

/-- A queue without a pool, or with the one named, has the pool named. -/
theorem Dev.bindQueue_binds {d : Dev} {sl q p : Nat} (h : (d.rqueue sl q).pool = none ∨ (d.rqueue sl q).pool = some p) :
    ∃ qs, d.bindQueue sl q p = { d with xch := { d.xch with queues := qs } }
      ∧ (d.bindQueue sl q p).rqueue sl q = { d.rqueue sl q with pool := some p } := by
  obtain h | h := h
  · have heq : d.bindQueue sl q p = d.setRqueue sl q { d.rqueue sl q with pool := some p } := by
      rw [Dev.bindQueue, h]
    rw [heq]
    exact ⟨_, rfl, Dev.rqueue_setRqueue_self _ _ _ _⟩
  · have heq : d.bindQueue sl q p = d := by
      rw [Dev.bindQueue, h]
      exact if_pos rfl
    rw [heq, ← h]
    exact ⟨d.xch.queues, rfl, rfl⟩

theorem xrecvBind_binds {w : IW} {s : State} (hw : (Instr.xrecvBind w).wf = true)
    (hi : Issues s.dev (cOp 0x2A false) (decide (fld w.fn 10 2 = 0)) w) {x : Core} (hx : x = s.dev.core w.core) {p q : Nat}
    (hp : p = fld (x.r2 w) 15 0) (hq : q = fld (x.r1 w) 3 0) (hnamed : s.dev.poolNamed w.core p = true)
    (hpool : (s.dev.rqueue x.slotN q).pool = none ∨ (s.dev.rqueue x.slotN q).pool = some p) :
    ∃ e qs, Does (.xrecvBind w) s e ∧ OnlyCore { s.dev with xch := { s.dev.xch with queues := qs } } e w.core (x.retire (ilenOf w))
      ∧ e.rqueue x.slotN q = { s.dev.rqueue x.slotN q with pool := some p } := by
  subst hp hq hx
  obtain ⟨qs, heq, hqueue⟩ := Dev.bindQueue_binds hpool
  have hdoes := does_instr (c := .xrecvBind w) rfl hw hi
  dsimp only at hdoes
  rw [if_neg (by rw [hnamed]; exact Bool.true_eq_false_eq_False)] at hdoes
  have honly := onlyCore_done (s.dev.bindQueue (s.dev.core w.core).slotN (fld ((s.dev.core w.core).r1 w) 3 0)
    (fld ((s.dev.core w.core).r2 w) 15 0)) w.core (ilenOf w)
  refine ⟨_, qs, hdoes, ?_, ?_⟩
  · rw [heq] at honly ⊢
    exact honly
  · exact (onlyCore_rqueue honly _ _).trans hqueue

/-! ### XTAG -/

theorem xtag_writes {w : IW} {s : State} {d : Dev} {bs : List Byte} (hw : (Instr.xtag w).wf = true)
    (hi : Issues s.dev (cOp 0x2B false) (decide (w.fn = 0)) w) (hva : ((s.dev.core w.core).r1 w).toNat < 2 ^ 48)
    (hload : s.dev.unitLoad w.core ((s.dev.core w.core).r1 w).toNat 32 = .ok d bs) :
    ∃ e, Does (.xtag w) s e ∧ OnlyCore d e w.core
      (((d.core w.core).setG w.rd.toNat (BitVec.ofNat 64 (tagOfBlock bs))).retire (ilenOf w)) := by
  have hdoes := does_instr (c := .xtag w) rfl hw hi
  rw [if_neg (Nat.not_le.mpr hva), hload] at hdoes
  dsimp only at hdoes
  rw [doneRd] at hdoes
  exact ⟨_, hdoes, onlyCore_done_mod _ _ _ _⟩

end Sys2Proof.Machine
end

section
/-! PROOFS. Aborts, the checks, the sums and the end of a collective (R221, R224, R230 to R232, R236, R237). -/

namespace Sys2Proof.Machine

open Sys2Proof.Safety

/-! ### The collective in hand -/

section
variable {d : Dev} {c sl : Nat} {x : Coll} (hwait : (d.core c).wait = some .coll) (hcoll : (d.core c).coll = some x)
  (hslot : (d.core c).slot = some sl)
include hwait hcoll hslot

theorem Dev.onColl_runs (f : Nat → Coll → Dev) : d.onColl c f = f sl x := by
  rw [Dev.onColl, hwait, hcoll, hslot]

theorem Dev.collEnd_waits (h : x.complete = false) : d.collEnd c = d := by
  rw [Dev.collEnd, Dev.onColl_runs hwait hcoll hslot, if_neg (by rw [h, Bool.false_and]; exact Bool.false_ne_true)]

theorem Dev.collEnd_ends (h : x.complete = true) (hs : d.settled c = true) :
    d.collEnd c = ((d.collStatus sl x true true 0).donePost sl 60 x.desc.so 1 false).collReturn c := by
  rw [Dev.collEnd, Dev.onColl_runs hwait hcoll hslot, if_pos (by rw [h, hs]; rfl)]

/-- Once every chunk is committed there is none to commit. -/
theorem Dev.collCommit_done (h : x.outputs.length ≤ x.committed) : d.collCommit c = d := by
  rw [Dev.collCommit, Dev.onColl_runs hwait hcoll hslot, List.getElem?_eq_none h]

end

/-- A wait of a collective beyond its limit aborts it. -/
theorem xrecvTimeout_aborts {c sl : Nat} {x : Coll} {s : State} (hw : (Instr.xrecvTimeout c).wf = true)
    (hwait : (s.dev.core c).wait = some .coll) (hcoll : (s.dev.core c).coll = some x) (hslot : (s.dev.core c).slot = some sl)
    (hlate : x.since + x.desc.limitTime ≤ s.dev.now) : Does (.xrecvTimeout c) s (s.dev.collAbort c sl x 0x0402 0 0) := by
  have hdoes := does_of_run (c := .xrecvTimeout c) (s := s) rfl hw
  dsimp only at hdoes
  rw [hwait] at hdoes
  dsimp only at hdoes
  rwa [Dev.onColl_runs hwait hcoll hslot, if_pos hlate] at hdoes

/-! ### Abort messages -/

/-- A device that has noted the abort of a tag. -/
def Dev.abortNoted (d : Dev) (sl tag : Nat) : Dev := { d with xch := { d.xch with aborted := (sl, tag) :: d.xch.aborted } }

/-- A device that shows the abort of a tag that is not in hand. -/
def Dev.abortShown (d : Dev) (sl tag sender : Nat) : Dev :=
  ((d.abortNoted sl tag).xchShow sl 0x0407 sender).setRb (Reg.XCH_STATUS sl) 4 true

/-- Showing a fault of the exchange sets registers alone. -/
theorem Dev.xchShow_regs (d : Dev) (sl code sender : Nat) : ∃ t, d.xchShow sl code sender = { d with regs := t } := by
  rw [Dev.xchShow]
  cases xchBit code with
  | none => exact ⟨_, rfl⟩
  | some b => exact ⟨_, rfl⟩

theorem Dev.setRb_regs (d : Dev) (o i : Nat) (b : Bool) : ∃ t, d.setRb o i b = { d with regs := t } := ⟨_, rfl⟩

theorem Dev.abortShown_regs (d : Dev) (sl tag sender : Nat) :
    ∃ t, d.abortShown sl tag sender = { d.abortNoted sl tag with regs := t } := by
  obtain ⟨t, ht⟩ := (d.abortNoted sl tag).xchShow_regs sl 0x0407 sender
  obtain ⟨u, hu⟩ := Dev.setRb_regs { d.abortNoted sl tag with regs := t } (Reg.XCH_STATUS sl) 4 true
  exact ⟨u, by rw [Dev.abortShown, ht, hu]⟩

section
variable {c desc sender sl : Nat} {tag : Word} {s : State} (hw : (Instr.abortMessageArrival c desc tag sender).wf = true)
  (hslot : (s.dev.core c).slot = some sl) (hruns : s.dev.runs sl = true) (hnew : (sl, tag.toNat) ∉ s.dev.xch.aborted)
include hw hslot hruns hnew

/-- The first abort message for the tag in hand aborts the collective. -/
theorem abortMessageArrival_mine {x : Coll} (hwait : (s.dev.core c).wait = some .coll) (hcoll : (s.dev.core c).coll = some x)
    (htag : x.tag = tag.toNat) : Does (.abortMessageArrival c desc tag sender) s (s.dev.collAbort c sl x 0x0407 sender 0) := by
  have hdoes := does_of_run (c := .abortMessageArrival c desc tag sender) (s := s) rfl hw
  rw [hslot] at hdoes
  dsimp only at hdoes
  rwa [if_neg (by simp [hruns, hnew]), if_pos (by simp [hcoll, hwait, htag]), Dev.onColl_runs hwait hcoll hslot] at hdoes

/-- One for another tag is noted and shown, and its steps follow. -/
theorem abortMessageArrival_other (hother : ∀ x, (s.dev.core c).coll = some x → x.tag ≠ tag.toNat) :
    Does (.abortMessageArrival c desc tag sender) s
      ((s.dev.abortShown sl tag.toNat sender).doStep (.abort sl c desc tag.toNat sender)) := by
  have hmine : ((s.dev.core c).coll.map (fun (y : Coll) => decide (y.tag = tag.toNat))).getD false = false := by
    cases h : (s.dev.core c).coll with
    | none => rfl
    | some x => exact decide_eq_false (hother x h)
  have hdoes := does_of_run (c := .abortMessageArrival c desc tag sender) (s := s) rfl hw
  rw [hslot] at hdoes
  dsimp only at hdoes
  rwa [if_neg (by simp [hruns, hnew]), hmine, if_neg (fun h => Bool.false_ne_true h.1)] at hdoes

end

/-- The device that shows an abort waits with its steps behind those of the exchange that wait. -/
theorem Dev.abortShown_step (d : Dev) (sl c desc tag sender : Nat) :
    (d.abortShown sl tag sender).doStep (.abort sl c desc tag sender) =
      if d.unitBusy sl 60 = true then (d.abortShown sl tag sender).addLater (.abort sl c desc tag sender)
      else (d.abortShown sl tag sender).abortSteps sl c desc tag sender := by
  have hbusy : (d.abortShown sl tag sender).unitBusy sl 60 = d.unitBusy sl 60 := by
    obtain ⟨t, ht⟩ := d.abortShown_regs sl tag sender
    rw [ht]
    rfl
  rw [Dev.doStep, hbusy]

theorem Dev.abortShown_shows (d : Dev) (sl tag sender : Nat) : (d.abortShown sl tag sender).xch.aborted = (sl, tag) :: d.xch.aborted
    ∧ (d.abortShown sl tag sender).rb (Reg.XCH_STATUS sl) 4 = true
    ∧ d.abortShown sl tag sender = { d with regs := (d.abortShown sl tag sender).regs,
                                            xch := { d.xch with aborted := (d.abortShown sl tag sender).xch.aborted } } := by
  refine ⟨?_, Dev.rb_setRb_self _ _ _ _ (by decide), ?_⟩
  · obtain ⟨t, ht⟩ := d.abortShown_regs sl tag sender
    rw [ht]
    rfl
  · obtain ⟨t, ht⟩ := d.abortShown_regs sl tag sender
    rw [ht]
    rfl

/-- The steps on an abort message whose descriptor stands here: the fault, its status word, and its object. -/
theorem Dev.abortSteps_acts {d d1 : Dev} {sl c desc tag sender : Nat} {bs : List Byte} (h : d.unitRead sl 60 desc 80 = .ok d1 bs)
    {w : Nat → Nat} (hws : w = fun i => (leWords 8 10 bs).getD i 0) :
    ∃ f : FaultInfo, f.code = 0x0407 ∧ f.units = nfld (w 9) 63 32 ∧ d.abortSteps sl c desc tag sender
      = ((d1.asyncFault c sl f).unitWrite sl 60 (desc + 72) (leBytes 8 (nset (nset (w 9) 1 0 1) 31 16 0x0407))).donePost
          sl 60 (nfld (w 6) 15 0) 1 true := by
  subst hws
  refine ⟨(xchFault 0x0407 (BitVec.ofNat 64 tag) 60 tag (nfld ((leWords 8 10 bs).getD 0 0) 63 32) sender 0).after 3
    (nfld ((leWords 8 10 bs).getD 9 0) 63 32), rfl, rfl, ?_⟩
  rw [Dev.abortSteps, h]

/-! ### The integers of an anchored sum -/

/-- A number within the range of a signed field reads back. -/
theorem sval_ofSval {n : Nat} (hn : 0 < n) {v : Int} (hlo : -2 ^ (n - 1) ≤ v) (hhi : v < 2 ^ (n - 1)) : sval n (ofSval n v) = v := by
  have htwo : 2 ^ n = 2 * 2 ^ (n - 1) := by rw [mul_comm, Nat.two_pow_pred_mul_two hn]
  rw [← Nat.cast_ofNat, ← Nat.cast_pow] at hlo hhi
  rw [sval, ofSval, htwo]
  generalize 2 ^ (n - 1) = half at hlo hhi ⊢
  obtain hv | hv := le_or_gt 0 v
  · rw [Int.emod_eq_of_lt hv (by omega), Nat.mod_eq_of_lt (by omega), if_pos (by omega)]
    omega
  · have hmod : v % ((2 * half : Nat) : Int) = v + (2 * half : Nat) := by
      rw [← Int.add_emod_right]
      exact Int.emod_eq_of_lt (by omega) (by omega)
    rw [hmod, Nat.mod_eq_of_lt (by omega), if_neg (by omega)]
    omega

/-- Integers of an anchored form have 96 or 64 bits. -/
theorem CollDesc.tbits_pos {x : CollDesc} (h : x.anchored = true) : 0 < x.tbits := by
  have hred : x.reduces = true := by
    simp only [CollDesc.anchored, CollDesc.sums, Bool.and_eq_true] at h
    exact h.1.1.1
  rw [CollDesc.tbits, hred, h]
  rw [if_neg (by decide), if_pos rfl]
  split <;> decide

section
variable {x : CollDesc} (h : x.anchored = true) {m : Int}
include h

/-- A number within the form's range reads back. -/
theorem CollDesc.sval_within (hlo : -x.limit ≤ m) (hhi : m ≤ x.limit) : sval x.tbits (ofSval x.tbits m) = m := by
  rw [CollDesc.limit] at hlo hhi
  exact sval_ofSval (CollDesc.tbits_pos h) (by omega) (by omega)

/-- An integer within the form's range is kept. -/
theorem CollDesc.fit_within (hlo : -x.limit ≤ m) (hhi : m ≤ x.limit) : sval x.tbits (x.fit m).1 = m ∧ (x.fit m).2 = false := by
  rw [CollDesc.fit, if_neg (fun hc => absurd hc.2 (Int.not_lt.mpr hhi)), if_neg (fun hc => absurd hc.2 (Int.not_lt.mpr hlo))]
  exact ⟨CollDesc.sval_within h hlo hhi, rfl⟩

/-- Under a fixed anchor an integer saturates at the ends of the form's range. -/
theorem CollDesc.fit_saturates (ha : x.amode = 1) :
    sval x.tbits (x.fit m).1 = max (-x.limit) (min x.limit m) ∧ ((x.fit m).2 = true ↔ x.limit < m ∨ m < -x.limit) := by
  have hpos : 0 ≤ x.limit := Int.sub_nonneg.mpr (one_le_pow₀ (by decide))
  by_cases hhi : x.limit < m
  · rw [CollDesc.fit, if_pos ⟨ha, hhi⟩]
    exact ⟨by rw [CollDesc.sval_within h (by omega) le_rfl]; omega, by simp [hhi]⟩
  · by_cases hlo : m < -x.limit
    · rw [CollDesc.fit, if_neg (fun hc => hhi hc.2), if_pos ⟨ha, hlo⟩]
      exact ⟨by rw [CollDesc.sval_within h le_rfl (by omega)]; omega, by simp [hlo]⟩
    · obtain ⟨hval, hsat⟩ := CollDesc.fit_within h (Int.not_lt.mp hlo) (Int.not_lt.mp hhi)
      rw [hval, hsat]
      exact ⟨by omega, by simp [hhi, hlo]⟩

/-- An anchored sum adds integers exactly within the form's range. -/
theorem CollDesc.joinElem_adds {p q : Nat} (hlo : -x.limit ≤ sval x.tbits p + sval x.tbits q)
    (hhi : sval x.tbits p + sval x.tbits q ≤ x.limit) :
    sval x.tbits (x.joinElem p q).1 = sval x.tbits p + sval x.tbits q ∧ (x.joinElem p q).2 = false := by
  rw [CollDesc.joinElem, if_pos h]
  exact CollDesc.fit_within h hlo hhi

end

/-! ### The start -/

/-- A descriptor that fails its checks is answered in its status word, by its object and by the fault. -/
theorem Dev.collBegin_refused {d : Dev} {c sl : Nat} {x : CollDesc} {nodes perm : List Nat} (hok : d.collOk sl x nodes perm = false)
    (hrepro : (d.rb (Reg.JOB_PROFILE sl) 0 && x.sums && !x.repro) = false) {y : Coll} (hy : y = d.newColl c sl x nodes perm) :
    d.collBegin c sl x nodes perm = ((((d.xchShow sl 0x0408 0).collStatus sl y true false 0x0408).donePost sl 60 x.so 1 true).collRaise
      c 8 (y.fault 0x0408 c 0 0)) := by
  subst hy
  rw [Dev.collBegin, if_neg (by rw [hrepro]; exact Bool.false_ne_true), if_neg (by rw [hok]; exact Bool.false_ne_true)]

end Sys2Proof.Machine

section

open Sys2Proof Sys2Proof.Machine Sys2Proof.Safety

/-- Settles O37. -/
theorem receivingMessages : Obligations.ReceivingMessages := by
  refine ⟨fun w s d ws hw hi hdesc hkind => ⟨fun h => xrecvReceive_waits (y := recvWaitOf d w (s.dev.core w.core).slotN ws) hw hi hdesc rfl hkind rfl h,
      fun m hm hwhole htag => ⟨fun h2 => ?_, fun h0 hcode => ?_, fun h1 hnew hok => ?_⟩⟩,
    fun c rd q kind axis limit tag s hw hwait hlate => xrecvTimeout_raises hw hwait hlate,
    fun c sl x s hw hwait hcoll hslot hlate => xrecvTimeout_aborts hw hwait hcoll hslot hlate,
    fun w s hw hi hnamed hpool => xrecvBind_binds hw hi rfl rfl rfl hnamed hpool,
    fun w s d bs hw hi hva hload => xtag_writes hw hi hva hload,
    fun c desc sender sl tag s hw hslot hruns hnew hother => ?_,
    fun d d1 sl c desc tag sender bs h => Dev.abortSteps_acts (w := fun i => (leWords 8 10 bs).getD i 0) h rfl,
    fun c desc sender sl tag x s hw hslot hruns hnew hwait hcoll htag =>
      abortMessageArrival_mine hw hslot hruns hnew hwait hcoll htag,
    fun x m h ha => CollDesc.fit_saturates h ha, fun x p q h _ _ hlo hhi => CollDesc.joinElem_adds h hlo hhi,
    fun d c sl x nodes perm hok hrepro => Dev.collBegin_refused hok hrepro rfl,
    fun d c sl x hwait hcoll hslot => ⟨Dev.collEnd_waits hwait hcoll hslot, Dev.collEnd_ends hwait hcoll hslot,
      Dev.collCommit_done hwait hcoll hslot⟩⟩
  · exact xrecvReceive_data (y := recvWaitOf d w (s.dev.core w.core).slotN ws) hw hi hdesc rfl hkind rfl hm rfl hwhole htag rfl (fun h => absurd (h.symm.trans h2) (by decide))
      (fun h => absurd (h.symm.trans h2) (by decide))
  · exact xrecvReceive_bin (y := recvWaitOf d w (s.dev.core w.core).slotN ws) hw hi hdesc rfl hkind rfl hm rfl hwhole htag rfl h0 hcode
  · exact xrecvReceive_chunk (y := recvWaitOf d w (s.dev.core w.core).slotN ws) hw hi hdesc rfl hkind rfl hm rfl hwhole htag rfl h1 rfl hnew hok rfl rfl
  · have hdoes := abortMessageArrival_other hw hslot hruns hnew hother
    rw [Dev.abortShown_step] at hdoes
    exact ⟨_, hdoes, s.dev.abortShown_shows sl tag.toNat sender⟩

end
end
